-- ==== Sys2Proof/Word.lean ====
section
/-! DEFINITION. The words of the machine: 40-bit words are the unit of every address and register (R8), bytes the unit
of links and messages. -/

namespace Sys2Proof

/-- A word of 40 bits (R8). -/
abbrev Word := BitVec 40

/-- A byte of a link, frame or message. -/
abbrev Byte := BitVec 8

end Sys2Proof
end

