-- ==== Sys2Proof/Syntax.lean ====
section
/-! DEFINITION. The commands of the block: one constructor of `Instr` for each row of spec/opcode_table.json, with the
operands the row needs. A command that stands for an event of the surroundings carries the facts of that event. -/

namespace Sys2Proof

/-- The identity an access carries (R503, R504). -/
inductive Who where
  | secure | crest | crestStandby | hypervisor
  | vm (v : Fin 16)
  /-- A system initiator of R507. -/
  | system
  deriving DecidableEq, Repr

/-- A core of the device (R318). -/
inductive CoreId where
  | crest (k : Fin 3)
  | app (k : Fin 8)
  | engine (e : Fin 512)
  deriving DecidableEq, Repr

/-- A general register g0 to g31 (R320). -/
abbrev GReg := Fin 32

/-- What a read finds in a container beyond the data: nothing, a single-bit error, an uncorrectable error (R147, R148).
The environment's fact, carried by the command that reads. -/
inductive Flaw where
  | sound | single | double
  deriving DecidableEq, Repr

/-- What a patrol scrubber walks over (R151, R284). -/
inductive Scrubbed where
  | dram | secureSram | retentionSram
  | ridgeStore (r : Fin 16)
  | localMem (e : Fin 512)
  deriving DecidableEq, Repr

/-- What a receiver sees of a frame: when its SOF reaches the end's lands, from the instant at which the ring cycle began, in units of
2^-3 ns (R190, R196); the bytes after the SOF up to the EOF; the code violations in it; and whether the EOF came (R175, R178). A
violation in idle is one of a frame without bytes (R168). -/
structure RxFrame where
  arr : Nat
  bytes : List Byte
  viol : Nat
  eof : Bool
  deriving DecidableEq, Repr

/-- What a receiver sees of a guard minislot (R182), its arrival as for a frame. -/
structure RxGd where
  arr : Nat
  pos : Byte
  flags : Byte
  crc : Byte
  viol : Nat
  deriving DecidableEq, Repr

/-- The header of a peer frame, and whether it came on a declared port and VID (R718, R719). -/
structure PeerHdr where
  declared : Bool
  version : Byte
  tag : BitVec 16
  src : BitVec 16
  dst : BitVec 16
  lc : Word
  seq : BitVec 32
  deriving DecidableEq, Repr

/-- What a debugger writes through a core (R498). -/
inductive DbgTarget where
  | gpr (r : GReg)
  | cr (n : Fin 128)
  | pc
  | mem (a : BitVec 34)
  deriving DecidableEq, Repr

/-- What a boot meets (R115, R117, R120): the straps BOOTMODE1 and BOOTMODE0, the Crest cores that pass their self-test, and the
step of R118 up to step 7 that fails, 0 for none. -/
structure BootFacts where
  straps : BitVec 2
  selftest : BitVec 3
  fail : Fin 8
  /-- VNOR is good at a step 2 that fails. -/
  vnor : Bool := true
  deriving DecidableEq, Repr

/-- What a receiver saw as it lost alignment (R169): the code violations, and whether it still detects signal. -/
structure AlignmentLoss where
  viol : Nat
  signal : Bool
  deriving DecidableEq, Repr

/-- What the load dies meet at a sample instant: by channel, what its sense reads, as (channel, CODE, CLAMP,
SAT); the dies that do not answer; and by die, the temperature in °C and the supply in mV that it measures, where they have
changed (R455, R466, R478). -/
structure LoadFacts where
  sense : List (Fin 64 × Nat × Bool × Bool)
  mute : List (Fin 4)
  supply : List (Fin 4 × BitVec 8 × BitVec 16) := []
  deriving DecidableEq, Repr

/-- What a sample instant meets: the load dies, the means of the declared analogue inputs, the levels of DIN0 to DIN15 (R22, R679),
and the containers that a bit error has hit since the last one, by physical address, or in an engine's local memory (R147, R148). -/
structure SiFacts where
  loads : LoadFacts
  ai : List (Fin 16 × Word)
  din : BitVec 16
  hits : List (BitVec 34) := []
  localHits : List (Fin 512 × BitVec 12) := []
  deriving DecidableEq, Repr

/-- A frame that arrives in a burst (R84). -/
inductive BurstRx where
  | cs (k : Fin 16) (endB : Bool) (f : RxFrame)
  | gd (k : Fin 16) (endB : Bool) (g : RxGd)
  | ms (k : Fin 16) (endB : Bool) (f : RxFrame)
  | ax (k : Fin 16) (endB : Bool) (f : RxFrame)
  | dmReq (k : Fin 16) (endB : Bool) (f : RxFrame)
  | dmRsp (k : Fin 16) (endB : Bool) (f : RxFrame) (rtt : Nat)
  | dmAcc (k : Fin 16) (endB : Bool) (f : RxFrame)
  deriving DecidableEq, Repr

/-- How a message reaches the device (R627): 0 UDP over IPv4, 1 UDP over IPv6, 2 raw EtherType; the EP port, and the VLAN, 0 for an
untagged frame. -/
structure Via where
  transport : Fin 3
  port : Fin 8
  vlan : Fin 4096
  deriving DecidableEq, Repr

/-- The commands, one constructor a row of spec/opcode_table.json. -/
inductive Instr where
  /-- VIN_START -/
  | vinStart (b : BootFacts)
  /-- VIN_LOSS -/
  | vinLoss
  /-- VHOLD_EXHAUSTED -/
  | vholdExhausted
  /-- RAIL_FAILURE -/
  | railFailure (r : Fin 25)
  /-- CLOCK_SOURCE_TIMEOUT -/
  | clockSourceTimeout (c : Fin 8)
  /-- RESET_N_PULSE -/
  | resetNPulse (b : BootFacts)
  /-- VAO_RECOVERY -/
  | vaoRecovery (b : BootFacts)
  /-- LOCKOUT_RESET -/
  | lockoutReset (b : BootFacts)
  /-- SERVICE_LEVEL_FALL -/
  | serviceLevelFall
  /-- SERVICE_LEVEL_RISE -/
  | serviceLevelRise (fail : Bool)
  /-- PWR_CMD_ENTER_NIGHT -/
  | pwrCmdEnterNight (who : Who)
  /-- PWR_CMD_SHUTDOWN -/
  | pwrCmdShutdown (who : Who)
  /-- POWER_COMMAND_COMMIT -/
  | powerCommandCommit
  /-- DUSK_START -/
  | duskStart
  /-- DUSK_COMPLETE -/
  | duskComplete (b : BootFacts)
  /-- NIGHT_BURST -/
  | nightBurst (frames : List BurstRx) (x : LoadFacts)
  /-- WAKE_SOURCE_ACTIVE -/
  | wakeSourceActive (src : BitVec 12)
  /-- DAWN_COMPLETE -/
  | dawnComplete (fail : Fin 7)
  /-- GATE_CLOCK -/
  | gateClock (who : Who) (block : Byte)
  /-- GATE_UNGATE -/
  | gateUngate (who : Who) (block : Byte)
  /-- GATE_POWER_OFF -/
  | gatePowerOff (who : Who) (block : Byte)
  /-- GATE_POWER_ON -/
  | gatePowerOn (who : Who) (block : Byte)
  /-- RESET_COMMAND_COMMIT -/
  | resetCommandCommit
  /-- CHECKPOINT_DUE -/
  | checkpointDue
  /-- CHECKPOINT_COMMIT -/
  | checkpointCommit
  /-- PATROL_SCRUB -/
  | patrolScrub (m : Scrubbed) (flaw : Flaw)
  /-- NOR_ERASE -/
  | norErase (who : Who)
  /-- NOR_PROGRAM -/
  | norProgram (who : Who)
  /-- NOR_ABORT -/
  | norAbort (who : Who)
  /-- NOR_OPERATION_DONE -/
  | norOperationDone (ok : Bool)
  /-- SAMPLE_INSTANT -/
  | sampleInstant (x : SiFacts)
  /-- DEBUG_RESET -/
  | debugReset (b : BootFacts)
  /-- CLOCK_SOURCE_LOST -/
  | clockSourceLost (c : Fin 8)
  /-- RAIL_RECOVERY -/
  | railRecovery (r : Fin 25)
  /-- LG_READY_CHANGE -/
  | lgReadyChange (mv : BitVec 16)
  /-- RING_CYCLE_START -/
  | ringCycleStart
  /-- ALIGNMENT_ACQUIRED -/
  | alignmentAcquired (p : Fin 16)
  /-- ALIGNMENT_LOST -/
  | alignmentLost (p : Fin 16) (seen : AlignmentLoss)
  /-- RX_CS -/
  | rxCs (k : Fin 16) (endB : Bool) (f : RxFrame)
  /-- RX_GD -/
  | rxGd (k : Fin 16) (endB : Bool) (g : RxGd)
  /-- RX_MS -/
  | rxMs (k : Fin 16) (endB : Bool) (f : RxFrame)
  /-- RX_AX -/
  | rxAx (k : Fin 16) (endB : Bool) (f : RxFrame)
  /-- RX_DY_RESPONSE -/
  | rxDyResponse (k : Fin 16) (endB : Bool) (f : RxFrame)
  /-- RX_CL -/
  | rxCl (k : Fin 16) (endB : Bool) (f : RxFrame)
  /-- RX_DM_REQ -/
  | rxDmReq (k : Fin 16) (endB : Bool) (f : RxFrame)
  /-- RX_DM_RSP -/
  | rxDmRsp (k : Fin 16) (endB : Bool) (f : RxFrame) (rtt : Nat)
  /-- RX_DM_ACC -/
  | rxDmAcc (k : Fin 16) (endB : Bool) (f : RxFrame)
  /-- RX_SU_CLAIM -/
  | rxSuClaim (k : Fin 16) (endB : Bool) (f : RxFrame)
  /-- RX_SU_SLEEP -/
  | rxSuSleep (k : Fin 16) (endB : Bool) (f : RxFrame)
  /-- RX_SU_RECLAIM -/
  | rxSuReclaim (k : Fin 16) (endB : Bool) (f : RxFrame)
  /-- COMMAND_NO_ACK -/
  | commandNoAck (k : Fin 16) (p : Fin 160)
  /-- VNK_CMD_GO -/
  | vnkCmdGo (who : Who) (k : Fin 16) (v : Word)
  /-- VNK_START -/
  | vnkStart (who : Who)
  /-- DY_DESCRIPTOR_SUBMIT -/
  | dyDescriptorSubmit (who : Who) (k : Fin 16) (tail : Fin 64)
  /-- DY_NO_RESPONSE -/
  | dyNoResponse (k : Fin 16)
  /-- CLOSED_RING_JUDGE -/
  | closedRingJudge (k : Fin 16)
  /-- COLD_START_LISTEN_END -/
  | coldStartListenEnd (k : Fin 16)
  /-- COLD_START_BACKOFF_END -/
  | coldStartBackoffEnd (k : Fin 16)
  /-- COLD_START_CLAIM_END -/
  | coldStartClaimEnd (k : Fin 16)
  /-- ASSIGN_TIMEOUT -/
  | assignTimeout (k : Fin 16) (p : Fin 160)
  /-- RX_COMMAND_MIRROR -/
  | rxCommandMirror (k : Fin 16) (hdr : PeerHdr) (late : Bool) (frames : List (List Byte))
  /-- RX_RELAY -/
  | rxRelay (k : Fin 16) (hdr : PeerHdr) (ba gd : Bool) (bytes : List Byte)
  /-- LEADER_PORT_LOSS -/
  | leaderPortLoss (k : Fin 16)
  /-- LEADERLESS_TAKEOVER -/
  | leaderlessTakeover (k : Fin 16)
  /-- CLAIM_DECISION -/
  | claimDecision (k : Fin 16)
  /-- SPARE_RELEASE_MARK -/
  | spareReleaseMark (who : Who) (k s : Fin 16)
  /-- SPARE_RELEASE_EXPIRE -/
  | spareReleaseExpire (k s : Fin 16)
  /-- RING_BREAK -/
  | ringBreak (k : Fin 16) (endB : Bool)
  /-- RING_BREAK_CLEAR -/
  | ringBreakClear (k : Fin 16)
  /-- NODE_MISSING -/
  | nodeMissing (k : Fin 16) (p : Fin 160)
  /-- NODE_REASSIGN -/
  | nodeReassign (k : Fin 16) (p : Fin 160)
  /-- PORT_ERROR_BLOCK -/
  | portErrorBlock (p : Fin 16)
  /-- SNP_CLOSURE -/
  | snpClosure (n : Nat)
  /-- SNP_CAL_DATA_WRITE -/
  | snpCalDataWrite (who : Who) (v : Word)
  /-- SNP_CALQ_GO -/
  | snpCalqGo (who : Who) (entry : Fin 65536)
  /-- WINDOW_START -/
  | windowStart (who : Who)
  /-- WINDOW_STOP -/
  | windowStop (who : Who)
  /-- WINDOW_CLEAR -/
  | windowClear (who : Who)
  /-- TASK_DISPATCH_STEP -/
  | taskDispatchStep (g : Fin 17744) (run : Bool)
  /-- TASK_DISPATCH_ROLLBACK -/
  | taskDispatchRollback (g : Fin 17744) (run : Bool)
  /-- TASK_DISPATCH_RELEASE -/
  | taskDispatchRelease (g : Fin 17744) (run : Bool)
  /-- TASK_DISPATCH_AUDIT -/
  | taskDispatchAudit (e : Fin 512) (run : Bool) (odd : Option Word)
  /-- TASK_DISPATCH_INSTANCE -/
  | taskDispatchInstance (e : Fin 512) (i : Fin 16)
  /-- TASK_DISPATCH_SELFTEST -/
  | taskDispatchSelftest (e : Fin 512) (run pass : Bool)
  /-- REDUCTION_COMPUTE -/
  | reductionCompute (g : Fin 17744)
  /-- COMMIT_CYCLE -/
  | commitCycle
  /-- MIGRATE_PAGE -/
  | migratePage (who : Who) (page : Fin 32768) (engine : Fin 512)
  /-- RETURN_PAGE_HOME -/
  | returnPageHome (who : Who) (page : Fin 32768)
  /-- QUARANTINE_ENGINE -/
  | quarantineEngine (who : Who) (engine : Fin 512)
  /-- MIGRATION_COPY_DONE -/
  | migrationCopyDone (g : Fin 17744)
  /-- REBUILD_DONE -/
  | rebuildDone (g : Fin 17744)
  /-- STEP_TIMEOUT -/
  | stepTimeout (e : Fin 512)
  /-- AUDIT_START -/
  | auditStart (g : Fin 17744) (lc : Nat)
  /-- ISLAND_AUTO_OFF -/
  | islandAutoOff
  /-- ISLAND_POWER_ON -/
  | islandPowerOn (r : Fin 16)
  /-- ABSENT_MARKING -/
  | absentMarking (n : Nat)
  /-- EXT_IN -/
  | extIn (c : Fin 256) (lc : Nat) (v st : Word)
  /-- LT_CFG_WRITE -/
  | ltCfgWrite (who : Who) (w : Word)
  /-- JOURNAL_EXPORT_DATAGRAM -/
  | journalExportDatagram (n : Fin 290)
  /-- EXPORT_RETRANSMIT_REQUEST -/
  | exportRetransmitRequest (src : Nat) (jpos : Word) (n : Fin 65536)
  /-- SWITCH_CANCEL -/
  | switchCancel (fmc : Bool)
  /-- MICROCODE_SWITCH -/
  | microcodeSwitch
  /-- BALANCING_DECISION -/
  | balancingDecision
  /-- ADD -/
  | add (c : CoreId) (rd rs1 rs2 : GReg)
  /-- SUB -/
  | sub (c : CoreId) (rd rs1 rs2 : GReg)
  /-- ADDS -/
  | adds (c : CoreId) (rd rs1 rs2 : GReg)
  /-- SUBS -/
  | subs (c : CoreId) (rd rs1 rs2 : GReg)
  /-- AND -/
  | and (c : CoreId) (rd rs1 rs2 : GReg)
  /-- OR -/
  | or (c : CoreId) (rd rs1 rs2 : GReg)
  /-- XOR -/
  | xor (c : CoreId) (rd rs1 rs2 : GReg)
  /-- ANDN -/
  | andn (c : CoreId) (rd rs1 rs2 : GReg)
  /-- SHL -/
  | shl (c : CoreId) (rd rs1 rs2 : GReg)
  /-- SHR -/
  | shr (c : CoreId) (rd rs1 rs2 : GReg)
  /-- ASR -/
  | asr (c : CoreId) (rd rs1 rs2 : GReg)
  /-- LT -/
  | lt (c : CoreId) (rd rs1 rs2 : GReg)
  /-- LTU -/
  | ltu (c : CoreId) (rd rs1 rs2 : GReg)
  /-- MIN -/
  | min (c : CoreId) (rd rs1 rs2 : GReg)
  /-- MAX -/
  | max (c : CoreId) (rd rs1 rs2 : GReg)
  /-- MINU -/
  | minu (c : CoreId) (rd rs1 rs2 : GReg)
  /-- MAXU -/
  | maxu (c : CoreId) (rd rs1 rs2 : GReg)
  /-- MUL -/
  | mul (c : CoreId) (rd rs1 rs2 : GReg)
  /-- MULHI -/
  | mulhi (c : CoreId) (rd rs1 rs2 : GReg)
  /-- MULHIU -/
  | mulhiu (c : CoreId) (rd rs1 rs2 : GReg)
  /-- DIV -/
  | div (c : CoreId) (rd rs1 rs2 : GReg)
  /-- DIVU -/
  | divu (c : CoreId) (rd rs1 rs2 : GReg)
  /-- REM -/
  | rem (c : CoreId) (rd rs1 rs2 : GReg)
  /-- REMU -/
  | remu (c : CoreId) (rd rs1 rs2 : GReg)
  /-- CLZ -/
  | clz (c : CoreId) (rd rs1 : GReg)
  /-- POPC -/
  | popc (c : CoreId) (rd rs1 : GReg)
  /-- ABSS -/
  | abss (c : CoreId) (rd rs1 : GReg)
  /-- BEXT -/
  | bext (c : CoreId) (rd rs1 rs2 : GReg)
  /-- BINS -/
  | bins (c : CoreId) (rd rs1 rs2 : GReg)
  /-- BEXTI -/
  | bexti (c : CoreId) (rd rs1 : GReg) (idx : Fin 8)
  /-- BINSI -/
  | binsi (c : CoreId) (rd rs1 : GReg) (idx : Fin 8)
  /-- ADDK -/
  | addk (c : CoreId) (rd rs1 : GReg) (imm : BitVec 24)
  /-- LTK -/
  | ltk (c : CoreId) (rd rs1 : GReg) (imm : BitVec 24)
  /-- LTKU -/
  | ltku (c : CoreId) (rd rs1 : GReg) (imm : BitVec 24)
  /-- ANDK -/
  | andk (c : CoreId) (rd rs1 : GReg) (imm : BitVec 24)
  /-- IORK -/
  | iork (c : CoreId) (rd rs1 : GReg) (imm : BitVec 24)
  /-- XORK -/
  | xork (c : CoreId) (rd rs1 : GReg) (imm : BitVec 24)
  /-- SHK -/
  | shk (c : CoreId) (rd rs1 : GReg) (imm : BitVec 24)
  /-- HIK -/
  | hik (c : CoreId) (rd rs1 : GReg) (imm : BitVec 24)
  /-- PCREL -/
  | pcrel (c : CoreId) (rd : GReg) (imm : BitVec 24)
  /-- MACS -/
  | macs (c : CoreId) (a : Fin 4) (rs1 rs2 : GReg)
  /-- MSUBS -/
  | msubs (c : CoreId) (a : Fin 4) (rs1 rs2 : GReg)
  /-- MACU -/
  | macu (c : CoreId) (a : Fin 4) (rs1 rs2 : GReg)
  /-- MAC2 -/
  | mac2 (c : CoreId) (a : Fin 4) (rs1 rs2 : GReg)
  /-- MSUB2 -/
  | msub2 (c : CoreId) (a : Fin 4) (rs1 rs2 : GReg)
  /-- ACLR -/
  | aclr (c : CoreId) (a : Fin 4)
  /-- ALD -/
  | ald (c : CoreId) (a : Fin 4) (rs1 : GReg) (sh : Fin 128)
  /-- AADD -/
  | aadd (c : CoreId) (a b : Fin 4)
  /-- ASUB -/
  | asub (c : CoreId) (a b : Fin 4)
  /-- ASRA -/
  | asra (c : CoreId) (a : Fin 4) (sh : Fin 128)
  /-- AGET -/
  | aget (c : CoreId) (rd : GReg) (a : Fin 4) (sh : Fin 128)
  /-- APUT -/
  | aput (c : CoreId) (a : Fin 4) (rs1 : GReg) (sh : Fin 128)
  /-- NRWS -/
  | nrws (c : CoreId) (rd : GReg) (a : Fin 4) (sh : Fin 128)
  /-- NRWW -/
  | nrww (c : CoreId) (rd : GReg) (a : Fin 4) (sh : Fin 128)
  /-- NRWU -/
  | nrwu (c : CoreId) (rd : GReg) (a : Fin 4) (sh : Fin 128)
  /-- FMULS -/
  | fmuls (c : CoreId) (rd rs1 rs2 : GReg) (sh : Fin 128)
  /-- FMULW -/
  | fmulw (c : CoreId) (rd rs1 rs2 : GReg) (sh : Fin 128)
  /-- DIVR -/
  | divr (c : CoreId) (rd rs1 rs2 : GReg) (sh : Fin 128)
  /-- RSHR -/
  | rshr (c : CoreId) (rd rs1 : GReg) (sh : Fin 128)
  /-- LD -/
  | ld (c : CoreId) (rd rs1 : GReg) (imm : BitVec 24) (flaw : Flaw)
  /-- ST -/
  | st (c : CoreId) (rd rs1 : GReg) (imm : BitVec 24)
  /-- CAS -/
  | cas (c : CoreId) (rd rs1 rs2 : GReg) (flaw : Flaw)
  /-- SWAP -/
  | swap (c : CoreId) (rd rs1 rs2 : GReg) (flaw : Flaw)
  /-- XADD -/
  | xadd (c : CoreId) (rd rs1 rs2 : GReg) (flaw : Flaw)
  /-- LDP -/
  | ldp (c : CoreId) (rd rs1 : GReg) (imm : BitVec 24) (flaw : Flaw)
  /-- STP -/
  | stp (c : CoreId) (rd rs1 : GReg) (imm : BitVec 24)
  /-- LDTG -/
  | ldtg (c : CoreId) (rd rs1 : GReg) (imm : BitVec 24) (flaw : Flaw)
  /-- JEQ -/
  | jeq (c : CoreId) (rd rs1 : GReg) (imm : BitVec 24)
  /-- JNE -/
  | jne (c : CoreId) (rd rs1 : GReg) (imm : BitVec 24)
  /-- JLT -/
  | jlt (c : CoreId) (rd rs1 : GReg) (imm : BitVec 24)
  /-- JGE -/
  | jge (c : CoreId) (rd rs1 : GReg) (imm : BitVec 24)
  /-- JLTU -/
  | jltu (c : CoreId) (rd rs1 : GReg) (imm : BitVec 24)
  /-- JGEU -/
  | jgeu (c : CoreId) (rd rs1 : GReg) (imm : BitVec 24)
  /-- CALL -/
  | call (c : CoreId) (rd : GReg) (imm : BitVec 24)
  /-- CALLR -/
  | callr (c : CoreId) (rd rs1 : GReg) (imm : BitVec 24)
  /-- CRRD -/
  | crrd (c : CoreId) (rd : GReg) (cr : Fin 128)
  /-- CRXW -/
  | crxw (c : CoreId) (rd rs1 : GReg) (cr : Fin 128)
  /-- CRSB -/
  | crsb (c : CoreId) (rd rs1 : GReg) (cr : Fin 128)
  /-- CRCB -/
  | crcb (c : CoreId) (rd rs1 : GReg) (cr : Fin 128)
  /-- TRAP1 -/
  | trap1 (c : CoreId)
  /-- TRAP2 -/
  | trap2 (c : CoreId)
  /-- TRAP3 -/
  | trap3 (c : CoreId)
  /-- RETT -/
  | rett (c : CoreId)
  /-- IDLE -/
  | idle (c : CoreId)
  /-- DSTOP -/
  | dstop (c : CoreId)
  /-- ORDER -/
  | order (c : CoreId)
  /-- ORDER_X -/
  | orderX (c : CoreId)
  /-- XFL_VA -/
  | xflVa (c : CoreId) (rs1 : GReg)
  /-- XFL_AS -/
  | xflAs (c : CoreId) (rs1 : GReg)
  /-- XFL_ALL -/
  | xflAll (c : CoreId)
  /-- XFL_IPA -/
  | xflIpa (c : CoreId) (rs1 : GReg)
  /-- XFL_VM -/
  | xflVm (c : CoreId) (rs1 : GReg)
  /-- PSR -/
  | psr (c : CoreId) (rs1 rs2 : GReg) (tgt : Fin 8) (len : BitVec 12)
  /-- PSW -/
  | psw (c : CoreId) (rs1 rs2 : GReg) (tgt : Fin 8) (len : BitVec 12)
  /-- PWAIT -/
  | pwait (c : CoreId)
  /-- CKPT -/
  | ckpt (c : CoreId)
  /-- RBK -/
  | rbk (c : CoreId) (rd : GReg)
  /-- CMT -/
  | cmt (c : CoreId) (rd : GReg)
  /-- ENDT -/
  | endt (c : CoreId) (rd : GReg)
  /-- RDLC -/
  | rdlc (c : CoreId) (rd : GReg)
  /-- SIGR -/
  | sigr (c : CoreId) (rd : GReg)
  /-- THRESH_LOAD -/
  | threshLoad (k : Fin 16) (p : Fin 160) (kind : Fin 256) (ch : Fin 16)
  /-- THRESH_RETRY -/
  | threshRetry (k : Fin 16)
  /-- STOP_MESSAGE_REPEAT -/
  | stopMessageRepeat
  /-- WARNING_END -/
  | warningEnd (e : Fin 928)
  /-- MEAS_TIMEOUT -/
  | measTimeout (k : Fin 16) (p : Fin 160) (j : Fin 20)
  /-- LATCH_CLEAR -/
  | latchClear (who : Who) (e : Fin 928)
  /-- SAFE_ENTER -/
  | safeEnter (who : Who)
  /-- SAFE_EXIT -/
  | safeExit (who : Who)
  /-- TRIP_IN_CHANGE -/
  | tripInChange (i : Fin 2) (level : Bool)
  /-- CRS_TRIP_WRITE -/
  | crsTripWrite (who : Who) (v : Byte)
  /-- PENDING_ARM -/
  | pendingArm (who : Who)
  /-- PENDING_DISCARD -/
  | pendingDiscard (who : Who)
  /-- PENDING_APPLY -/
  | pendingApply
  /-- DIE_NOP -/
  | dieNop (d : Fin 4) (ch : Fin 16) (data : Word) (tag : Byte) (crcOk : Bool)
  /-- DIE_SET -/
  | dieSet (d : Fin 4) (ch : Fin 16) (data : Word) (tag : Byte) (crcOk : Bool)
  /-- DIE_CFG_CH -/
  | dieCfgCh (d : Fin 4) (ch : Fin 16) (data : Word) (tag : Byte) (crcOk : Bool)
  /-- DIE_CFG_DIE -/
  | dieCfgDie (d : Fin 4) (ch : Fin 16) (data : Word) (tag : Byte) (crcOk : Bool)
  /-- DIE_REFRESH -/
  | dieRefresh (d : Fin 4) (ch : Fin 16) (data : Word) (tag : Byte) (crcOk : Bool)
  /-- DIE_SAMPLE -/
  | dieSample (d : Fin 4) (ch : Fin 16) (data : Word) (tag : Byte) (crcOk : Bool)
  /-- DIE_CLEAR -/
  | dieClear (d : Fin 4) (ch : Fin 16) (data : Word) (tag : Byte) (crcOk : Bool)
  /-- DIE_STATUS -/
  | dieStatus (d : Fin 4) (ch : Fin 16) (data : Word) (tag : Byte) (crcOk : Bool)
  /-- LOAD_CMD_OFF -/
  | loadCmdOff (who : Who) (c : Fin 64) (line : Fin 8)
  /-- LOAD_CMD_ON -/
  | loadCmdOn (who : Who) (c : Fin 64) (line : Fin 8)
  /-- LOAD_CMD_FOLLOW -/
  | loadCmdFollow (who : Who) (c : Fin 64) (line : Fin 8)
  /-- LOAD_CMD_CLEAR -/
  | loadCmdClear (who : Who) (c : Fin 64) (line : Fin 8)
  /-- OVERCURRENT_EVENT -/
  | overcurrentEvent (c : Fin 64) (warm : Bool)
  /-- THERMAL_SHUTDOWN -/
  | thermalShutdown (c : Fin 64)
  /-- LAMP_RETRY_END -/
  | lampRetryEnd (c : Fin 64)
  /-- DIRECT_LINE_CHANGE -/
  | directLineChange (d : Fin 4) (l : Fin 8) (level : Bool) (us : Nat)
  /-- WATCHDOG_EXPIRE -/
  | watchdogExpire (d : Fin 4)
  /-- DIE_LOST -/
  | dieLost (d : Fin 4) (vls : Option (BitVec 16))
  /-- DIE_RESTORE -/
  | dieRestore (d : Fin 4)
  /-- DIE_VLS_RECOVER -/
  | dieVlsRecover (d : Fin 4) (vls : BitVec 16)
  /-- CREST_WINDOW_BOUNDARY -/
  | crestWindowBoundary
  /-- RESYNC_SELFTEST_DONE -/
  | resyncSelftestDone (pass : Bool)
  /-- MODE_DETACH -/
  | modeDetach (who : Who) (k : Fin 4)
  /-- MODE_HANDOVER -/
  | modeHandover (who : Who) (k : Fin 4)
  /-- MODE_JOIN -/
  | modeJoin (who : Who) (k : Fin 4)
  /-- MODE_RETIRE -/
  | modeRetire (who : Who) (k : Fin 4)
  /-- MODE_CANCEL -/
  | modeCancel (who : Who)
  /-- HANDOVER_TIMEOUT -/
  | handoverTimeout
  /-- CRS_ALIVE -/
  | crsAlive (who : Who) (token : BitVec 40)
  /-- ALIVE_LAPSE -/
  | aliveLapse
  /-- ALIVE_LAPSE_LIMIT -/
  | aliveLapseLimit
  /-- DEBUG_HALT -/
  | debugHalt (c : CoreId)
  /-- DEBUG_RESUME -/
  | debugResume (c : CoreId)
  /-- DEBUG_STEP -/
  | debugStep (c : CoreId)
  /-- DEBUGGER_WRITE -/
  | debuggerWrite (c : CoreId) (t : DbgTarget) (v : BitVec 40)
  /-- STREAM_COMPLETE -/
  | streamComplete (e : Fin 512)
  /-- UNIT_RELEASE -/
  | unitRelease (who : Who) (source : Bool) (id new : Nat)
  /-- UNIT_CLAIM -/
  | unitClaim (who : Who) (source : Bool) (id : Nat)
  /-- UNIT_RETURN -/
  | unitReturn (who : Who) (source : Bool) (id : Nat)
  /-- UNIT_HANDOVER_GRANT -/
  | unitHandoverGrant (source : Bool) (id abandoned : Nat)
  /-- VM_START -/
  | vmStart (who : Who) (v : Fin 16)
  /-- VM_STOP -/
  | vmStop (who : Who) (v : Fin 16)
  /-- VM_FATAL_FAULT -/
  | vmFatalFault (v : Fin 16)
  /-- VM_FIRST_CHANNEL_WRITE -/
  | vmFirstChannelWrite (v : Fin 16)
  /-- VM_START_TIMEOUT -/
  | vmStartTimeout (v : Fin 16)
  /-- VM_STOPPING_DONE -/
  | vmStoppingDone (v : Fin 16)
  /-- HP0_RETURN -/
  | hp0Return
  /-- SECURE_ENTRY_OVERRUN -/
  | secureEntryOverrun (k : Fin 8)
  /-- INTERRUPT_TAKE -/
  | interruptTake (c : CoreId)
  /-- IRQ_SET -/
  | irqSet (who : Who) (src : Fin 1024)
  /-- IRQ_CLR -/
  | irqClr (who : Who) (src : Fin 1024)
  /-- IDLE_WAKE -/
  | idleWake (c : CoreId)
  /-- MBX_DOORBELL -/
  | mbxDoorbell (who : Who) (n : Fin 64) (seq : BitVec 16) (tag : Byte) (len : BitVec 16)
  /-- MBX_ACK -/
  | mbxAck (who : Who) (n : Fin 64) (seq code : BitVec 16)
  /-- MBX_DONE_READ -/
  | mbxDoneRead (who : Who) (n : Fin 64)
  /-- CHANNEL_RELEASE -/
  | channelRelease (who : Who) (kind : Fin 4) (id : Fin 64) (new : Nat)
  /-- CHANNEL_CLAIM -/
  | channelClaim (who : Who) (kind : Fin 4) (id : Fin 64)
  /-- CHANNEL_RETURN -/
  | channelReturn (who : Who) (kind : Fin 4) (id : Fin 64)
  /-- FI_LOAD -/
  | fiLoad (i : Fin 16)
  /-- FI_RUN -/
  | fiRun (i : Fin 16)
  /-- FI_ITEM_DONE -/
  | fiItemDone (i : Fin 16)
  /-- FI_BUDGET_GAIN -/
  | fiBudgetGain
  /-- FI_TASK_TIMEOUT -/
  | fiTaskTimeout (e : Fin 512) (clocks : Nat)
  /-- FI_QUIESCE -/
  | fiQuiesce (who : Who) (i : Fin 16)
  /-- FI_DRAINED -/
  | fiDrained (i : Fin 16)
  /-- FI_RESET -/
  | fiReset (who : Who) (i : Fin 16)
  /-- FI_RESUME -/
  | fiResume (who : Who) (i : Fin 16)
  /-- FI_REMOVE -/
  | fiRemove (who : Who) (i : Fin 16)
  /-- FRAME_INGRESS -/
  | frameIngress (p : Fin 8) (head : List Byte)
  /-- FRAME_EOF -/
  | frameEof (p : Fin 8) (bytes : List Byte) (fcsOk codeErr : Bool)
  /-- EGRESS_FRAME_START -/
  | egressFrameStart (q : Fin 11)
  /-- EGRESS_FRAME_DONE -/
  | egressFrameDone (q : Fin 11)
  /-- LINK_UP -/
  | linkUp (p : Fin 8) (speedBad : Bool) (pins : BitVec 3)
  /-- LINK_DOWN -/
  | linkDown (p : Fin 8) (pins : BitVec 3)
  /-- RX_PAUSE_FRAME -/
  | rxPauseFrame (p : Fin 8) (q : BitVec 16) (addressed : Bool) (spent : BitVec 16)
  /-- PAUSE_EXPIRE -/
  | pauseExpire (p : Fin 8)
  /-- PRP_SUPERVISION_SEND -/
  | prpSupervisionSend
  /-- HP_TX_TAIL -/
  | hpTxTail (who : Who) (i : Fin 3) (tail : BitVec 13)
  /-- HP_RX_TAIL -/
  | hpRxTail (who : Who) (i : Fin 3) (tail : BitVec 13)
  /-- FDB_WRITE -/
  | fdbWrite (who : Who) (idx : Fin 16384)
  /-- FDB_READ -/
  | fdbRead (who : Who) (idx : Fin 16384)
  /-- FDB_INVALIDATE -/
  | fdbInvalidate (who : Who) (idx : Fin 16384)
  /-- MDIO_C22_WRITE -/
  | mdioC22Write (who : Who) (n : Fin 6) (reg : Fin 32) (data : BitVec 16)
  /-- MDIO_C22_READ -/
  | mdioC22Read (who : Who) (n : Fin 6) (reg : Fin 32)
  /-- MDIO_C45_WRITE -/
  | mdioC45Write (who : Who) (n : Fin 6) (devad : Fin 32) (addr data : BitVec 16)
  /-- MDIO_C45_READ -/
  | mdioC45Read (who : Who) (n : Fin 6) (devad : Fin 32) (addr : BitVec 16)
  /-- TWO_WIRE_WRITE -/
  | twoWireWrite (who : Who) (n : Fin 2) (hi : Bool) (addr data : Byte)
  /-- TWO_WIRE_READ -/
  | twoWireRead (who : Who) (n : Fin 2) (hi : Bool) (addr : Byte)
  /-- MGMT_DONE -/
  | mgmtDone (n : Fin 8) (ack : Bool) (data : BitVec 16)
  /-- TIME_SAMPLE_SUBMIT -/
  | timeSampleSubmit (who : Who) (lo : Word)
  /-- EPOCH_START -/
  | epochStart
  /-- SYNC_TIMEOUT -/
  | syncTimeout
  /-- CAPTURE_EDGE -/
  | captureEdge (edges : List (Fin 19 × Bool))
  /-- CAPTURE_POP -/
  | capturePop (who : Who)
  /-- PPS_OUT_EDGE -/
  | ppsOutEdge
  /-- TIM_PERIOD_START -/
  | timPeriodStart (k : Fin 16)
  /-- LEAP_SECOND_END -/
  | leapSecondEnd
  /-- ANNOUNCE_TIMEOUT -/
  | announceTimeout (peer : Fin 256)
  /-- HOLDOVER_ANNOUNCE_STOP -/
  | holdoverAnnounceStop
  /-- CAL_QUERY -/
  | calQuery (date : Word)
  /-- CAL_WAKE_APPLY -/
  | calWakeApply (date : Word)
  /-- TIME80_LO_READ -/
  | time80LoRead (who : Who) (pair : Fin 3)
  /-- HELLO -/
  | hello (src : Nat) (via : Via) (msg : List Byte)
  /-- FINISH -/
  | finish (src : Nat) (msg : List Byte)
  /-- HANDSHAKE_TIMEOUT -/
  | handshakeTimeout (id : BitVec 32)
  /-- KOP_CLOSE -/
  | kopClose (src : Nat) (msg : List Byte)
  /-- SESSION_IDLE_TIMEOUT -/
  | sessionIdleTimeout (id : BitVec 32)
  /-- KOP_READ -/
  | kopRead (id oid : BitVec 32)
  /-- KOP_WRITE -/
  | kopWrite (id oid : BitVec 32) (type : Byte) (value : List Byte)
  /-- KOP_WRITE_LC -/
  | kopWriteLc (id oid : BitVec 32) (lc : Word) (type : Byte) (value : List Byte)
  /-- KOP_DESCRIBE -/
  | kopDescribe (id oid : BitVec 32)
  /-- KOP_NEXT -/
  | kopNext (id oid : BitVec 32)
  /-- REQUEST_TIMEOUT -/
  | requestTimeout (id : BitVec 32)
  /-- KOP_REQUEST -/
  | kopRequest (src : Nat) (msg : List Byte)
  /-- CAN_MODE_OFF -/
  | canModeOff (who : Who) (n : Fin 4) (sending : Bool)
  /-- CAN_MODE_BUS -/
  | canModeBus (who : Who) (n : Fin 4)
  /-- CAN_MODE_SLEEP -/
  | canModeSleep (who : Who) (n : Fin 4) (sending : Bool)
  /-- CAN_RECOVER -/
  | canRecover (who : Who) (n : Fin 4)
  /-- CAN_ABORT -/
  | canAbort (who : Who) (n : Fin 4) (sending : Bool)
  /-- CAN_TX_PUSH -/
  | canTxPush (who : Who) (n : Fin 4) (tag : Byte)
  /-- CAN_RX_POP -/
  | canRxPop (who : Who) (n : Fin 4) (q : Fin 2)
  /-- CAN_FRAME_RECEIVED -/
  | canFrameReceived (n : Fin 4) (hdr : Word) (data : List Byte) (eofErr : Bool)
  /-- CAN_FRAME_SENT -/
  | canFrameSent (n : Fin 4)
  /-- CAN_ERROR_STATE_CHANGE -/
  | canErrorStateChange (n : Fin 4) (tec rc : Fin 512)
  /-- CAN_BUS_OFF_RECOVERED -/
  | canBusOffRecovered (n : Fin 4)
  /-- STREAM_PDU_CLOSE -/
  | streamPduClose (k : Fin 4)
  /-- STREAM_RX_DESCRIPTOR -/
  | streamRxDescriptor
  /-- SELECTIVE_WAKE_FRAME -/
  | selectiveWakeFrame (n : Fin 4) (hdr : Word) (data : List Byte)
  /-- WAKE_FEC_OVERFLOW -/
  | wakeFecOverflow (n : Fin 4)
  /-- PROXY_SEGMENT -/
  | proxySegment (n : Fin 4) (hdr : Word) (data : List Byte)
  /-- PROXY_TIMEOUT -/
  | proxyTimeout (i : Fin 256)
  /-- WAKE_VALIDATION_CLOSE -/
  | wakeValidationClose (high : BitVec 12)
  /-- WAKE_BACKOFF_END -/
  | wakeBackoffEnd (s : Fin 9)
  /-- WAKE_BACKOFF_CLEAR -/
  | wakeBackoffClear (who : Who) (s : Fin 9)
  /-- DI_DEBOUNCED_CHANGE -/
  | diDebouncedChange (i : Fin 32) (level : Bool)
  /-- CAN_BUS_ERROR -/
  | canBusError (n : Fin 4) (lec : Fin 8) (tx eof : Bool) (up : Fin 9)
  /-- LOST_ARBITRATION -/
  | lostArbitration (n : Fin 4)
  /-- WAKE_DECODER_FRAME -/
  | wakeDecoderFrame (n : Fin 4) (bad : Bool)
  /-- WAKE_LINE_RISE -/
  | wakeLineRise
  /-- STAGE_OPEN -/
  | stageOpen (role : Fin 5) (v : BitVec 16)
  /-- STAGE_DATA -/
  | stageData (role : Fin 5) (ofs : Word) (ws : List Word)
  /-- STAGE_CLOSE -/
  | stageClose (role : Fin 5)
  /-- ACTIVATE -/
  | activate (role : Fin 5) (v : BitVec 16) (lc : Word)
  /-- ACTIVATE_CHECK -/
  | activateCheck
  /-- MC_LOAD -/
  | mcLoad (who : Who)
  /-- MC_DECLARE -/
  | mcDeclare (who : Who)
  /-- MC_CANCEL -/
  | mcCancel (who : Who)
  /-- CONFIG_SWITCH -/
  | configSwitch
  /-- INSTALL -/
  | install (role : Fin 5) (mask : BitVec 16)
  /-- IMAGE_PROVEN -/
  | imageProven (type : Fin 8) (slot : Fin 16)
  /-- ACTIVE_COPY -/
  | activeCopy (type : Fin 8) (slot : Fin 16)
  /-- ARB_RAISE -/
  | arbRaise
  /-- FUSE_LIFECYCLE -/
  | fuseLifecycle (who : Who) (sel : Fin 4)
  /-- FUSE_KEY_PROGRAM -/
  | fuseKeyProgram (who : Who) (sel : Fin 4)
  /-- FUSE_KEY_REVOKE -/
  | fuseKeyRevoke (who : Who) (sel : Fin 4)
  /-- FUSE_RAISE_FIELD -/
  | fuseRaiseField (who : Who) (sel : Fin 4)
  /-- FUSE_DBG_LOCK -/
  | fuseDbgLock (who : Who)
  /-- FUSE_PROG_DONE -/
  | fuseProgDone (ok : Bool)
  /-- MICROCODE_SLOT_LOADED -/
  | microcodeSlotLoaded (r : Fin 16)
  /-- TREE_TRIP_REPEAT -/
  | treeTripRepeat
  /-- PEER_TRIP_RECEIVE -/
  | peerTripReceive (hdr : PeerHdr) (group : Byte)
  /-- PLANT_TRIP_CLEAR -/
  | plantTripClear (role : Fin 5) (mask : Byte)
  /-- PEER_STATUS_RECEIVE -/
  | peerStatusReceive (k : Fin 16) (hdr : PeerHdr) (flags breakA breakB : Byte)
  /-- PARTNER_STATUS_LAPSE -/
  | partnerStatusLapse (k : Fin 16)
  /-- PEER_SUMMARY_RECEIVE -/
  | peerSummaryReceive (hdr : PeerHdr) (body : List Byte)
  /-- SUMMARY_DEADLINE -/
  | summaryDeadline
  /-- READ_CLEAR_COUNTER -/
  | readClearCounter (who : Who) (a : BitVec 34)
  /-- REGISTER_WRITE -/
  | registerWrite (who : Who) (a : BitVec 34) (v : Word)
  deriving DecidableEq, Repr

end Sys2Proof
end

