-- ==== Sys2Proof/Config.lean ====
section
/-! DEFINITION. What an implementation fixes and what the spec leaves free: opaque constants that nothing in Lean can
evaluate, so that a claim holds whatever they are. -/

namespace Sys2Proof.Config

/-- A free value: the n-th value the spec leaves open in a run (a drawn nonce, a backoff, an undefined word). -/
opaque freeWord : Nat → Word

/-- A free natural number below any bound the drawing step then takes it modulo. -/
opaque freeNat : Nat → Nat

/-- What NOR word `a` holds after the aborted operation number `gen` touched it: R160 leaves it undefined. -/
opaque freeNor : (gen a : Nat) → Word

/-- Which of the ports that the TIME section declares as upstream the best master clock algorithm makes the slave port, by the declared
peers that have left the choice (R594): the algorithm runs on announced datasets, which are no command of this model. -/
opaque bestMaster : (gone : List Nat) → Nat

/-- Where in the input staging of a ridge store a final record of a cycle waits (R283): the spec gives the area and no layout. -/
opaque staging : (n id : Nat) → Nat

/-- The words of the boot ROM (R153): the spec gives its behaviour, not its code. -/
opaque bootRom : (a : Nat) → Word

/-- The words 0x0000 to 0x00FF of the retention SRAM with the power controller's retained state (R86): the spec names DRAM_WARM, the
warm-boot descriptors and a copy of CLK_SLOW_TRIM in them and gives no layout. -/
opaque retained : (warm : Bool) → (trim : Word) → (lc i : Nat) → Word

/-- The check bits of the (64,56) extended Hamming code over the tag and the data of a container, and the pattern of a poisoned
one (R144, R148): the spec names the code and gives no matrix and no pattern. -/
opaque checkBits : BitVec 56 → BitVec 8
opaque poisonBits : BitVec 56 → BitVec 8

/-- SHA-512 of a byte string, as a number of 512 bits (R124, R687): named by the spec, computed outside it. -/
opaque sha512 : List Byte → Nat

/-- Ed25519 verification (R631, R632, R687): public key, message, signature. -/
opaque ed25519 : (key : List Byte) → (msg : List Byte) → (sig : List Byte) → Bool

/-! ### The fabric microcode (R398): a program the spec names and does not give. Each function takes the points of a page and
answers the points it writes. -/

/-- The value the FMC's predictor puts in place of an unknown input at an offset (R365). -/
opaque fmcPredictor : (page : Nat → Word) → (ofs : Nat) → Word

/-- Filter prediction: model, hysteresis, thermal model (R398 operation 4). -/
opaque fmcPredict : (page : Nat → Word) → List (Nat × Word)

/-- Filter measurement update (R398 operation 5). -/
opaque fmcUpdate : (page : Nat → Word) → List (Nat × Word)

/-- The filter's voltage innovation of a step (R393). -/
opaque fmcInnovation : (page : Nat → Word) → Int

/-- Slow states and histories of a cold pass (R398 cold a, R411). -/
opaque fmcSlow : (page : Nat → Word) → List (Nat × Word)

/-- The core temperature measurement entering the filter (R416). -/
opaque fmcCoreTemp : (page : Nat → Word) → (timp : Word) → List (Nat × Word)

/-- The step of a node, rack or device page beyond what the spec states (R291, R292, R418). -/
opaque fmcOther : (g : Nat) → (page : Nat → Word) → List (Nat × Word)

/-- The write bound that the FMC declares for a speculative step of a page (R282). -/
opaque fmcBound : (g : Nat) → Nat

/-- A rack's rated current, its string voltage and its string resistance, as the FMC keeps them (R418). -/
opaque rackValues : (page : Nat → Word) → Int × Int × Int

/-- A quotient by 0 in a formula of the estimator: the spec states no result there. -/
opaque divZero : (n : Int) → Int

end Sys2Proof.Config
end

