-- ==== Sys2Proof/Machine/Crc.lean ====
section
/-! DEFINITION. The checks of frames and records: CRC-32C and CRC-8 (R177), SHA-512, and the bytes of words (R8, R143). -/

namespace Sys2Proof.Machine

/-- One bit of the reflected CRC-32C register, polynomial 0x1EDC_6F41. -/
def crcBit (c : BitVec 32) : BitVec 32 := if c.getLsbD 0 then (c >>> 1) ^^^ 0x82F63B78 else c >>> 1

/-- One byte into the CRC-32C register. -/
def crcByte (c : BitVec 32) (b : Byte) : BitVec 32 :=
  crcBit (crcBit (crcBit (crcBit (crcBit (crcBit (crcBit (crcBit (c ^^^ b.setWidth 32))))))))

/-- The CRC-32C of R177. -/
def crc32c (l : List Byte) : BitVec 32 := ~~~ (l.foldl crcByte 0xFFFFFFFF)

/-- One bit of the CRC-8 register, polynomial 0x2F. -/
def crc8Bit (c : BitVec 8) : BitVec 8 := if c.getMsbD 0 then (c <<< 1) ^^^ 0x2F else c <<< 1

/-- One byte into the CRC-8 register. -/
def crc8Byte (c b : Byte) : Byte :=
  crc8Bit (crc8Bit (crc8Bit (crc8Bit (crc8Bit (crc8Bit (crc8Bit (crc8Bit (c ^^^ b))))))))

/-- The CRC-8 of guard minislots (R177). -/
def crc8 (l : List Byte) : Byte := ~~~ (l.foldl crc8Byte 0xFF)

/-- A byte from a number. -/
def byte (n : Nat) : Byte := BitVec.ofNat 8 n

/-- n bytes of a number, most significant first (R176). -/
def beBytes : Nat → Nat → List Byte
  | 0, _ => []
  | n + 1, v => beBytes n (v / 256) ++ [byte v]

/-- The number that bytes spell, most significant first (R176). -/
def beNat (l : List Byte) : Nat := l.foldl (fun n b => n * 256 + b.toNat) 0

/-- The number that bytes spell, least significant first. -/
def leNat : List Byte → Nat
  | [] => 0
  | b :: l => b.toNat + 256 * leNat l

/-- n bytes of a number, least significant first. -/
def leBytes : Nat → Nat → List Byte
  | 0, _ => []
  | n + 1, v => byte v :: leBytes n (v / 256)

/-- The five bytes of a word, [39:32] first (R8). -/
def wordBytes (w : Word) : List Byte := beBytes 5 w.toNat

/-- The bytes of words (R8). -/
def wordsBytes (l : List Word) : List Byte := l.flatMap wordBytes

/-- A SHA-512 digest, 64 bytes. -/
def sha64 (l : List Byte) : List Byte := beBytes 64 (Config.sha512 l)

end Sys2Proof.Machine
end

