-- ==== Sys2Proof/Machine/Regs.lean ====
section
/-! DEFINITION. The addresses of the registers and the places of their fields, as the register cards of spec/ give them:
one name a register, with one argument a dimension of an array; one name a field. -/

namespace Sys2Proof.Machine

/-- A field of a 40-bit register: bits [hi:lo]. -/
structure BitField where
  hi : Nat
  lo : Nat
  deriving DecidableEq, Repr

namespace Reg

/-- 03 R105. -/
def PWR_STATE : Nat := 0x10000000
/-- 03 R105. -/
def PWR_CMD : Nat := 0x10000001
/-- 03 R105. -/
def PWR_CMD_LC : Nat := 0x10000002
/-- 03 R105. -/
def PWR_CMD_STAT : Nat := 0x10000003
/-- 03 R105. -/
def PWR_NIGHT_CFG : Nat := 0x10000004
/-- 03 R105. -/
def PWR_NIGHT_ITH : Nat := 0x10000005
/-- 03 R105. -/
def PWR_RAIL_PG : Nat := 0x10000008
/-- 03 R105. -/
def PWR_ISLAND_PG : Nat := 0x10000009
/-- 03 R105. -/
def PWR_RAIL_FAIL : Nat := 0x1000000A
/-- 03 R105. -/
def PWR_VHOLD : Nat := 0x1000000B
/-- 03 R105. -/
def PWR_HOLD_SEC : Nat := 0x10000010
/-- 03 R105. -/
def PWR_HOLD_CRS : Nat := 0x10000011
/-- 03 R105. -/
def PWR_GATE_REQ : Nat := 0x10000012
/-- 03 R105. -/
def PWR_GATE_STAT : Nat := 0x10000013
/-- 03 R105. -/
def PWR_CLK_GATED : Nat := 0x10000014
/-- 03 R105. -/
def PWR_PWR_GATED : Nat := 0x10000015
/-- 03 R105. -/
def PWR_HELD_CNT : Nat := 0x10000016
/-- 03 R106. -/
def CLK_STAT : Nat := 0x10010000
/-- 03 R106. -/
def CLK_SLOW_TRIM : Nat := 0x10010001
/-- 03 R106. -/
def WAKE_EN : Nat := 0x10010010
/-- 03 R106. -/
def WAKE_SRC : Nat := 0x10010011
/-- 03 R106. -/
def WAKE_TIMER : Nat := 0x10010012
/-- 05 R165. -/
def DMC_STAT : Nat := 0x10E00000
/-- 05 R165. -/
def DMC_ECC_SEL : Nat := 0x10E00010
/-- 05 R165. -/
def DMC_ECC_CNT : Nat := 0x10E00011
/-- 05 R165. -/
def DMC_ECC_CE_ADDR : Nat := 0x10E00012
/-- 05 R165. -/
def DMC_ECC_UE_ADDR : Nat := 0x10E00013
/-- 05 R165. -/
def DMC_SCRUB : Nat := 0x10E00020
/-- 05 R166. -/
def NOR_CMD : Nat := 0x10D00000
/-- 05 R166. -/
def NOR_ADDR : Nat := 0x10D00001
/-- 05 R166. -/
def NOR_LEN : Nat := 0x10D00002
/-- 05 R166. -/
def NOR_SRC : Nat := 0x10D00003
/-- 05 R166. -/
def NOR_STAT : Nat := 0x10D00004
/-- 06 R212. -/
def VNK_CTRL : Nat := 0x10100800
/-- 06 R212. -/
def VNK_CYCLE : Nat := 0x10100801
/-- 06 R212. -/
def VNK_IRQ_STAT : Nat := 0x10100802
/-- 06 R212. -/
def VNK_IRQ_EN : Nat := 0x10100803
/-- 06 R212. -/
def VNK_RING_CFG (k : Nat) : Nat := 0x10100100 + 0x1000 * k
/-- 06 R212. -/
def VNK_RING_SEG (k : Nat) : Nat := 0x10100101 + 0x1000 * k
/-- 06 R212. -/
def VNK_RING_STAT (k : Nat) : Nat := 0x10100102 + 0x1000 * k
/-- 06 R212. -/
def VNK_RING_DLY (k : Nat) : Nat := 0x10100103 + 0x1000 * k
/-- 06 R212. -/
def VNK_RING_DECL (k i : Nat) : Nat := 0x10100104 + 0x1000 * k + i
/-- 06 R212. -/
def VNK_CMD_DATA (k i : Nat) : Nat := 0x10100110 + 0x1000 * k + i
/-- 06 R212. -/
def VNK_CMD_GO (k : Nat) : Nat := 0x10100118 + 0x1000 * k
/-- 06 R212. -/
def VNK_CMD_STAT (k : Nat) : Nat := 0x10100119 + 0x1000 * k
/-- 06 R212. -/
def VNK_DY_QBASE (k : Nat) : Nat := 0x10100120 + 0x1000 * k
/-- 06 R212. -/
def VNK_DY_QCTL (k : Nat) : Nat := 0x10100121 + 0x1000 * k
/-- 06 R213. -/
def VNK_NODE_STAT (k p : Nat) : Nat := 0x10100200 + 0x1000 * k + p
/-- 06 R213. -/
def VNK_NODE_RX (k p : Nat) : Nat := 0x10100300 + 0x1000 * k + p
/-- 06 R213. -/
def VNK_BAL (k p : Nat) : Nat := 0x10100400 + 0x1000 * k + p
/-- 06 R213. -/
def VNK_PORT_CFG (q : Nat) : Nat := 0x10100000 + 0x1000 * q
/-- 06 R213. -/
def VNK_PORT_STAT (q : Nat) : Nat := 0x10100001 + 0x1000 * q
/-- 06 R213. -/
def VNK_PORT_CNT_CODE (q : Nat) : Nat := 0x10100010 + 0x1000 * q
/-- 06 R213. -/
def VNK_PORT_CNT_CRC (q : Nat) : Nat := 0x10100011 + 0x1000 * q
/-- 06 R213. -/
def VNK_PORT_CNT_GDCRC (q : Nat) : Nat := 0x10100012 + 0x1000 * q
/-- 06 R213. -/
def VNK_PORT_CNT_SLOT (q : Nat) : Nat := 0x10100013 + 0x1000 * q
/-- 06 R213. -/
def VNK_PORT_CNT_HDR (q : Nat) : Nat := 0x10100014 + 0x1000 * q
/-- 06 R213. -/
def VNK_PORT_CNT_ALIGN (q : Nat) : Nat := 0x10100015 + 0x1000 * q
/-- 07 R250. -/
def VNK_RING_START (k : Nat) : Nat := 0x10100108 + 0x1000 * k
/-- 07 R250. -/
def VNK_RING_ROLE (k : Nat) : Nat := 0x10100109 + 0x1000 * k
/-- 07 R250. -/
def VNK_RING_LCOFS (k : Nat) : Nat := 0x1010010A + 0x1000 * k
/-- 07 R250. -/
def VNK_RING_CNT_BREAK (k : Nat) : Nat := 0x1010010C + 0x1000 * k
/-- 07 R250. -/
def VNK_RING_CNT_LEAD (k : Nat) : Nat := 0x1010010D + 0x1000 * k
/-- 07 R250. -/
def VNK_RING_CNT_CLAIM (k : Nat) : Nat := 0x1010010E + 0x1000 * k
/-- 07 R250. -/
def VNK_SPARE (k s : Nat) : Nat := 0x10100130 + 0x1000 * k + s
/-- 08 R278. -/
def SNP_CTRL : Nat := 0x10200000
/-- 08 R278. -/
def SNP_STAT : Nat := 0x10200001
/-- 08 R278. -/
def SNP_CLOSED_LC : Nat := 0x10200002
/-- 08 R278. -/
def SNP_CAL_ADDR : Nat := 0x10200010
/-- 08 R278. -/
def SNP_CAL_DATA : Nat := 0x10200011
/-- 08 R278. -/
def SNP_CALQ_LC : Nat := 0x10200012
/-- 08 R278. -/
def SNP_CALQ_GO : Nat := 0x10200013
/-- 08 R278. -/
def SNP_CALQ_STAT : Nat := 0x10200014
/-- 08 R278. -/
def SNP_NIGHT_BOUND : Nat := 0x10200018
/-- 08 R278. -/
def SNP_CNT_DISAGREE : Nat := 0x10200020
/-- 08 R278. -/
def SNP_CNT_STALE : Nat := 0x10200021
/-- 08 R278. -/
def SNP_CNT_OOR : Nat := 0x10200022
/-- 08 R278. -/
def SNP_CNT_LATE : Nat := 0x10200023
/-- 08 R278. -/
def SNP_CNT_RELAY : Nat := 0x10200024
/-- 08 R278. -/
def SNP_CNT_BALMIS : Nat := 0x10200025
/-- 08 R278. -/
def SNP_IRQ_STAT : Nat := 0x10200030
/-- 08 R278. -/
def SNP_IRQ_EN : Nat := 0x10200031
/-- 08 R278. -/
def SNP_WIN_SEL : Nat := 0x10200040
/-- 08 R278. -/
def SNP_WIN_SRC : Nat := 0x10200041
/-- 08 R278. -/
def SNP_WIN_START : Nat := 0x10200042
/-- 08 R278. -/
def SNP_WIN_STOP : Nat := 0x10200043
/-- 08 R278. -/
def SNP_WIN_CMD : Nat := 0x10200044
/-- 08 R278. -/
def SNP_WIN_STATE : Nat := 0x10200045
/-- 08 R278. -/
def SNP_WIN_NVALID : Nat := 0x10200046
/-- 08 R278. -/
def SNP_WIN_NOTHER : Nat := 0x10200047
/-- 08 R278. -/
def SNP_WIN_MIN : Nat := 0x10200048
/-- 08 R278. -/
def SNP_WIN_MINCH : Nat := 0x10200049
/-- 08 R278. -/
def SNP_WIN_MAX : Nat := 0x1020004A
/-- 08 R278. -/
def SNP_WIN_MAXCH : Nat := 0x1020004B
/-- 08 R278. -/
def SNP_WIN_MEAN : Nat := 0x1020004C
/-- 08 R278. -/
def SNP_WIN_SUMHI : Nat := 0x1020004D
/-- 08 R278. -/
def SNP_WIN_SUMLO : Nat := 0x1020004E
/-- 09 R317. -/
def FAB_CTRL : Nat := 0x10300000
/-- 09 R317. -/
def FAB_STAT : Nat := 0x10300001
/-- 09 R317. -/
def FAB_LC_COMMIT : Nat := 0x10300002
/-- 09 R317. -/
def FAB_IRQ_STAT : Nat := 0x10300008
/-- 09 R317. -/
def FAB_IRQ_EN : Nat := 0x10300009
/-- 09 R317. -/
def FAB_ISLAND : Nat := 0x10300010
/-- 09 R317. -/
def FAB_ECC_SEL : Nat := 0x10300018
/-- 09 R317. -/
def FAB_ECC_CNT : Nat := 0x10300019
/-- 09 R317. -/
def FAB_ECC_CE_ADDR : Nat := 0x1030001A
/-- 09 R317. -/
def FAB_ECC_UE_ADDR : Nat := 0x1030001B
/-- 09 R317. -/
def FAB_MIG_REQ : Nat := 0x10300020
/-- 09 R317. -/
def FAB_MIG_STAT : Nat := 0x10300021
/-- 09 R317. -/
def FAB_PAGE_SEL : Nat := 0x10300028
/-- 09 R317. -/
def FAB_PAGE_STAT : Nat := 0x10300029
/-- 09 R317. -/
def FAB_AUDIT_CFG : Nat := 0x10300030
/-- 09 R317. -/
def FAB_AUDIT_LAST : Nat := 0x10300031
/-- 09 R317. -/
def FAB_AUDIT_LC : Nat := 0x10300032
/-- 09 R317. -/
def FAB_CNT_AUDIT : Nat := 0x10300038
/-- 09 R317. -/
def FAB_CNT_MISMATCH : Nat := 0x10300039
/-- 09 R317. -/
def FAB_CNT_ROLLBACK : Nat := 0x1030003A
/-- 09 R317. -/
def FAB_CNT_REPLAY : Nat := 0x1030003B
/-- 09 R317. -/
def FAB_CNT_MIGRATE : Nat := 0x1030003C
/-- 09 R317. -/
def FAB_CNT_STALL : Nat := 0x1030003D
/-- 09 R317. -/
def FAB_CNT_HELD : Nat := 0x1030003E
/-- 09 R317. -/
def FAB_RIDGE_STAT (r : Nat) : Nat := 0x10300040 + r
/-- 09 R317. -/
def FAB_ENG_STAT (e : Nat) : Nat := 0x10300100 + e
/-- 11 R390. -/
def FAB_LT_CFG : Nat := 0x10300004
/-- 11 R390. -/
def FAB_LT_STAT : Nat := 0x10300005
/-- 11 R390. -/
def FAB_JNL_WPOS : Nat := 0x10300006
/-- 11 R390. -/
def FAB_JNL_XPOS : Nat := 0x10300007
/-- 13 R450. -/
def GRD_CTRL : Nat := 0x10020000
/-- 13 R450. -/
def GRD_STAT : Nat := 0x10020001
/-- 13 R450. -/
def GRD_SAFE : Nat := 0x10020002
/-- 13 R450. -/
def GRD_TRIPIN : Nat := 0x10020003
/-- 13 R450. -/
def GRD_CRS_TRIP : Nat := 0x10020004
/-- 13 R450. -/
def GRD_PEND_LC : Nat := 0x10020005
/-- 13 R450. -/
def GRD_PEND_CTL : Nat := 0x10020006
/-- 13 R450. -/
def GRD_FIRST_EVT : Nat := 0x10020010
/-- 13 R450. -/
def GRD_FIRST_LC : Nat := 0x10020011
/-- 13 R450. -/
def GRD_FIRST_OFS : Nat := 0x10020012
/-- 13 R450. -/
def GRD_CNT_TRIP : Nat := 0x10020020
/-- 13 R450. -/
def GRD_CNT_WARN : Nat := 0x10020021
/-- 13 R450. -/
def GRD_CNT_SRC_DIFF : Nat := 0x10020022
/-- 13 R450. -/
def GRD_CNT_MEAS : Nat := 0x10020023
/-- 13 R450. -/
def GRD_CNT_REFUSED : Nat := 0x10020024
/-- 13 R450. -/
def GRD_CNT_THRESH : Nat := 0x10020025
/-- 13 R450. -/
def GRD_IRQ_STAT : Nat := 0x10020030
/-- 13 R450. -/
def GRD_IRQ_EN : Nat := 0x10020031
/-- 13 R450. -/
def GRD_EVT_ACT (i : Nat) : Nat := 0x10020040 + i
/-- 13 R450. -/
def GRD_EVT_LATCH (i : Nat) : Nat := 0x10020060 + i
/-- 13 R450. -/
def GRD_SET (s w : Nat) : Nat := 0x10020100 + 0x8 * s + w
/-- 13 R450. -/
def GRD_MATRIX (e : Nat) : Nat := 0x10020400 + e
/-- 13 R450. -/
def GRD_NODE (k p w : Nat) : Nat := 0x10021000 + 0x500 * k + 0x8 * p + w
/-- 13 R450. -/
def GRD_AUX (a w : Nat) : Nat := 0x10026000 + 0x4 * a + w
/-- 14 R482. -/
def LSI_CTRL : Nat := 0x10700000
/-- 14 R482. -/
def LSI_STAT : Nat := 0x10700001
/-- 14 R482. -/
def LSI_WD : Nat := 0x10700002
/-- 14 R482. -/
def LSI_CMD_LC : Nat := 0x10700010
/-- 14 R482. -/
def LSI_CMD : Nat := 0x10700011
/-- 14 R482. -/
def LSI_CMD_STAT : Nat := 0x10700012
/-- 14 R482. -/
def LSI_CNT_OC : Nat := 0x10700020
/-- 14 R482. -/
def LSI_CNT_OT : Nat := 0x10700021
/-- 14 R482. -/
def LSI_CNT_OPEN : Nat := 0x10700022
/-- 14 R482. -/
def LSI_CNT_WDX : Nat := 0x10700023
/-- 14 R482. -/
def LSI_CNT_SPIERR : Nat := 0x10700024
/-- 14 R482. -/
def LSI_CNT_REFUSED : Nat := 0x10700025
/-- 14 R482. -/
def LSI_CNT_PULSE : Nat := 0x10700026
/-- 14 R482. -/
def LSI_IRQ_STAT : Nat := 0x10700030
/-- 14 R482. -/
def LSI_IRQ_EN : Nat := 0x10700031
/-- 14 R482. -/
def LSI_CH_CFG (c : Nat) : Nat := 0x10700100 + c
/-- 14 R482. -/
def LSI_CH_SAMPLE (c : Nat) : Nat := 0x10700140 + c
/-- 14 R482. -/
def LSI_DIL (d : Nat) : Nat := 0x10700180 + d
/-- 14 R482. -/
def LSI_DIE_STAT (d : Nat) : Nat := 0x10700188 + d
/-- 14 R482. -/
def LSI_GROUP_I (d : Nat) : Nat := 0x10700190 + d
/-- 15 R502. -/
def CRS_STAT : Nat := 0x10400000
/-- 15 R502. -/
def CRS_WIN : Nat := 0x10400001
/-- 15 R502. -/
def CRS_CFG : Nat := 0x10400002
/-- 15 R502. -/
def CRS_MODE_REQ : Nat := 0x10400003
/-- 15 R502. -/
def CRS_MODE_STAT : Nat := 0x10400004
/-- 15 R502. -/
def CRS_ALIVE : Nat := 0x10400005
/-- 15 R502. -/
def CRS_READY : Nat := 0x10400006
/-- 15 R502. -/
def CRS_BOOT_VEC : Nat := 0x10400007
/-- 15 R502. -/
def CRS_RESTART_VEC : Nat := 0x10400008
/-- 15 R502. -/
def CRS_SIG (k : Nat) : Nat := 0x10400010 + k
/-- 15 R502. -/
def CRS_LAST_MIS : Nat := 0x10400014
/-- 15 R502. -/
def CRS_CNT_MISMATCH : Nat := 0x10400020
/-- 15 R502. -/
def CRS_CNT_VOTE : Nat := 0x10400021
/-- 15 R502. -/
def CRS_CNT_RESYNC : Nat := 0x10400022
/-- 15 R502. -/
def CRS_CNT_RETIRE : Nat := 0x10400023
/-- 15 R502. -/
def CRS_CNT_RESTART : Nat := 0x10400024
/-- 15 R502. -/
def CRS_CNT_ALIVE : Nat := 0x10400025
/-- 15 R502. -/
def CRS_IRQ_STAT : Nat := 0x10400030
/-- 15 R502. -/
def CRS_IRQ_EN : Nat := 0x10400031
/-- 16 R529. -/
def WLD_CTRL : Nat := 0x11000000
/-- 16 R529. -/
def WLD_HO_REQ : Nat := 0x11000010
/-- 16 R529. -/
def WLD_HO_STAT : Nat := 0x11000011
/-- 16 R529. -/
def WLD_DBG : Nat := 0x11000020
/-- 16 R529. -/
def WLD_DENY_ADDR : Nat := 0x11000030
/-- 16 R529. -/
def WLD_DENY_WHO : Nat := 0x11000031
/-- 16 R529. -/
def WLD_CNT_DENY : Nat := 0x11000032
/-- 16 R529. -/
def WLD_CNT_HO : Nat := 0x11000033
/-- 16 R529. -/
def WLD_CNT_ABANDON : Nat := 0x11000034
/-- 16 R529. -/
def WLD_CNT_SECLONG : Nat := 0x11000035
/-- 16 R529. -/
def WLD_RGN_BASE (i : Nat) : Nat := 0x11000100 + 0x4 * i
/-- 16 R529. -/
def WLD_RGN_LIMIT (i : Nat) : Nat := 0x11000101 + 0x4 * i
/-- 16 R529. -/
def WLD_RGN_ACC (i : Nat) : Nat := 0x11000102 + 0x4 * i
/-- 16 R529. -/
def WLD_FIXED (b : Nat) : Nat := 0x11000280 + b
/-- 16 R529. -/
def WLD_UNIT_OWN (u : Nat) : Nat := 0x11000200 + u
/-- 16 R529. -/
def WLD_UNIT_AUTH (u : Nat) : Nat := 0x11000240 + u
/-- 16 R530. -/
def IRQ_CTRL : Nat := 0x10500000
/-- 16 R530. -/
def IRQ_SET : Nat := 0x10500010
/-- 16 R530. -/
def IRQ_CLR : Nat := 0x10500011
/-- 16 R530. -/
def IRQ_CNT_DENY : Nat := 0x10500020
/-- 16 R530. -/
def IRQ_SRC (i : Nat) : Nat := 0x10501000 + i
/-- 16 R530. -/
def IRQ_SEND (j : Nat) : Nat := 0x10501400 + j
/-- 17 R552. -/
def MBX_CTRL : Nat := 0x10600000
/-- 17 R552. -/
def MBX_CNT_DENY : Nat := 0x10600010
/-- 17 R552. -/
def MBX_CNT_DOMOFF : Nat := 0x10600011
/-- 17 R552. -/
def MBX_CNT_NOTICE : Nat := 0x10600012
/-- 17 R552. -/
def MBX_CNT_COMPDROP : Nat := 0x10600013
/-- 17 R552. -/
def MBX_CNT_STALE : Nat := 0x10600014
/-- 17 R552. -/
def MBX_CNT_REPEAT : Nat := 0x10600015
/-- 17 R552. -/
def MBX_HO_REQ : Nat := 0x10600020
/-- 17 R552. -/
def MBX_HO_STAT : Nat := 0x10600021
/-- 17 R552. -/
def MBX_PTR (n : Nat) : Nat := 0x10600100 + 0x10 * n
/-- 17 R552. -/
def MBX_DOORBELL (n : Nat) : Nat := 0x10600101 + 0x10 * n
/-- 17 R552. -/
def MBX_TX_STAT (n : Nat) : Nat := 0x10600102 + 0x10 * n
/-- 17 R552. -/
def MBX_DONE (n : Nat) : Nat := 0x10600103 + 0x10 * n
/-- 17 R552. -/
def MBX_RX_PTR (n : Nat) : Nat := 0x10600104 + 0x10 * n
/-- 17 R552. -/
def MBX_RX_DESC (n : Nat) : Nat := 0x10600105 + 0x10 * n
/-- 17 R552. -/
def MBX_ACK (n : Nat) : Nat := 0x10600106 + 0x10 * n
/-- 17 R552. -/
def MBX_RX_STAT (n : Nat) : Nat := 0x10600107 + 0x10 * n
/-- 17 R552. -/
def MBX_IE (n : Nat) : Nat := 0x10600108 + 0x10 * n
/-- 17 R552. -/
def MBX_FI_CFG (i : Nat) : Nat := 0x10600800 + 0x8 * i
/-- 17 R552. -/
def MBX_FI_CMD (i : Nat) : Nat := 0x10600801 + 0x8 * i
/-- 17 R552. -/
def MBX_FI_STAT (i : Nat) : Nat := 0x10600802 + 0x8 * i
/-- 17 R552. -/
def MBX_FI_USED (i : Nat) : Nat := 0x10600803 + 0x8 * i
/-- 17 R552. -/
def MBX_FI_TINFO (i : Nat) : Nat := 0x10600804 + 0x8 * i
/-- 18 R583. -/
def SWC_CTRL : Nat := 0x10800000
/-- 18 R583. -/
def SWC_BUF : Nat := 0x10800002
/-- 18 R583. -/
def SWC_IRQ_STAT : Nat := 0x10800008
/-- 18 R583. -/
def SWC_IRQ_EN : Nat := 0x10800009
/-- 18 R583. -/
def SWC_CNT_PUSHOUT : Nat := 0x10800010
/-- 18 R583. -/
def SWC_CNT_MIRROR_DROP : Nat := 0x10800011
/-- 18 R583. -/
def SWC_CNT_INJ_DROP : Nat := 0x10800012
/-- 18 R583. -/
def SWC_CNT_UU_FLOOD : Nat := 0x10800013
/-- 18 R583. -/
def SWC_CNT_PRP_NOSEQ : Nat := 0x10800014
/-- 18 R583. -/
def SWC_MIRROR : Nat := 0x10800020
/-- 18 R583. -/
def SWC_MIRROR_FLOW : Nat := 0x10800021
/-- 18 R583. -/
def SWC_PRP : Nat := 0x10800028
/-- 18 R583. -/
def SWC_FDB_W0 : Nat := 0x10800030
/-- 18 R583. -/
def SWC_FDB_W1 : Nat := 0x10800031
/-- 18 R583. -/
def SWC_FDB_W2 : Nat := 0x10800032
/-- 18 R583. -/
def SWC_FDB_CMD : Nat := 0x10800033
/-- 18 R583. -/
def SWC_FDB_STAT : Nat := 0x10800034
/-- 18 R583. -/
def SWC_LIMIT (p c : Nat) : Nat := 0x10800100 + 0x8 * p + c
/-- 18 R583. -/
def SWC_PORT (p : Nat) : Nat := 0x10800180 + p
/-- 18 R583. -/
def SWC_EGR (p : Nat) : Nat := 0x108001A0 + p
/-- 18 R583. -/
def SWC_PCP (p : Nat) : Nat := 0x108001C0 + p
/-- 18 R583. -/
def SWC_VLAN (i : Nat) : Nat := 0x10800200 + i
/-- 18 R583. -/
def HP_TX_BASE (h : Nat) : Nat := 0x10800400 + 0x10 * h
/-- 18 R583. -/
def HP_RX_BASE (h : Nat) : Nat := 0x10800402 + 0x10 * h
/-- 18 R583. -/
def HP_TX_CTL (h : Nat) : Nat := 0x10800401 + 0x10 * h
/-- 18 R583. -/
def HP_RX_CTL (h : Nat) : Nat := 0x10800403 + 0x10 * h
/-- 18 R583. -/
def HP_STAT (h : Nat) : Nat := 0x10800404 + 0x10 * h
/-- 18 R583. -/
def HP_IE (h : Nat) : Nat := 0x10800405 + 0x10 * h
/-- 18 R583. -/
def HP_CNT_NOBUF (h : Nat) : Nat := 0x10800406 + 0x10 * h
/-- 18 R583. -/
def HP_CNT_ERR (h : Nat) : Nat := 0x10800407 + 0x10 * h
/-- 18 R584. -/
def MAC_CTRL (n : Nat) : Nat := 0x10810000 + 0x10000 * n
/-- 18 R584. -/
def MAC_STAT (n : Nat) : Nat := 0x10810001 + 0x10000 * n
/-- 18 R584. -/
def MAC_PAUSE (n : Nat) : Nat := 0x10810002 + 0x10000 * n
/-- 18 R584. -/
def MAC_IRQ_STAT (n : Nat) : Nat := 0x10810008 + 0x10000 * n
/-- 18 R584. -/
def MAC_IRQ_EN (n : Nat) : Nat := 0x10810009 + 0x10000 * n
/-- 18 R584. -/
def MAC_MGMT_CMD (n : Nat) : Nat := 0x10810010 + 0x10000 * n
/-- 18 R584. -/
def MAC_MGMT_STAT (n : Nat) : Nat := 0x10810011 + 0x10000 * n
/-- 18 R584. -/
def MAC_HALF (n : Nat) : Nat := 0x10810020 + 0x10000 * n
/-- 18 R584. -/
def MAC_CNT (n j : Nat) : Nat := 0x10810100 + 0x10000 * n + j
/-- 19 R612. -/
def TIME_CTRL : Nat := 0x10040000
/-- 19 R612. -/
def TIME_STAT : Nat := 0x10040001
/-- 19 R612. -/
def TIME_DEV_HI : Nat := 0x10040002
/-- 19 R612. -/
def TIME_DEV_LO : Nat := 0x10040003
/-- 19 R612. -/
def TIME_NET_HI : Nat := 0x10040004
/-- 19 R612. -/
def TIME_NET_LO : Nat := 0x10040005
/-- 19 R612. -/
def TIME_SI_HI : Nat := 0x10040006
/-- 19 R612. -/
def TIME_SI_LO : Nat := 0x10040007
/-- 19 R612. -/
def TIME_INC : Nat := 0x10040008
/-- 19 R612. -/
def TIME_SERVO : Nat := 0x10040009
/-- 19 R612. -/
def TIME_MEAS_HI : Nat := 0x1004000A
/-- 19 R612. -/
def TIME_MEAS_LO : Nat := 0x1004000B
/-- 19 R612. -/
def TIME_CFG : Nat := 0x1004000C
/-- 19 R612. -/
def TIME_POWERED : Nat := 0x10040010
/-- 19 R612. -/
def TIME_UTC : Nat := 0x10040011
/-- 19 R612. -/
def TIME_SLOW_EST : Nat := 0x10040012
/-- 19 R612. -/
def TIME_EPOCH_SEL : Nat := 0x10040020
/-- 19 R612. -/
def TIME_EPOCH (w : Nat) : Nat := 0x10040028 + w
/-- 19 R612. -/
def TIME_CAP_CFG : Nat := 0x10040030
/-- 19 R612. -/
def TIME_CAP_INFO : Nat := 0x10040031
/-- 19 R612. -/
def TIME_CAP_HI : Nat := 0x10040032
/-- 19 R612. -/
def TIME_CAP_LO : Nat := 0x10040033
/-- 19 R612. -/
def TIME_CNT_REJECT : Nat := 0x10040038
/-- 19 R612. -/
def TIME_CNT_EPOCH : Nat := 0x10040039
/-- 19 R612. -/
def TIME_CNT_CAPLOST : Nat := 0x1004003A
/-- 19 R612. -/
def TIME_CNT_HOLD : Nat := 0x1004003B
/-- 19 R612. -/
def TIME_CNT_UNLOCK : Nat := 0x1004003C
/-- 19 R612. -/
def TIME_IRQ_STAT : Nat := 0x10040040
/-- 19 R612. -/
def TIME_IRQ_EN : Nat := 0x10040041
/-- 19 R612. -/
def TIME_PPS : Nat := 0x10040048
/-- 19 R612. -/
def TIME_PORT (p w : Nat) : Nat := 0x10040100 + 0x4 * p + w
/-- 19 R612. -/
def TIME_TIM (k w : Nat) : Nat := 0x10040200 + 0x4 * k + w
/-- 21 R681. -/
def CAN_CTRL (n : Nat) : Nat := 0x10A00000 + 0x1000 * n
/-- 21 R681. -/
def CAN_NBT (n : Nat) : Nat := 0x10A00001 + 0x1000 * n
/-- 21 R681. -/
def CAN_DBT (n : Nat) : Nat := 0x10A00002 + 0x1000 * n
/-- 21 R681. -/
def CAN_STAT (n : Nat) : Nat := 0x10A00003 + 0x1000 * n
/-- 21 R681. -/
def CAN_TX_HDR (n : Nat) : Nat := 0x10A00010 + 0x1000 * n
/-- 21 R681. -/
def CAN_TX_DATA (n i : Nat) : Nat := 0x10A00011 + 0x1000 * n + i
/-- 21 R681. -/
def CAN_TX_PUSH (n : Nat) : Nat := 0x10A0001E + 0x1000 * n
/-- 21 R681. -/
def CAN_TX_STAT (n : Nat) : Nat := 0x10A0001F + 0x1000 * n
/-- 21 R681. -/
def CAN_RX_HDR (n q : Nat) : Nat := 0x10A00020 + 0x1000 * n + 0x20 * q
/-- 21 R681. -/
def CAN_RX_INFO (n q : Nat) : Nat := 0x10A00021 + 0x1000 * n + 0x20 * q
/-- 21 R681. -/
def CAN_RX_LC (n q : Nat) : Nat := 0x10A00022 + 0x1000 * n + 0x20 * q
/-- 21 R681. -/
def CAN_RX_OFS (n q : Nat) : Nat := 0x10A00023 + 0x1000 * n + 0x20 * q
/-- 21 R681. -/
def CAN_RX_DATA (n q i : Nat) : Nat := 0x10A00024 + 0x1000 * n + 0x20 * q + i
/-- 21 R681. -/
def CAN_RX_STAT (n q : Nat) : Nat := 0x10A00031 + 0x1000 * n + 0x20 * q
/-- 21 R681. -/
def CAN_CNT_RXDROP (n : Nat) : Nat := 0x10A00060 + 0x1000 * n
/-- 21 R681. -/
def CAN_CNT_NOFILT (n : Nat) : Nat := 0x10A00061 + 0x1000 * n
/-- 21 R681. -/
def CAN_CNT_DUP (n : Nat) : Nat := 0x10A00062 + 0x1000 * n
/-- 21 R681. -/
def CAN_CNT_EOFERR (n : Nat) : Nat := 0x10A00063 + 0x1000 * n
/-- 21 R681. -/
def CAN_CNT_BUSOFF (n : Nat) : Nat := 0x10A00064 + 0x1000 * n
/-- 21 R681. -/
def CAN_CNT_ABORT (n : Nat) : Nat := 0x10A00065 + 0x1000 * n
/-- 21 R681. -/
def CAN_IRQ_STAT (n : Nat) : Nat := 0x10A00068 + 0x1000 * n
/-- 21 R681. -/
def CAN_IRQ_EN (n : Nat) : Nat := 0x10A00069 + 0x1000 * n
/-- 21 R681. -/
def CAN_SW_ID (n : Nat) : Nat := 0x10A00070 + 0x1000 * n
/-- 21 R681. -/
def CAN_SW_MASK (n : Nat) : Nat := 0x10A00071 + 0x1000 * n
/-- 21 R681. -/
def CAN_SW_DATA0 (n : Nat) : Nat := 0x10A00072 + 0x1000 * n
/-- 21 R681. -/
def CAN_SW_DATA1 (n : Nat) : Nat := 0x10A00073 + 0x1000 * n
/-- 21 R681. -/
def CAN_SW_STAT (n : Nat) : Nat := 0x10A00074 + 0x1000 * n
/-- 21 R681. -/
def CAN_FLT (n f w : Nat) : Nat := 0x10A00100 + 0x1000 * n + 0x2 * f + w
/-- 21 R682. -/
def COL_CTRL : Nat := 0x10B00000
/-- 21 R682. -/
def COL_STREAM (k w : Nat) : Nat := 0x10B00020 + 0x2 * k + w
/-- 21 R682. -/
def COL_HOLD (k : Nat) : Nat := 0x10B00028 + k
/-- 21 R682. -/
def COL_EVT (n : Nat) : Nat := 0x10B00030 + n
/-- 21 R682. -/
def COL_CNT_NOROUTE : Nat := 0x10B00038
/-- 21 R682. -/
def COL_CNT_DROP : Nat := 0x10B00039
/-- 21 R682. -/
def COL_CNT_FMT : Nat := 0x10B0003A
/-- 21 R682. -/
def COL_CNT_SEQGAP : Nat := 0x10B0003B
/-- 21 R682. -/
def COL_CNT_DUP : Nat := 0x10B0003C
/-- 21 R682. -/
def COL_CNT_PROXYFAIL : Nat := 0x10B0003D
/-- 21 R682. -/
def COL_IRQ_STAT : Nat := 0x10B00040
/-- 21 R682. -/
def COL_IRQ_EN : Nat := 0x10B00041
/-- 21 R682. -/
def COL_ROUTE (e w : Nat) : Nat := 0x10B01000 + 0x4 * e + w
/-- 21 R683. -/
def GIO_DI : Nat := 0x10C00000
/-- 21 R683. -/
def GIO_DI_CHG : Nat := 0x10C00001
/-- 21 R683. -/
def GIO_DIN : Nat := 0x10C00002
/-- 21 R683. -/
def GIO_DEB : Nat := 0x10C00003
/-- 21 R683. -/
def GIO_AI_CFG : Nat := 0x10C00008
/-- 21 R683. -/
def GIO_AI (i : Nat) : Nat := 0x10C00010 + i
/-- 21 R683. -/
def GIO_AI_OOR : Nat := 0x10C00020
/-- 21 R683. -/
def GIO_WAKE_CFG : Nat := 0x10C00040
/-- 21 R683. -/
def GIO_WAKE_VAL : Nat := 0x10C00041
/-- 21 R683. -/
def GIO_WAKE_CAN (n : Nat) : Nat := 0x10C00044 + n
/-- 21 R683. -/
def GIO_WAKE_FW (s : Nat) : Nat := 0x10C00048 + s
/-- 21 R683. -/
def GIO_CNT_FALSE : Nat := 0x10C00052
/-- 21 R683. -/
def GIO_CNT_BACKOFF : Nat := 0x10C00053
/-- 21 R683. -/
def GIO_IRQ_STAT : Nat := 0x10C00058
/-- 21 R683. -/
def GIO_IRQ_EN : Nat := 0x10C00059
/-- 22 R713. -/
def FUSE_STAT : Nat := 0x10030000
/-- 22 R713. -/
def FUSE_ARB : Nat := 0x10030001
/-- 22 R713. -/
def FUSE_SERIAL_HI : Nat := 0x10030002
/-- 22 R713. -/
def FUSE_SERIAL_LO : Nat := 0x10030003
/-- 22 R713. -/
def FUSE_MAC0 : Nat := 0x10030004
/-- 22 R713. -/
def FUSE_MAC1 : Nat := 0x10030005
/-- 22 R713. -/
def FUSE_KEY (k w : Nat) : Nat := 0x10030010 + 0x8 * k + w
/-- 22 R713. -/
def FUSE_PROG_DATA (w : Nat) : Nat := 0x10030040 + w
/-- 22 R713. -/
def FUSE_PROG : Nat := 0x10030048
/-- 22 R714. -/
def DBG_STAT : Nat := 0x10F00000
/-- 22 R714. -/
def DBG_CNT_REFUSED : Nat := 0x10F00001
/-- 22 R715. -/
def FAB_MC_CTRL : Nat := 0x1030000C
/-- 22 R715. -/
def FAB_MC_LC : Nat := 0x1030000D
/-- 22 R715. -/
def FAB_MC_STAT : Nat := 0x1030000E
/-- 22 R715. -/
def FAB_MC_BUILD : Nat := 0x1030000F
/-- 21 R682. -/
def COL_ORING_BASE : Nat := 0x10B00010
/-- 21 R682. -/
def COL_ORING_CTL : Nat := 0x10B00011
/-- 21 R682. -/
def COL_IRING_BASE : Nat := 0x10B00012
/-- 21 R682. -/
def COL_IRING_CTL : Nat := 0x10B00013

end Reg

namespace Fld

def PWR_STATE_CAUSE : BitField := ⟨31, 24⟩
def PWR_STATE_TARGET : BitField := ⟨19, 16⟩
def PWR_STATE_LEVEL : BitField := ⟨11, 8⟩
def PWR_STATE_DRAM_WARM : BitField := ⟨7, 7⟩
def PWR_STATE_LG_READY : BitField := ⟨6, 6⟩
def PWR_STATE_STATE : BitField := ⟨3, 0⟩
def PWR_CMD_CMD : BitField := ⟨3, 0⟩
def PWR_CMD_STAT_RESULT : BitField := ⟨3, 0⟩
def PWR_NIGHT_CFG_POLICY : BitField := ⟨39, 38⟩
def PWR_NIGHT_CFG_DWELL : BitField := ⟨31, 0⟩
def PWR_RAIL_PG_VNOR : BitField := ⟨8, 8⟩
def PWR_RAIL_PG_VIO33 : BitField := ⟨7, 7⟩
def PWR_RAIL_PG_VIO18 : BitField := ⟨6, 6⟩
def PWR_RAIL_PG_VDDQ : BitField := ⟨5, 5⟩
def PWR_RAIL_PG_VDD2 : BitField := ⟨4, 4⟩
def PWR_RAIL_PG_VFAB : BitField := ⟨3, 3⟩
def PWR_RAIL_PG_VSYS : BitField := ⟨2, 2⟩
def PWR_RAIL_PG_VAO : BitField := ⟨1, 1⟩
def PWR_RAIL_PG_VIN : BitField := ⟨0, 0⟩
def PWR_ISLAND_PG_GOOD : BitField := ⟨15, 0⟩
def PWR_RAIL_FAIL_ISLAND : BitField := ⟨24, 9⟩
def PWR_RAIL_FAIL_RAIL : BitField := ⟨8, 0⟩
def PWR_VHOLD_LG_READY : BitField := ⟨16, 16⟩
def PWR_VHOLD_MV : BitField := ⟨15, 0⟩
def PWR_GATE_REQ_BLOCK : BitField := ⟨15, 8⟩
def PWR_GATE_REQ_OP : BitField := ⟨1, 0⟩
def PWR_GATE_STAT_BLOCK : BitField := ⟨15, 8⟩
def PWR_GATE_STAT_RESULT : BitField := ⟨3, 0⟩
def CLK_STAT_TCXO : BitField := ⟨7, 7⟩
def CLK_STAT_PLL_F : BitField := ⟨6, 6⟩
def CLK_STAT_PLL_A : BitField := ⟨5, 5⟩
def CLK_STAT_PLL_C : BitField := ⟨4, 4⟩
def CLK_STAT_PLL_T : BitField := ⟨3, 3⟩
def CLK_STAT_PLL_V : BitField := ⟨2, 2⟩
def CLK_STAT_PLL_S : BitField := ⟨1, 1⟩
def CLK_STAT_SLOW : BitField := ⟨0, 0⟩
def WAKE_EN_TIMER : BitField := ⟨11, 11⟩
def WAKE_EN_RACK_CURRENT : BitField := ⟨10, 10⟩
def WAKE_EN_GUARD : BitField := ⟨9, 9⟩
def WAKE_EN_CAN : BitField := ⟨8, 5⟩
def WAKE_EN_LOCAL_SW : BitField := ⟨4, 1⟩
def WAKE_EN_WAKE_LINE : BitField := ⟨0, 0⟩
def WAKE_SRC_CLASS : BitField := ⟨35, 32⟩
def WAKE_SRC_SRC : BitField := ⟨11, 0⟩
def DMC_STAT_SELF_REFRESH : BitField := ⟨1, 1⟩
def DMC_STAT_TRAINED : BitField := ⟨0, 0⟩
def DMC_ECC_SEL_MEM : BitField := ⟨1, 0⟩
def DMC_ECC_CNT_UE : BitField := ⟨39, 20⟩
def DMC_ECC_CNT_CE : BitField := ⟨19, 0⟩
def DMC_ECC_CE_ADDR_VALID : BitField := ⟨39, 39⟩
def DMC_ECC_CE_ADDR_ADDR : BitField := ⟨33, 0⟩
def DMC_ECC_UE_ADDR_VALID : BitField := ⟨39, 39⟩
def DMC_ECC_UE_ADDR_ADDR : BitField := ⟨33, 0⟩
def DMC_SCRUB_EN : BitField := ⟨39, 39⟩
def DMC_SCRUB_PERIOD : BitField := ⟨19, 0⟩
def NOR_CMD_OP : BitField := ⟨3, 0⟩
def NOR_ADDR_WADDR : BitField := ⟨26, 0⟩
def NOR_LEN_WORDS : BitField := ⟨22, 0⟩
def NOR_SRC_SRC : BitField := ⟨33, 0⟩
def NOR_STAT_WHO : BitField := ⟨9, 8⟩
def NOR_STAT_RESULT : BitField := ⟨7, 4⟩
def NOR_STAT_BUSY : BitField := ⟨0, 0⟩
def VNK_CTRL_RETRY : BitField := ⟨23, 16⟩
def VNK_CTRL_BURST : BitField := ⟨1, 1⟩
def VNK_CTRL_EN : BitField := ⟨0, 0⟩
def VNK_IRQ_STAT_CMD_FAIL : BitField := ⟨31, 16⟩
def VNK_IRQ_STAT_RING_CHG : BitField := ⟨15, 0⟩
def VNK_RING_CFG_RINGTAG : BitField := ⟨39, 32⟩
def VNK_RING_CFG_SCHED_ID : BitField := ⟨31, 16⟩
def VNK_RING_CFG_PORT_A : BitField := ⟨15, 12⟩
def VNK_RING_CFG_PORT_B : BitField := ⟨11, 8⟩
def VNK_RING_CFG_TOPO : BitField := ⟨7, 6⟩
def VNK_RING_SEG_NCELL : BitField := ⟨39, 32⟩
def VNK_RING_SEG_NAUX : BitField := ⟨31, 24⟩
def VNK_RING_SEG_NSPARE : BitField := ⟨23, 16⟩
def VNK_RING_SEG_NCMD : BitField := ⟨15, 8⟩
def VNK_RING_SEG_NDYN : BitField := ⟨7, 0⟩
def VNK_RING_STAT_BREAK_A : BitField := ⟨39, 32⟩
def VNK_RING_STAT_BREAK_B : BitField := ⟨31, 24⟩
def VNK_RING_STAT_BROKEN : BitField := ⟨23, 23⟩
def VNK_RING_STAT_CYCLING : BitField := ⟨22, 22⟩
def VNK_RING_STAT_LEADER_HERE : BitField := ⟨21, 21⟩
def VNK_RING_STAT_STANDBY_HERE : BitField := ⟨20, 20⟩
def VNK_RING_STAT_CFG_ERR : BitField := ⟨19, 19⟩
def VNK_RING_STAT_D_OVER : BitField := ⟨18, 18⟩
def VNK_RING_DLY_D_AB : BitField := ⟨39, 20⟩
def VNK_RING_DLY_D_BA : BitField := ⟨19, 0⟩
def VNK_CMD_GO_TARGET : BitField := ⟨39, 32⟩
def VNK_CMD_GO_OP : BitField := ⟨31, 24⟩
def VNK_CMD_GO_ARGLEN : BitField := ⟨23, 16⟩
def VNK_CMD_STAT_QFREE : BitField := ⟨39, 32⟩
def VNK_CMD_STAT_LAST_SEQ : BitField := ⟨31, 16⟩
def VNK_CMD_STAT_FAIL_POS : BitField := ⟨15, 8⟩
def VNK_CMD_STAT_FAIL_CODE : BitField := ⟨7, 0⟩
def VNK_DY_QBASE_BASE : BitField := ⟨33, 0⟩
def VNK_DY_QCTL_TAIL : BitField := ⟨13, 8⟩
def VNK_DY_QCTL_HEAD : BitField := ⟨5, 0⟩
def VNK_NODE_STAT_ACK_CODE : BitField := ⟨39, 32⟩
def VNK_NODE_STAT_ACK_SEQ : BitField := ⟨31, 16⟩
def VNK_NODE_STAT_NSTAT : BitField := ⟨15, 0⟩
def VNK_NODE_RX_MISS : BitField := ⟨39, 32⟩
def VNK_NODE_RX_AB_OK : BitField := ⟨31, 31⟩
def VNK_NODE_RX_BA_OK : BitField := ⟨30, 30⟩
def VNK_NODE_RX_DISAGREE : BitField := ⟨29, 0⟩
def VNK_BAL_MASK : BitField := ⟨15, 0⟩
def VNK_PORT_CFG_LOOP : BitField := ⟨2, 2⟩
def VNK_PORT_CFG_RX_INV : BitField := ⟨1, 1⟩
def VNK_PORT_CFG_TX_INV : BitField := ⟨0, 0⟩
def VNK_PORT_STAT_ELEC_IDLE : BitField := ⟨7, 7⟩
def VNK_PORT_STAT_SIGNAL : BitField := ⟨6, 6⟩
def VNK_PORT_STAT_ALIGNED : BitField := ⟨5, 5⟩
def VNK_PORT_STAT_CS_SEEN : BitField := ⟨4, 4⟩
def VNK_RING_START_RANK : BitField := ⟨31, 29⟩
def VNK_RING_START_MISS_LIMIT : BitField := ⟨23, 16⟩
def VNK_RING_START_ERR_LIMIT : BitField := ⟨15, 0⟩
def VNK_RING_ROLE_PEER_ID : BitField := ⟨31, 16⟩
def VNK_RING_ROLE_PHASE : BitField := ⟨15, 12⟩
def VNK_RING_ROLE_SINGLE_END : BitField := ⟨11, 11⟩
def VNK_RING_ROLE_TAKEN_OVER : BitField := ⟨10, 10⟩
def VNK_RING_ROLE_MIRROR_OK : BitField := ⟨9, 9⟩
def VNK_RING_ROLE_RECLAIMING : BitField := ⟨8, 8⟩
def VNK_RING_CNT_CLAIM_REFUSED : BitField := ⟨39, 20⟩
def VNK_RING_CNT_CLAIM_GRANTED : BitField := ⟨19, 0⟩
def VNK_SPARE_STATE : BitField := ⟨39, 38⟩
def VNK_SPARE_RELEASE : BitField := ⟨37, 37⟩
def VNK_SPARE_LEARNT : BitField := ⟨36, 36⟩
def VNK_SPARE_POS : BitField := ⟨31, 24⟩
def VNK_SPARE_ALLOW : BitField := ⟨20, 16⟩
def VNK_SPARE_SLOT_START : BitField := ⟨15, 0⟩
def SNP_CTRL_CLOSE : BitField := ⟨31, 16⟩
def SNP_CTRL_EN : BitField := ⟨0, 0⟩
def SNP_STAT_NOPLANT : BitField := ⟨3, 3⟩
def SNP_STAT_CALQ_PEND : BitField := ⟨2, 2⟩
def SNP_STAT_BURST : BitField := ⟨1, 1⟩
def SNP_STAT_RUNNING : BitField := ⟨0, 0⟩
def SNP_CAL_ADDR_WORD : BitField := ⟨18, 16⟩
def SNP_CAL_ADDR_ENTRY : BitField := ⟨15, 0⟩
def SNP_CALQ_GO_ENTRY : BitField := ⟨15, 0⟩
def SNP_CALQ_STAT_QFREE : BitField := ⟨39, 32⟩
def SNP_CALQ_STAT_RESULT : BitField := ⟨7, 0⟩
def SNP_IRQ_STAT_CALQ_DONE : BitField := ⟨4, 4⟩
def SNP_IRQ_STAT_WIN_DONE : BitField := ⟨3, 3⟩
def SNP_IRQ_STAT_LATE : BitField := ⟨2, 2⟩
def SNP_IRQ_STAT_OOR : BitField := ⟨1, 1⟩
def SNP_IRQ_STAT_STALE : BitField := ⟨0, 0⟩
def SNP_WIN_SEL_WIN : BitField := ⟨4, 0⟩
def SNP_WIN_SRC_KIND : BitField := ⟨39, 36⟩
def SNP_WIN_SRC_FIRST : BitField := ⟨35, 20⟩
def SNP_WIN_SRC_COUNT : BitField := ⟨19, 8⟩
def SNP_WIN_CMD_OP : BitField := ⟨1, 0⟩
def SNP_WIN_STATE_RESULT : BitField := ⟨7, 4⟩
def SNP_WIN_STATE_STATE : BitField := ⟨3, 0⟩
def FAB_CTRL_LOAD_MAX : BitField := ⟨30, 24⟩
def FAB_CTRL_AUDIT_EN : BitField := ⟨2, 2⟩
def FAB_CTRL_ISLAND_AUTO : BitField := ⟨1, 1⟩
def FAB_CTRL_EN : BitField := ⟨0, 0⟩
def FAB_STAT_UNPLACED : BitField := ⟨7, 7⟩
def FAB_STAT_REBUILDING : BitField := ⟨6, 6⟩
def FAB_STAT_MIGRATING : BitField := ⟨5, 5⟩
def FAB_STAT_AUDIT_BUSY : BitField := ⟨4, 4⟩
def FAB_STAT_MC_SLOT : BitField := ⟨3, 3⟩
def FAB_STAT_STALL : BitField := ⟨2, 2⟩
def FAB_STAT_RUNNING : BitField := ⟨0, 0⟩
def FAB_IRQ_STAT_UNPLACED : BitField := ⟨5, 5⟩
def FAB_IRQ_STAT_QUARANTINE : BitField := ⟨4, 4⟩
def FAB_IRQ_STAT_AUDIT_MISMATCH : BitField := ⟨3, 3⟩
def FAB_IRQ_STAT_REBUILD_DONE : BitField := ⟨2, 2⟩
def FAB_IRQ_STAT_ISLAND_CHG : BitField := ⟨1, 1⟩
def FAB_IRQ_STAT_ECC_UE : BitField := ⟨0, 0⟩
def FAB_ISLAND_ALLOW_OFF : BitField := ⟨31, 16⟩
def FAB_ISLAND_FAILED : BitField := ⟨15, 0⟩
def FAB_ECC_SEL_KIND : BitField := ⟨4, 4⟩
def FAB_ECC_SEL_RIDGE : BitField := ⟨3, 0⟩
def FAB_ECC_CNT_UE : BitField := ⟨39, 20⟩
def FAB_ECC_CNT_CE : BitField := ⟨19, 0⟩
def FAB_ECC_CE_ADDR_VALID : BitField := ⟨39, 39⟩
def FAB_ECC_CE_ADDR_ADDR : BitField := ⟨33, 0⟩
def FAB_ECC_UE_ADDR_VALID : BitField := ⟨39, 39⟩
def FAB_ECC_UE_ADDR_ADDR : BitField := ⟨33, 0⟩
def FAB_MIG_REQ_PAGE : BitField := ⟨35, 21⟩
def FAB_MIG_REQ_ENGINE : BitField := ⟨20, 12⟩
def FAB_MIG_REQ_OP : BitField := ⟨1, 0⟩
def FAB_MIG_STAT_RESULT : BitField := ⟨31, 24⟩
def FAB_MIG_STAT_ACTIVE : BitField := ⟨23, 16⟩
def FAB_PAGE_SEL_PAGE : BitField := ⟨14, 0⟩
def FAB_PAGE_STAT_STATE : BitField := ⟨39, 37⟩
def FAB_PAGE_STAT_ENGINE : BitField := ⟨36, 28⟩
def FAB_PAGE_STAT_FRAME : BitField := ⟨27, 17⟩
def FAB_PAGE_STAT_HOME : BitField := ⟨16, 16⟩
def FAB_PAGE_STAT_CERTAIN : BitField := ⟨15, 0⟩
def FAB_AUDIT_CFG_PERIOD : BitField := ⟨19, 0⟩
def FAB_AUDIT_LAST_RESULT : BitField := ⟨39, 37⟩
def FAB_AUDIT_LAST_PAGE : BitField := ⟨36, 22⟩
def FAB_AUDIT_LAST_AUDITOR : BitField := ⟨21, 13⟩
def FAB_RIDGE_STAT_STATE : BitField := ⟨39, 38⟩
def FAB_RIDGE_STAT_QUAR : BitField := ⟨37, 32⟩
def FAB_RIDGE_STAT_FREE : BitField := ⟨31, 21⟩
def FAB_RIDGE_STAT_PAGES : BitField := ⟨20, 10⟩
def FAB_RIDGE_STAT_LOAD : BitField := ⟨9, 0⟩
def FAB_ENG_STAT_STATE : BitField := ⟨39, 38⟩
def FAB_ENG_STAT_QCAUSE : BitField := ⟨37, 34⟩
def FAB_ENG_STAT_PAGES : BitField := ⟨23, 16⟩
def FAB_ENG_STAT_UNDO : BitField := ⟨10, 0⟩
def FAB_LT_CFG_DEPTH : BitField := ⟨39, 32⟩
def FAB_LT_CFG_LEAD : BitField := ⟨25, 16⟩
def FAB_LT_CFG_HORIZON : BitField := ⟨10, 0⟩
def FAB_LT_STAT_LAG : BitField := ⟨39, 28⟩
def FAB_LT_STAT_AHEAD : BitField := ⟨27, 20⟩
def FAB_LT_STAT_ABSENT : BitField := ⟨19, 0⟩
def GRD_CTRL_WCLR : BitField := ⟨31, 24⟩
def GRD_CTRL_MEAS_LIMIT : BitField := ⟨23, 16⟩
def GRD_CTRL_EN : BitField := ⟨0, 0⟩
def GRD_STAT_HL : BitField := ⟨23, 8⟩
def GRD_STAT_TO : BitField := ⟨7, 4⟩
def GRD_STAT_WARN : BitField := ⟨3, 3⟩
def GRD_STAT_TRIP : BitField := ⟨2, 2⟩
def GRD_STAT_SAFE : BitField := ⟨0, 0⟩
def GRD_SAFE_EXIT : BitField := ⟨1, 1⟩
def GRD_SAFE_ENTER : BitField := ⟨0, 0⟩
def GRD_TRIPIN_LEVEL : BitField := ⟨19, 18⟩
def GRD_TRIPIN_USED : BitField := ⟨17, 16⟩
def GRD_TRIPIN_FILT1 : BitField := ⟨15, 8⟩
def GRD_TRIPIN_FILT0 : BitField := ⟨7, 0⟩
def GRD_CRS_TRIP_TRIP : BitField := ⟨7, 0⟩
def GRD_PEND_CTL_PARTIAL : BitField := ⟨3, 3⟩
def GRD_PEND_CTL_PENDING : BitField := ⟨2, 2⟩
def GRD_PEND_CTL_DISCARD : BitField := ⟨1, 1⟩
def GRD_PEND_CTL_ARM : BitField := ⟨0, 0⟩
def GRD_FIRST_EVT_VALID : BitField := ⟨39, 39⟩
def GRD_FIRST_EVT_EVENT : BitField := ⟨27, 16⟩
def GRD_FIRST_EVT_RING : BitField := ⟨15, 12⟩
def GRD_FIRST_EVT_POS : BitField := ⟨11, 4⟩
def GRD_FIRST_EVT_NODE_SIDE : BitField := ⟨3, 3⟩
def GRD_IRQ_STAT_SRC_DIFF : BitField := ⟨3, 3⟩
def GRD_IRQ_STAT_SAFE : BitField := ⟨2, 2⟩
def GRD_IRQ_STAT_WARN : BitField := ⟨1, 1⟩
def GRD_IRQ_STAT_TRIP : BitField := ⟨0, 0⟩
def GRD_MATRIX_EN : BitField := ⟨39, 39⟩
def GRD_MATRIX_LATCH : BitField := ⟨38, 38⟩
def GRD_MATRIX_SAFE : BitField := ⟨37, 37⟩
def GRD_MATRIX_STOP : BitField := ⟨36, 36⟩
def GRD_MATRIX_TREE : BitField := ⟨35, 35⟩
def GRD_MATRIX_IRQ : BitField := ⟨34, 34⟩
def GRD_MATRIX_HL : BitField := ⟨19, 4⟩
def GRD_MATRIX_TO : BitField := ⟨3, 0⟩
def LSI_CTRL_EN : BitField := ⟨0, 0⟩
def LSI_STAT_GROUP_OVER : BitField := ⟨23, 20⟩
def LSI_STAT_FS : BitField := ⟨19, 16⟩
def LSI_STAT_RESTARTED : BitField := ⟨15, 12⟩
def LSI_STAT_LOST : BitField := ⟨11, 8⟩
def LSI_STAT_NIGHT_WIN : BitField := ⟨7, 4⟩
def LSI_STAT_RUNNING : BitField := ⟨0, 0⟩
def LSI_WD_NIGHT : BitField := ⟨26, 16⟩
def LSI_WD_DAY : BitField := ⟨5, 0⟩
def LSI_CMD_CHAN : BitField := ⟨39, 34⟩
def LSI_CMD_DIL : BitField := ⟨6, 4⟩
def LSI_CMD_OP : BitField := ⟨1, 0⟩
def LSI_CMD_STAT_QFREE : BitField := ⟨39, 32⟩
def LSI_CMD_STAT_APPLIED : BitField := ⟨31, 8⟩
def LSI_CMD_STAT_RESULT : BitField := ⟨7, 0⟩
def LSI_IRQ_STAT_GROUP_OVER : BitField := ⟨6, 6⟩
def LSI_IRQ_STAT_DIE_LOST : BitField := ⟨5, 5⟩
def LSI_IRQ_STAT_FS : BitField := ⟨4, 4⟩
def LSI_IRQ_STAT_OT : BitField := ⟨3, 3⟩
def LSI_IRQ_STAT_OC : BitField := ⟨2, 2⟩
def LSI_IRQ_STAT_OPEN : BitField := ⟨1, 1⟩
def LSI_IRQ_STAT_CMD_FAIL : BitField := ⟨0, 0⟩
def LSI_CH_CFG_FS : BitField := ⟨29, 28⟩
def LSI_CH_CFG_HLMASK : BitField := ⟨27, 24⟩
def LSI_CH_CFG_RETRIES : BitField := ⟨23, 20⟩
def LSI_CH_CFG_INTERVAL : BitField := ⟨19, 16⟩
def LSI_CH_CFG_WARM : BitField := ⟨15, 8⟩
def LSI_CH_CFG_OC_LEVEL : BitField := ⟨7, 4⟩
def LSI_CH_CFG_OC_TIME : BitField := ⟨3, 0⟩
def CRS_STAT_MODE : BitField := ⟨23, 20⟩
def CRS_STAT_RESTARTING : BitField := ⟨19, 19⟩
def CRS_STAT_RESYNC : BitField := ⟨18, 18⟩
def CRS_STAT_PENDING : BitField := ⟨17, 17⟩
def CRS_STAT_ALIVE_OK : BitField := ⟨16, 16⟩
def CRS_STAT_HALTED : BitField := ⟨10, 8⟩
def CRS_STAT_RETIRED : BitField := ⟨6, 4⟩
def CRS_STAT_DUTY : BitField := ⟨2, 0⟩
def CRS_WIN_WIN : BitField := ⟨16, 0⟩
def CRS_CFG_ALIVE_MS : BitField := ⟨27, 20⟩
def CRS_CFG_RETIRE_MS : BitField := ⟨19, 0⟩
def CRS_MODE_REQ_CORE : BitField := ⟨5, 4⟩
def CRS_MODE_REQ_OP : BitField := ⟨3, 0⟩
def CRS_MODE_STAT_OP : BitField := ⟨7, 4⟩
def CRS_MODE_STAT_RESULT : BitField := ⟨3, 0⟩
def CRS_READY_READY : BitField := ⟨0, 0⟩
def CRS_BOOT_VEC_ADDR : BitField := ⟨33, 0⟩
def CRS_RESTART_VEC_ADDR : BitField := ⟨33, 0⟩
def CRS_LAST_MIS_VALID : BitField := ⟨39, 39⟩
def CRS_LAST_MIS_ODD : BitField := ⟨35, 33⟩
def CRS_LAST_MIS_BUS : BitField := ⟨32, 32⟩
def CRS_LAST_MIS_LC : BitField := ⟨31, 0⟩
def CRS_IRQ_STAT_ALIVE_LAPSE : BitField := ⟨5, 5⟩
def CRS_IRQ_STAT_MODE_DONE : BitField := ⟨4, 4⟩
def CRS_IRQ_STAT_RESTART : BitField := ⟨3, 3⟩
def CRS_IRQ_STAT_RETIRE : BitField := ⟨2, 2⟩
def CRS_IRQ_STAT_RESYNC_DONE : BitField := ⟨1, 1⟩
def CRS_IRQ_STAT_MISMATCH : BitField := ⟨0, 0⟩
def WLD_CTRL_EN : BitField := ⟨0, 0⟩
def WLD_HO_REQ_NEW : BitField := ⟨39, 32⟩
def WLD_HO_REQ_KIND : BitField := ⟨31, 30⟩
def WLD_HO_REQ_OP : BitField := ⟨13, 12⟩
def WLD_HO_REQ_ID : BitField := ⟨9, 0⟩
def WLD_HO_STAT_NEW : BitField := ⟨39, 32⟩
def WLD_HO_STAT_KIND : BitField := ⟨31, 30⟩
def WLD_HO_STAT_RESULT : BitField := ⟨23, 20⟩
def WLD_HO_STAT_ID : BitField := ⟨9, 0⟩
def WLD_DBG_LOCKED : BitField := ⟨39, 39⟩
def WLD_DBG_VMS : BitField := ⟨23, 8⟩
def WLD_DBG_HYP : BitField := ⟨7, 7⟩
def WLD_DBG_CREST_INV : BitField := ⟨5, 5⟩
def WLD_DBG_CREST_NINV : BitField := ⟨4, 4⟩
def WLD_DBG_SEC_INV : BitField := ⟨3, 3⟩
def WLD_DBG_SEC_NINV : BitField := ⟨2, 2⟩
def WLD_DBG_NS_INV : BitField := ⟨1, 1⟩
def WLD_DBG_NS_NINV : BitField := ⟨0, 0⟩
def WLD_DENY_ADDR_VALID : BitField := ⟨39, 39⟩
def WLD_DENY_ADDR_WRITE : BitField := ⟨38, 38⟩
def WLD_DENY_ADDR_ADDR : BitField := ⟨33, 0⟩
def WLD_DENY_WHO_SYSTEM : BitField := ⟨5, 5⟩
def WLD_DENY_WHO_IDENT : BitField := ⟨4, 0⟩
def WLD_RGN_BASE_EN : BitField := ⟨39, 39⟩
def WLD_RGN_BASE_ADDR : BitField := ⟨33, 0⟩
def WLD_RGN_LIMIT_EN : BitField := ⟨39, 39⟩
def WLD_RGN_LIMIT_ADDR : BitField := ⟨33, 0⟩
def WLD_RGN_ACC_EN : BitField := ⟨39, 39⟩
def WLD_RGN_ACC_ADDR : BitField := ⟨33, 0⟩
def WLD_FIXED_READ : BitField := ⟨39, 20⟩
def WLD_FIXED_WRITE : BitField := ⟨19, 0⟩
def WLD_UNIT_OWN_OWNER : BitField := ⟨39, 32⟩
def WLD_UNIT_OWN_DEFAULT : BitField := ⟨31, 24⟩
def WLD_UNIT_OWN_STATE : BitField := ⟨23, 22⟩
def WLD_UNIT_OWN_READ : BitField := ⟨19, 0⟩
def WLD_UNIT_AUTH_OWNER : BitField := ⟨39, 32⟩
def WLD_UNIT_AUTH_DEFAULT : BitField := ⟨31, 24⟩
def WLD_UNIT_AUTH_STATE : BitField := ⟨23, 22⟩
def WLD_UNIT_AUTH_READ : BitField := ⟨19, 0⟩
def IRQ_CTRL_EN : BitField := ⟨0, 0⟩
def IRQ_SET_SRC : BitField := ⟨9, 0⟩
def IRQ_CLR_SRC : BitField := ⟨9, 0⟩
def IRQ_SRC_OWNER : BitField := ⟨39, 32⟩
def IRQ_SRC_TARGET : BitField := ⟨31, 24⟩
def IRQ_SRC_PRIO : BitField := ⟨23, 16⟩
def IRQ_SRC_LEVEL : BitField := ⟨3, 3⟩
def IRQ_SRC_ACTIVE : BitField := ⟨2, 2⟩
def IRQ_SRC_PENDING : BitField := ⟨1, 1⟩
def IRQ_SRC_EN : BitField := ⟨0, 0⟩
def IRQ_SEND_SEND : BitField := ⟨19, 0⟩
def MBX_CTRL_EN : BitField := ⟨0, 0⟩
def MBX_HO_REQ_NEW : BitField := ⟨39, 32⟩
def MBX_HO_REQ_KIND : BitField := ⟨31, 30⟩
def MBX_HO_REQ_RESULT : BitField := ⟨23, 20⟩
def MBX_HO_REQ_OP : BitField := ⟨13, 12⟩
def MBX_HO_REQ_ID : BitField := ⟨5, 0⟩
def MBX_HO_STAT_NEW : BitField := ⟨39, 32⟩
def MBX_HO_STAT_KIND : BitField := ⟨31, 30⟩
def MBX_HO_STAT_RESULT : BitField := ⟨23, 20⟩
def MBX_HO_STAT_OP : BitField := ⟨13, 12⟩
def MBX_HO_STAT_ID : BitField := ⟨5, 0⟩
def MBX_PTR_PTR : BitField := ⟨33, 0⟩
def MBX_DOORBELL_SEQ : BitField := ⟨39, 24⟩
def MBX_DOORBELL_TAG : BitField := ⟨23, 16⟩
def MBX_DOORBELL_LEN : BitField := ⟨15, 0⟩
def MBX_TX_STAT_CREDITS : BitField := ⟨39, 35⟩
def MBX_TX_STAT_DONE : BitField := ⟨32, 32⟩
def MBX_TX_STAT_LAST : BitField := ⟨31, 16⟩
def MBX_TX_STAT_RESULT : BitField := ⟨7, 0⟩
def MBX_DONE_VALID : BitField := ⟨32, 32⟩
def MBX_DONE_SEQ : BitField := ⟨31, 16⟩
def MBX_DONE_CODE : BitField := ⟨15, 0⟩
def MBX_ACK_SEQ : BitField := ⟨39, 24⟩
def MBX_ACK_CODE : BitField := ⟨15, 0⟩
def MBX_RX_STAT_QUEUED : BitField := ⟨39, 35⟩
def MBX_RX_STAT_RESULT : BitField := ⟨7, 0⟩
def MBX_FI_CFG_WEIGHT : BitField := ⟨39, 32⟩
def MBX_FI_CFG_RATE : BitField := ⟨28, 0⟩
def MBX_FI_CMD_OP : BitField := ⟨2, 0⟩
def MBX_FI_STAT_STATE : BitField := ⟨39, 37⟩
def MBX_FI_STAT_RESULT : BitField := ⟨36, 34⟩
def MBX_FI_STAT_TASKS : BitField := ⟨33, 22⟩
def MBX_FI_STAT_FCODE : BitField := ⟨19, 12⟩
def MBX_FI_STAT_FTASK : BitField := ⟨11, 0⟩
def SWC_CTRL_EN : BitField := ⟨0, 0⟩
def SWC_BUF_ALLOC : BitField := ⟨29, 15⟩
def SWC_BUF_FREE : BitField := ⟨14, 0⟩
def SWC_IRQ_STAT_PRP : BitField := ⟨3, 3⟩
def SWC_IRQ_STAT_MIRROR_DROP : BitField := ⟨2, 2⟩
def SWC_IRQ_STAT_INJ_DROP : BitField := ⟨1, 1⟩
def SWC_IRQ_STAT_PUSHOUT : BitField := ⟨0, 0⟩
def SWC_MIRROR_MODE : BitField := ⟨39, 38⟩
def SWC_MIRROR_ANA : BitField := ⟨37, 35⟩
def SWC_MIRROR_DIR_RX : BitField := ⟨34, 34⟩
def SWC_MIRROR_DIR_TX : BitField := ⟨33, 33⟩
def SWC_MIRROR_SRC : BitField := ⟨32, 22⟩
def SWC_MIRROR_N : BitField := ⟨15, 0⟩
def SWC_MIRROR_FLOW_EN : BitField := ⟨39, 39⟩
def SWC_MIRROR_FLOW_INDEX : BitField := ⟨13, 0⟩
def SWC_PRP_EN : BitField := ⟨39, 39⟩
def SWC_PRP_AGE : BitField := ⟨15, 0⟩
def SWC_FDB_CMD_OP : BitField := ⟨39, 38⟩
def SWC_FDB_CMD_INDEX : BitField := ⟨13, 0⟩
def SWC_FDB_STAT_RESULT : BitField := ⟨39, 32⟩
def SWC_FDB_STAT_COUNT : BitField := ⟨14, 0⟩
def SWC_LIMIT_LIMIT : BitField := ⟨13, 0⟩
def SWC_PORT_PVID : BitField := ⟨31, 20⟩
def SWC_PORT_DCLASS : BitField := ⟨19, 17⟩
def SWC_PORT_T7 : BitField := ⟨16, 16⟩
def SWC_PORT_ACCEPT : BitField := ⟨15, 14⟩
def SWC_VLAN_VALID : BitField := ⟨39, 39⟩
def SWC_VLAN_UU_FLOOD : BitField := ⟨38, 38⟩
def SWC_VLAN_MC_FLOOD : BitField := ⟨37, 37⟩
def SWC_VLAN_VID : BitField := ⟨33, 22⟩
def SWC_VLAN_MEMBER : BitField := ⟨21, 11⟩
def SWC_VLAN_UNTAG : BitField := ⟨10, 0⟩
def HP_TX_BASE_BASE : BitField := ⟨33, 0⟩
def HP_RX_BASE_BASE : BitField := ⟨33, 0⟩
def HP_TX_CTL_SIZE : BitField := ⟨38, 26⟩
def HP_TX_CTL_TAIL : BitField := ⟨25, 13⟩
def HP_TX_CTL_HEAD : BitField := ⟨12, 0⟩
def HP_RX_CTL_SIZE : BitField := ⟨38, 26⟩
def HP_RX_CTL_TAIL : BitField := ⟨25, 13⟩
def HP_RX_CTL_HEAD : BitField := ⟨12, 0⟩
def HP_STAT_ERR : BitField := ⟨3, 3⟩
def HP_STAT_RX_NOBUF : BitField := ⟨2, 2⟩
def HP_STAT_TX_DONE : BitField := ⟨1, 1⟩
def HP_STAT_RX_DONE : BitField := ⟨0, 0⟩
def MAC_CTRL_PAUSE_EN : BitField := ⟨3, 3⟩
def MAC_CTRL_EN : BitField := ⟨0, 0⟩
def MAC_STAT_LINK : BitField := ⟨7, 7⟩
def MAC_STAT_SPEED_BAD : BitField := ⟨6, 6⟩
def MAC_STAT_PAUSED : BitField := ⟨5, 5⟩
def MAC_STAT_MODABS : BitField := ⟨4, 4⟩
def MAC_STAT_LOS : BitField := ⟨3, 3⟩
def MAC_STAT_TXFLT : BitField := ⟨2, 2⟩
def MAC_PAUSE_QUANTA : BitField := ⟨15, 0⟩
def MAC_IRQ_STAT_MGMT_DONE : BitField := ⟨3, 3⟩
def MAC_IRQ_STAT_ERR : BitField := ⟨2, 2⟩
def MAC_IRQ_STAT_HALF : BitField := ⟨1, 1⟩
def MAC_IRQ_STAT_LINK_CHG : BitField := ⟨0, 0⟩
def MAC_MGMT_CMD_OP : BitField := ⟨39, 38⟩
def MAC_MGMT_CMD_REG : BitField := ⟨37, 33⟩
def MAC_MGMT_CMD_ADDR : BitField := ⟨31, 16⟩
def MAC_MGMT_CMD_DATA : BitField := ⟨15, 0⟩
def MAC_MGMT_STAT_BUSY : BitField := ⟨39, 39⟩
def MAC_MGMT_STAT_RESULT : BitField := ⟨38, 36⟩
def MAC_MGMT_STAT_PHYAD : BitField := ⟨20, 16⟩
def MAC_MGMT_STAT_DATA : BitField := ⟨15, 0⟩
def MAC_HALF_HALF : BitField := ⟨31, 0⟩
def TIME_CTRL_CAP_EN : BitField := ⟨1, 1⟩
def TIME_CTRL_SERVO_EN : BitField := ⟨0, 0⟩
def TIME_STAT_EPOCH : BitField := ⟨39, 24⟩
def TIME_STAT_POWERED_GAP : BitField := ⟨7, 7⟩
def TIME_STAT_REPHASE : BitField := ⟨6, 6⟩
def TIME_STAT_CAND : BitField := ⟨5, 4⟩
def TIME_STAT_PEND : BitField := ⟨3, 3⟩
def TIME_STAT_VALID : BitField := ⟨2, 2⟩
def TIME_STAT_STATE : BitField := ⟨1, 0⟩
def TIME_INC_NS : BitField := ⟨39, 32⟩
def TIME_INC_FRAC : BitField := ⟨31, 0⟩
def TIME_SERVO_KP : BitField := ⟨39, 20⟩
def TIME_SERVO_KI : BitField := ⟨19, 0⟩
def TIME_CFG_STEP_THR : BitField := ⟨39, 26⟩
def TIME_CFG_LOCK_NS : BitField := ⟨25, 14⟩
def TIME_CFG_SYNC_TO : BitField := ⟨7, 0⟩
def TIME_UTC_VALID : BitField := ⟨18, 18⟩
def TIME_UTC_LEAP61 : BitField := ⟨17, 17⟩
def TIME_UTC_LEAP59 : BitField := ⟨16, 16⟩
def TIME_UTC_OFFSET : BitField := ⟨15, 0⟩
def TIME_EPOCH_SEL_IDX : BitField := ⟨3, 0⟩
def TIME_CAP_CFG_EDGE : BitField := ⟨37, 0⟩
def TIME_CAP_INFO_VALID : BitField := ⟨39, 39⟩
def TIME_CAP_INFO_INPUT : BitField := ⟨38, 34⟩
def TIME_CAP_INFO_RISE : BitField := ⟨33, 33⟩
def TIME_CAP_INFO_SEQ : BitField := ⟨31, 0⟩
def TIME_IRQ_STAT_VALID : BitField := ⟨7, 7⟩
def TIME_IRQ_STAT_UTC_CHG : BitField := ⟨6, 6⟩
def TIME_IRQ_STAT_HOLDOVER : BitField := ⟨5, 5⟩
def TIME_IRQ_STAT_CAP_LOST : BitField := ⟨4, 4⟩
def TIME_IRQ_STAT_CAPTURE : BitField := ⟨3, 3⟩
def TIME_IRQ_STAT_CAND : BitField := ⟨2, 2⟩
def TIME_IRQ_STAT_EPOCH : BitField := ⟨1, 1⟩
def TIME_IRQ_STAT_LOCK_CHG : BitField := ⟨0, 0⟩
def TIME_PPS_MODE : BitField := ⟨39, 38⟩
def TIME_PPS_WIDTH : BitField := ⟨37, 28⟩
def CAN_CTRL_MODE : BitField := ⟨39, 38⟩
def CAN_CTRL_ABO : BitField := ⟨37, 37⟩
def CAN_CTRL_RECOVER : BitField := ⟨36, 36⟩
def CAN_CTRL_ABORT : BitField := ⟨35, 35⟩
def CAN_CTRL_TX_LIMIT : BitField := ⟨34, 29⟩
def CAN_NBT_TDCO : BitField := ⟨39, 32⟩
def CAN_NBT_BRP : BitField := ⟨29, 22⟩
def CAN_NBT_TSEG1 : BitField := ⟨21, 14⟩
def CAN_NBT_TSEG2 : BitField := ⟨13, 7⟩
def CAN_NBT_SJW : BitField := ⟨6, 0⟩
def CAN_DBT_TDCO : BitField := ⟨39, 32⟩
def CAN_DBT_BRP : BitField := ⟨29, 22⟩
def CAN_DBT_TSEG1 : BitField := ⟨21, 14⟩
def CAN_DBT_TSEG2 : BitField := ⟨13, 7⟩
def CAN_DBT_SJW : BitField := ⟨6, 0⟩
def CAN_STAT_STATE : BitField := ⟨39, 37⟩
def CAN_STAT_FROZEN : BitField := ⟨36, 36⟩
def CAN_STAT_LEC : BitField := ⟨35, 32⟩
def CAN_STAT_TEC : BitField := ⟨15, 8⟩
def CAN_STAT_REC : BitField := ⟨7, 0⟩
def CAN_TX_PUSH_TAG : BitField := ⟨39, 32⟩
def CAN_TX_STAT_FREE : BitField := ⟨39, 34⟩
def CAN_TX_STAT_LAST_TAG : BitField := ⟨33, 26⟩
def CAN_TX_STAT_RESULT : BitField := ⟨25, 24⟩
def CAN_RX_STAT_COUNT : BitField := ⟨39, 32⟩
def CAN_RX_STAT_POP : BitField := ⟨0, 0⟩
def CAN_IRQ_STAT_WAKE : BitField := ⟨3, 3⟩
def CAN_IRQ_STAT_ERR : BitField := ⟨2, 2⟩
def CAN_IRQ_STAT_TX : BitField := ⟨1, 1⟩
def CAN_IRQ_STAT_RX : BitField := ⟨0, 0⟩
def CAN_SW_ID_EN : BitField := ⟨39, 39⟩
def CAN_SW_ID_IDE : BitField := ⟨38, 38⟩
def CAN_SW_ID_DLC : BitField := ⟨37, 34⟩
def CAN_SW_ID_DMASK_EN : BitField := ⟨33, 33⟩
def CAN_SW_ID_FEC_WAKE : BitField := ⟨32, 32⟩
def CAN_SW_ID_RATE : BitField := ⟨31, 29⟩
def CAN_SW_ID_ID : BitField := ⟨28, 0⟩
def CAN_SW_MASK_CLASS : BitField := ⟨39, 38⟩
def CAN_SW_MASK_MASK : BitField := ⟨28, 0⟩
def CAN_SW_STAT_FEC : BitField := ⟨39, 34⟩
def CAN_SW_STAT_MATCH : BitField := ⟨33, 33⟩
def CAN_SW_STAT_FEC_OVF : BitField := ⟨32, 32⟩
def CAN_FLT_EN : BitField := ⟨39, 39⟩
def CAN_FLT_IDE : BitField := ⟨38, 38⟩
def CAN_FLT_FDF : BitField := ⟨37, 36⟩
def CAN_FLT_ACTION : BitField := ⟨35, 33⟩
def CAN_FLT_ID_or_MASK : BitField := ⟨28, 0⟩
def COL_CTRL_EN : BitField := ⟨0, 0⟩
def COL_STREAM_EN : BitField := ⟨39, 39⟩
def COL_STREAM_DIR : BitField := ⟨38, 38⟩
def COL_STREAM_SID : BitField := ⟨31, 0⟩
def COL_HOLD_HOLD : BitField := ⟨9, 0⟩
def COL_EVT_EN : BitField := ⟨39, 39⟩
def COL_EVT_IDE : BitField := ⟨38, 38⟩
def COL_EVT_ID : BitField := ⟨28, 0⟩
def COL_IRQ_STAT_PROXY : BitField := ⟨3, 3⟩
def COL_IRQ_STAT_IRING : BitField := ⟨2, 2⟩
def COL_IRQ_STAT_ORING : BitField := ⟨1, 1⟩
def COL_IRQ_STAT_DROP : BitField := ⟨0, 0⟩
def GIO_DI_STATE : BitField := ⟨31, 0⟩
def GIO_DI_CHG_STATE : BitField := ⟨31, 0⟩
def GIO_DIN_STATE : BitField := ⟨31, 0⟩
def GIO_DEB_SAMPLES : BitField := ⟨7, 0⟩
def GIO_AI_CFG_EN : BitField := ⟨31, 16⟩
def GIO_AI_CFG_MODE : BitField := ⟨15, 0⟩
def GIO_WAKE_CFG_FW_LIMIT : BitField := ⟨39, 36⟩
def GIO_WAKE_CFG_BACKOFF : BitField := ⟨16, 0⟩
def GIO_WAKE_VAL_OPEN : BitField := ⟨39, 39⟩
def GIO_WAKE_VAL_FALSE : BitField := ⟨20, 12⟩
def GIO_WAKE_VAL_VALID : BitField := ⟨8, 0⟩
def GIO_WAKE_FW_COUNT : BitField := ⟨39, 32⟩
def GIO_WAKE_FW_BACKOFF : BitField := ⟨31, 31⟩
def GIO_WAKE_FW_CLEAR : BitField := ⟨30, 30⟩
def GIO_WAKE_FW_REMAIN : BitField := ⟨16, 0⟩
def GIO_IRQ_STAT_BACKOFF : BitField := ⟨3, 3⟩
def GIO_IRQ_STAT_WAKE_JUDGED : BitField := ⟨2, 2⟩
def GIO_IRQ_STAT_AI_OOR : BitField := ⟨1, 1⟩
def GIO_IRQ_STAT_DI_CHG : BitField := ⟨0, 0⟩
def FUSE_STAT_LIFECYCLE : BitField := ⟨39, 38⟩
def FUSE_STAT_DBG_LOCK : BitField := ⟨37, 37⟩
def FUSE_STAT_KEY_VALID : BitField := ⟨36, 33⟩
def FUSE_STAT_REVOKED : BitField := ⟨32, 29⟩
def FUSE_STAT_BUSY : BitField := ⟨28, 28⟩
def FUSE_STAT_RESULT : BitField := ⟨27, 24⟩
def FUSE_ARB_ARB3 : BitField := ⟨27, 21⟩
def FUSE_ARB_ARB2 : BitField := ⟨20, 14⟩
def FUSE_ARB_ARB1 : BitField := ⟨13, 7⟩
def FUSE_ARB_ARB0 : BitField := ⟨6, 0⟩
def FUSE_PROG_OP : BitField := ⟨39, 36⟩
def FUSE_PROG_SEL : BitField := ⟨35, 34⟩
def DBG_STAT_LOCKED : BitField := ⟨39, 39⟩
def DBG_STAT_ATTACHED : BitField := ⟨38, 38⟩
def FAB_MC_CTRL_OP : BitField := ⟨39, 38⟩
def FAB_MC_STAT_SPARE : BitField := ⟨39, 37⟩
def FAB_MC_STAT_IN_FORCE : BitField := ⟨36, 36⟩
def FAB_MC_STAT_RESULT : BitField := ⟨35, 32⟩
def FAB_MC_STAT_LOADED : BitField := ⟨31, 16⟩
def COL_ORING_BASE_BASE : BitField := ⟨33, 0⟩
def COL_ORING_CTL_SIZE : BitField := ⟨38, 26⟩
def COL_ORING_CTL_TAIL : BitField := ⟨25, 13⟩
def COL_ORING_CTL_HEAD : BitField := ⟨12, 0⟩
def COL_IRING_BASE_BASE : BitField := ⟨33, 0⟩
def COL_IRING_CTL_SIZE : BitField := ⟨38, 26⟩
def COL_IRING_CTL_TAIL : BitField := ⟨25, 13⟩
def COL_IRING_CTL_HEAD : BitField := ⟨12, 0⟩

end Fld

/-- The registers whose cards give a reset value other than 0: first address, count and stride of the outer and of the
inner index, and the value. -/
def resetRows : List (Nat × Nat × Nat × Nat × Nat × Nat) := [
  (0x10000008, 1, 0x1, 1, 0x1, 0x0000000003),
  (0x10010000, 1, 0x1, 1, 0x1, 0x0000000001),
  (0x10010010, 1, 0x1, 1, 0x1, 0x0000000601),
  (0x10E00020, 1, 0x1, 1, 0x1, 0x8000015180),
  (0x10100800, 1, 0x1, 1, 0x1, 0x0000030000),
  (0x10100102, 16, 0x1000, 1, 0x1, 0xFFFF000000),
  (0x10100103, 16, 0x1000, 1, 0x1, 0xFFFFFFFFFF),
  (0x10100119, 16, 0x1000, 1, 0x1, 0x1000000000),
  (0x10100200, 16, 0x1000, 160, 0x1, 0xFF00000000),
  (0x10100001, 16, 0x1000, 1, 0x1, 0x0000000080),
  (0x10100108, 16, 0x1000, 1, 0x1, 0x0000030064),
  (0x10200000, 1, 0x1, 1, 0x1, 0x0003840000),
  (0x10200014, 1, 0x1, 1, 0x1, 0x4000000000),
  (0x10300000, 1, 0x1, 1, 0x1, 0x0046000004),
  (0x10300030, 1, 0x1, 1, 0x1, 0x0000002710),
  (0x10300040, 16, 0x1, 1, 0x1, 0x4000000000),
  (0x10300100, 512, 0x1, 1, 0x1, 0xC000000000),
  (0x10300004, 1, 0x1, 1, 0x1, 0x40000A00C8),
  (0x10020000, 1, 0x1, 1, 0x1, 0x0008030000),
  (0x10020001, 1, 0x1, 1, 0x1, 0x00000000F0),
  (0x10700002, 1, 0x1, 1, 0x1, 0x00012C000A),
  (0x10700012, 1, 0x1, 1, 0x1, 0x2000000000),
  (0x10400000, 1, 0x1, 1, 0x1, 0x0000100007),
  (0x10400001, 1, 0x1, 1, 0x1, 0x0000000400),
  (0x10400002, 1, 0x1, 1, 0x1, 0x0000A927C0),
  (0x10600102, 64, 0x10, 1, 0x1, 0x8000000000),
  (0x10600800, 16, 0x8, 1, 0x1, 0x0100000000),
  (0x10800002, 1, 0x1, 1, 0x1, 0x0000103FE0),
  (0x10800028, 1, 0x1, 1, 0x1, 0x0000000190),
  (0x10040008, 1, 0x1, 1, 0x1, 0x0800000000),
  (0x10040009, 1, 0x1, 1, 0x1, 0x0020000040),
  (0x1004000C, 1, 0x1, 1, 0x1, 0x01F4190028),
  (0x10040048, 1, 0x1, 1, 0x1, 0x0640000000),
  (0x10A00000, 4, 0x1000, 1, 0x1, 0x0400000000),
  (0x10A0001F, 4, 0x1000, 1, 0x1, 0x8000000000),
  (0x10C00003, 1, 0x1, 1, 0x1, 0x0000000032),
  (0x10C00040, 1, 0x1, 1, 0x1, 0x3000000E10)
]

/-- The reset value of the register at an address (R9): the card's, and 0 where no card names the address. -/
def regReset (a : Nat) : Word :=
  if 0x10501000 ≤ a ∧ a < 0x10501400 then (if a < 0x10501200 then 0xFF0008#40 else 0xFF0000#40)
  else
    match resetRows.find? fun (b, n, s, m, t, _) =>
        b ≤ a && decide ((a - b) / s < n) && decide ((a - b) % s / t < m) && decide ((a - b) % s % t = 0) with
    | some (_, _, _, _, _, v) => BitVec.ofNat 40 v
    | none => 0

end Sys2Proof.Machine
end

