-- ==== Sys2Proof/Machine/Tab.lean ====
section
/-! DEFINITION. Sparse tables: lists of key and value in ONE canonical form (keys strictly rising, no entry equal to what
an unlisted key reads as), with the operations that keep it. Registers, memories and every per-index piece of state
are such tables. -/

namespace Sys2Proof.Machine

/-- A sparse table; `d` below is what an unlisted key reads as. -/
abbrev Tab (α : Type) := List (Nat × α)

namespace Tabs

/-- The value at a key. -/
def get {α : Type} (d : Nat → α) : Tab α → Nat → α
  | [], k => d k
  | (j, v) :: t, k => if k = j then v else get d t k

/-- The table with a key's entry removed. -/
def drop {α : Type} (t : Tab α) (k : Nat) : Tab α := t.filter fun e => e.1 != k

/-- The table with an entry listed for a key. -/
def put {α : Type} : Tab α → Nat → α → Tab α
  | [], k, v => [(k, v)]
  | (j, w) :: t, k, v =>
    if k = j then (k, v) :: t else if k < j then (k, v) :: (j, w) :: t else (j, w) :: put t k v

/-- Writes a value at a key, keeping the canonical form: a value equal to the unlisted one is not listed. -/
def set {α : Type} [DecidableEq α] (d : Nat → α) (t : Tab α) (k : Nat) (v : α) : Tab α :=
  if v = d k then drop t k else put t k v

/-- Every key of a table lies above a bound, and the keys rise strictly. -/
def risingFrom {α : Type} : Nat → Tab α → Bool
  | _, [] => true
  | b, (j, _) :: t => decide (b ≤ j) && risingFrom (j + 1) t

/-- The canonical form: keys strictly rising, no entry equal to the unlisted value. -/
def wf {α : Type} [DecidableEq α] (d : Nat → α) (t : Tab α) : Bool :=
  risingFrom 0 t && t.all fun e => decide (e.2 ≠ d e.1)

/-- The table without the entries of keys lo to hi: every key there reads as unlisted again. -/
def clear {α : Type} (t : Tab α) (lo hi : Nat) : Tab α :=
  t.filter fun e => e.1 < lo || hi < e.1

/-- The table with only the entries of keys lo to hi. -/
def keep {α : Type} (t : Tab α) (lo hi : Nat) : Tab α :=
  t.filter fun e => lo ≤ e.1 && e.1 ≤ hi

/-- Applies a change at one key. -/
def modify {α : Type} [DecidableEq α] (d : Nat → α) (t : Tab α) (k : Nat) (f : α → α) : Tab α :=
  set d t k (f (get d t k))

end Tabs

end Sys2Proof.Machine
end

