-- ==== Sys2Proof/Machine/State/Can.lean ====
section
/-! DEFINITION. The state of the CAN controllers, the Col gateway and the proxies beyond their registers (spec/21). -/

namespace Sys2Proof.Machine

/-- A CAN frame: its header word and its data (R667). -/
structure CanFrame where
  hdr : Word
  data : List Byte
  deriving DecidableEq, Repr

/-- A frame of the transmit FIFO (R655). -/
structure CanTx where
  frame : CanFrame
  tag : Nat
  deriving DecidableEq, Repr

/-- A frame of a receive queue (R658). -/
structure CanRx where
  frame : CanFrame
  info : Word
  lc : Nat
  ofs : Nat
  deriving DecidableEq, Repr

/-- A controller beyond its registers. -/
structure CanCtl where
  tx : List CanTx := []
  /-- The head is being sent, and what happens at the end of its attempt: an ABORT, or a mode that has left BUS. -/
  abort : Bool := false
  leaving : Option CanTx := none
  /-- The controller is bus-off, or was as it fell asleep (R653, R654). -/
  busOff : Bool := false
  q0 : List CanRx := []
  q1 : List CanRx := []
  /-- The previous accepted frame, when an error flag began at the last bit of its end-of-frame (R659). -/
  last : Option CanFrame := none
  deriving DecidableEq, Repr

/-- An output of the gateway in a queue (R669 to R671): the frame, the input port, and the network time of its end-of-frame; or
a side-band event: code, n, TEC, REC. -/
structure ColOut where
  frame : CanFrame
  input : Nat
  time : Option Int := none
  event : Option (Nat × Nat × Nat × Nat) := none
  deriving DecidableEq, Repr

/-- A proxy object's declaration (R674). -/
structure ProxyCfg where
  can : Nat
  req : Word
  rsp : Word
  fd : Bool
  obj : Nat
  type : Nat
  len : Nat
  maxAge : Nat := 1000
  timeout : Nat := 100
  retryMs : Nat := 20
  role : Nat := 0
  deriving DecidableEq, Repr

/-- A proxy object (R675, R676). STATE: 0 EMPTY, 1 FETCHING, 2 FRESH, 3 FAILED; `at_` is the LC at which it was entered. -/
structure Proxy where
  state : Nat := 0
  kind : Nat := 0
  at_ : Nat := 0
  lc : Nat := 0
  tag : Nat := 0
  value : List Byte := []
  acc : List Byte := []
  /-- The index of the last segment accepted. -/
  seg : Option Nat := none
  deriving DecidableEq, Repr

/-- The CAN controllers, the gateway and the proxies beyond their registers. -/
structure Can where
  ctls : Tab CanCtl := []
  outq : Tab (List ColOut) := []
  /-- The next sequence_num of each outbound stream, and the one expected of each inbound stream, plus 1 (R672). -/
  seqOut : Tab Nat := []
  seqIn : Tab Nat := []
  proxies : Tab Proxy := []
  /-- The last TAG drawn for each controller. -/
  tags : Tab Nat := []
  deriving DecidableEq, Repr

end Sys2Proof.Machine
end

