-- ==== Sys2Proof/Machine/State/Memory.lean ====
section
/-! DEFINITION. Memories, NOR flash and fuses (spec/05, spec/22). -/

namespace Sys2Proof.Machine

/-- A container of RAM: its data, its version tag, whether it is poisoned, and the bit error in it that no read has found yet
(R144, R147, R148). A container that nothing has written holds 0 with tag 0 and is sound (DESIGN CHOICE, log entry 2). -/
structure Container where
  data : Word := 0
  tag : BitVec 16 := 0
  poisoned : Bool := false
  flaw : Flaw := .sound
  deriving DecidableEq, Repr

/-- The error counts of one memory (R147, R148, R165): each count saturates at 0xF_FFFF. -/
structure Ecc where
  ce : Nat := 0
  ue : Nat := 0
  ceAddr : Nat := 0
  ueAddr : Nat := 0
  ceValid : Bool := false
  ueValid : Bool := false
  deriving DecidableEq, Repr

/-- A NOR operation in progress (R166). -/
structure NorOp where
  erase : Bool
  addr : Nat
  len : Nat
  src : Nat
  who : Nat
  deriving DecidableEq, Repr

/-- A range of NOR words that an aborted operation left undefined (R160): first word, last word, and the number of the
abort, which names the free values its words hold. -/
structure NorHole where
  lo : Nat
  hi : Nat
  gen : Nat
  deriving DecidableEq, Repr

/-- The NOR flash (R157): the words that differ from what is unlisted, and the undefined ranges. -/
structure Nor where
  words : Tab Word := []
  holes : List NorHole := []
  deriving DecidableEq, Repr

/-- The fuses (R697, R706 to R710, R713). All unprogrammed at reset (DESIGN CHOICE, log entry 4). -/
structure Fuse where
  /-- 0 BLANK, 1 DEVELOP, 2 PRODUCT, 3 RETIRED (R708). -/
  lifecycle : Nat := 0
  dbgLock : Bool := false
  /-- VALID fuses of KEY0 to KEY3 (R697). -/
  keyValid : BitVec 4 := 0
  /-- REVOKE fuses of KEY0 to KEY3 (R697). -/
  revoked : BitVec 4 := 0
  /-- The first 32 bytes of the key hashes, as seven words a key in the layout of FUSE_KEY (R713). -/
  key : Tab Word := []
  /-- The anti-rollback fields 0 to 3 (R706). -/
  arb0 : Nat := 0
  arb1 : Nat := 0
  arb2 : Nat := 0
  arb3 : Nat := 0
  serial : BitVec 64 := 0
  mac : BitVec 48 := 0
  deriving DecidableEq, Repr

end Sys2Proof.Machine
end

