-- ==== Sys2Proof/Machine/State/Cores.lean ====
section
/-! DEFINITION. The state of the OL40 cores: the eleven system cores and the 512 engines (spec/10). -/

namespace Sys2Proof.Machine

/-- What a core was doing when the secure world was entered from the normal world (R511). -/
structure Shadow where
  g : Tab Word
  acc : Tab (BitVec 96)
  flags : Word
  byTrap3 : Bool
  deriving DecidableEq, Repr

/-- The architectural state of one core (R320, R335). Unlisted registers read 0, which is their reset value. -/
structure Core where
  /-- g1 to g31; g0 is never listed (R320). -/
  g : Tab Word := []
  pc : Word := 0
  /-- acc0 to acc3 (R320). -/
  acc : Tab (BitVec 96) := []
  /-- STATUS, cr2 (R335). -/
  status : Word
  /-- FLAGS, cr3: [4] SAT, [3:0] ACC_OV (R326). -/
  flags : Word := 0
  /-- The other control registers, by number; the banked ones of the normal world at 128 + number (R335). -/
  cr : Tab Word := []
  cycles : Word := 0
  retired : Word := 0
  /-- Waiting in IDLE until an interrupt is pending (R334). -/
  idle : Bool := false
  /-- Halted into the debug unit (R334, R498, R526). -/
  halted : Bool := false
  /-- Held in reset. -/
  inReset : Bool := true
  /-- A debug halt waits for an enabled state (R526). -/
  haltPending : Bool := false
  /-- Halted, and released for one instruction (R498). -/
  stepping : Bool := false
  /-- The bank of R511 that no instruction can read. -/
  shadow : Option Shadow := none
  deriving DecidableEq, Repr

/-- A cached translation of one page of 4 096 words, with the core that holds it and its tags (R345). -/
structure CachedXlat where
  /-- Crest cores 0 to 2, application cores 8 to 15. -/
  core : Nat
  stage2 : Bool
  /-- Whose stage-1 regime: 1, 2 or 3 (R343). -/
  regime : Nat
  ns : Bool
  asid : Nat
  vmid : Nat
  vpage : Nat
  /-- The output page number. -/
  out : Nat
  /-- Descriptor bits [11:2], as a number. -/
  attr : Nat
  deriving DecidableEq, Repr

/-- The kinds of engine task, in the order of R347. -/
inductive TaskKind where
  | step | rollback | release | audit | inst | selftest
  deriving DecidableEq, Repr

/-- A task an engine runs (R348, R349). -/
structure Task where
  kind : TaskKind
  spec : Bool := false
  cold : Bool := false
  sigcap : Bool := false
  level : Nat := 0
  frame : Nat := 0
  page : Nat := 0
  /-- TASK_LC, cr96. -/
  lc : Nat := 0
  slot : Nat := 0
  /-- Undo data entries still reserved for this step, cr98. -/
  wbound : Nat := 0
  /-- CKPT has run in this task (R352, R353). -/
  ckpt : Bool := false
  /-- The fabric instance of an INSTANCE task. -/
  fi : Nat := 0
  /-- CYCLES at the dispatch, from which an INSTANCE task's clocks are counted (R545). -/
  start : Word := 0
  deriving DecidableEq, Repr

/-- An entry of an engine's undo log (R281): a step boundary with its LC, or an old word with its old tag. -/
structure Undo where
  boundary : Bool
  frame : Nat
  ofs : Nat := 0
  tag : BitVec 16 := 0
  /-- The LC of a boundary, the old data otherwise. -/
  word : Word
  /-- Its containers are poisoned. -/
  poisoned : Bool := false
  /-- A bit error in them that no read has found yet. -/
  flaw : Flaw := .sound
  deriving DecidableEq, Repr

/-- A stream of a task that is still outstanding (R354). -/
structure Stream where
  /-- PSW, out of the working area. -/
  write : Bool
  tgt : Nat
  loc : Nat
  target : Nat
  /-- Words to move. -/
  words : Nat
  deriving DecidableEq, Repr

/-- An engine: its core, working area, undo log and task (R347 to R357). -/
structure Engine where
  core : Core
  /-- Working-area containers written in this task; the others are marked unwritten and read 0 (R348, R350). -/
  work : Tab Container := []
  /-- The undo log, oldest entry first. -/
  undo : List Undo := []
  task : Option Task := none
  /-- SIG, cr99 (R356). -/
  sig : Word := 0
  /-- Outstanding streams in issue order. -/
  streams : List Stream := []
  /-- The register that the next dispatch loads with TASK: rd of the last ENDT (R348). -/
  endRd : Nat := 0
  /-- The last report to the fabric manager: the code of R337, 0 for an end, with TINFO or the signature (R348, R357). -/
  report : Option (Nat × Word) := none
  deriving DecidableEq, Repr

/-- The Crest cluster beyond its registers (R483 to R497). -/
structure Crest where
  /-- Each core's signature register (R488). -/
  sig : Tab Word := []
  /-- The core whose logic self-test runs: odd, or joining (R490, R494). -/
  testing : Option Nat := none
  /-- A core that a stop left held in reset until a JOIN (R500). -/
  held : Option Nat := none
  /-- Powered ms at which each core's last resynchronisation completed, plus 1; 0 for none (R491). -/
  resyncAt : Tab Nat := []
  /-- Powered ms of the duty group's last stops, newest first (R492). -/
  stops : List Nat := []
  /-- The third stop within 60 s: held in reset until the next device reset (R492). -/
  off : Bool := false
  /-- The pending mode request: OP and core (R494). -/
  request : Option (Nat × Nat) := none
  /-- Core k has written CRS_READY again in a pending HANDOVER (R495). -/
  validated : Bool := false
  /-- In lapse (R497). -/
  lapse : Bool := false
  /-- The cells that request balancing, by cell, and the cycle of the last decision, plus 1 (R420). -/
  balReq : Tab Bool := []
  balAt : Nat := 0
  deriving DecidableEq, Repr

end Sys2Proof.Machine
end

