-- ==== Sys2Proof/Machine/State/Fabric.lean ====
section
/-! DEFINITION. What the CFG declares for the fabric, and the state of the fabric manager and the journal unit (spec/09,
spec/11, spec/12). -/

namespace Sys2Proof.Machine

/-- The operations of a reduction (R293). -/
inductive RedOp where
  | min | max | argmin | argmax | sum
  deriving DecidableEq, Repr

/-- A reduction of a rack or device page: an operation over a point of each source page, placed at an offset (R293). -/
structure Reduction where
  op : RedOp
  source : Nat
  deriving DecidableEq, Repr

/-- A declared cell (R286, R397): its rack, the inputs the CELL section assigns to it beyond its own voltage, and its page's
initial points. Inputs are identifiers in the layout of R380. -/
structure CellCfg where
  rack : Nat
  temp : Nat
  current : Nat
  /-- Up to four auxiliary inputs, at 0x008 + 2i (R289). -/
  aux : List Nat
  /-- Initial points of the page, by offset. -/
  init : Tab Word
  deriving DecidableEq, Repr

/-- A declared rack or device page, or the FMC-declared inputs of a node page: (offset, input identifier), the reductions, and
the initial points (R291 to R293). -/
structure PageCfg where
  inputs : List (Nat × Nat)
  reductions : List Reduction
  init : Tab Word
  deriving DecidableEq, Repr

/-- An external channel (R363). -/
structure ExtCfg where
  sampled : Bool
  init : Word
  /-- Role that KOP writes of it need, at least OPERATOR (R391). -/
  role : Nat
  deriving DecidableEq, Repr

/-- The CELL and FABRIC sections as the fabric uses them (R125, R363, R384, R387, R418, R420). -/
structure FabCfg where
  cells : Tab (Option CellCfg) := []
  /-- Declared nodes, racks and device pages, by page number. -/
  pages : Tab (Option PageCfg) := []
  ext : Tab (Option ExtCfg) := []
  /-- A placement table, by page: (engine, frame); else R294. -/
  placement : Tab (Option (Nat × Nat)) := []
  /-- The 14 points of the provisional view, for cell pages and for rack and device pages (R375). -/
  viewCell : List Nat := (List.range 14).map (0x40 + ·)
  viewRack : List Nat := (List.range 14).map (0xC0 + ·)
  /-- The FMC's command inputs: (page, point written, input offset) (R289, R301). -/
  cmdInputs : List (Nat × Nat × Nat) := []
  /-- The racks whose balancing is enabled (R420). -/
  balance : List Nat := []
  /-- The collectors' addresses (R384). -/
  collectors : List Nat := []
  statePeriod : Nat := 3600000
  /-- CELLMAP_ID: the first 40 bits of the CELL section's digest (R133). -/
  cellmap : Word := 0
  deriving DecidableEq, Repr, Inhabited

/-- The state of a page (R295), in the order of PAGE_STATE. -/
inductive PageState where
  | undeclared | resident | transit | rebuilding | unplaced
  deriving DecidableEq, Repr

/-- A page (R295 to R303, R370 to R376). -/
structure Page where
  state : PageState := .undeclared
  engine : Nat := 0
  frame : Nat := 0
  /-- The target of a migration in progress: engine and frame. -/
  target : Option (Nat × Nat) := none
  /-- A migration that waits for the page's running step. -/
  moveTo : Option (Nat × Nat) := none
  /-- LC of the last step that has ended, certain or speculative, plus 1; 0 for none. -/
  last : Nat := 0
  /-- LC of the last certain step, plus 1; 0 for none. -/
  certain : Nat := 0
  /-- LCs of the speculative steps that have ended and are not yet certain, oldest first. -/
  spec : List Nat := []
  /-- LC of the last cold pass, plus 1; 0 for none. -/
  cold : Nat := 0
  /-- S_g, the hot shadow's LC, plus 1; 0 for none. -/
  shadowLc : Nat := 0
  /-- A rollback is pending from this LC (R372). -/
  rollback : Option Nat := none
  /-- The certain steps a rebuild runs again, up to this LC plus 1 (R307). -/
  rebuildTo : Nat := 0
  /-- LC of the cycle whose reductions are placed, plus 1 (R296). -/
  reduced : Nat := 0
  /-- LC of the last STATE record, plus 1 (R387). -/
  stateRec : Nat := 0
  /-- The runs of CV_RUN have begun: empty side and full side (R406, R408). -/
  runs : Bool × Bool := (false, false)
  /-- The parameter words 0x200 to 0x31F as of the last cold pass (R301). -/
  params : Tab Word := []
  /-- The rebuilt step raised an exception at this LC before (R357). -/
  excAt : Option Nat := none
  /-- The words that the manager overwrites as a speculative step starts, by its LC, newest first: a rollback puts the page
  back as it stood before (R365, R372). -/
  saved : List (Nat × List Word) := []
  /-- The points that reductions take from the page, after each step, by its LC, newest first (R293). -/
  sources : List (Nat × List (Nat × Word)) := []
  /-- The highest LC whose step has ever run, plus 1: a step below it runs again (R372). -/
  ran : Nat := 0
  /-- A page restart is due before the page is used again (R308). -/
  restart : Bool := false
  /-- The LC of the speculative step that waits for the undo log, plus 1: it has been counted (R282). -/
  stalled : Nat := 0
  /-- The page is rebuilt once its migration has arrived (R304). -/
  rebuild : Bool := false
  deriving DecidableEq, Repr

/-- The phases of an audit (R310, R311). -/
structure Audit where
  page : Nat
  /-- The cycle m, once the owner has run the step. -/
  lc : Nat
  /-- The hot segment as it stood before the step. -/
  snapshot : List Word
  owner : Nat
  ownerSig : Option Word := none
  auditor : Option Nat := none
  auditorSig : Option Word := none
  /-- The engine of the third run, while it runs. -/
  third : Option Nat := none
  /-- What a step keeps beside the hot segment: the parameters as of the last cold pass, and the runs of CV_RUN. -/
  params : Tab Word := []
  runs : Bool × Bool := (false, false)
  deriving DecidableEq, Repr

/-- A point read that waits for its step and its commit (R300): who asked, the point, and the captured answer. -/
structure PointRead where
  session : Nat
  tag : Nat
  page : Nat
  ofs : Nat
  value : Option (Nat × Word) := none
  deriving DecidableEq, Repr

/-- A known input of a cycle (R362): a value with its status, or an absent marker. -/
inductive InVal where
  | value (v st : Word)
  | absent
  deriving DecidableEq, Repr

/-- A declared switch of the CFG or the FMC (R369). -/
structure Switch where
  lc : Nat
  build : Word
  acc : Nat
  slot : Nat
  deriving DecidableEq, Repr

/-- The fabric manager and the journal unit (R295 to R314, R360 to R386). -/
structure Fab where
  pages : Tab Page := []
  /-- Quarantine cause of each engine, 0 none (R309). -/
  quar : Tab Nat := []
  audit : Option Audit := none
  /-- LC of the last audit's start, plus 1 (R310). -/
  auditAt : Nat := 0
  /-- LC at which an island was last powered on or off, plus 1 (R313). -/
  islandAt : Nat := 0
  /-- LC of the last HELD refusal of each island, plus 1 (R314). -/
  heldAt : Tab Nat := []
  reads : List PointRead := []
  /-- Point writes with their commit LC: (LC, page, offset, word) (R301). -/
  writes : List (Nat × Nat × Nat × Word) := []
  /-- Known inputs, by LC × 2^40 + identifier (R362). -/
  inputs : Tab (Option InVal) := []
  /-- Latest EVENT value of each external channel: its history as (LC, value, status), newest first (R363). -/
  events : Tab (List (Nat × Word × Word)) := []
  /-- Reductions of completed cycles: (page, LC, results), newest first (R306). -/
  history : List (Nat × Nat × List Word) := []
  /-- Closed Day spans, newest first: first and last cycle (R361). -/
  spans : List (Nat × Nat) := []
  /-- First cycle of the Day span in progress, plus 1 (R361). -/
  spanStart : Nat := 0
  /-- Last cycle of a closed span, plus 1; 0 while the span runs. -/
  spanEnd : Nat := 0
  /-- Night record placed for the span (R362). -/
  wake : Nat := 0
  /-- A write of FAB_LT_CFG that takes effect at the next SI (R367). -/
  ltCfg : Option Word := none
  /-- The exporter's last datagram was a GAP (R385, R386). -/
  exportGap : Bool := false
  /-- LC of the latest CYCLE record (R380). -/
  cycleRec : Nat := 0
  /-- LT_COUNT 0 to 5 (R391). -/
  ltCount : Tab Nat := []
  cfgSwitch : Option Switch := none
  mcSwitch : Option Switch := none
  /-- The first cycle that the slot in force governs; earlier ones run from the other slot (R369). -/
  mcSince : Nat := 0
  /-- The journal of the span has been ended with its end-of-Day record (R80). -/
  ended : Bool := false
  /-- Cycles of Day since the last checkpoint (R132). -/
  sinceCkpt : Nat := 0
  /-- The island that the manager empties before it powers it off (R313). -/
  evac : Option Nat := none
  /-- Pages that are to return to an island powered on again, and have not yet (R302, R314). -/
  homing : List Nat := []
  deriving DecidableEq, Repr

end Sys2Proof.Machine
end

