-- ==== Sys2Proof/Machine/State/Kop.lean ====
section
/-! DEFINITION. The state of the Kollos Object Protocol and of the plant tree's summaries (spec/20, spec/23), and what the OD and
TREE sections declare of them. -/

namespace Sys2Proof.Machine

/-- The keys that protect a session (R633), as numbers of 128 bits. -/
structure KopKeys where
  cd : Nat := 0
  dc : Nat := 0
  deriving DecidableEq, Repr

/-- A handshake that waits for its FINISH (R632). -/
structure Handshake where
  path : Nat
  src : Nat
  id : Nat
  role : Nat
  /-- The client's certificate, as it came, and how it came: 0 UDP IPv4, 1 UDP IPv6, 2 raw. -/
  cert : List Byte
  transport : Nat
  keys : KopKeys
  /-- TH, as a number of 512 bits. -/
  th : Nat
  /-- t0 in powered ms. -/
  at_ : Nat
  deriving DecidableEq, Repr

/-- A request in execution (R640): its SEQ, its response items in order, empty for one that waits, the OP and OID of each, and the
powered ms of its arrival. -/
structure KopWait where
  seq : Nat
  items : List (List Byte)
  heads : List (List Byte)
  at_ : Nat
  deriving DecidableEq, Repr

/-- A session (R634 to R641). PATH: 0 VM0, 1 minimal, 2 recovery, 3 the secure firmware. -/
structure Session where
  path : Nat
  entry : Nat
  id : Nat
  role : Nat
  src : Nat
  keys : KopKeys := {}
  serial : Nat := 0
  anchor : Nat := 0
  transport : Nat := 0
  unchecked : Bool := false
  /-- Powered ms of the last message that passed its tag. -/
  seen : Nat := 0
  last : Option Nat := none
  /-- The response cache: SEQ and the message (R641). -/
  cache : List (Nat × List Byte) := []
  waits : List KopWait := []
  notices : Nat := 0
  deriving DecidableEq, Repr

/-- A write with commit LC that is pending (R644), and its session's entry. -/
structure LcWrite where
  oid : Nat
  acc : Nat
  lc : Nat
  type : Nat
  value : List Byte
  ticket : Nat
  session : Nat
  deriving DecidableEq, Repr

/-- An entry of the command log (R646, R649). -/
structure CmdLog where
  ticket : Nat := 0
  oid : Nat := 0
  acc : Nat := 0
  lc : Nat := 0
  outcome : Nat := 0
  status : Nat := 0
  deriving DecidableEq, Repr

/-- The object server. -/
structure Kop where
  sessions : List Session := []
  hands : List Handshake := []
  /-- The HELLOs accepted in the last second: by the secure firmware or not, and powered ms. -/
  hellos : List (Bool × Nat) := []
  counts : Tab Nat := []
  ticket : Nat := 0
  log : Tab CmdLog := []
  pend : List LcWrite := []
  /-- IDLE_TIMEOUT by role in s, and REQ_TIMEOUT in ms, where written (R649). -/
  idle : Tab Nat := []
  reqTimeout : Option Nat := none
  /-- LOG_SELECT (R141), when written. -/
  logSel : Option Nat := none
  /-- Running totals of the RC registers that objects mirror (R620), by address. -/
  totals : Tab Nat := []
  /-- Values of read-write objects whose component holds them (R705), by OID. -/
  held : Tab (List (BitVec 8)) := []
  /-- The response item of the last item executed by a command of its own (the model's own record). -/
  item : List (BitVec 8) := []
  deriving DecidableEq, Repr

/-- An anchor of the OD section (R649). -/
structure Anchor where
  index : Nat
  ceiling : Nat
  key : List Byte
  deriving DecidableEq, Repr

/-- A tenant area (R625). -/
structure TenantArea where
  area : Nat
  vm : Nat
  readRole : Nat
  writeRole : Nat
  channel : Nat
  deriving DecidableEq, Repr

/-- The OD section. -/
structure OdCfg where
  anchors : List Anchor := []
  revoked : List Nat := []
  tenants : List TenantArea := []
  idle : List Nat := [60, 300, 300, 900]
  reqTimeout : Nat := 5000
  /-- VM0_PATH: addresses, VLAN, port mask, and whether the raw EtherType is enabled; MINIMAL_PATH: VLAN and port mask (R109). -/
  vm0Ip4 : Nat := 0
  vm0Ip6 : Nat := 0
  vm0Vlan : Nat := 0
  vm0Ports : Nat := 0
  rawOn : Bool := false
  minVlan : Nat := 0
  minPorts : Nat := 0
  deriving DecidableEq, Repr, Inhabited

/-- The summaries of the plant tree (R725): the totals of each child by cycle and child, as the frame's body, and the latest
totals sent or published. -/
structure Tree where
  subs : Tab (List Byte) := []
  total : List Byte := []
  /-- The cycle of the latest summary, plus 1. -/
  sent : Nat := 0
  deriving DecidableEq, Repr

end Sys2Proof.Machine
end

