-- ==== Sys2Proof/Machine/State/Links.lean ====
section
/-! DEFINITION. What leaves the block, and the logs it keeps (R137 to R140). -/

namespace Sys2Proof.Machine

/-- Where bytes or events leave the block. -/
inductive Link where
  /-- A frame of a ring instance, out of end A or end B. -/
  | vanik (inst : Nat) (endB : Bool)
  /-- A datagram to a collector (R384). -/
  | collector (addr : Nat)
  /-- A Kollos message to a client's address and port (R627). -/
  | client (src : Nat)
  /-- A frame out of an Ethernet port. -/
  | eth (port : Nat)
  /-- A frame out of a CAN port. -/
  | can (bus : Nat)
  /-- A command to a load die. -/
  | die (d : Nat)
  /-- The management or two-wire bus. -/
  | mgmt (bus : Nat)
  deriving DecidableEq, Repr

/-- The fault log's place: the index of the next entry, its SEQ, and BOOT_COUNT (R137, R138). -/
structure LogPos where
  next : Nat := 0
  seq : Nat := 1
  boot : Nat := 0
  deriving DecidableEq, Repr

/-- The build identifiers of the images in force (R381, R686). -/
structure Builds where
  cfg : Word := 0
  fmc : Word := 0
  hvf : Word := 0
  cfw : Word := 0
  sfw : Word := 0
  deriving DecidableEq, Repr

end Sys2Proof.Machine
end

