-- ==== Sys2Proof/Machine/State/Power.lean ====
section
/-! DEFINITION. The state of the power controller, boot and the wake unit beyond their registers (spec/03, spec/04, spec/21). -/

namespace Sys2Proof.Machine

/-- The power controller beyond its registers. -/
structure Power where
  /-- The last reset: its cause, the boot mode in force, GOLD set, CONFIG slot B, the straps (R111, R115, R141). -/
  cause : Nat := 0
  mode : Nat := 0
  gold : Bool := false
  slotB : Bool := false
  straps : Nat := 3
  /-- CONFIG_SEQ of the CFG in force, and the check codes of both slots at the last boot (R141). -/
  configSeq : Word := 0
  checks : Nat × Nat := (0, 0)
  /-- A CFG is in force; the recovery server runs (R130). -/
  configured : Bool := false
  recovery : Bool := false
  /-- The boot has reached Control; boots in a row that ended before (R122); powered ms of the last lockout reset, plus 1. -/
  reached : Bool := false
  failed : Nat := 0
  lockout : Nat := 0
  /-- The accepted Night (1) and shutdown (2) commands of PWR_CMD with their LCs (R77); a reset command's LC (R113). -/
  cmds : List (Nat × Nat) := []
  reset : Option Nat := none
  /-- The Dusk in progress ends in a reset with cause COMMAND. -/
  thenReset : Bool := false
  /-- Committed cycles in a row with every rack current below PWR_NIGHT_ITH, and D with which the dwell was first complete (R76,
  R78). -/
  quiet : Nat := 0
  dwellAt : Option Nat := none
  /-- T0 of the last Dusk, as an LC (R80); the last gasp runs, and VIN has returned in it (R98). -/
  duskAt : Nat := 0
  gasp : Bool := false
  vinBack : Bool := false
  /-- VIN was lost while LG_READY was clear: the gasp is the short one (R97). -/
  short : Bool := false
  /-- The mask of retired Crest cores in the retained state (R491). -/
  retired : Nat := 0
  /-- Wake sources that became active in a Dusk with target Night (R93). -/
  wakes : Nat := 0
  /-- The LC of SI(S) + 50 and later: bursts run (R83). -/
  burstAt : Nat := 0
  /-- Clock sources that have been restarted once since their last start (R73), and the sources of the next burst that failed twice:
  the burst runs without them (R73, R84). -/
  restarted : Nat := 0
  unclocked : Nat := 0
  /-- A Night has ended whose record no Day cycle has taken in yet (R88). -/
  night : Bool := false
  /-- The highest service level reached since the boot or the last Dawn began (R92, R110). -/
  top : Nat := 0
  /-- The DRAM or the common part of VFAB has been lost since Full (R110). -/
  lost : Bool := false
  /-- The step of R90 that failed (R92). -/
  stepFail : Nat := 0
  /-- DATA of the CHECKPOINT_RESTART entry of a cold restart whose span has not begun (R136); a pending switch was cancelled by the
  restart (R369). -/
  restart : Option Word := none
  cancelled : Bool := false
  /-- A step of R118 has failed: the boot goes no further (R120). -/
  stuck : Bool := false
  /-- DISPATCH (R663), and the wake class that the next span's DAY_START carries, plus 1 for a wake. -/
  dispatch : Bool := true
  /-- The first cycle that DISPATCH governs as it stands; the cycles before it had the other value (R663). -/
  dispatchAt : Nat := 0
  /-- The last SOC_TJ of Day, and the highest since the last boot with cause POWER_ON, once one is measured (R746). -/
  tj : Option (BitVec 40 × BitVec 40) := none
  wakeClass : Nat := 0
  /-- The window of R664: its last LC; a KOP session was admitted; the controllers with a frame that passed. -/
  judgeAt : Nat := 0
  kopSeen : Bool := false
  canSeen : Nat := 0
  /-- The end of each source's back-off in powered ms, plus 1 (R666). -/
  backoff : Tab Nat := []
  /-- Accounted and unavailable time in ms, and the boot they run from (R33, R624). -/
  accounted : Nat := 0
  unavailable : Nat := 0
  sinceBoot : Nat := 0
  /-- The LC of step 3 of the last Dusk (R272). -/
  nightFrom : Nat := 0
  /-- By node: whether its first value (bit 0) and its second (bit 1) have been folded into the Night record (R87). -/
  folded : Tab Nat := []
  deriving DecidableEq, Repr

end Sys2Proof.Machine
end

