-- ==== Sys2Proof/Machine/State/Rings.lean ====
section
/-! DEFINITION. What the CFG declares for rings, snapshot, guards and load dies, and their state beyond the registers (spec/06
to spec/08, spec/13, spec/14). -/

namespace Sys2Proof.Machine

/-! ### Rings -/

/-- The node identity that the RING section binds to a position (R173). -/
structure Bind where
  uid : Nat
  aux : Bool
  hop : Nat
  deriving DecidableEq, Repr

/-- An allowlist entry (R234); hop 0xFF means any. -/
structure Allow where
  uid : Nat
  aux : Bool
  pos : Nat
  hop : Nat
  deriving DecidableEq, Repr

/-- The RING section of an instance (R211, R216). -/
structure RingCfg where
  cfg : Word
  seg : Word
  start : Word
  decl : List Word
  peerId : Nat
  bind : Tab (Option Bind)
  allow : List Allow
  sparePos : List Nat
  dAB : Nat
  dBA : Nat
  deriving DecidableEq, Repr

/-- An addressed command from its queuing to its end (R205 to R211). -/
structure RingCmd where
  target : Nat
  op : Nat
  args : List Byte
  seq : Nat
  /-- The first ring cycle that it counts for (R209). -/
  ready : Nat
  /-- The ring cycle in which it was last sent; `none` while it is queued. -/
  sent : Option Nat := none
  repeats : Nat := 0
  /-- A THRESH of Crest (R428). -/
  thresh : Bool := false
  deriving DecidableEq, Repr

/-- A DY descriptor in flight (R213): its index, direction BA, window, and the request's cycle. -/
structure DyFlight where
  idx : Nat
  ba : Bool
  window : Nat
  lc : Nat
  hopAddr : Bool
  target : Nat
  svc : Nat
  tag : Nat
  deriving DecidableEq, Repr

/-- An ASSIGN (R223, R224): how many have been sent, the cycle of the last, and whether the position is assigned or absent. -/
structure Assign where
  sent : Nat := 0
  at_ : Nat := 0
  done : Bool := false
  absent : Bool := false
  /-- The ASSIGN is due again. -/
  due : Bool := false
  deriving DecidableEq, Repr

/-- A claim that waits for the leader's decision (R235, R236): the ring cycle it counts for, and when it arrived in its direction. -/
structure Claim where
  uid : Nat
  aux : Bool
  hop : Nat
  lc : Nat
  relayed : Bool
  ba : Bool
  arr : Nat := 0
  deriving DecidableEq, Repr

/-- A spare slot beyond its register (R234 to R239). -/
structure Spare where
  uid : Nat := 0
  /-- The hop index of the claim granted; a slot learnt at take-over has none. -/
  hop : Option Nat := none
  /-- The ring cycle that the GT named. -/
  from_ : Nat := 0
  /-- The cycle of the release mark. -/
  mark : Option Nat := none
  /-- The last cycle in which a valid frame arrived in the slot, plus 1, and the POS it carried. -/
  lastValid : Nat := 0
  lastPos : Nat := 0
  deriving DecidableEq, Repr

/-- A ring instance beyond its registers (R214 to R248). -/
structure Ring where
  /-- EN has been set and no ring cycle has begun since: whether the next one begins 40 µs later is open (R218, R219). -/
  early : Bool := false
  /-- The first ring cycle C1 after EN, plus 1; and cycle L, plus 1 (R218, R219). -/
  c1 : Nat := 0
  lead : Nat := 0
  /-- The role that the end takes when the next ring cycle begins: 0 as it is, 1 it leads a cold start (R219), 2 it leads by take-over
  (R230), 3 the owner leads again and 4 the standby is standby again (R233). -/
  next : Nat := 0
  /-- A CS of the ring has been sent or received (R220). -/
  csSeen : Bool := false
  /-- The segments of this cycle after the CS slot have been sent, up to the DM link phase. -/
  segs : Bool := false
  /-- A SLEEP is due in the GT slot (R220, R248). -/
  sleepDue : Bool := false
  /-- The leader is in Night: its next burst cycle, in this device's LC (R247). -/
  burstNext : Option Nat := none
  /-- On a closed ring end A leads (R214), and its judging is over (R218). -/
  leaderA : Bool := true
  judged : Bool := false
  backoff : Nat := 0
  nonce : Nat := 0
  /-- Cycles in a row with a valid leader CS (R222). -/
  csRun : Nat := 0
  /-- In this cycle: valid CS and ACC from the other end at end A and at end B, and the leader's CS. -/
  csA : Bool := false
  csB : Bool := false
  accA : Bool := false
  accB : Bool := false
  leaderCs : Bool := false
  /-- The hop indexes whose frames arrived valid in this cycle at end A, and at end B (R240). -/
  hopsA : List Nat := []
  hopsB : List Nat := []
  /-- The cold start of R225 is complete, and the cycle in which it was. -/
  complete : Bool := false
  completeAt : Nat := 0
  assign : Tab Assign := []
  cmds : List RingCmd := []
  /-- CMDSEQ of the last command to each position (R205). -/
  seqs : Tab Nat := []
  /-- DY descriptors in flight, the next to issue, and those answered before an earlier one: index and word 12 on (R213). -/
  dy : List DyFlight := []
  /-- ASSIGN requests of the last two cycles, by window; `idx` is the position (R188). -/
  asg : List DyFlight := []
  dyNext : Nat := 0
  dyDone : List (Nat × List Word) := []
  claims : List Claim := []
  /-- What the GT slot of this cycle carries, a GT or an SU: its type and payload (R220). -/
  gtSent : Option (Nat × List Byte) := none
  spare : Tab Spare := []
  /-- The last cycle with a valid frame in each position's static slot, plus 1 (R234). -/
  lastValid : Tab Nat := []
  /-- Positions with a valid frame in this cycle: from AB, from BA, relayed. -/
  okAB : List Nat := []
  okBA : List Nat := []
  okRelay : List Nat := []
  /-- The FLAGS of the first valid GD of each position in this cycle (R197). -/
  gd : Tab (Option Byte) := []
  /-- The first valid MS or AX payload of each position, with its cycle (R197). -/
  first : Tab (Nat × List Byte) := []
  /-- A mirror arrived by its deadline in this cycle, or was sent in it (R226, R230, R250). -/
  mirror : Bool := false
  leaderless : Nat := 0
  /-- Cycles in a row with valid CS and ACC from the other end while the ring is broken (R242). -/
  healed : Nat := 0
  /-- The first ring cycle in which this device sent a CS, plus 1 (R432). -/
  firstCs : Nat := 0
  /-- Cycles in a row with no working port here (R432). -/
  lost : Nat := 0
  /-- The balancing masks that count for this cycle (R209), and those sent in the last cycles, newest first (R267). -/
  bal : Tab Nat := []
  balSent : List (Nat × Tab Nat) := []
  /-- The LC of the partner's last STATUS with GUARD_OK (R724); FLAGS, BREAK_A and BREAK_B of its last STATUS (R729). -/
  partnerOk : Option Nat := none
  partner : Word := 0
  deriving DecidableEq, Repr

/-- A Vanik port beyond its registers (R169, R199, R246): a valid frame in this cycle and in the last two, a valid CS in this
one, the error sum and the cycles of the block, and the delay of its link in units of 2^-3 ns. -/
structure Port where
  now : Bool := false
  last1 : Bool := false
  last2 : Bool := false
  csNow : Bool := false
  errs : Nat := 0
  cycles : Nat := 0
  link : Nat := 0
  deriving DecidableEq, Repr

/-! ### Snapshot -/

/-- What has arrived for a position in a cycle (R252 to R256): the payload used, its source, which copies came, and the byte
positions of the payload in which copies differed. -/
structure Rec where
  payload : List Byte := []
  /-- SRC of the copy used: 0 AB, 1 BA, 2 relay, 3 none. -/
  src : Nat := 3
  came : List Nat := []
  diff : List Nat := []
  /-- The record is final and has been handed on, before the closure. -/
  done : Bool := false
  deriving DecidableEq, Repr

/-- A measurement window (R273 to R275). -/
structure Win where
  state : Nat := 0
  result : Nat := 0
  src : Word := 0
  start : Nat := 0
  stop : Option Nat := none
  nValid : Nat := 0
  nOther : Nat := 0
  min : Int := 0
  minCh : Nat := 0
  max : Int := 0
  maxCh : Nat := 0
  sum : Int := 0
  deriving DecidableEq, Repr

/-- A calibration change (R262): one that took effect stays here until no earlier cycle is open. `obj` for one written as an object. -/
structure CalChg where
  lc : Nat
  entry : Nat
  words : List Word
  eff : Bool := false
  obj : Bool := false
  deriving DecidableEq, Repr

/-- The SNP beyond its registers (R251 to R278). -/
structure Snp where
  /-- The calibration store, by 8 × entry + word. -/
  cal : Tab Word := []
  staging : List Word := List.replicate 8 0
  calq : List CalChg := []
  /-- What has arrived, by LC × 2 560 + 160 × instance + position. -/
  recs : Tab Rec := []
  /-- The records that became final before the closure, by the same key: input identifier, value and status. -/
  outs : Tab (List (Nat × Word × Word)) := []
  /-- The last VALID value and the AGE of each channel (R263, R264); load channel c as 2^20 + c. -/
  last : Tab (Option Word) := []
  age : Tab Nat := []
  wins : Tab Win := []
  /-- The journal reference of each ring and position in the span: its payload (R382). -/
  refs : Tab (List Byte) := []
  /-- By (LC × 8 + ring) × 4 + source: positions whose copy equals the first valid one (R382); valid GD copies with FLAGS, and
  invalid ones (R381). -/
  copyset : Tab (List Nat) := []
  gdset : Tab (List (Nat × Byte)) := []
  gdbad : Tab (List Nat) := []
  /-- The load-die records of a cycle not yet closed, by LC × 64 + channel: value and status (R268). -/
  loads : Tab (Word × Word) := []
  deriving DecidableEq, Repr

/-! ### Guards -/

/-- The guard units beyond their registers (R429 to R441, R446). -/
structure Guard where
  /-- The events whose condition holds. -/
  cond : Tab Bool := []
  /-- Guard cycles in a row in which an active warning's condition has not held (R433). -/
  absent : Tab Nat := []
  /-- Guard cycles in a row without a compared value, by channel, and the channels that have raised MEAS (R431). -/
  meas : Tab Nat := []
  measOut : List Nat := []
  /-- Channels compared in this cycle. -/
  seen : List Nat := []
  /-- The channels of each position and kind whose codes the node has acknowledged, as masks, by (160k + p) × 32 + KIND (R185,
  R187). -/
  codes : Tab Nat := []
  /-- The events of this cycle by position: from the node's flags and from the device's comparison (R430). -/
  nodeSide : Tab (Option (List Nat)) := []
  devSide : Tab (Option (List Nat)) := []
  /-- The pending copy where it differs from the copy in force, by offset (R446). -/
  pend : Tab (Option Word) := []
  /-- Transmissions of the stop message still to send, and of the trip frame: event and REPEAT (R437, R720). -/
  stops : Nat := 0
  trips : List (Nat × Nat) := []
  /-- The first cycle at Guard has come: TRIP_OUT follows the matrix (R441). -/
  opened : Bool := false
  /-- The THRESH commands that failed and wait for their retry: instance, position and arguments (R428). -/
  failed : List (Nat × Nat × List Byte) := []
  deriving DecidableEq, Repr

/-! ### Load dies -/

/-- A channel of a load die (R456 to R476). -/
structure LoadChan where
  /-- The commanded mode: 0 OFF, 1 ON, 2 FOLLOW, and its line. -/
  mode : Nat := 0
  line : Nat := 0
  /-- A SET or a CLEAR that waits for the next SI: the mode and line, 3 for CLEAR. -/
  held : Option (Nat × Nat) := none
  cfg : Nat := 0
  heldCfg : Option Nat := none
  /-- 0 none, 5 overcurrent, 6 thermal. -/
  latch : Nat := 0
  retry : Bool := false
  retries : Nat := 0
  hardOff : Bool := false
  /-- A fail-safe state is in force for the channel, and it switched the channel: 0 not, 1 off, 2 on. -/
  fs : Bool := false
  forced : Nat := 0
  openFlag : Bool := false
  openRun : Nat := 0
  /-- The level that a FOLLOW channel conducts at. -/
  level : Bool := false
  /-- The last TAG kept and its ACK code. -/
  tag : Nat := 0
  ack : Nat := 0
  sample : Word := 0
  deriving DecidableEq, Repr

/-- A load die (R453 to R480). -/
structure Die where
  /-- VLS is at or above the lockout of 10 V; and below 16 V. -/
  powered : Bool := true
  low : Bool := false
  configured : Bool := false
  /-- The window in force: 0 Day, 1 Night; the two lengths in ms. -/
  night : Bool := false
  dayMs : Nat := 0
  nightMs : Nat := 0
  wseq : Nat := 0
  running : Bool := false
  fs : Bool := false
  /-- The response to the last request, sent with the next exchange. -/
  resp : BitVec 64 := 0
  /-- The die's temperature in °C and its supply in mV: before a measurement, the typical conditions of R732 (DESIGN CHOICE, log
  entry 40). -/
  temp : Nat := 25
  vls : Nat := 24000
  /-- The levels of the direct-input lines, and the hard lines as the die sees them: not driven reads asserted (R477). -/
  lines : Nat := 0
  hl : Nat := 15
  chans : Tab LoadChan := []
  /-- Requests in a row without a valid response (R478). -/
  silent : Nat := 0
  deriving DecidableEq, Repr

/-- A channel command in the LSI's queue (R459). -/
structure LsiCmd where
  chan : Nat
  op : Nat
  line : Nat
  lc : Nat
  deriving DecidableEq, Repr

/-- The LSI beyond its registers (R453 to R482). -/
structure Lsi where
  dies : Tab Die := []
  queue : List LsiCmd := []
  /-- TAG last drawn for each channel, and WSEQ last sent to each die. -/
  tags : Tab Nat := []
  wseqs : Tab Nat := []
  /-- The result of the last command of each channel: code and LC applied (R481). -/
  results : Tab (Nat × Nat) := []
  /-- The sums of the last samples of each die, newest first (R479). -/
  sums : Tab (List Int) := []
  /-- Declared channels, as a mask (R131). -/
  declared : Nat := 0
  /-- Configurations to send before the next SI (R482): channel c as c, die d as 64 + d. -/
  dirty : List Nat := []
  deriving DecidableEq, Repr

end Sys2Proof.Machine
end

