-- ==== Sys2Proof/Machine/State/Switch.lean ====
section
/-! DEFINITION. The state of the frame switch, the MACs and the host ports beyond their registers (spec/18). -/

namespace Sys2Proof.Machine

/-- A frame in the buffer (R560 to R567). -/
structure SwFrame where
  id : Nat
  /-- The ingress port; 11 is the injector. -/
  ingress : Nat
  cls : Nat
  /-- From the first destination byte to the end of the payload, without the FCS and without the 802.1Q tag of a frame that
  the VLAN rules govern. -/
  bytes : List Byte
  cells : Nat := 8
  /-- Wholly received with a good FCS; or ended with an error, its cut-through copies to be stomped. -/
  whole : Bool := false
  bad : Bool := false
  /-- The egress ports that hold it, those that may send it cut-through, and those that have begun. -/
  egress : List Nat
  ct : List Nat := []
  started : List Nat := []
  vid : Nat := 0
  pcp : Nat := 0
  /-- Sent as it is: a DIRECT, mirror or injected frame. -/
  raw : Bool := false
  /-- The sequence number of its redundancy control trailer. -/
  prp : Option Nat := none
  /-- A mirror copy: its original length, and whether it is a SAMPLE copy. -/
  mirror : Option (Nat × Bool) := none
  /-- The transmit descriptor that takes the egress timestamp: host port and index. -/
  stamp : Option (Nat × Nat) := none
  /-- The ingress timestamp of a PTP event message (R595). -/
  rxTime : Option Int := none
  deriving DecidableEq, Repr

/-- A frame that an EP is receiving: its frame in the buffer, whether it is MAC Control, and what mirroring took (R556). -/
structure SwRx where
  frame : Option Nat := none
  ctl : Bool := false
  sample : Bool := false
  copy : Bool := false
  /-- A frame of the PRP pair, whose stages run at its EOF (R574); the ingress timestamp of a PTP event message. -/
  late : Bool := false
  time : Option Int := none
  deriving DecidableEq, Repr

/-- A management request (R579). -/
structure MgmtReq where
  port : Nat
  op : Nat
  reg : Nat
  addr : Nat
  data : Nat
  deriving DecidableEq, Repr

/-- The switch beyond its registers. -/
structure Switcher where
  frames : List SwFrame := []
  nextId : Nat := 0
  rx : Tab (Option SwRx) := []
  /-- The frame that each egress is sending, and whether the sent frame is mirrored: SAMPLE, COPY. -/
  sending : Tab (Option (Nat × Bool × Bool)) := []
  /-- By 8 × egress + class: the ingress served last, plus 1; the deficit. By egress: the class being served, plus 1 (R566). -/
  served : Tab Nat := []
  deficit : Tab Nat := []
  turn : Tab Nat := []
  injFree : Nat := 32
  /-- The forwarding entries' three words (R559). -/
  fdb : Tab (Word × Word × Word) := []
  /-- The duplicate table: source, sequence number, port, and LC in ms; newest first (R574). -/
  keys : List (Nat × Nat × Nat × Nat) := []
  /-- The next sequence number of each declared PRP node (R573). -/
  seqs : Tab Nat := []
  sample : Nat := 0
  /-- The requests of the six MDIO windows, oldest first; and of each two-wire window. -/
  mdio : List MgmtReq := []
  wire : Tab (Option MgmtReq) := []
  deriving DecidableEq, Repr

/-- A neighbour of the TREE section (R717): DEVICE_ID, MAC address, relation 0 parent, 1 child, 2 ring partner. -/
structure Neighbour where
  dev : Nat
  mac : Nat
  rel : Nat
  deriving DecidableEq, Repr

/-- What the SWITCH and TREE sections declare beyond registers (R555, R572, R573, R579, R717). -/
structure SwitchCfg where
  /-- The ports used. -/
  ports : List Nat := []
  mac : Nat := 0
  /-- Declared PRP nodes: MAC address, and whether it is a host port. -/
  prpNodes : List (Nat × Bool) := []
  phyAd : Tab Nat := []
  /-- The egress ports and the bytes of the stop message (R437). -/
  stopFrame : List Byte := []
  stopPorts : List Nat := []
  /-- PEER_VLAN: VID by LAN; and the downlink ports, in the order of the LANs (R716, R717). -/
  peerVid : Tab Nat := []
  downlinks : List Nat := []
  neighbours : List Neighbour := []
  /-- GROUP: the group MAC address of each trip group, and its bit of GRD_CRS_TRIP; the group of each event. -/
  groupMac : Tab Nat := []
  groupBit : Tab (Option Nat) := []
  tripGroup : Tab Nat := []
  /-- PATH: the mirror-path latency in µs, by the DEVICE_ID of the ring partner (R226). -/
  paths : Tab Nat := []
  /-- The forwarding entries that the SWITCH section loads (R559). -/
  fdb : Tab (Word × Word × Word) := []
  deriving DecidableEq, Repr, Inhabited

end Sys2Proof.Machine
end

