-- ==== Sys2Proof/Machine/State/Time.lean ====
section
/-! DEFINITION. The state of the time unit beyond its registers (spec/19). Times are counted in 2⁻¹⁰ ns. -/

namespace Sys2Proof.Machine

/-- An epoch (R591). KIND: 0 FREE, 1 FIRST, 2 JUMP. -/
structure Epoch where
  num : Nat := 0
  kind : Nat := 0
  startLc : Nat := 0
  tStart : Nat := 0
  offset : Int := 0
  stretch : Nat := 0
  confirmLc : Nat := 0
  deriving DecidableEq, Repr

/-- An entry of the capture FIFO (R603). -/
structure Capture where
  input : Nat
  rise : Bool
  seq : Nat
  time : Nat
  deriving DecidableEq, Repr

/-- A pulse timer (R606): the words in force, whether it runs, and its output's high time in ns from the last period start. -/
structure PulseTimer where
  words : List Word := []
  running : Bool := false
  high : Nat := 0
  deriving DecidableEq, Repr

/-- The time unit beyond its registers. -/
structure TimeUnit where
  /-- The 16 newest epochs, newest first (R592). -/
  epochs : List Epoch := [{}]
  /-- T_SI of the last SI (R588), and the latest instant of the cycle that the machine has used. -/
  tSi : Nat := 0
  now : Nat := 0
  /-- The stretch of the cycle that follows this one's SI (R599). -/
  stretchAt : Option (Nat × Nat) := none
  /-- The servo's integral, the candidates, newest last, the run of small samples, the LC of the last sample (R596 to R598). -/
  integral : Int := 0
  cands : List Int := []
  streak : Nat := 0
  lastSample : Nat := 0
  /-- The LC at which HOLDOVER was entered. -/
  heldSince : Nat := 0
  fifo : List Capture := []
  capSeq : Nat := 0
  tims : Tab PulseTimer := []
  /-- PPS_OUT, and the LC of its last rise, plus 1 (R605). -/
  pps : Bool := false
  ppsLc : Nat := 0
  /-- The declared PTP peers that have left the choice of master, by their place, and whether the device announces (R594). -/
  gone : List Nat := []
  silent : Bool := false
  /-- CAL_QUERY, and CAL_RESULT: TAI in two words and LC_D (R609). -/
  query : Word := 0
  result : Word × Word × Word := (0, 0, 0)
  /-- Residence times of two-step Sync messages that await their Follow_Up, in 2⁻¹⁶ ns, by egress and identity (R595). -/
  residence : List (Nat × List (BitVec 8) × Nat) := []
  deriving DecidableEq, Repr

/-- What the TIME section declares beyond registers (R593, R594). -/
structure TimeCfg where
  /-- HOLD_ANN in s. -/
  holdAnn : Nat := 60
  domain : Nat := 0
  /-- The declared PTP peers: the MAC address of each, in the order of the section. -/
  peers : List Nat := []
  /-- The EP ports declared as upstream. -/
  upstream : List Nat := []
  /-- The EP ports whose link has its asymmetry declared (R270). -/
  asym : List Nat := []
  deriving DecidableEq, Repr, Inhabited

end Sys2Proof.Machine
end

