-- ==== Sys2Proof/Machine/State/Update.lean ====
section
/-! DEFINITION. The state of firmware update and of the fuse block beyond their registers (spec/22). -/

namespace Sys2Proof.Machine

/-- An activation in progress (R696 to R700): TYPE, commit LC, acceptance LC, whether its check has passed, whether the HANDOVER to the
new Crest firmware is complete, and the LC at which VM0 has halted for its new image. -/
structure Activation where
  type : Nat
  lc : Nat
  acc : Nat := 0
  started : Bool := false
  handed : Bool := false
  halted : Option Nat := none
  deriving DecidableEq, Repr

/-- A fuse operation in progress (R709). -/
structure FuseOp where
  op : Nat
  sel : Nat
  data : List Word
  deriving DecidableEq, Repr

/-- The update unit. STAGE: 0 idle, 1 erasing, 2 open, 3 checking, 4 staged, 5 failed (R712). -/
structure Update where
  stage : Nat := 0
  stageType : Nat := 0
  stageSlot : Nat := 0
  stageFail : Nat := 0
  /-- Word 0 of the header, held back (R695); of a staged CFG it stays here until its switch or INSTALL. -/
  held : Option Word := none
  heldCfg : Option Word := none
  act : Option Activation := none
  /-- UPDATE_STATE: TYPE and result (R712). -/
  updType : Nat := 0
  updResult : Nat := 0
  /-- The NOR base of the image in force of each TYPE and of each tenant slot v as 16 + v, plus 1 (R692). -/
  inForce : Tab Nat := []
  goldReason : Nat := 0
  /-- Partitions whose PROVEN image is still to be copied into ACTIVE (R702). -/
  copies : List Nat := []
  fuseOp : Option FuseOp := none
  /-- A lifecycle transition that applies from the next reset (R708). -/
  lifecycleNext : Option Nat := none
  /-- SETTINGS_RESET (R705). -/
  settings : List (Word × Word) := []
  /-- The tenants that an update of HVF SLOT 0 has stopped and that start again after it (R700). -/
  restart : List Nat := []
  /-- A reset follows an INSTALL of the minimal path or the recovery server (R703). -/
  install : Bool := false
  deriving DecidableEq, Repr

end Sys2Proof.Machine
end

