-- ==== Sys2Proof/Machine/State/Worlds.lean ====
section
/-! DEFINITION. The state of the worlds, hand-overs, VM slots, mailboxes and fabric instances beyond their registers
(spec/16, spec/17). -/

namespace Sys2Proof.Machine

/-- The states of a VM slot (R514), in the order of VM_STATE of R528. -/
inductive VmState where
  | empty | starting | running | stopping | failed
  deriving DecidableEq, Repr

/-- A VM slot (R513, R514, R528). -/
structure VmSlot where
  state : VmState := .empty
  declared : Bool := false
  poolBase : Nat := 0
  poolSize : Nat := 0
  coreMask : Nat := 0
  weight : Nat := 0
  worldChannel : Nat := 0
  faults : Nat := 0
  deriving DecidableEq, Repr

/-- A hand-over in progress: of a unit, or of a lone interrupt source (R518). -/
structure Handover where
  source : Bool
  id : Nat
  old : Nat
  new : Nat
  op : Nat
  /-- Mask bit of the requesting identity, whose WLD_HO_STAT bank takes the result. -/
  who : Nat
  deriving DecidableEq, Repr

/-- GRANT and CLAIM of an interrupt source that belongs to no unit (R517, R527). -/
structure SourceAuth where
  grant : Nat := 0
  claim : Nat := 0
  dflt : Nat := 0
  deriving DecidableEq, Repr

/-- A message on a mailbox channel (R532). -/
structure MbxMsg where
  ptr : Nat
  len : Nat
  tag : Nat
  seq : Nat
  deriving DecidableEq, Repr

/-- A mailbox channel (R531 to R537). -/
structure Channel where
  /-- Owner code of the sender, 0 when the end is open. -/
  sender : Nat := 0
  /-- Owner code of the receiver; 0x100 stands for the fabric manager on instance channels (R544). -/
  recv : Nat := 0
  dfltSender : Nat := 0
  dfltRecv : Nat := 0
  grant : Nat := 0
  claim : Nat := 0
  credits : Nat := 16
  /-- Messages accepted and not yet acknowledged, oldest first. -/
  queue : List MbxMsg := []
  /-- The last 16 acknowledged messages with non-zero SEQ and their codes, newest first (R537). -/
  history : List (Nat × Nat) := []
  /-- The completion FIFO of 32 entries, oldest first (R533). -/
  done : List (Nat × Nat) := []
  /-- LAST, when a non-zero SEQ has been accepted since the channel was reset (R537). -/
  last : Option Nat := none
  txResult : Nat := 0
  rxResult : Nat := 0
  deriving DecidableEq, Repr

/-- The states of a fabric instance (R548), in the order of FI_STATE of R551. -/
inductive FiState where
  | unassigned | idle | busy | quiescing | drained
  deriving DecidableEq, Repr

/-- The item an instance works on: a LOAD or a RUN (R544). -/
structure FiItem where
  run : Bool
  entry : Nat := 0
  tasks : Nat := 0
  /-- Tasks dispatched, and tasks ended. -/
  given : Nat := 0
  ended : Nat := 0
  /-- The return code so far, 0 while nothing has failed (R547). -/
  code : Nat := 0
  deriving DecidableEq, Repr

/-- A fabric instance (R542 to R549). -/
structure FabInst where
  state : FiState := .unassigned
  vm : Nat := 0
  dramBase : Nat := 0
  dramSize : Nat := 0
  rgOfs : Nat := 0
  rgSize : Nat := 0
  code : Nat := 0
  rateMax : Nat := 0
  taskMax : Nat := 0
  /-- The role that FI_CMD needs (R551). -/
  cmdRole : Nat := 1
  /-- Budget in engine clocks; it may go negative (R545). -/
  budget : Int := 0
  item : Option FiItem := none
  /-- A kernel has been loaded since the last reset of the instance (R547). -/
  loaded : Bool := false
  lastResult : Nat := 0
  /-- The code already decided for the message behind the running item: BUSY of a LOAD (R547). -/
  nextCode : Option Nat := none
  /-- The kernel as loaded, for ridges powered on later (R544). -/
  kernel : List Word := []
  /-- Engine clocks used since MBX_FI_USED was last read (R552). -/
  used : Nat := 0
  fcode : Nat := 0
  ftask : Nat := 0
  tinfo : Word := 0
  dfltVm : Nat := 0
  grant : Nat := 0
  claim : Nat := 0
  deriving DecidableEq, Repr

end Sys2Proof.Machine
end

