-- ==== Sys2Proof/Machine/State.lean ====
section
/-! DEFINITION. The state of the machine as plain data, and its value after reset. -/

namespace Sys2Proof.Machine

/-- Why a step stops with a fault. No meaning of this model raises one: every event of the spec has a next state. -/
inductive Fault where
  /-- Never raised. -/
  | none
  deriving DecidableEq, Repr

/-- Why a command is refused. -/
inductive Refusal where
  /-- The command has no meaning in this model: raised by the arms of exec that say so. Safe: the machine stops. -/
  | notModelled (mnemonic : String)
  deriving DecidableEq, Repr

/-- A system core at reset (R320, R335): Crest cores at L1, application cores at L3. -/
def Core.crestInit : Core := { status := 1 }

/-- An application core at reset (R335). -/
def Core.appInit : Core := { status := 3 }

/-- An engine at reset waits as if it had executed ENDT with no task in progress (R348). -/
def Engine.init : Engine := { core := { status := 0, inReset := false } }

/-- What the WORLDS section declares beyond registers and slots (R102, R536, R531, R541, R542): each channel's sender, receiver,
GRANT and CLAIM; the instances; the world and power channels by owner code, plus 1; the VM slots; GRANT and CLAIM of lone sources. -/
structure WorldsCfg where
  chans : Tab (Nat × Nat × Nat × Nat) := []
  insts : Tab FabInst := []
  worldChan : Tab Nat := []
  powerChan : Tab Nat := []
  vms : Tab VmSlot := []
  srcs : Tab SourceAuth := []
  deriving DecidableEq, Repr, Inhabited

/-- What the CFG in force declares, chapter by chapter (R125, R129). -/
structure Cfg where
  /-- DEVICE_ID of the preamble (R123). -/
  deviceId : Nat := 0
  fab : FabCfg := {}
  /-- The RING section, by instance. -/
  rings : Tab (Option RingCfg) := []
  sw : SwitchCfg := {}
  time : TimeCfg := {}
  od : OdCfg := {}
  proxies : Tab (Option ProxyCfg) := []
  worlds : WorldsCfg := {}
  /-- The declared inputs: DI, AI and wake sources, as masks (R131). -/
  di : Nat := 0
  ai : Nat := 0
  /-- PLANT_TAG, the role and the level of the ROLE record (R717). -/
  plantTag : Nat := 0
  role : Nat := 3
  treeLevel : Nat := 0
  /-- RETRY of the RING section (R216). -/
  retry : Nat := 3
  deriving DecidableEq, Repr, Inhabited

/-- The hardware but for the NOR flash and the fuses. -/
structure Hw where
  /-- The peripheral registers, by word address (R9, R154); unlisted ones hold their reset values. -/
  regs : Tab Word := []
  /-- RAM: secure and retention SRAM, ridge stores and DRAM, by physical word address (R153). -/
  mem : Tab Container := []
  /-- Error counts: 0 DRAM, 1 secure SRAM, 2 retention SRAM, 16 + r ridge store r, 32 + r local memories of ridge r. -/
  ecc : Tab Ecc := []
  /-- The LC whose SI most recently passed (R22, R145). -/
  lc : Nat := 0
  /-- An SI has passed since boot (R145). -/
  cycled : Bool := false
  crest : Tab Core := []
  app : Tab Core := []
  eng : Tab Engine := []
  /-- The fabric manager and the journal unit. -/
  fab : Fab := {}
  /-- What the CFG in force declares. -/
  cfg : Cfg := {}
  /-- The time unit. -/
  tu : TimeUnit := {}
  /-- The Crest cluster beyond its cores. -/
  crs : Crest := {}
  /-- Powered time in ms, one for each SI (R589). -/
  poweredMs : Nat := 0
  /-- The fault log's place (R138), and the entries of the retention log (R140). -/
  log : LogPos := {}
  retLog : Nat := 0
  /-- The images in force. -/
  builds : Builds := {}
  /-- A checkpoint whose body is written and whose COMMIT word is not: its slot (R133). -/
  ckpt : Option Nat := none
  /-- What the block has sent, newest first (the model's own record). -/
  out : List (Link × List Byte) := []
  xlat : List CachedXlat := []
  vms : Tab VmSlot := []
  handovers : List Handover := []
  hoStat : Tab Word := []
  srcAuth : Tab SourceAuth := []
  mbx : Tab Channel := []
  fi : Tab FabInst := []
  mbxHoStat : Tab Word := []
  /-- The world channel of each owner that is no VM, plus 1; 0 for none (R518, R536). -/
  worldChan : Tab Nat := []
  /-- The power channel of each holder, by owner code, plus 1; 0 for none (R102). -/
  powerChan : Tab Nat := []
  gateStat : Tab Word := []
  /-- By register that holds a DMA address: mask bit plus 1 of the identity that last wrote it (R504). -/
  masters : Tab Nat := []
  norOp : Option NorOp := none
  norAborts : Nat := 0
  /-- The next container of each patrol scrub (R151, R284). -/
  patrol : Tab Nat := []
  rings : Tab Ring := []
  /-- SI(n) + 60 µs of the ring cycle in progress has passed: what it sends stands (R209). -/
  frozen : Bool := false
  ports : Tab Port := []
  snp : Snp := {}
  grd : Guard := {}
  lsi : Lsi := {}
  sw : Switcher := {}
  /-- The counters of undeclared items, by row of R131. -/
  undeclared : Tab Nat := []
  /-- SEQ of the peer frames sent, by kind (R718). -/
  peerSeq : Tab Nat := []
  /-- SEQs taken lately from each source and kind, by 8 × SRC + KIND (R718). -/
  peerSeen : Tab (List Nat) := []
  /-- PEER_COUNT (R729). -/
  peerCount : Tab Nat := []
  /-- The LC of the last TRIP frame of each group, plus 1 (R721). -/
  tripAt : Tab Nat := []
  pwr : Power := {}
  can : Can := {}
  kop : Kop := {}
  tree : Tree := {}
  upd : Update := {}
  /-- The number of free values drawn so far (the model's own field). -/
  free : Nat := 0
  /-- The STATUS of the last operation on an object of its own row (R642; the model's own field). -/
  status : Nat := 0
  /-- What the last access from outside returned: the word, and whether it was an error response (the model's own field). -/
  bus : Word := 0
  busErr : Bool := false
  deriving DecidableEq, Repr

/-- The state of the machine. -/
structure State where
  /-- The commands that wait, first in, first out. -/
  pending : List Instr := []
  hw : Hw := {}
  nor : Nor := {}
  fuse : Fuse := {}
  /-- The warm state that step 3 of a Dusk with target Night saved (R80, R90). -/
  warm : Option Hw := none
  deriving DecidableEq, Repr

/-- The machine right after reset: every register at the value of its card, memory with nothing listed. -/
def State.reset : State := {}

end Sys2Proof.Machine
end

