-- ==== Sys2Proof/Machine/Ops.lean ====
section
/-! DEFINITION. The named operations over registers, memories and identities that every meaning uses. -/

namespace Sys2Proof.Machine

/-- What a meaning answers. -/
abbrev Result := Host.Outcome State Fault Refusal

/-- The power of two. -/
def pow2 (n : Nat) : Nat := 2 ^ n

/-- Bits [hi:lo] of a word, as a number. -/
def bitsOf (w : Word) (hi lo : Nat) : Nat := w.toNat / 2 ^ lo % 2 ^ (hi + 1 - lo)

/-- A word with bits [hi:lo] set to a number, taken modulo the width. -/
def withBits (w : Word) (hi lo v : Nat) : Word :=
  BitVec.ofNat 40 (w.toNat - bitsOf w hi lo * 2 ^ lo + v % 2 ^ (hi + 1 - lo) * 2 ^ lo)

/-- A word from a number. -/
def word (n : Nat) : Word := BitVec.ofNat 40 n

/-- Bit i of a number. -/
def bitN (n i : Nat) : Bool := n / 2 ^ i % 2 == 1

/-- 1 for true, 0 for false. -/
def b2n (b : Bool) : Nat := if b then 1 else 0

/-- The number with bit i set. -/
def setBitN (n i : Nat) : Nat := if bitN n i then n else n + 2 ^ i

/-- The number with bit i clear. -/
def clearBitN (n i : Nat) : Nat := if bitN n i then n - 2 ^ i else n

/-! ### Identities (R503) -/

/-- The mask bit of an identity. A system initiator has none; 31 stands for it. -/
def whoBit : Who → Nat
  | .secure => 0
  | .crest => 1
  | .crestStandby => 2
  | .hypervisor => 3
  | .vm v => 4 + v.val
  | .system => 31

/-- The identity of a mask bit plus 1; the bus fabric itself for 0, where no register has been written yet (R504). -/
def bitWho : Nat → Who
  | 1 => .secure
  | 2 => .crest
  | 3 => .crestStandby
  | 4 => .hypervisor
  | n + 5 => if h : n < 16 then .vm ⟨n, h⟩ else .system
  | 0 => .system

/-- The owner code of an identity; 0 for one that is never an owner. -/
def whoCode : Who → Nat
  | .secure => 1
  | .crest => 2
  | .crestStandby => 0
  | .hypervisor => 4
  | .vm v => 0x10 + v.val
  | .system => 0

/-- The mask bit of an owner code, when the code is one of R503. -/
def codeBit (c : Nat) : Option Nat :=
  if c = 1 then some 0 else if c = 2 then some 1 else if c = 4 then some 3
  else if 0x10 ≤ c ∧ c < 0x20 then some (4 + (c - 0x10)) else none

/-- The owner code is that of a VM. -/
def codeIsVm (c : Nat) : Bool := 0x10 ≤ c && c < 0x20

/-! ### Containers (R144 to R149) -/

/-- The 64 bits of a container: check bits [63:56], version tag [55:40], data word [39:0] (R144). -/
def Container.bits (c : Container) : BitVec 64 :=
  let body : BitVec 56 := c.tag ++ c.data
  (if c.poisoned then Config.poisonBits body else Config.checkBits body) ++ body

/-- Another bit error in the same container: two single ones are uncorrectable (R148). -/
def worseFlaw : Flaw → Flaw → Flaw
  | .sound, f => f
  | f, .sound => f
  | _, _ => .double

/-- A container that a bit error has hit. -/
def Container.hit (c : Container) (f : Flaw) : Container := { c with flaw := worseFlaw c.flaw f }

/-- What a read leaves: a single error is corrected in place and an uncorrectable one poisons; data and tag stay (R146 to R148). -/
def Container.read (c : Container) : Container :=
  { c with poisoned := c.poisoned || c.flaw == .double, flaw := .sound }

/-- What a read of a container counts: nothing where it was poisoned before (R148). -/
def Container.finds (c : Container) : Flaw := if c.poisoned then .sound else c.flaw

/-- What a reader other than a core or an engine takes from a container: 0 where it is poisoned (R149). -/
def Container.word (c : Container) : Word := if c.poisoned then 0 else c.data

namespace Hw

/-! ### Registers -/

/-- The register at an address. -/
def reg (h : Hw) (a : Nat) : Word := Tabs.get regReset h.regs a

/-- Sets the register at an address. -/
def setReg (h : Hw) (a : Nat) (w : Word) : Hw := { h with regs := Tabs.set regReset h.regs a w }

/-- A field of a register. -/
def fld (h : Hw) (a : Nat) (f : BitField) : Nat := bitsOf (h.reg a) f.hi f.lo

/-- Sets a field of a register. -/
def setFld (h : Hw) (a : Nat) (f : BitField) (v : Nat) : Hw := h.setReg a (withBits (h.reg a) f.hi f.lo v)

/-- A one-bit field of a register, or bit `lo` of a wider one. -/
def flag (h : Hw) (a : Nat) (f : BitField) : Bool := h.fld a f % 2 == 1

/-- Bit i of a register. -/
def bit (h : Hw) (a i : Nat) : Bool := bitN (h.reg a).toNat i

/-- Sets bit i of a register. -/
def setBit (h : Hw) (a i : Nat) : Hw := h.setReg a (withBits (h.reg a) i i 1)

/-- Clears bit i of a register. -/
def clearBit (h : Hw) (a i : Nat) : Hw := h.setReg a (withBits (h.reg a) i i 0)

/-- Adds 1 to a field that counts and saturates. -/
def countFld (h : Hw) (a : Nat) (f : BitField) : Hw :=
  if h.fld a f + 1 < 2 ^ (f.hi + 1 - f.lo) then h.setFld a f (h.fld a f + 1) else h

/-- Adds 1 to a register that counts and saturates at 0xFF_FFFF_FFFF. -/
def count (h : Hw) (a : Nat) : Hw := h.countFld a ⟨39, 0⟩

/-- Adds n to a register that counts and saturates. -/
def countBy (h : Hw) (a n : Nat) : Hw := h.setReg a (word (min ((h.reg a).toNat + n) (2 ^ 40 - 1)))

/-- Draws a free value below n (0 when n is 0): nothing constrains which. -/
def draw (h : Hw) (n : Nat) : Nat × Hw := (Config.freeNat h.free % n, { h with free := h.free + 1 })

/-- Draws a free word. -/
def drawWord (h : Hw) : Word × Hw := (Config.freeWord h.free, { h with free := h.free + 1 })

/-- Applies a change for every element of a list, in order. -/
def forEach {α : Type} (h : Hw) (l : List α) (f : Hw → α → Hw) : Hw := l.foldl f h

/-! ### Domains (R19) -/

/-- VAO is good. -/
def aoOn (h : Hw) : Bool := h.flag Reg.PWR_RAIL_PG Fld.PWR_RAIL_PG_VAO

/-- The SYS domain is powered. -/
def sysOn (h : Hw) : Bool := h.flag Reg.PWR_RAIL_PG Fld.PWR_RAIL_PG_VSYS

/-- The common part of VFAB is powered. -/
def fabOn (h : Hw) : Bool := h.flag Reg.PWR_RAIL_PG Fld.PWR_RAIL_PG_VFAB

/-- A ridge island is powered and good. -/
def islandOn (h : Hw) (r : Nat) : Bool := h.bit Reg.PWR_ISLAND_PG r

/-- The clocks of the ring ports, the SNP and the guard comparison: the TCXO and PLL_V (R20, R72). -/
def ringClock (h : Hw) : Bool := h.bit Reg.CLK_STAT 7 && h.bit Reg.CLK_STAT 2

/-- The rails of the ring ports' pads: VIO18 and VIO33 (R20, R96). -/
def ringIo (h : Hw) : Bool := h.bit Reg.PWR_RAIL_PG 6 && h.bit Reg.PWR_RAIL_PG 7

/-- The SNP runs: enabled and clocked (R20, R72). -/
def snpOn (h : Hw) : Bool := h.bit Reg.SNP_CTRL 0 && h.ringClock

/-- PLL_F runs with the TCXO, and an engine's island is not clock-gated (R72, R73, R100, R103). -/
def engineClocked (h : Hw) (e : Nat) : Bool :=
  h.bit Reg.CLK_STAT 7 && h.bit Reg.CLK_STAT 6 && !h.bit Reg.PWR_CLK_GATED (e / 32)

/-- The DRAM is powered and in service (R19, R165). -/
def dramOn (h : Hw) : Bool :=
  h.flag Reg.PWR_RAIL_PG Fld.PWR_RAIL_PG_VDD2 && h.flag Reg.PWR_RAIL_PG Fld.PWR_RAIL_PG_VDDQ &&
    h.flag Reg.DMC_STAT Fld.DMC_STAT_TRAINED && !h.flag Reg.DMC_STAT Fld.DMC_STAT_SELF_REFRESH

/-- The NOR flash is powered. -/
def norOn (h : Hw) : Bool := h.flag Reg.PWR_RAIL_PG Fld.PWR_RAIL_PG_VNOR

/-- The CREST island is powered (block ID 24 of R103). -/
def crestOn (h : Hw) : Bool := h.sysOn && !h.bit Reg.PWR_PWR_GATED 24

/-- Application core k is powered (block IDs 16 to 23 of R103). -/
def appOn (h : Hw) (k : Nat) : Bool := h.sysOn && !h.bit Reg.PWR_PWR_GATED (16 + k)

/-! ### Per-index state -/

def crestCore (h : Hw) (k : Nat) : Core := Tabs.get (fun _ => Core.crestInit) h.crest k
def setCrestCore (h : Hw) (k : Nat) (c : Core) : Hw := { h with crest := Tabs.set (fun _ => Core.crestInit) h.crest k c }
def appCore (h : Hw) (k : Nat) : Core := Tabs.get (fun _ => Core.appInit) h.app k
def setAppCore (h : Hw) (k : Nat) (c : Core) : Hw := { h with app := Tabs.set (fun _ => Core.appInit) h.app k c }
def engine (h : Hw) (e : Nat) : Engine := Tabs.get (fun _ => Engine.init) h.eng e
def setEngine (h : Hw) (e : Nat) (g : Engine) : Hw := { h with eng := Tabs.set (fun _ => Engine.init) h.eng e g }
def vmSlot (h : Hw) (v : Nat) : VmSlot := Tabs.get (fun _ => ({} : VmSlot)) h.vms v
def setVmSlot (h : Hw) (v : Nat) (x : VmSlot) : Hw := { h with vms := Tabs.set (fun _ => ({} : VmSlot)) h.vms v x }
def chan (h : Hw) (n : Nat) : Channel := Tabs.get (fun _ => ({} : Channel)) h.mbx n
def setChan (h : Hw) (n : Nat) (x : Channel) : Hw := { h with mbx := Tabs.set (fun _ => ({} : Channel)) h.mbx n x }
def inst (h : Hw) (i : Nat) : FabInst := Tabs.get (fun _ => ({} : FabInst)) h.fi i
def setInst (h : Hw) (i : Nat) (x : FabInst) : Hw := { h with fi := Tabs.set (fun _ => ({} : FabInst)) h.fi i x }
def sourceAuth (h : Hw) (i : Nat) : SourceAuth := Tabs.get (fun _ => ({} : SourceAuth)) h.srcAuth i
def setSourceAuth (h : Hw) (i : Nat) (x : SourceAuth) : Hw :=
  { h with srcAuth := Tabs.set (fun _ => ({} : SourceAuth)) h.srcAuth i x }

def ring (h : Hw) (k : Nat) : Ring := Tabs.get (fun _ => ({} : Ring)) h.rings k
def setRing (h : Hw) (k : Nat) (x : Ring) : Hw := { h with rings := Tabs.set (fun _ => ({} : Ring)) h.rings k x }
def port (h : Hw) (p : Nat) : Port := Tabs.get (fun _ => ({} : Port)) h.ports p
def setPort (h : Hw) (p : Nat) (x : Port) : Hw := { h with ports := Tabs.set (fun _ => ({} : Port)) h.ports p x }
def die (h : Hw) (d : Nat) : Die := Tabs.get (fun _ => ({} : Die)) h.lsi.dies d
def setDie (h : Hw) (d : Nat) (x : Die) : Hw :=
  { h with lsi := { h.lsi with dies := Tabs.set (fun _ => ({} : Die)) h.lsi.dies d x } }
def ringCfg (h : Hw) (k : Nat) : Option RingCfg := Tabs.get (fun _ => (none : Option RingCfg)) h.cfg.rings k

/-- What a request's bank holds that nothing has written. -/
def zeroWord : Nat → Word := fun _ => 0

/-- What unwritten RAM holds. -/
def blankRam : Nat → Container := fun _ => {}

/-! ### RAM (R142 to R152) -/

/-- The container at a physical address. -/
def ram (h : Hw) (a : Nat) : Container := Tabs.get blankRam h.mem a

/-- Replaces the container at a physical address. -/
def setRam (h : Hw) (a : Nat) (c : Container) : Hw := { h with mem := Tabs.set blankRam h.mem a c }

/-- The version tag of a write by any initiator but an engine in a page step (R145). -/
def tagNow (h : Hw) : BitVec 16 := if h.cycled then BitVec.ofNat 16 h.lc else 0

/-- A write by an initiator: the word, its tag, and a sound container (R145, R150). -/
def writeRam (h : Hw) (a : Nat) (w : Word) : Hw := h.setRam a { data := w, tag := h.tagNow, poisoned := false }

/-- Words written to consecutive addresses. -/
def writeRamList (h : Hw) (a : Nat) : List Word → Hw
  | [] => h
  | w :: ws => (h.writeRam a w).writeRamList (a + 1) ws

/-- Every word of a range written with 0. The tags follow R145. -/
def zeroRam (h : Hw) (a n : Nat) : Hw :=
  { h with
    mem := if h.tagNow = 0 then Tabs.clear h.mem a (a + n - 1)
           else (List.range n).foldl (fun m i => Tabs.set blankRam m (a + i) { tag := h.tagNow }) h.mem }

end Hw

/-! ### The physical address map (R153) -/

/-- What lies at a physical address. -/
inductive Region where
  | bootRom | secureSram | retentionSram
  | ridge (r : Nat)
  | peripheral | nor | dram | unmapped
  deriving DecidableEq, Repr

/-- The last NOR word (R157). -/
def norLast : Nat := 0x6666665

/-- The region of a physical address (R153, R155). -/
def regionOf (a : Nat) : Region :=
  if a < 0x10000 then .bootRom
  else if 0x100000 ≤ a ∧ a < 0x180000 then .secureSram
  else if 0x200000 ≤ a ∧ a < 0x204000 then .retentionSram
  else if 0x4000000 ≤ a ∧ a < 0x8000000 then
    (if (a - 0x4000000) % 0x400000 < 0x80000 then .ridge ((a - 0x4000000) / 0x400000) else .unmapped)
  else if 0x10000000 ≤ a ∧ a < 0x11010000 then .peripheral
  else if 0x20000000 ≤ a ∧ a ≤ 0x20000000 + norLast then .nor
  else if 0x100000000 ≤ a ∧ a < 0x180000000 then .dram
  else .unmapped

/-- The base of the DRAM (R153). -/
def dramBase : Nat := 0x100000000

/-- The domain of a memory region is on (R19, R155). -/
def Hw.regionOn (h : Hw) : Region → Bool
  | .bootRom => h.sysOn
  | .secureSram => h.sysOn
  | .retentionSram => h.aoOn
  | .ridge r => h.fabOn && h.islandOn r
  | .peripheral => true
  | .nor => h.norOn
  | .dram => h.dramOn
  | .unmapped => false

/-! ### Memory errors (R147 to R149, R165) -/

/-- The error counts of a memory. -/
def Hw.eccOf (h : Hw) (m : Nat) : Ecc := Tabs.get (fun _ => ({} : Ecc)) h.ecc m

/-- Replaces the error counts of a memory. -/
def Hw.setEcc (h : Hw) (m : Nat) (e : Ecc) : Hw := { h with ecc := Tabs.set (fun _ => ({} : Ecc)) h.ecc m e }

/-- A corrected error is counted and its address recorded (R147). -/
def Hw.eccCorrected (h : Hw) (m a : Nat) : Hw :=
  let e := h.eccOf m
  h.setEcc m { e with ce := min (e.ce + 1) 0xFFFFF, ceAddr := a, ceValid := true }

/-- An uncorrectable error is counted and its address recorded (R148); in the fabric it raises ECC_UE. -/
def Hw.eccUncorrectable (h : Hw) (m a : Nat) : Hw :=
  let e := h.eccOf m
  let h := h.setEcc m { e with ue := min (e.ue + 1) 0xFFFFF, ueAddr := a, ueValid := true }
  if 16 ≤ m then h.setBit Reg.FAB_IRQ_STAT 0 else h

/-- The memory whose counts a region's errors enter. -/
def Region.eccIndex : Region → Nat
  | .secureSram => 1
  | .retentionSram => 2
  | .ridge r => 16 + r
  | _ => 0

/-- A count of what a read found at an address of a memory (R147, R148). -/
def Hw.eccFound (h : Hw) (m a : Nat) : Flaw → Hw
  | .sound => h
  | .single => h.eccCorrected m a
  | .double => h.eccUncorrectable m a

/-- A read of a RAM container: a single error is corrected and counted, a double one poisons the container and is counted; a
container already poisoned is not counted again (R146 to R148). -/
def Hw.eccRead (h : Hw) (a : Nat) : Hw :=
  let c := h.ram a
  if c.flaw = .sound then h else (h.setRam a c.read).eccFound (regionOf a).eccIndex a c.finds

/-- A read that itself brings the error it meets. -/
def Hw.meetFlaw (h : Hw) (a : Nat) (f : Flaw) : Hw :=
  if f = .sound then h.eccRead a else (h.setRam a ((h.ram a).hit f)).eccRead a

/-- Every container of a range is read. -/
def Hw.foundIn (h : Hw) (a n : Nat) : Hw :=
  ((Tabs.keep h.mem a (a + n - 1)).filter fun x => x.2.flaw ≠ .sound).foldl (fun h x => h.eccRead x.1) h

/-- A RAM container is read (R147 to R149). -/
def Hw.take (h : Hw) (a : Nat) : Hw × Container := let h := h.eccRead a; (h, h.ram a)

/-- What a memory access gives. -/
inductive Access where
  | ok (w : Word)
  | error
  | poisoned
  deriving DecidableEq, Repr

/-! ### NOR words (R157, R160) -/

/-- What a NOR word that is not listed reads as: erased, or the free value of the abort that left it undefined. -/
def Nor.unlisted (n : Nor) (a : Nat) : Word :=
  match n.holes.find? fun x => x.lo ≤ a && a ≤ x.hi with
  | some x => Config.freeNor x.gen a
  | none => BitVec.allOnes 40

/-- A NOR word. -/
def Nor.word (n : Nor) (a : Nat) : Word := Tabs.get n.unlisted n.words a

/-- Programs a NOR word. -/
def Nor.program (n : Nor) (a : Nat) (w : Word) : Nor := { n with words := Tabs.set n.unlisted n.words a w }

/-- Programs consecutive NOR words. -/
def Nor.programList (n : Nor) (a : Nat) : List Word → Nor
  | [] => n
  | w :: ws => (n.program a w).programList (a + 1) ws

/-- A hole without the words lo to hi. -/
def NorHole.cut (x : NorHole) (lo hi : Nat) : List NorHole :=
  if hi < x.lo ∨ x.hi < lo then [x]
  else (if x.lo < lo then [{ x with hi := lo - 1 }] else []) ++ (if hi < x.hi then [{ x with lo := hi + 1 }] else [])

/-- Erases NOR words lo to hi: each reads 0xFF_FFFF_FFFF (R157). -/
def Nor.erase (n : Nor) (lo hi : Nat) : Nor :=
  { words := Tabs.clear n.words lo hi, holes := n.holes.flatMap fun x => x.cut lo hi }

/-- NOR words lo to hi are left undefined (R160). -/
def Nor.undefine (n : Nor) (lo hi gen : Nat) : Nor :=
  { words := Tabs.clear n.words lo hi, holes := { lo := lo, hi := hi, gen := gen } :: n.holes.flatMap fun x => x.cut lo hi }

namespace State

/-- A change of the hardware alone. -/
def onHw (s : State) (f : Hw → Hw) : State := { s with hw := f s.hw }

/-- A word of memory as its initiator reads it, the firewall apart: R149, R155. Single-bit errors are corrected in place
and leave the data as it is (R147). -/
def memRead (s : State) (a : Nat) : Access :=
  match regionOf a with
  | .bootRom => if s.hw.sysOn then .ok (Config.bootRom a) else .error
  | .nor => if s.hw.norOn then .ok (s.nor.word (a - 0x20000000)) else .error
  | .peripheral => .error
  | .unmapped => .error
  | r =>
    if s.hw.regionOn r then
      (if (s.hw.ram a).poisoned then .poisoned else .ok (s.hw.ram a).data)
    else .error

/-- A word of memory is read: the errors it meets are handled first (R147, R148). -/
def memLoad (s : State) (a : Nat) : State × Access :=
  let s := s.onHw fun h => if h.regionOn (regionOf a) then h.eccRead a else h
  (s, s.memRead a)

/-- A word of memory, 0 where the read gives an error response. -/
def peek (s : State) (a : Nat) : Word :=
  match s.memRead a with
  | .ok w => w
  | _ => 0

end State

/-- A store reaches memory: RAM whose domain is on (R155). -/
def Hw.storable (h : Hw) (a : Nat) : Bool :=
  match regionOf a with
  | .secureSram => h.sysOn
  | .retentionSram => h.aoOn
  | .ridge r => h.fabOn && h.islandOn r
  | .dram => h.dramOn
  | _ => false

/-- A bit error hits a container of RAM whose domain is on; the next read of it finds the error (R147, R148). -/
def Hw.strike (h : Hw) (a : Nat) : Hw := if h.storable a then h.setRam a ((h.ram a).hit .single) else h

/-! ### The firewall (R505 to R509) -/

/-- The peripheral block of a window: a fixed block of R508, a unit of R516, a part of a window that no block fills, where R12
applies, or nothing. -/
inductive Block where
  | fixed (b : Nat)
  | unit (u : Nat)
  | gap
  | none
  deriving DecidableEq, Repr

/-- The block whose window holds a peripheral address (R154, R508, R516). -/
def blockOf (a : Nat) : Block :=
  if a < 0x10010000 then .fixed 0
  else if a < 0x10020000 then .fixed 1
  else if a < 0x10030000 then .fixed 2
  else if a < 0x10040000 then .fixed 3
  else if a < 0x10050000 then .fixed 4
  else if 0x10100000 ≤ a ∧ a < 0x10110000 then .fixed 5
  else if 0x10200000 ≤ a ∧ a < 0x10210000 then .fixed 6
  else if 0x10300000 ≤ a ∧ a < 0x10310000 then .fixed 7
  else if 0x10400000 ≤ a ∧ a < 0x10410000 then .fixed 8
  else if 0x10500000 ≤ a ∧ a < 0x10510000 then .fixed 9
  else if 0x10600000 ≤ a ∧ a < 0x10610000 then .fixed 10
  else if 0x10700000 ≤ a ∧ a < 0x10710000 then .fixed 11
  else if 0x10800000 ≤ a ∧ a < 0x10810000 then
    (if 0x10800400 ≤ a ∧ a < 0x10800430 then .unit (40 + (a - 0x10800400) / 0x10) else .fixed 12)
  else if 0x10810000 ≤ a ∧ a < 0x10890000 then .unit (25 + (a - 0x10810000) / 0x10000)
  else if 0x10890000 ≤ a ∧ a < 0x10A00000 then .gap
  else if 0x10A00000 ≤ a ∧ a < 0x10A04000 then .unit (33 + (a - 0x10A00000) / 0x1000)
  else if 0x10A04000 ≤ a ∧ a < 0x10A10000 then .gap
  else if 0x10B00000 ≤ a ∧ a < 0x10B10000 then .unit 37
  else if 0x10C00000 ≤ a ∧ a < 0x10C10000 then .unit 38
  else if 0x10D00000 ≤ a ∧ a < 0x10D10000 then .fixed 13
  else if 0x10E00000 ≤ a ∧ a < 0x10E10000 then .fixed 14
  else if 0x10F00000 ≤ a ∧ a < 0x10F10000 then .fixed 15
  else if 0x11000000 ≤ a ∧ a < 0x11010000 then .fixed 16
  else .none

/-- The wired WRITE mask of a fixed block, `none` for a block marked "image" (R508). -/
def wiredMask (b : Nat) : Option Nat :=
  if b = 0 ∨ b = 9 ∨ b = 10 ∨ b = 16 then some 0xFFFFF
  else if b = 1 ∨ b = 2 ∨ b = 13 then some 0b11
  else if b = 3 ∨ b = 14 ∨ b = 15 then some 0b1
  else if b = 8 then some 0b111
  else none

/-- The default WRITE mask of a block marked "image" (R508). -/
def imageMask (b : Nat) : Nat :=
  if b = 4 then 0b10001 else if b = 5 then 0b10011 else if b = 6 then 0b11 else if b = 7 then 0b10001
  else if b = 11 then 0b11 else if b = 12 then 0b10001 else 0

/-- The default owner of a unit (R516). -/
def unitDefault (u : Nat) : Nat := if u = 40 then 1 else if u = 41 then 4 else 0x10

/-- The units that can change owner (R516). -/
def isUnit (u : Nat) : Bool := 25 ≤ u && u ≤ 38 || 40 ≤ u && u ≤ 42

/-- A block's registers lie in the AO domain; the others lie in SYS, but for FAB in the common part of VFAB (R19). A block that a
gate has switched off is off: the units of R103, and DBG, block 39 (R101). -/
def Hw.blockOn (h : Hw) : Block → Bool
  | .fixed b =>
    if b = 0 ∨ b = 1 ∨ b = 2 ∨ b = 3 ∨ b = 5 ∨ b = 6 ∨ b = 11 then h.aoOn
    else if b = 7 then h.fabOn else h.sysOn && !(b = 15 && h.bit Reg.PWR_PWR_GATED 39)
  | .unit u => h.sysOn && !(decide (u ≤ 38) && h.bit Reg.PWR_PWR_GATED u)
  | .gap => h.sysOn
  | .none => false

/-- The owner code of a unit. -/
def Hw.unitOwner (h : Hw) (u : Nat) : Nat := h.fld (Reg.WLD_UNIT_OWN u) Fld.WLD_UNIT_OWN_OWNER

/-- An identity may access a peripheral block (R508, R509, R516): no system initiator does (R507), and the part of a window that
no block fills is open to every other. -/
def Hw.blockAllows (h : Hw) (who : Who) (write : Bool) (b : Block) : Bool :=
  if who = .system then false
  else if !h.bit Reg.WLD_CTRL 0 then who = .crest || who = .crestStandby
  else match b with
    | .none => false
    | .gap => true
    | .fixed b =>
      let wr := match wiredMask b with
        | some m => m
        | none => h.fld (Reg.WLD_FIXED b) Fld.WLD_FIXED_WRITE
      bitN wr (whoBit who) || (!write && bitN (h.fld (Reg.WLD_FIXED b) Fld.WLD_FIXED_READ) (whoBit who))
    | .unit u =>
      (whoCode who ≠ 0 && h.unitOwner u == whoCode who) ||
        (!write && bitN (h.fld (Reg.WLD_UNIT_OWN u) Fld.WLD_UNIT_OWN_READ) (whoBit who))

/-- The region registers of the firewall, at 0x0100 + 4i of WLD: the enable, the bounds and the masks (R505, R529). -/
def Hw.fwRegionHolds (h : Hw) (i a : Nat) : Bool :=
  h.bit (Reg.WLD_RGN_BASE i) 39 && bitsOf (h.reg (Reg.WLD_RGN_BASE i)) 33 0 ≤ a &&
    a ≤ bitsOf (h.reg (Reg.WLD_RGN_LIMIT i)) 33 0

/-- The ranges of the system initiators together: the journal ring, the point-space backing and the fabric manager's area of the
DRAM, and the ridge stores (R156, R507). The scrubbers are no initiator of an access of the table. -/
def systemRange (a : Nat) : Bool := match regionOf a with
  | .dram => decide (a < dramBase + 0x48000000)
  | .ridge _ => true
  | _ => false

/-- The firewall allows a memory access: the lowest-numbered enabled region that holds the address decides; a system initiator keeps
to its ranges (R505, R507, R509). -/
def Hw.memAllows (h : Hw) (who : Who) (write : Bool) (a : Nat) : Bool :=
  if who = .system then systemRange a
  else if !h.bit Reg.WLD_CTRL 0 then who = .crest || who = .crestStandby
  else match (List.range 64).find? fun i => h.fwRegionHolds i a with
    | none => false
    | some i =>
      let acc := h.reg (Reg.WLD_RGN_ACC i)
      bitN (if write then bitsOf acc 19 0 else bitsOf acc 39 20) (whoBit who)

/-- Records a denial (R506). -/
def Hw.deny (h : Hw) (who : Who) (write : Bool) (a : Nat) : Hw :=
  let h := h.count Reg.WLD_CNT_DENY
  let h := h.setReg Reg.WLD_DENY_ADDR (word (2 ^ 39 + b2n write * 2 ^ 38 + a % 2 ^ 34))
  h.setReg Reg.WLD_DENY_WHO (word (if who = .system then 32 else whoBit who))

/-- The denied access of an identity ends the bus transfer with the error response and the word 0 (R155, R506). -/
def Hw.busError (h : Hw) : Hw := { h with bus := 0, busErr := true }

/-- An undeclared item is counted (R131). -/
def Hw.undeclare (h : Hw) (i : Nat) : Hw :=
  { h with undeclared := Tabs.set (fun _ => (0 : Nat)) h.undeclared i (min (Tabs.get (fun _ => 0) h.undeclared i + 1) (2 ^ 40 - 1)) }

/-- The block sends bytes over a link. -/
def Hw.send (h : Hw) (l : Link) (bytes : List Byte) : Hw := { h with out := (l, bytes) :: h.out }

/-- A bus transfer that returns a word. -/
def Hw.busOk (h : Hw) (w : Word) : Hw := { h with bus := w, busErr := false }

/-- A write of a block's registers by an identity: its effect where the block's domain is on and the firewall allows it, the
error response otherwise (R155, R506). -/
def Hw.guarded (h : Hw) (who : Who) (a : Nat) (f : Hw → Hw) : Hw :=
  if !h.blockOn (blockOf a) then h.busError
  else if !h.blockAllows who true (blockOf a) then (h.deny who true a).busError
  else (f h).busOk 0

/-- A read of a block's register by an identity: the word and the read's own effect, or the error response (R155, R506). -/
def Hw.guardedRead (h : Hw) (who : Who) (a : Nat) (f : Hw → Hw × Word) : Hw :=
  if !h.blockOn (blockOf a) then h.busError
  else if !h.blockAllows who false (blockOf a) then (h.deny who false a).busError
  else (f h).1.busOk (f h).2

end Sys2Proof.Machine
end

