-- ==== Sys2Proof/Machine/Flags.lean ====
section
/-! DEFINITION. The exact arithmetic of OL40 and its flags (R325, R326): every intermediate value is an integer, and only
`wrap`, `sat`, `satu` and `rhe` narrow. -/

namespace Sys2Proof.Machine

/-- imm24 sign-extended to 40 bits (R325). -/
def sx (i : BitVec 24) : Word := i.signExtend 40

/-- imm24 zero-extended. -/
def zx (i : BitVec 24) : Word := i.zeroExtend 40

/-- v mod 2^40 as a word (R325). -/
def wrap (v : Int) : Word := BitVec.ofInt 40 v

/-- The least and the greatest signed word. -/
def minS : Int := -(2 ^ 39)
def maxS : Int := 2 ^ 39 - 1

/-- sat of R325, before the flag. -/
def satVal (v : Int) : Int := min (max v minS) maxS

/-- satu of R325, before the flag. -/
def satuVal (v : Int) : Int := min (max v 0) (2 ^ 40 - 1)

/-- The integer nearest n / d, for d above 0; a tie goes to the even integer (R325). -/
def rhe (n d : Int) : Int :=
  let q := n / d
  let r := n % d
  if 2 * r < d then q else if d < 2 * r then q + 1 else if q % 2 = 0 then q else q + 1

/-- The integer nearest n / d for any d but 0. -/
def rheQ (n d : Int) : Int := if d < 0 then rhe (-n) (-d) else rhe n d

/-- A 96-bit accumulator result: wrapped, and whether it wrapped (R326). -/
def accWrap (v : Int) : BitVec 96 × Bool := (BitVec.ofInt 96 v, v < -(2 ^ 95) || 2 ^ 95 ≤ v)

/-- What unwritten registers hold. -/
def zeroReg : Nat → Word := fun _ => 0

/-- What unwritten accumulators hold. -/
def zeroAcc : Nat → BitVec 96 := fun _ => 0

namespace Core

/-- A general register; g0 reads 0 (R320). -/
def gpr (c : Core) (r : GReg) : Word := if r = 0 then 0 else Tabs.get zeroReg c.g r

/-- Writes a general register; a write to g0 is discarded (R320). -/
def setGpr (c : Core) (r : GReg) (v : Word) : Core := if r = 0 then c else { c with g := Tabs.set zeroReg c.g r v }

/-- An accumulator (R320). -/
def accOf (c : Core) (a : Fin 4) : BitVec 96 := Tabs.get zeroAcc c.acc a

/-- Sets FLAGS.SAT when a clamp changed the value (R325). -/
def noteSat (c : Core) (clamped : Bool) : Core := if clamped then { c with flags := c.flags ||| 0x10 } else c

/-- Writes an accumulator without a flag. -/
def putAcc (c : Core) (a : Fin 4) (v : BitVec 96) : Core := { c with acc := Tabs.set zeroAcc c.acc a v }

/-- Writes an accumulator result; one out of range wraps and sets its FLAGS.ACC_OV bit (R326). -/
def setAcc (c : Core) (a : Fin 4) (v : Int) : Core :=
  let c := c.putAcc a (accWrap v).1
  if (accWrap v).2 then { c with flags := c.flags ||| (1#40 <<< a.val) } else c

end Core

end Sys2Proof.Machine
end

