-- ==== Sys2Proof/Machine/Journal.lean ====
section
/-! DEFINITION. The journal unit and the inputs of cycles (R360 to R368, R378 to R383). -/

namespace Sys2Proof.Machine

namespace Hw

/-- The power state and the service level (R105). -/
def pstate (h : Hw) : Nat := h.fld Reg.PWR_STATE Fld.PWR_STATE_STATE
def level (h : Hw) : Nat := h.fld Reg.PWR_STATE Fld.PWR_STATE_LEVEL

/-- Adds n to one of LT_COUNT 0 to 5 (R391). -/
def ltCountBy (h : Hw) (i n : Nat) : Hw :=
  let v := min (Tabs.get (fun _ => 0) h.fab.ltCount i + n) (2 ^ 40 - 1)
  { h with fab := { h.fab with ltCount := Tabs.set (fun _ => (0 : Nat)) h.fab.ltCount i v } }

/-- The journal unit runs: the common part of VFAB and the DRAM are on, and the level is Full (R378); a Dusk ends the
span with it (R80). -/
def journalOn (h : Hw) : Bool := h.fabOn && h.dramOn && (h.level == 3 || h.pstate == 4)

/-- JPOS of the next word (R379, R390). -/
def wpos (h : Hw) : Nat := (h.reg Reg.FAB_JNL_WPOS).toNat

/-- Words written at JPOS, in the ring, with the words overwritten before their export counted (R379, R384). -/
def journalWords (h : Hw) (ws : List Word) : Hw :=
  let j := h.wpos
  let h := h.writeRamList (dramBase + j % 2 ^ 30) ws
  let used := (j + 2 ^ 40 - (h.reg Reg.FAB_JNL_XPOS).toNat) % 2 ^ 40
  let lost := min ws.length (used + ws.length - 2 ^ 30)
  let h := if used + ws.length ≤ 2 ^ 30 then h else h.ltCountBy 5 lost
  h.setReg Reg.FAB_JNL_WPOS (word ((j + ws.length) % 2 ^ 40))

/-- The header word of a record (R380). -/
def recordHeader (rt nw ring pos src k sub : Nat) : Word :=
  word (rt * 2 ^ 34 + nw % 8192 * 2 ^ 21 + ring % 8 * 2 ^ 18 + pos % 256 * 2 ^ 10 + src % 4 * 2 ^ 8 + k % 4 * 2 ^ 6 + sub % 64)

/-- A record appended to the journal until its end-of-Day record (R80), after a PAD record where it would straddle the end of the ring (R379, R380). -/
def record (h : Hw) (rt ring pos src k sub : Nat) (body : List Word) : Hw :=
  if !h.journalOn || h.fab.ended then h
  else
    let room := 2 ^ 30 - h.wpos % 2 ^ 30
    let h := if room < body.length + 1 then
        h.journalWords (recordHeader 0x3F (room - 1) 0 0 0 0 0 :: List.replicate (room - 1) 0)
      else h
    h.journalWords (recordHeader rt body.length ring pos src k sub :: body)

/-- A record of no ring and no cycle of its own. -/
def note (h : Hw) (rt sub : Nat) (body : List Word) : Hw := h.record rt 0 0 0 0 sub body

/-- The K of a record of cycle n (R380). -/
def kOf (h : Hw) (n : Nat) : Nat := h.fab.cycleRec - n

/-- Bytes packed into words, five a word, the last filled with zeros (R143). -/
def packBytes : List Byte → List Word
  | a :: b :: c :: d :: e :: rest => (a ++ (b ++ (c ++ (d ++ e)))) :: packBytes rest
  | [] => []
  | [a] => [a ++ (0#32)]
  | [a, b] => [a ++ (b ++ (0#24))]
  | [a, b, c] => [a ++ (b ++ (c ++ (0#16)))]
  | [a, b, c, d] => [a ++ (b ++ (c ++ (d ++ (0#8))))]

/-! ### Inputs (R362 to R365) -/

/-- Input identifiers (R380): a ring channel, a load-die sample, an external channel. -/
def ringInput (ring pos ch : Nat) : Nat := 0x1 * 2 ^ 36 + ring * 2 ^ 21 + pos * 2 ^ 13 + ch
def loadInput (die ch : Nat) : Nat := 0x2 * 2 ^ 36 + die * 2 ^ 4 + ch
def extInput (c : Nat) : Nat := 0x3 * 2 ^ 36 + c

/-- The model's own entry of a node frame beside its channels: node word 0x08, and the mask the device sent (R266, R267). -/
def frameInput (ring pos : Nat) : Nat := ringInput ring pos 0x1E

/-- The kind of an input identifier. -/
def inputKind (id : Nat) : Nat := id / 2 ^ 36

/-- What is known of an input of a cycle (R362). -/
def inputOf (h : Hw) (n id : Nat) : Option InVal := Tabs.get (fun _ => (none : Option InVal)) h.fab.inputs (n * 2 ^ 40 + id)

/-- An external channel's declaration. -/
def extCfg (h : Hw) (c : Nat) : Option ExtCfg := Tabs.get (fun _ => (none : Option ExtCfg)) h.cfg.fab.ext c

/-- The value an EVENT channel feeds in cycle n: the latest whose LC is n or earlier, or the initial value (R363). -/
def eventAt (h : Hw) (c n : Nat) : Word × Word :=
  match (Tabs.get (fun _ => ([] : List (Nat × Word × Word))) h.fab.events c).find? fun x => x.1 ≤ n with
  | some x => x.2
  | none => match h.extCfg c with
    | some e => (e.init, 0)
    | none => (0, 0)

/-- An input of cycle n as a step may use it: a value, a marker, or unknown (R362, R363). -/
def known (h : Hw) (n id : Nat) : Option InVal :=
  if inputKind id = 3 then
    match h.extCfg (id % 256) with
    | some e =>
      if e.sampled then h.inputOf n id
      else if n + 1 ≤ h.lc then (let v := h.eventAt (id % 256) n; some (.value v.1 v.2)) else none
    | none => h.inputOf n id
  else h.inputOf n id

/-- An input of a cycle becomes known (R362). -/
def setInput (h : Hw) (n id : Nat) (v : InVal) : Hw :=
  { h with fab := { h.fab with inputs := Tabs.set (fun _ => (none : Option InVal)) h.fab.inputs (n * 2 ^ 40 + id) (some v) } }

/-- A page. -/
def page (h : Hw) (g : Nat) : Page := Tabs.get (fun _ => ({} : Page)) h.fab.pages g

/-- Replaces a page's record. -/
def setPage (h : Hw) (g : Nat) (p : Page) : Hw :=
  { h with fab := { h.fab with pages := Tabs.set (fun _ => ({} : Page)) h.fab.pages g p } }

/-- A cell's and another page's declaration. -/
def cellCfg (h : Hw) (c : Nat) : Option CellCfg := Tabs.get (fun _ => (none : Option CellCfg)) h.cfg.fab.cells c
def pageCfg (h : Hw) (g : Nat) : Option PageCfg := Tabs.get (fun _ => (none : Option PageCfg)) h.cfg.fab.pages g

/-- A page is declared (R286). -/
def pageDeclared (h : Hw) (g : Nat) : Bool :=
  if g < 16384 then (h.cellCfg g).isSome else g == 17728 || (h.pageCfg g).isSome

/-- The inputs of a page as (offset of the value, identifier); the status follows the value (R266, R289, R291, R292). -/
def pageInputs (h : Hw) (g : Nat) : List (Nat × Nat) :=
  if g < 16384 then
    match h.cellCfg g with
    | none => []
    | some c =>
      [(0, ringInput (g / 2048) (g / 16 % 128) (g % 16)), (2, c.temp), (4, c.current)] ++
        c.aux.zipIdx.map fun x => (8 + 2 * x.2, x.1)
  else
    let own := match h.pageCfg g with
      | none => []
      | some c => c.inputs
    if g < 17664 then
      let r := (g - 16384) / 160
      let p := (g - 16384) % 160
      (List.range 4).map (fun j => (2 * j, ringInput r p (if p < 128 then 16 + j else j))) ++ own
    else own

/-- The cycle lies in the Day span in progress, or the last one while none is (R361). -/
def inSpan (h : Hw) (n : Nat) : Bool :=
  h.fab.spanStart ≠ 0 && decide (h.fab.spanStart ≤ n + 1) && (h.fab.spanEnd = 0 || decide (n + 1 ≤ h.fab.spanEnd))

/-- The cycle carries inputs: it lies in a Day span (R361). -/
def carriesInputs (h : Hw) (n : Nat) : Bool := h.inSpan n || h.fab.spans.any fun x => x.1 ≤ n && n ≤ x.2

/-- The first cycle at or after n that carries inputs (R296). -/
def nextCycle (h : Hw) (n : Nat) : Nat :=
  if h.carriesInputs n then n
  else ((h.fab.spans.map (·.1)).filter (n ≤ ·)).foldl min (if n + 1 ≤ h.fab.spanStart then h.fab.spanStart - 1 else n)

/-- A speculative step of cycle n of page g runs (R372, R374). -/
def specRuns (h : Hw) (g n : Nat) : Bool :=
  (Tabs.get (fun _ => Engine.init) h.eng (h.page g).engine).task.any fun t => t.kind == .step && t.page == g && t.spec && t.lc == n

/-- A value for an input that a speculative step of a page used, or runs on: a rollback from the lowest such cycle is pending (R372,
R374). -/
def rollbackFor (h : Hw) (n id : Nat) : Hw :=
  h.fab.pages.foldl (fun h e =>
    let p := h.page e.1
    if (p.spec.contains n || h.specRuns e.1 n) && (h.pageInputs e.1).any (fun x => x.2 == id) then
      h.setPage e.1 { p with rollback := some (match p.rollback with
        | some m => min m n
        | none => n) }
    else h) h

/-- A final record waits for its steps in the input staging of the ridges whose pages use it, value and status (R283). -/
def stage (h : Hw) (n id : Nat) (v st : Word) : Hw :=
  let rs := (List.range 16).filter fun i => h.islandOn i &&
    h.fab.pages.any fun x => x.2.engine / 32 == i && x.2.state ≠ .unplaced && (h.pageInputs x.1).any fun y => y.2 == id
  rs.foldl (fun (h : Hw) i => h.writeRamList (0x4070000 + 0x400000 * i + 2 * (Config.staging n id % 0x4000)) [v, st]) h

/-- A value becomes known for an input of cycle n (R362, R372). -/
def giveInput (h : Hw) (n id : Nat) (v st : Word) : Hw := ((h.stage n id v st).setInput n id (.value v st)).rollbackFor n id

/-- An input that lost to a marker, came too late or names a later cycle: journaled as LATE and counted (R363, R364). -/
def lateInput (h : Hw) (n id : Nat) (v st : Word) : Hw :=
  (h.note 0x0A 0 [word n, word id, v, st]).ltCountBy 1 1

/-- A value of an external channel arrives (R363, R364): 0 taken, 1 its LC is later than the current one, 2 already known or lost to the
marker of SI(n + H), 3 no such channel. An EVENT value carries the LC of the last SI. -/
def extArrive (h : Hw) (c n : Nat) (v st : Word) : Hw × Nat :=
  match h.extCfg c with
  | none => (h, 3)
  | some e =>
    if e.sampled then
      if h.lc < n then (h.lateInput n (extInput c) v st, 1)
      else if (h.inputOf n (extInput c)).isSome || decide (n + bitsOf (h.reg Reg.FAB_LT_CFG) 10 0 ≤ h.lc) then (h.lateInput n (extInput c) v st, 2)
      else ((h.note 0x09 0 [word n, word c, v, st]).giveInput n (extInput c) v st, 0)
    else
      let old := Tabs.get (fun _ => ([] : List (Nat × Word × Word))) h.fab.events c
      let h := h.note 0x09 0 [word h.lc, word c, v, st]
      let ev := Tabs.set (fun _ => ([] : List (Nat × Word × Word))) h.fab.events c ((h.lc, v, st) :: old)
      ({ h with fab := { h.fab with events := ev } }, 0)

/-- The LC nearest the current one with the given low 16 bits (R363). -/
def expandLc (h : Hw) (low : Nat) : Nat :=
  let d := (low + 65536 - h.lc % 65536) % 65536
  if d < 32768 then h.lc + d else h.lc + d - 65536

/-- Every input identifier that some page uses or that is a declared SAMPLED channel, but EVENT channels (R362). -/
def allInputs (h : Hw) : List Nat :=
  let used := h.fab.pages.flatMap fun e => (h.pageInputs e.1).map (·.2)
  let ext := (h.cfg.fab.ext.filter fun e => e.2.any (·.sampled)).map fun e => extInput e.1
  ((used ++ ext).filter fun id => inputKind id ≠ 3 || (h.extCfg (id % 256)).any (·.sampled)).eraseDups

/-- Adds 1 to FAB_LT_STAT.ABSENT and LT_COUNT 0 (R390, R391). -/
def countAbsent (h : Hw) : Hw := (h.countFld Reg.FAB_LT_STAT Fld.FAB_LT_STAT_ABSENT).ltCountBy 0 1

/-- Absent markers for every input of cycle n that is not known (R364). -/
def markAbsent (h : Hw) (n : Nat) : Hw :=
  (h.allInputs.filter fun id => (h.inputOf n id).isNone).foldl (fun h id =>
    ((h.note 0x08 0 [word n, word id]).countAbsent).setInput n id .absent) h

/-- A command with a commit LC is journaled before the next SI and counted (R368). -/
def journalCommand (h : Hw) (commit obj : Nat) (value : List Byte) : Hw :=
  (h.note 0x0B 0 ([word commit, word h.lc, word (value.length * 2 ^ 32 + obj)] ++ packBytes value)).ltCountBy 2 1

/-- LEAD, HORIZON and DEPTH (R390). -/
def lead_ (h : Hw) : Nat := h.fld Reg.FAB_LT_CFG Fld.FAB_LT_CFG_LEAD
def horizon (h : Hw) : Nat := h.fld Reg.FAB_LT_CFG Fld.FAB_LT_CFG_HORIZON
def depth (h : Hw) : Nat := h.fld Reg.FAB_LT_CFG Fld.FAB_LT_CFG_DEPTH

/-- LC_commit (R299). -/
def lcCommit (h : Hw) : Nat := (h.reg Reg.FAB_LC_COMMIT).toNat

/-- The cycle from which steps and commits are owed: while an earlier span has a cycle not yet committed the one after LC_commit,
else the first of the span in progress (R361, R366). -/
def firstOwed (h : Hw) : Nat := if h.fab.spans.any fun x => decide (h.lcCommit < x.2) then h.lcCommit + 1 else h.fab.spanStart - 1

end Hw

end Sys2Proof.Machine
end

