-- ==== Sys2Proof/Machine/Time.lean ====
section
/-! DEFINITION. The time unit: device time, network time, the servo, jumps and the calendar (R585 to R612). Times are in
2⁻¹⁰ ns. -/

namespace Sys2Proof.Machine

/-- One ns, one ms and one s. -/
def tNs : Nat := 1024
def tMs : Nat := 1000000 * 1024
def tSec : Nat := 1000000000 * 1024

/-- A time value as TIME80: the seconds, in two's complement, and the rest (R585). -/
def time80 (t : Int) : Word × Word := (BitVec.ofInt 40 (t / tSec), BitVec.ofInt 40 (t % tSec))

/-- The time value of two words, when the nanoseconds are in range (R585). -/
def time80Val (hi lo : Word) : Option Int := if lo.toNat < tSec then some (hi.toInt * tSec + lo.toNat) else none

/-- The lock states of R597. -/
def tFree : Nat := 0
def tAcquiring : Nat := 1
def tLocked : Nat := 2
def tHoldover : Nat := 3

/-- The entry of R591 in its words. -/
def epochWords (e : Epoch) : List Word :=
  let t := time80 e.tStart
  let o := time80 e.offset
  [word (e.num % 65536 * 2 ^ 24 + e.kind * 2 ^ 20), word e.startLc, t.1, t.2, o.1, o.2, word e.stretch, word e.confirmLc]

namespace Hw

/-- A change of the time unit beyond its registers. -/
def onTu (h : Hw) (f : TimeUnit → TimeUnit) : Hw := { h with tu := f h.tu }

/-- The epoch in force (R590). -/
def epochNow (h : Hw) : Epoch := (h.tu.epochs.find? fun e => e.num % 65536 == h.fld Reg.TIME_STAT Fld.TIME_STAT_EPOCH).getD {}

/-- Network time is valid (R590). -/
def timeValid (h : Hw) : Bool := h.flag Reg.TIME_STAT Fld.TIME_STAT_VALID

/-- The network time of a device time, when valid (R590). -/
def netOf (h : Hw) (t : Nat) : Option Int := if h.timeValid then some (t + h.epochNow.offset) else none

/-- The length of the cycle in course (R588, R599). -/
def cycleLen (h : Hw) : Nat := match h.tu.stretchAt with
  | some (n, s) => if n = h.lc then tMs + s else tMs
  | none => tMs

/-- An instant of the cycle in course: free, and not before any instant already used (R586). -/
def observe (h : Hw) : Nat × Hw :=
  let d := h.draw (h.tu.tSi + h.cycleLen - h.tu.now)
  (h.tu.now + d.1, d.2.onTu fun t => { t with now := t.now + d.1 })

/-- Network time at the last SI as TIME80, when valid. -/
def netTime (h : Hw) : Option (Word × Word) := (h.netOf h.tu.tSi).map time80

/-- The lock state (R597). -/
def lockState (h : Hw) : Nat := h.fld Reg.TIME_STAT Fld.TIME_STAT_STATE

/-- The slave port: the device's link of the time path (R594). -/
def slavePort (h : Hw) : Option Nat :=
  let l := h.cfg.time.upstream
  l[Config.bestMaster h.tu.gone % l.length]?

/-- NOPLANT of the records (R270, R271): the time is valid and locked, and the device's link of the time path uses port timestamping with
its asymmetry declared. The other devices of the path and the limits of R270 are outside this device. -/
def setNoplant (h : Hw) : Hw :=
  let ok := h.timeValid && h.lockState == tLocked && h.slavePort.all fun p =>
    !h.bit (Reg.TIME_PORT p 0) 39 && h.cfg.time.asym.contains p
  h.setFld Reg.SNP_STAT ⟨3, 3⟩ (b2n !ok)

/-- The lock state changes (R597). -/
def setLock (h : Hw) (st : Nat) : Hw :=
  let old := h.lockState
  if old = st then h
  else
    let h := (h.setFld Reg.TIME_STAT Fld.TIME_STAT_STATE st).setBit Reg.TIME_IRQ_STAT 0
    let h := if old = tLocked then h.count Reg.TIME_CNT_UNLOCK else h
    let h := if st = tHoldover then ((h.count Reg.TIME_CNT_HOLD).setBit Reg.TIME_IRQ_STAT 5).onTu fun t => { t with heldSince := h.lc }
      else h.onTu fun t => { t with silent := false }
    (if st = tAcquiring then h.onTu fun t => { t with streak := 0 } else h).setNoplant

/-! ### Samples (R596 to R599) -/

/-- The candidates held, with PEND and CAND. -/
def setCands (h : Hw) (l : List Int) : Hw :=
  let h := h.onTu fun t => { t with cands := l }
  (h.setFld Reg.TIME_STAT Fld.TIME_STAT_PEND (b2n !l.isEmpty)).setFld Reg.TIME_STAT Fld.TIME_STAT_CAND (l.length - 1)

/-- A pending set of candidates is discarded and counted (R598, R610). -/
def dropCands (h : Hw) : Hw := if h.tu.cands.isEmpty then h else (h.setCands []).count Reg.TIME_CNT_REJECT

/-- The servo (R596). -/
def servo (h : Hw) (theta : Int) : Hw :=
  let w := h.reg Reg.TIME_SERVO
  let clampI := fun (v : Int) => min (max v (-3435973)) 3435973
  let i := clampI (h.tu.integral + rhe (bitsOf w 19 0 * theta) 65536)
  let inc := min (max (0x0800000000 + i + rhe (bitsOf w 39 20 * theta) 65536) 0x07FFCB923B) 0x0800346DC5
  (h.onTu fun t => { t with integral := i }).setReg Reg.TIME_INC (wrap inc)

/-- The thresholds of TIME_CFG, in 2⁻¹⁰ ns. -/
def stepThr (h : Hw) : Int := h.fld Reg.TIME_CFG Fld.TIME_CFG_STEP_THR * 1000 * tNs
def lockThr (h : Hw) : Int := h.fld Reg.TIME_CFG Fld.TIME_CFG_LOCK_NS * tNs

/-- An epoch has been confirmed and awaits its START_LC. -/
def rephasing (h : Hw) : Bool := h.flag Reg.TIME_STAT Fld.TIME_STAT_REPHASE

/-- An EPOCH record, while the journal runs (R592). -/
def epochRecord (h : Hw) (e : Epoch) : Hw := h.note 0x12 0 (epochWords e)

/-- A jump is confirmed: the next epoch (R599). -/
def confirm (h : Hw) (delta : Int) : Hw :=
  let cur := h.epochNow
  let s := ((-delta) % (tMs : Int)).toNat
  let e : Epoch :=
    { num := cur.num + 1, kind := if h.lockState = tFree then 1 else 2, startLc := h.lc + 2, tStart := h.tu.tSi + 2 * tMs + s,
      offset := cur.offset + delta, stretch := (rhe s tNs).toNat, confirmLc := h.lc }
  let h := h.onTu fun t => { t with epochs := (e :: t.epochs).take 16, stretchAt := some (h.lc + 1, s) }
  ((h.setFld Reg.TIME_STAT Fld.TIME_STAT_REPHASE 1).count Reg.TIME_CNT_EPOCH).epochRecord e

/-- A candidate (R598). -/
def candidate (h : Hw) (theta : Int) : Hw :=
  let l := h.tu.cands ++ [theta]
  let h := h.setBit Reg.TIME_IRQ_STAT 2
  if l.length < 4 then h.setCands l
  else
    let sum := l.foldl (· + ·) 0
    let ok := l.all fun c => decide ((4 * c - sum).natAbs ≤ 4 * 10000 * tNs)
    if ok then (h.setCands []).confirm (rhe sum 4) else (h.count Reg.TIME_CNT_REJECT).setCands [theta]

/-- The lock state after a sample (R597). -/
def lockAfter (h : Hw) (theta : Int) : Hw :=
  let h := if h.lockState = tHoldover then h.setLock tAcquiring else h
  let st := h.lockState
  let mag : Int := theta.natAbs
  if st = tLocked then (if 4 * h.lockThr < mag then h.setLock tAcquiring else h)
  else if st = tAcquiring then
    let n := if mag ≤ h.lockThr then h.tu.streak + 1 else 0
    let h := h.onTu fun t => { t with streak := n }
    if 8 ≤ n then h.setLock tLocked else h
  else h

/-- A sample (R596, R598): ignored while the servo is off and from a confirmation to its SI. A Dusk holds no candidates (R610). -/
def sample (h : Hw) (theta : Int) : Hw :=
  if !h.flag Reg.TIME_CTRL Fld.TIME_CTRL_SERVO_EN || h.rephasing then h
  else
    let h := h.onTu fun t => { t with lastSample := h.lc }
    let h := h.lockAfter theta
    if h.lockState ≠ tFree ∧ (theta.natAbs : Int) ≤ h.stepThr then h.dropCands.servo theta
    else if h.pstate = 4 then h else h.candidate theta

/-- The new epoch takes effect at SI(START_LC) (R597, R599). -/
def startEpoch (h : Hw) (e : Epoch) : Hw :=
  let was := h.timeValid
  let h := (h.setFld Reg.TIME_STAT Fld.TIME_STAT_EPOCH e.num).setFld Reg.TIME_STAT Fld.TIME_STAT_REPHASE 0
  let h := (h.setFld Reg.TIME_STAT Fld.TIME_STAT_VALID 1).setBit Reg.TIME_IRQ_STAT 1
  let h := if was then h else h.setBit Reg.TIME_IRQ_STAT 7
  ((h.setLock tAcquiring).onTu fun t => { t with streak := 0 }).setNoplant

/-- The grid moves to SI(n) (R588, R599). -/
def gridTo (h : Hw) (n : Nat) : Hw :=
  let t := h.tu.tSi + h.cycleLen
  { h with lc := n }.onTu fun u => { u with tSi := t, now := t, stretchAt := match u.stretchAt with
    | some x => if x.1 < n then none else some x
    | none => none }

/-! ### Whole seconds (R605, R607) -/

/-- A whole second of a time that runs from a value over the cycle in course: the one it holds, if any. -/
def secondIn (h : Hw) (t : Int) : Option Int :=
  let s := -((-t) / (tSec : Int))
  if s * tSec < t + h.cycleLen then some s else none

/-! ### The calendar (R607 to R609) -/

end Hw

/-- The year is a leap year (R608). -/
def leapYear (y : Nat) : Bool := y % 400 == 0 || (y % 4 == 0 && y % 100 ≠ 0)

/-- The days of a month. -/
def monthDays (y m : Nat) : Nat :=
  if m = 2 then (if leapYear y then 29 else 28) else if m = 4 ∨ m = 6 ∨ m = 9 ∨ m = 11 then 30 else 31

/-- The days before a year, from year 0. -/
def yearDays (y : Nat) : Nat := 365 * y + (y + 3) / 4 - (y + 99) / 100 + (y + 399) / 400

/-- Days from 1970-01-01 of a date. -/
def dateDays (y m d : Nat) : Nat :=
  yearDays y - yearDays 1970 + ((List.range (m - 1)).map fun i => monthDays y (i + 1)).foldl (· + ·) 0 + (d - 1)

/-- A calendar date is acceptable (R608). -/
def dateOk (w : Word) : Bool :=
  let y := 2000 + bitsOf w 39 31
  let m := bitsOf w 30 27
  let d := bitsOf w 26 22
  y ≤ 2399 && 1 ≤ m && m ≤ 12 && 1 ≤ d && d ≤ monthDays y m && bitsOf w 21 17 ≤ 23 && bitsOf w 16 11 ≤ 59 &&
    bitsOf w 10 5 ≤ 59 && bitsOf w 4 0 == 0

/-- The UTC seconds of a date (R608). -/
def dateSecs (w : Word) : Nat :=
  dateDays (2000 + bitsOf w 39 31) (bitsOf w 30 27) (bitsOf w 26 22) * 86400 + bitsOf w 21 17 * 3600 + bitsOf w 16 11 * 60 + bitsOf w 10 5

namespace Hw

/-- OFFSET of TIME_UTC, signed. -/
def utcOffset (h : Hw) : Int := (BitVec.ofNat 16 (h.fld Reg.TIME_UTC Fld.TIME_UTC_OFFSET)).toInt

/-- UTC is valid (R607). -/
def utcValid (h : Hw) : Bool := h.timeValid && h.flag Reg.TIME_UTC Fld.TIME_UTC_VALID

/-- The TAI seconds of a date, and LC_D: the first SI at or after it on the grid of the epoch in force (R609). -/
def dateLc (h : Hw) (w : Word) : Int × Nat :=
  let tai := (dateSecs w : Int) + h.utcOffset
  let e := h.epochNow
  let d := tai * tSec - (e.tStart + e.offset)
  (tai, if d < 0 then 0 else e.startLc + ((d + (tMs - 1)) / (tMs : Int)).toNat)

/-- PTP event messages: EtherType 0x88F7 with a message type below 4, or UDP to port 319 (R593, R595). `l` has no tag. -/
def ptpAt (l : List Byte) : Option Nat :=
  let ty := beNat ((l.drop 12).take 2)
  if ty = 0x88F7 then some 14
  else if ty = 0x0800 && (l.getD 23 0).toNat == 17 then
    let ihl := (l.getD 14 0).toNat % 16 * 4
    if beNat ((l.drop (14 + ihl + 2)).take 2) = 319 ∨ beNat ((l.drop (14 + ihl + 2)).take 2) = 320 then some (14 + ihl + 8) else none
  else if ty = 0x86DD && (l.getD 20 0).toNat == 17 then
    (if beNat ((l.drop 56).take 2) = 319 ∨ beNat ((l.drop 56).take 2) = 320 then some 62 else none)
  else none

/-- The message type of a PTP message. -/
def ptpType (l : List Byte) : Option Nat := (ptpAt l).map fun i => (l.getD i 0).toNat % 16

/-- The domain of a PTP message: the fifth byte of its header (R593). -/
def ptpDomain (l : List Byte) : Option Nat := (ptpAt l).map fun i => (l.getD (i + 4) 0).toNat

/-- An Announce message of a declared peer, known by its source MAC address: a peer that had left the choice of master rejoins it
(R594). One of another peer or another domain is ignored, and counted (R131; log entry 46). -/
def announced (h : Hw) (l : List Byte) : Hw :=
  let src := beNat ((l.drop 6).take 6)
  if ptpType l ≠ some 0xB then h
  else if !h.cfg.time.peers.contains src || ptpDomain l ≠ some h.cfg.time.domain then h.undeclare 12
  else (h.onTu fun t => { t with gone := t.gone.filter fun i => h.cfg.time.peers[i]? ≠ some src }).setNoplant

/-- The frame is a PTP event message. -/
def ptpEvent (l : List Byte) : Bool := match ptpType l with
  | some t => t < 4
  | none => false

end Hw

end Sys2Proof.Machine
end

