-- ==== Sys2Proof/Machine/Switch.lean ====
section
/-! DEFINITION. The frame switch: the buffer, forwarding, egress and the injector (R553 to R576). -/

namespace Sys2Proof.Machine

/-- Bytes of a frame as a number. -/
def frameField (l : List Byte) (i n : Nat) : Nat := beNat ((l.drop i).take n)

/-- The port is an EP, and its rate in Gb/s (R553). -/
def isEp (p : Nat) : Bool := p < 8
def epRate (p : Nat) : Nat := if p < 2 then 10 else 1

/-- Cells of a frame of length L (R560). -/
def cellsOf (len : Nat) : Nat := (len + 255) / 256

/-- A group address (R559). -/
def groupAddr (mac : Nat) : Bool := bitN mac 40

namespace Hw

/-- A change of the switch beyond its registers. -/
def onSw (h : Hw) (f : Switcher → Switcher) : Hw := { h with sw := f h.sw }

/-- The switch runs: its clock comes from PLL_S (R553, R555, R583). -/
def swOn (h : Hw) : Bool := h.sysOn && h.bit Reg.SWC_CTRL 0 && h.bit Reg.CLK_STAT 7 && h.bit Reg.CLK_STAT 1

/-- The link of an EP is up (R554). -/
def linkUp (h : Hw) (p : Nat) : Bool := h.bit (Reg.MAC_STAT p) 7

/-- The egress is paused (R570). -/
def paused (h : Hw) (p : Nat) : Bool := isEp p && h.bit (Reg.MAC_STAT p) 5

/-- Adds n to counter j of an EP's MAC, with HALF (R580). A host port has no such counters. -/
def macCount (h : Hw) (p j n : Nat) : Hw :=
  if !isEp p then h
  else
    let v := (h.reg (Reg.MAC_CNT p j)).toNat
    let w := (v + n) % 2 ^ 40
    let h := h.setReg (Reg.MAC_CNT p j) (word w)
    if v < 2 ^ 39 ∧ 2 ^ 39 ≤ w then (h.setBit (Reg.MAC_HALF p) j).setBit (Reg.MAC_IRQ_STAT p) 1 else h

/-- A counter and an interrupt of the switch core. -/
def swNote (h : Hw) (reg irq : Nat) : Hw := (h.count reg).setBit Reg.SWC_IRQ_STAT irq

/-! ### The buffer (R560 to R564) -/

/-- FREE, and both terms of the books (R563). -/
def swFree (h : Hw) : Nat := h.fld Reg.SWC_BUF Fld.SWC_BUF_FREE
def setFree (h : Hw) (n : Nat) : Hw :=
  (h.setFld Reg.SWC_BUF Fld.SWC_BUF_FREE n).setFld Reg.SWC_BUF Fld.SWC_BUF_ALLOC (16384 - n)

/-- A frame of the buffer. -/
def swFrame (h : Hw) (id : Nat) : Option SwFrame := h.sw.frames.find? fun f => f.id == id

/-- Replaces a frame of the buffer. -/
def putFrame (h : Hw) (f : SwFrame) : Hw := h.onSw fun s => { s with frames := s.frames.map fun g => if g.id = f.id then f else g }

/-- A frame leaves the buffer, and its cells are free (R560, R564). -/
def dropFrame (h : Hw) (f : SwFrame) : Hw :=
  let h := h.onSw fun s => { s with frames := s.frames.filter fun g => g.id ≠ f.id }
  if f.ingress = 11 then h.onSw fun s => { s with injFree := s.injFree + f.cells } else h.setFree (h.swFree + f.cells)

/-- An egress releases its reference (R565). -/
def releaseRef (h : Hw) (id q : Nat) : Hw :=
  match h.swFrame id with
  | none => h
  | some f =>
    let f := { f with egress := f.egress.filter (· ≠ q), ct := f.ct.filter (· ≠ q), started := f.started.filter (· ≠ q) }
    if f.egress.isEmpty then h.dropFrame f else h.putFrame f

/-- The cells held or reserved by frames of an ingress and a class (R561). -/
def heldBy (h : Hw) (p c : Nat) : Nat :=
  ((h.sw.frames.filter fun f => f.ingress == p && f.cls == c).map (·.cells)).foldl (· + ·) 0

/-- The victims of a push-out, in order (R562). -/
def victims (h : Hw) (q c : Nat) : List SwFrame :=
  (List.range c).flatMap fun k =>
    (h.sw.frames.filter fun f => f.cls == k && f.egress == [q] && f.whole && f.started.isEmpty).reverse

/-- The shortest run of victims that frees enough cells. -/
def enough : Nat → List SwFrame → Option (List SwFrame)
  | free, [] => if 8 ≤ free then some [] else none
  | free, f :: fs => if 8 ≤ free then some [] else (enough (free + f.cells) fs).map (f :: ·)

/-- Cells are reserved for a frame (R561, R562): the machine, and whether it is admitted. -/
def reserve (h : Hw) (p c : Nat) (unicast : Bool) (mask : List Nat) : Hw × Bool :=
  if h.fld (Reg.SWC_LIMIT p c) ⟨13, 0⟩ < h.heldBy p c + 8 then (h, false)
  else if 8 ≤ h.swFree then (h.setFree (h.swFree - 8), true)
  else match mask with
    | [q] =>
      if c < 6 ∨ !unicast then (h, false)
      else match enough h.swFree (h.victims q c) with
        | none => (h, false)
        | some vs =>
          let h := vs.foldl (fun (h : Hw) v => ((h.dropFrame v).macCount q 31 1).swNote Reg.SWC_CNT_PUSHOUT 0) h
          (h.setFree (h.swFree - 8), true)
    | _ => (h, false)

/-- A frame joins the buffer. -/
def joinSw (h : Hw) (f : SwFrame) : Hw × Nat :=
  let id := h.sw.nextId
  (h.onSw fun s => { s with frames := s.frames ++ [{ f with id := id }], nextId := id + 1 }, id)

/-! ### Forwarding (R557 to R559, R573) -/

/-- What the stages before admission give a frame. -/
structure Fwd where
  /-- The counter of the stage that discards it. -/
  drop : Option Nat := none
  vid : Nat := 0
  pcp : Nat := 0
  cls : Nat := 0
  demoted : Bool := false
  mask : List Nat := []
  flooded : Bool := false
  /-- A unicast destination that is not in the forwarding database (R131). -/
  unknown : Bool := false
  noSeq : Bool := false
  /-- The declared PRP node that sends it. -/
  node : Option Nat := none
  /-- The forwarding entry that it hit. -/
  hit : Option Nat := none
  deriving DecidableEq, Repr

/-- The tag of a frame (R557): TCI. -/
def tagOf (l : List Byte) : Option Nat := if frameField l 12 2 = 0x8100 then some (frameField l 14 2) else none

/-- A frame without its tag. -/
def untagged (l : List Byte) : List Byte := if (tagOf l).isSome then l.take 12 ++ l.drop 16 else l

/-- The lowest valid VLAN entry of a VID (R557). -/
def vlanOf (h : Hw) (vid : Nat) : Option Word :=
  ((List.range 256).map fun i => h.reg (Reg.SWC_VLAN i)).find? fun w => bitN w.toNat 39 && bitsOf w 33 22 == vid

/-- The forwarding entry of a key (R559). -/
def fdbFind (h : Hw) (vid mac : Nat) : Option (Nat × Word × Word × Word) :=
  h.sw.fdb.find? fun e => bitN e.2.1.toNat 39 && bitsOf e.2.1 27 16 == vid &&
    bitsOf e.2.1 15 0 * 2 ^ 32 + bitsOf e.2.2.1 39 8 == mac

/-- The ports of an 11-bit mask. -/
def portsOf (m : Nat) : List Nat := (List.range 11).filter fun p => bitN m p

/-- PRP governs EP0 and EP1 (R573). -/
def prpOn (h : Hw) : Bool := h.bit Reg.SWC_PRP 39

/-- Mask of a frame after R557: the VLAN's members, without the ingress and without links that are down; and no relaying
between the PRP pair. -/
def pruned (h : Hw) (p member : Nat) (l : List Nat) : List Nat :=
  l.filter fun q => bitN member q && q ≠ p && (!isEp q || h.linkUp q) && !(h.prpOn && p < 2 && q < 2)

/-- The sending half of PRP (R573): a frame of a declared node that has EP0 or EP1 in its mask goes to both, and any other source's to
the ports that its mask names. `allowed`: the ports that the other rules leave to it. -/
def prpMask (h : Hw) (sa : Nat) (mask : List Nat) (allowed : List Nat → List Nat) : List Nat × Option Nat × Bool :=
  let node := (h.cfg.sw.prpNodes.zipIdx.find? fun x => x.1.1 == sa).map (·.2)
  let wide := if h.prpOn && node.isSome && mask.any (· < 2) then (mask ++ [0, 1]).eraseDups else mask
  let m := allowed wide
  let pair := h.prpOn && m.any (· < 2)
  (m, if pair then node else none, pair && node.isNone)

/-- The class stage (R558): class 7 is given to ports with T7 alone. -/
def classFor (h : Hw) (p c : Nat) : Nat × Bool :=
  let d := c = 7 && !h.bit (Reg.SWC_PORT p) 16
  (if d then 6 else c, d)

/-- The VLAN, class and lookup stages (R557 to R559, R573). DESIGN CHOICE (log entry 45): a frame with the VID 0 in its tag is one of the
tagged frames of ACCEPT. -/
def forward (h : Hw) (p : Nat) (l : List Byte) (cls : Option Nat) : Fwd :=
  let port := h.reg (Reg.SWC_PORT p)
  let tci := tagOf l
  let vid0 := (tci.getD 0) % 4096
  let acc := bitsOf port 15 14
  let vid := if vid0 = 0 then bitsOf port 31 20 else vid0
  if (acc = 1 ∧ tci.isNone) ∨ (acc = 2 ∧ vid0 ≠ 0) ∨ vid0 = 0xFFF ∨ vid = 0 then { drop := some 19 }
  else match h.vlanOf vid with
    | none => { drop := some 19 }
    | some vl =>
      let member := bitsOf vl 21 11
      if !bitN member p then { drop := some 19 }
      else
        let own := match cls, tci with
          | some c, _ => c
          | none, some t => bitsOf (h.reg (Reg.SWC_PCP p)) (3 * (t / 8192) + 2) (3 * (t / 8192))
          | none, none => bitsOf port 19 17
        let mac := frameField l 0 6
        let e := h.fdbFind vid mac
        let c := match e with
          | some x => if bitN x.2.1.toNat 38 then bitsOf x.2.1 37 35 else own
          | none => own
        let cd := h.classFor p c
        let c := cd.1
        let pcp := match tci with
          | some t => t / 8192
          | none => c
        let base : Fwd := { vid := vid, pcp := pcp, cls := c, demoted := cd.2, unknown := e.isNone && !groupAddr mac }
        let local_ := decide (0x0180C2000000 ≤ mac) && decide (mac ≤ 0x0180C200000F)
        let flood := if groupAddr mac then bitN vl.toNat 37 && !local_ else bitN vl.toNat 38
        let r : Fwd := match e with
          | some x => { base with mask := portsOf (bitsOf x.2.2.2 10 0), hit := some x.1 }
          | none => if flood then { base with mask := portsOf member, flooded := !groupAddr mac } else { base with drop := some 20 }
        if r.drop.isSome then r
        else
          let m := h.prpMask (frameField l 6 6) r.mask (h.pruned p member)
          if m.1.isEmpty then { r with drop := some 20, mask := [] }
          else { r with mask := m.1, noSeq := m.2.2, node := m.2.1 }

/-- A frame below 60 bytes is padded. -/
def padded (l : List Byte) : List Byte := l ++ List.replicate (60 - l.length) 0

/-- The frame as an egress sends it (R557, R573): the tag, and the trailer of a PRP node. -/
def sentBytes (h : Hw) (f : SwFrame) (q : Nat) : List Byte :=
  let untag := f.raw || match h.vlanOf f.vid with
    | some w => bitN (bitsOf w 10 0) q
    | none => false
  let b := if untag then f.bytes else f.bytes.take 12 ++ [0x81, 0x00] ++ beBytes 2 (f.pcp * 8192 + f.vid) ++ f.bytes.drop 12
  match f.prp with
  | some s =>
    if q < 2 then
      b ++ beBytes 2 s ++ beBytes 2 ((if q = 0 then 0xA else 0xB) * 4096 + ((untagged f.bytes).length - 14 + 6) % 4096) ++ [0x88, 0xFB]
    else b
  | none => b

/-- The frame leaves as a PRP copy at an egress. -/
def prpCopy (f : SwFrame) (q : Nat) : Bool := f.prp.isSome && q < 2

/-- The egresses that a frame may go to cut-through (R567). -/
def cutThrough (h : Hw) (p : Nat) (f : SwFrame) : List Nat :=
  if !isEp p || (h.prpOn && p < 2) || (h.bit (Reg.TIME_PORT p 0) 38 && (ptpType f.bytes).isSome) then []
  else f.egress.filter fun q =>
    isEp q && decide (epRate q ≤ epRate p) && bitN (h.reg (Reg.SWC_EGR q)).toNat (32 + f.cls) && !h.paused q &&
      (Tabs.get (fun _ => (none : Option (Nat × Bool × Bool))) h.sw.sending q).isNone &&
      !(h.sw.frames.any fun g => g.egress.contains q && decide (f.cls ≤ g.cls)) && !prpCopy f q

/-- A sequence number of a PRP node (R573). -/
def nextSeq (h : Hw) (n : Nat) : Hw × Nat :=
  let s := Tabs.get (fun _ => 0) h.sw.seqs n
  (h.onSw fun w => { w with seqs := Tabs.set (fun _ => (0 : Nat)) w.seqs n ((s + 1) % 65536) }, s)

/-! ### Mirroring (R575, R576) -/

/-- A mirror copy is queued while FREE is at least 1 024 and its port can be named. DESIGN CHOICE (log entry 45): one for an analysis port
whose link is down is a copy not admitted, and a copy holds its own cells, of the port that it mirrors. -/
def mirrorCopy (h : Hw) (p : Nat) (l : List Byte) (sample : Bool) : Hw :=
  let len := l.length + 4
  let b := if sample then l.take 128 else l
  let q := if sample then 9 else h.fld Reg.SWC_MIRROR Fld.SWC_MIRROR_ANA
  if h.swFree < 1024 || (isEp q && !h.linkUp q) then h.swNote Reg.SWC_CNT_MIRROR_DROP 2
  else
    let n := cellsOf (b.length + 4)
    ((h.setFree (h.swFree - n)).joinSw
      { id := 0, ingress := p, cls := 0, bytes := b, cells := n, whole := true, egress := [q], raw := true,
        mirror := some (len, sample) }).1

/-- What mirroring takes of a frame that a port receives or sends: a SAMPLE copy, a COPY. `hit` is its forwarding entry. -/
def mirrorTakes (h : Hw) (p : Nat) (rx : Bool) (hit : Option Nat) : Hw × Bool × Bool :=
  let w := h.reg Reg.SWC_MIRROR
  let on := bitN (bitsOf w 32 22) p && bitN w.toNat (if rx then 34 else 33)
  let mode := bitsOf w 39 38
  if mode = 1 then
    if on then
      let n := h.sw.sample + 1
      let take := n % max (bitsOf w 15 0) 1 == 0
      (h.onSw fun s => { s with sample := if take then 0 else n }, take, false)
    else (h, false, false)
  else if mode = 2 then
    let flow := rx && h.bit Reg.SWC_MIRROR_FLOW 39 && hit == some (h.fld Reg.SWC_MIRROR_FLOW Fld.SWC_MIRROR_FLOW_INDEX)
    (h, false, on || flow)
  else (h, false, false)

/-! ### Admission of a frame (R556, R558, R561, R567) -/

/-- The stages from class to queue: the frame in the buffer where it is admitted. `bytes` is the frame without its tag, of as
much as has arrived. -/
def takeIn (h : Hw) (p : Nat) (w : Fwd) (bytes : List Byte) (mac : Nat) (time : Option Int) : Hw × Option Nat :=
  let h := if w.flooded then h.count Reg.SWC_CNT_UU_FLOOD else h
  let h := if w.noSeq then h.swNote Reg.SWC_CNT_PRP_NOSEQ 3 else h
  let r := h.reserve p w.cls (!groupAddr mac) w.mask
  if !r.2 then (r.1.macCount p 18 1, none)
  else
    let s := match w.node with
      | some n => let x := r.1.nextSeq n; (x.1, some x.2)
      | none => (r.1, none)
    let f : SwFrame := { id := 0, ingress := p, cls := w.cls, bytes := bytes, egress := w.mask, vid := w.vid, pcp := w.pcp, prp := s.2,
                          rxTime := time }
    let f := { f with ct := s.1.cutThrough p f }
    let j := s.1.joinSw f
    (j.1, some j.2)

/-- A frame handed over whole: admitted, and at once of its own size (R560). -/
def admitWhole (h : Hw) (p : Nat) (w : Fwd) (bytes : List Byte) (len : Nat) (time : Option Int) : Hw × Option Nat :=
  let a := h.takeIn p w bytes (frameField bytes 0 6) time
  match a.2.bind a.1.swFrame with
  | none => a
  | some f =>
    let n := cellsOf len
    ((a.1.setFree (a.1.swFree + (f.cells - n))).putFrame { f with cells := n, whole := true, ct := [] }, some f.id)

/-! ### The injector (R564, R718) -/

/-- A frame of the injector's reserve, in class 7, to egress ports. -/
def inject (h : Hw) (bytes : List Byte) (ports : List Nat) : Hw :=
  let ports := ports.filter fun q => !isEp q || h.linkUp q
  if !h.swOn || ports.isEmpty then h
  else
    let n := cellsOf (bytes.length + 4)
    if h.sw.injFree < n then h.swNote Reg.SWC_CNT_INJ_DROP 1
    else
      let h := h.onSw fun s => { s with injFree := s.injFree - n }
      (h.joinSw { id := 0, ingress := 11, cls := 7, bytes := bytes, cells := n, whole := true, egress := ports, raw := true }).1

/-- A frame of the VNK controller, in class 6, from FREE under the class 6 limit of HP0 (R718). -/
def inject6 (h : Hw) (bytes : List Byte) (ports : List Nat) : Hw :=
  let ports := ports.filter fun q => !isEp q || h.linkUp q
  if !h.swOn || ports.isEmpty then h
  else
    let r := h.reserve 8 6 (ports.length == 1) ports
    if !r.2 then r.1
    else
      let n := min 8 (cellsOf (bytes.length + 4))
      let h := r.1.setFree (r.1.swFree + (8 - n))
      (h.joinSw { id := 0, ingress := 8, cls := 6, bytes := bytes, cells := n, whole := true, egress := ports, raw := true }).1

end Hw

end Sys2Proof.Machine
end

