-- ==== Sys2Proof/Machine/HostPort.lean ====
section
/-! DEFINITION. The host ports' descriptor rings and their memory accesses (R504, R577, R578), and the two-wire and MDIO windows'
shared request path (R579). -/

namespace Sys2Proof.Machine

/-- The identity of an owner code (R503). -/
def codeWho (c : Nat) : Option Who :=
  if c = 1 then some .secure else if c = 2 then some .crest else if c = 4 then some .hypervisor
  else if h : 0x10 ≤ c ∧ c < 0x20 then some (.vm ⟨c - 0x10, by omega⟩) else none

namespace State

/-- A word that a unit reads for its owner: `none` where the access is denied, has no memory behind it or meets poison. -/
def dmaRead (s : State) (who : Who) (a : Nat) : State × Option Word :=
  if !s.hw.memAllows who false a then (s.onHw fun h => h.deny who false a, none)
  else match s.memLoad a with
    | (s, .ok w) => (s, some w)
    | (s, _) => (s, none)

/-- Words that a unit reads. -/
def dmaReads (s : State) (who : Who) : Nat → Nat → State × Option (List Word)
  | _, 0 => (s, some [])
  | a, n + 1 =>
    match s.dmaRead who a with
    | (s, none) => (s, none)
    | (s, some w) => match s.dmaReads who (a + 1) n with
      | (s, some ws) => (s, some (w :: ws))
      | r => r

/-- Words that a unit writes: whether every one of them reached memory. -/
def dmaWrites (s : State) (who : Who) : Nat → List Word → State × Bool
  | _, [] => (s, true)
  | a, w :: ws =>
    if !s.hw.memAllows who true a then (s.onHw fun h => h.deny who true a, false)
    else if !s.hw.storable a then (s, false)
    else (s.onHw fun h => h.writeRam a w).dmaWrites who (a + 1) ws

/-- HP_CNT_ERR and its interrupt (R577). -/
def hpError (s : State) (i : Nat) : State := s.onHw fun h => (h.count (Reg.HP_CNT_ERR i)).setBit (Reg.HP_STAT i) 3

/-- The index after a ring's HEAD. -/
def nextHead (h : Hw) (ctl : Nat) : Nat :=
  if h.fld ctl Fld.HP_RX_CTL_HEAD + 1 < h.fld ctl Fld.HP_RX_CTL_SIZE then h.fld ctl Fld.HP_RX_CTL_HEAD + 1 else 0

/-- HEAD advances and a descriptor completes, bit `b` of HP_STAT. -/
def hpDone (s : State) (i ctl b : Nat) : State :=
  s.onHw fun h => (h.setFld ctl Fld.HP_RX_CTL_HEAD (nextHead h ctl)).setBit (Reg.HP_STAT i) b

/-- The ring holds a descriptor for hardware. -/
def hpHolds (h : Hw) (ctl : Nat) : Bool :=
  h.fld ctl Fld.HP_RX_CTL_SIZE ≠ 0 && h.fld ctl Fld.HP_RX_CTL_HEAD ≠ h.fld ctl Fld.HP_RX_CTL_TAIL

/-- A frame reaches the receive ring of host port i (R577, R578). -/
def hpDeliver (s : State) (i : Nat) (f : SwFrame) (bytes : List Byte) : State :=
  let ctl := Reg.HP_RX_CTL i
  match codeWho (s.hw.unitOwner (40 + i)) with
  | none => s
  | some who =>
    let noBuf := s.onHw fun h => (h.count (Reg.HP_CNT_NOBUF i)).setBit (Reg.HP_STAT i) 2
    if !hpHolds s.hw ctl then noBuf
    else
      let d := (s.hw.reg (Reg.HP_RX_BASE i)).toNat % 2 ^ 34 + 4 * s.hw.fld ctl Fld.HP_RX_CTL_HEAD
      match s.dmaReads who d 2 with
      | (s, some [w0, w1]) =>
        if !bitN w0.toNat 39 then noBuf
        else
          let ts := f.rxTime.map fun t => time80 t
          let mirrorLen := f.mirror.map (·.1)
          let sample := f.mirror.any (·.2)
          let low := (f.ingress % 16) * 2 ^ 28 + (mirrorLen.getD f.vid % 4096) * 2 ^ 16 + bytes.length
          let r0 := word (b2n sample * 2 ^ 38 + b2n (sample && decide (bytes.length < mirrorLen.getD 0 - 4)) * 2 ^ 37 +
            b2n ts.isSome * 2 ^ 36 + f.cls * 2 ^ 33 + low)
          match s.dmaWrites who (w1.toNat % 2 ^ 34) (Hw.packBytes bytes) with
          | (s, false) => (s.hpError i).hpDone i ctl 0
          | (s, true) =>
            let t := match ts with
              | some x => s.dmaWrites who (d + 2) [x.1, x.2]
              | none => (s, true)
            match t.1.dmaWrites who d [r0] with
            | (s, ok) => (if ok && t.2 then s else s.hpError i).hpDone i ctl 0
      | (s, _) => s.hpError i

/-- The egress timestamp of a transmit descriptor is written back (R578). -/
def hpStamp (s : State) (i idx : Nat) (t : Int) : State :=
  match codeWho (s.hw.unitOwner (40 + i)) with
  | none => s
  | some who =>
    let d := (s.hw.reg (Reg.HP_TX_BASE i)).toNat % 2 ^ 34 + 4 * idx
    match s.dmaWrites who (d + 2) [(time80 t).1, (time80 t).2] with
    | (s, true) => s
    | (s, false) => s.hpError i

end State

namespace Hw

/-- The forwarding of a frame that a host port hands over (R556 to R562): the stages, or the DIRECT mask, which replaces those of R557
and R559 alone. -/
def hostFrame (h : Hw) (i cls direct : Nat) (bytes : List Byte) (stamp : Option (Nat × Nat)) : Hw :=
  let p := 8 + i
  if !h.swOn then h
  else if direct ≠ 0 then
    let m := h.prpMask (frameField bytes 6 6) ((List.range 8).filter fun q => bitN direct q) fun l => l.filter fun q => h.linkUp q
    if m.1.isEmpty then h
    else
      let w : Fwd := { cls := (h.classFor p cls).1, mask := m.1, node := m.2.1, noSeq := m.2.2 }
      let t := h.mirrorTakes p true none
      let a := t.1.admitWhole p w bytes (bytes.length + 4) none
      let h := match a.2.bind a.1.swFrame with
        | some f => a.1.putFrame { f with raw := true, stamp := stamp }
        | none => a.1
      let h := if t.2.1 then h.mirrorCopy p bytes true else h
      if t.2.2 then h.mirrorCopy p bytes false else h
  else
    let w := h.forward p bytes (some cls)
    let h := if w.unknown then h.undeclare 8 else h
    if w.drop.isSome then h
    else
      let m := h.mirrorTakes p true w.hit
      let a := m.1.admitWhole p w (untagged bytes) (bytes.length + 4) none
      let h := match a.2.bind a.1.swFrame with
        | some f => a.1.putFrame { f with stamp := stamp }
        | none => a.1
      let h := if m.2.1 then h.mirrorCopy p bytes true else h
      if m.2.2 then h.mirrorCopy p bytes false else h

end Hw

namespace State

/-- Bytes of words, five a word, cut to a length. -/
def unpack (ws : List Word) (n : Nat) : List Byte := (wordsBytes ws).take n

/-- One transmit descriptor of host port i is handed to the switch (R577, R578); whether the ring may go on. -/
def hpSendOne (s : State) (i : Nat) : State × Bool :=
  let ctl := Reg.HP_TX_CTL i
  match codeWho (s.hw.unitOwner (40 + i)) with
  | none => (s, false)
  | some who =>
    let idx := s.hw.fld ctl Fld.HP_TX_CTL_HEAD
    let d := (s.hw.reg (Reg.HP_TX_BASE i)).toNat % 2 ^ 34 + 4 * idx
    match s.dmaReads who d 2 with
    | (s, some [w0, w1]) =>
      let len := bitsOf w0 15 0
      if !bitN w0.toNat 39 then (s, false)
      else
        let fin := fun (s : State) => match s.dmaWrites who d [withBits w0 39 39 0] with
          | (s, true) => (s.hpDone i ctl 1, true)
          | (s, false) => ((s.hpError i).hpDone i ctl 1, true)
        if len = 0 ∨ 1996 < len then fin (s.hpError i)
        else match s.dmaReads who (w1.toNat % 2 ^ 34) ((len + 4) / 5) with
          | (s, none) => fin (s.hpError i)
          | (s, some ws) =>
            fin (s.onHw fun h => h.hostFrame i (bitsOf w0 35 33) (bitsOf w0 31 21) (unpack ws len)
              (if bitN w0.toNat 36 then some (i, idx) else none))
    | (s, _) => ((s.hpError i).hpDone i ctl 1, true)

/-- The descriptors up to TAIL are sent, at most n. -/
def hpSend (s : State) (i : Nat) : Nat → State
  | 0 => s
  | n + 1 =>
    if hpHolds s.hw (Reg.HP_TX_CTL i) && s.hw.swOn then
      match s.hpSendOne i with
      | (s, true) => s.hpSend i n
      | (s, false) => s
    else s

end State

namespace Hw

/-! ### Management windows (R579) -/

/-- A command of the management window of MAC n: refused while its request is in progress or waits. -/
def mgmtCmd (h : Hw) (n op reg addr data : Nat) : Hw :=
  if h.flag (Reg.MAC_MGMT_STAT n) Fld.MAC_MGMT_STAT_BUSY then h.setFld (Reg.MAC_MGMT_STAT n) Fld.MAC_MGMT_STAT_RESULT 2
  else
    let r : MgmtReq := { port := n, op := op, reg := reg, addr := addr, data := data }
    let h := h.setFld (Reg.MAC_MGMT_STAT n) Fld.MAC_MGMT_STAT_BUSY 1
    if n < 2 then (if op < 2 then h.onSw fun s => { s with wire := Tabs.set (fun _ => none) s.wire n (some r) }
                   else h.setFld (Reg.MAC_MGMT_STAT n) Fld.MAC_MGMT_STAT_BUSY 0)
    else h.onSw fun s => { s with mdio := s.mdio ++ [r] }

/-- The request that a bus is carrying out: the shared MDIO bus, or a module's two-wire bus. -/
def mgmtCurrent (h : Hw) (n : Nat) : Option MgmtReq :=
  if n < 2 then Tabs.get (fun _ => none) h.sw.wire n
  else match h.sw.mdio with
    | r :: _ => if r.port = n then some r else none
    | [] => none

/-- A management access completes. -/
def mgmtEnd (h : Hw) (n : Nat) (ack : Bool) (data : Nat) : Hw :=
  match h.mgmtCurrent n with
  | none => h
  | some r =>
    let h := if n < 2 then h.onSw fun s => { s with wire := Tabs.set (fun _ => none) s.wire n none }
      else h.onSw fun s => { s with mdio := s.mdio.drop 1 }
    let noAck := if n < 2 then !ack || h.bit (Reg.MAC_STAT n) 4 else r.op == 1 && !ack
    let isRead := if n < 2 then r.op == 1 else r.op % 2 == 1
    let stat := Reg.MAC_MGMT_STAT n
    let h := (h.setFld stat Fld.MAC_MGMT_STAT_BUSY 0).setFld stat Fld.MAC_MGMT_STAT_RESULT (b2n noAck)
    let h := if isRead && !noAck then h.setFld stat Fld.MAC_MGMT_STAT_DATA (if n < 2 then data % 256 else data) else h
    let h := h.send (.mgmt n) (byte (r.op * 32 + r.reg) :: beBytes 2 r.addr ++ beBytes 2 r.data)
    h.setBit (Reg.MAC_IRQ_STAT n) 3

end Hw

end Sys2Proof.Machine
end

