-- ==== Sys2Proof/Machine/Cell.lean ====
section
/-! DEFINITION. The step of a cell page and of a rack page under the standard FMC (R392 to R418). A page is the words it had
before the step and a table of the words the step has written. -/

namespace Sys2Proof.Machine

/-- A page in a step: the points before it, and those written over them. -/
structure Pg where
  base : Nat → Word
  w : Tab Word := []

namespace Pg

/-- A point. -/
def word (p : Pg) (o : Nat) : Word := Tabs.get p.base p.w o

/-- A point as a signed number. -/
def int (p : Pg) (o : Nat) : Int := (p.word o).toInt

/-- A point as an unsigned number. -/
def nat (p : Pg) (o : Nat) : Nat := (p.word o).toNat

/-- Writes a point. -/
def put (p : Pg) (o : Nat) (v : Word) : Pg := { p with w := Tabs.put p.w o v }

/-- Writes a point saturated into 40 bits signed. -/
def sat (p : Pg) (o : Nat) (v : Int) : Pg := p.put o (wrap (satVal v))

/-- Writes the points of a list that lie in a range of offsets. -/
def puts (p : Pg) (lo hi : Nat) (l : List (Nat × Word)) : Pg :=
  l.foldl (fun p x => if lo ≤ x.1 ∧ x.1 ≤ hi then p.put x.1 x.2 else p) p

/-- Writes what the filter writes: the fast states x0 to x15 and the covariance, nothing else (R288, R395). -/
def filtered (p : Pg) (l : List (Nat × Word)) : Pg := (p.puts 0x20 0x2F l).puts 0x60 0xE7 l

/-- A state x_i of R395. -/
def x (p : Pg) (i : Nat) : Int := p.int (0x20 + i)

/-- A flag of 0x04C (R394). -/
def flag (p : Pg) (i : Nat) : Bool := bitN (p.nat 0x4C) i

/-- Sets or clears a flag of 0x04C. -/
def setFlag (p : Pg) (i : Nat) (b : Bool) : Pg :=
  p.put 0x4C (Machine.word (if b then setBitN (p.nat 0x4C) i else clearBitN (p.nat 0x4C) i))

/-- The status word at an offset has CLASS VALID (R263). -/
def valid (p : Pg) (o : Nat) : Bool := bitsOf (p.word o) 11 10 == 0

end Pg

/-- rhe of a quotient; a quotient by 0 has no stated result and is free. -/
def rq (n d : Int) : Int := if d = 0 then Config.divZero n else rheQ n d

/-- 1.0 in F40 (R392). -/
def one : Int := 2 ^ 32

/-- A value clamped to 0 to 1.0. -/
def clamp01 (v : Int) : Int := min (max v 0) one

/-! ### Tables read piecewise-linearly (R397, R404, R409, R416) -/

/-- The pairs of a table at an offset. -/
def Pg.table (p : Pg) (o n : Nat) : List (Int × Int) := (List.range n).map fun i => (p.int (o + 2 * i), p.int (o + 2 * i + 1))

/-- A table at x, held beyond its ends; the interval whose lower point a breakpoint is holds the breakpoint (DEDUCED, log
entry 39). -/
def interp : List (Int × Int) → Int → Int
  | [], _ => 0
  | [(_, y)], _ => y
  | (x0, y0) :: (x1, y1) :: rest, x =>
    if x ≤ x0 then y0
    else if x < x1 then y0 + rq ((y1 - y0) * (x - x0)) (x1 - x0)
    else interp ((x1, y1) :: rest) x

/-- A table with falling arguments at x, held beyond its ends. -/
def interpDown (l : List (Int × Int)) (x : Int) : Int := interp (l.map fun q => (-q.1, q.2)) (-x)

/-- The slope of the interval that holds x, per 2^32 of it; the last interval at the upper end. -/
def slopeAt : List (Int × Int) → Int → Int
  | (x0, y0) :: (x1, y1) :: rest, x =>
    if x < x1 ∨ rest.isEmpty then rq ((y1 - y0) * one) (x1 - x0) else slopeAt ((x1, y1) :: rest) x
  | _, _ => 0

/-- The inverse of a rising table at y, held at its ends. -/
def inverse (l : List (Int × Int)) (y : Int) : Int := interp (l.map fun q => (q.2, q.1)) y

/-! ### The lock-in's cosine (R412) -/

/-- π in units of 2^-80. -/
def piFix : Int := 3797952473636338580787993

/-- The terms of the cosine series, in units of 2^-80: `t` is the term of index 2i and `x2` the square of the angle. -/
def cosSeries (x2 : Int) : Nat → Nat → Int → Int
  | 0, _, _ => 0
  | n + 1, i, t => t + cosSeries x2 n (i + 1) (-(t * x2 / 2 ^ 80) / ((2 * i + 1) * (2 * i + 2)))

/-- cos_t[k] for k at most 1 024: rhe(32 767 × cos(2πk/4 096)). -/
def cosQuarter (k : Nat) : Int :=
  let x := piFix * k / 2048
  rhe (32767 * cosSeries (x * x / 2 ^ 80) 24 0 (2 ^ 80)) (2 ^ 80)

/-- cos_t[k] (R412). -/
def cosT (k : Nat) : Int :=
  let k := k % 4096
  if k ≤ 1024 then cosQuarter k
  else if k ≤ 2048 then -cosQuarter (2048 - k)
  else if k ≤ 3072 then -cosQuarter (k - 2048)
  else cosQuarter (4096 - k)

namespace Pg

/-- Q of R399: 80 bits signed, in nA·s. -/
def q (p : Pg) : Int := (BitVec.toInt (p.word 0x50 ++ p.word 0x51))

/-- Writes Q modulo 2^80. -/
def setQ (p : Pg) (v : Int) : Pg :=
  let b : BitVec 80 := BitVec.ofInt 80 v
  (p.put 0x50 (b.extractLsb' 40 40)).put 0x51 (b.extractLsb' 0 40)

/-- UNCERTAIN grows by a charge in nA·s (R400). -/
def uncertain (p : Pg) (c : Int) : Pg := p.sat 0x52 (p.int 0x52 + rhe c.natAbs 10000)

/-- Operation 1: the gap before a step, and a page that has never stepped (R401). -/
def opGap (p : Pg) (n : Nat) : Pg :=
  let l := p.nat 0x4F
  if l = 0 then
    ((p.setQ (rhe (p.x 0 * p.x 16 * 10000) one)).sat 0x52 (rhe (p.x 16) 2)).setFlag 4 true
  else
    let g : Int := (n - l - 1 : Nat)
    if g ≤ 0 then p
    else
      let p := p.sat 0x52 (p.int 0x52 + rhe ((p.x 24).natAbs * g) 10000)
      let rest := if (p.x 24).natAbs * 36000 < p.x 16 then min (p.nat 0x55 + g.toNat) (2 ^ 40 - 1) else 0
      (((p.put 0x55 (Machine.word rest)).put 0x56 0).put 0x5E (p.word 4)).setFlag 4 true

/-- The string charge of a step (R399). -/
def qString (p : Pg) : Int := rhe (p.int 4 + p.int 0x5E) 2

/-- The charge a closed balancing switch draws in a step (R399). -/
def qSwitch (p : Pg) : Int := rq (p.int 0 * 10 ^ 6) (p.x 21)

/-- The balancing switch was closed (R399). -/
def balanced (p : Pg) : Bool := bitN (p.nat 6) 0

/-- The balancing charge of a step (R399). -/
def qBal (p : Pg) : Int := if p.balanced then p.qSwitch else 0

/-- Operation 2: the coulomb counter and the uncertain charge (R399, R400). -/
def opCount (p : Pg) : Pg :=
  let qs := p.qString
  let qb := p.qBal
  let mis := p.balanced != bitN (p.nat 0x10) 0
  let p := if p.valid 5 then p else p.uncertain qs
  let p := if p.balanced && !p.valid 1 then p.uncertain qb else p
  let p := if mis then p.uncertain p.qSwitch else p
  (p.setQ (p.q + qs - qb)).setFlag 7 mis

/-- Operation 3: the rest run (R410). -/
def opRest (p : Pg) : Pg :=
  if p.valid 5 ∧ (p.int 4).natAbs * 36000 < p.x 16 then p.put 0x55 (Machine.word (min (p.nat 0x55 + 1) (2 ^ 40 - 1)))
  else p.put 0x55 0

/-- The open-circuit term of the linearisation at x0 (R412, R417). -/
def ocvAt0 (p : Pg) : Int := p.int 0x57 + rhe (p.int 0x58 * (p.x 0 - p.int 0x59)) one

/-- A field of the lock-in: bin of channel A, the states, the counts (R396). -/
def binA (p : Pg) : Nat := bitsOf (p.word 0x5A) 39 35
def stateA (p : Pg) : Nat := bitsOf (p.word 0x5A) 34 33
def stateB (p : Pg) : Nat := bitsOf (p.word 0x5A) 32 31
def countA (p : Pg) : Nat := bitsOf (p.word 0x5B) 39 20
def countB (p : Pg) : Nat := bitsOf (p.word 0x5B) 19 0

/-- Writes the lock-in's bin and states, and its counts. -/
def setLock (p : Pg) (bin sa sb ca cb : Nat) : Pg :=
  (p.put 0x5A (Machine.word (bin * 2 ^ 35 + sa * 2 ^ 33 + sb * 2 ^ 31))).put 0x5B (Machine.word (ca * 2 ^ 20 + cb))

/-- Sets the four accumulators of a channel to 0. -/
def clearAcc (p : Pg) (acc : Nat) : Pg := (((p.put acc 0).put (acc + 1) 0).put (acc + 2) 0).put (acc + 3) 0

/-- A channel's accumulation at an increment (R412). -/
def accumulate (p : Pg) (acc n inc : Nat) : Pg :=
  let k := n * inc % 2 ^ 40 / 2 ^ 28
  let c := cosT k
  let s := cosT (k + 3072)
  let a := rhe (p.int 0 - p.ocvAt0 - p.x 3) 1000
  let ib := rhe (p.int 4) 1000
  let vi := p.int acc + a * c
  let vq := p.int (acc + 1) + a * s
  let ii := p.int (acc + 2) + ib * c
  let iq := p.int (acc + 3) + ib * s
  (((p.sat acc vi).sat (acc + 1) vq).sat (acc + 2) ii).sat (acc + 3) iq

/-- Operation 6: one channel of the lock-in: state and count after the step (R412, R413). -/
def lockChannel (p : Pg) (acc n inc dwell st cnt : Nat) : Pg × Nat × Nat :=
  if st ≠ 0 then (p, st, cnt)
  else if p.valid 1 && p.valid 5 then
    (p.accumulate acc n inc, if cnt + 1 = dwell then 1 else 0, cnt + 1)
  else (p.clearAcc acc, 2, 0)

/-- The parameters a step uses of the lock-in: bin b's increment and dwell, from the parameters in force (R397). -/
def binInc (prm : Nat → Word) (b : Nat) : Nat := (prm (0x2B8 + 3 * b)).toNat
def binDwell (prm : Nat → Word) (b : Nat) : Nat := bitsOf (prm (0x2B9 + 3 * b)) 39 20
def binTemp (prm : Nat → Word) : Nat := bitsOf (prm 0x215) 39 35

/-- Operation 6 (R412, R413). -/
def opLockIn (p : Pg) (prm : Nat → Word) (n : Nat) : Pg :=
  let b := p.binA
  let t := binTemp prm
  let (p1, sa, ca) := p.lockChannel 0xE8 n (binInc prm b) (binDwell prm b) p.stateA p.countA
  let (p2, sb, cb) := p1.lockChannel 0xEC n (binInc prm t) (binDwell prm t) p.stateB p.countB
  p2.setLock b sa sb ca cb

/-- Operation 7: the unexplained charge (R403). -/
def opBooks (p : Pg) (prm : Nat → Word) (x0old qs qb : Int) : Pg :=
  let u := rhe ((p.x 0 - x0old) * p.x 16) one - rhe (qs - qb) 10000
  let old := p.int 0x53
  p.sat 0x53 (old + u - rhe old (2 ^ (prm 0x209).toNat))

/-- The open-circuit voltage read from the measured one (R404). -/
def vOcv (p : Pg) : Int := p.int 0 - rhe (p.int 4 * p.x 6) (10 ^ 6) - p.x 1 - p.x 2 - p.x 3

/-- Operation 8: voltage-evidence SoC by linearisation (R404). -/
def opEvidence (p : Pg) : Pg :=
  if p.valid 1 && p.valid 5 then p.put 0x42 (wrap (clamp01 (p.int 0x59 + rq ((p.vOcv - p.int 0x57) * one) (p.int 0x58))))
  else p

/-- Operation 9: the limits, and LIMIT_HOLD (R417). -/
def opLimits (p : Pg) : Pg :=
  let hold := decide (100 ≤ bitsOf (p.word 1) 23 16)
  let e := p.ocvAt0 + p.x 1 + p.x 2 + p.x 3
  let chg := max 0 (min (p.int 0x5C) (rq ((p.x 22 - e) * 10 ^ 6) (p.x 6)))
  let dis := min 0 (max (p.int 0x5D) (rq ((p.x 23 - e) * 10 ^ 6) (p.x 6)))
  let p := if hold then (p.put 0x46 0).put 0x47 0 else (p.sat 0x46 chg).sat 0x47 dis
  p.setFlag 11 hold

/-- Coulomb SoC and exposed count (R393). -/
def opCoulomb (p : Pg) : Pg := (p.sat 0x41 (rq (p.q * one) (p.x 16 * 10000))).sat 0x4E (rhe p.q 10000)

/-- The first eleven operations of a step but the outputs of operation 11 (R398). -/
def hotOps (p : Pg) (prm : Nat → Word) (n : Nat) : Pg :=
  let p := p.opGap n
  let qs := p.qString
  let qb := p.qBal
  let x0 := p.x 0
  let p := p.opCount.opRest
  let p := p.filtered (Config.fmcPredict p.word)
  let p := if p.valid 1 && p.valid 5 then p.filtered (Config.fmcUpdate p.word) else p
  let p := (p.opLockIn prm n).opBooks prm x0 qs qb
  (p.opEvidence.opLimits.opCoulomb).put 0x5E (p.word 4)

/-! ### The cold pass (R398 cold a to f) -/

/-- Cold a: slow states, histories, and the parameter copies x21 to x24 (R395). -/
def coldSlow (p : Pg) : Pg :=
  let p := (p.puts 0x30 0x34 (Config.fmcSlow p.word)).puts 0x402 0x7FF (Config.fmcSlow p.word)
  ((((p.put 0x35 (p.word 0x20A)).put 0x36 (p.word 0x20C)).put 0x37 (p.word 0x20D)).put 0x38 (p.word 0x20B))

/-- The result of a completed dwell of bin b: impedance and confidence (R414). -/
def dwellResult (p : Pg) (acc b : Nat) : Int × Int × Int :=
  let vi := p.int acc
  let vq := p.int (acc + 1)
  let ii := p.int (acc + 2)
  let iq := p.int (acc + 3)
  let d := ii * ii + iq * iq
  if d = 0 then (0, 0, 0)
  else
    let m : Int := (binDwell p.word b : Int) * 32767 * p.int (0x2BA + 3 * b)
    -- e_b = (m / 2000)^2, so d / e_b = d × 2000^2 / m^2
    (rhe (10 ^ 6 * (vi * ii + vq * iq)) d, rhe (10 ^ 6 * (vi * iq - vq * ii)) d,
      min one (rq (d * one * 2000 ^ 2) (m * m)))

/-- A completed dwell is written to the impedance points, and with confidence 1.0 to the long average and anomaly 1
(R414). -/
def writeImpedance (p : Pg) (b : Nat) (z : Int × Int × Int) : Pg :=
  let p := ((p.sat (0x100 + 2 * b) z.1).sat (0x101 + 2 * b) z.2.1).sat (0x190 + b) z.2.2
  if z.2.2 ≠ one then p
  else
    let lre := p.int (0x130 + 2 * b)
    let lim := p.int (0x131 + 2 * b)
    let dre := z.1 - lre
    let dim := z.2.1 - lim
    let lk := bitsOf (p.word 0x215) 4 0
    let p := (p.sat (0x130 + 2 * b) (lre + rhe dre (2 ^ lk))).sat (0x131 + 2 * b) (lim + rhe dim (2 ^ lk))
    let den : Int := p.int 0x214 * lre.natAbs
    p.put 0x49 (wrap (if lre = 0 then 0 else satuVal (rq ((dre.natAbs + dim.natAbs) * one * one) den)))

/-- The bin channel A visits after b: the next modulo 24, skipping TBIN (R412). -/
def nextBin (b t : Nat) : Nat := if (b + 1) % 24 = t then (b + 2) % 24 else (b + 1) % 24

/-- Cold b: completed and aborted dwells, impedance, core temperature (R412 to R416). -/
def coldLockIn (p : Pg) : Pg :=
  let t := binTemp p.word
  let b := p.binA
  let sb := p.stateB
  let p := match p.stateA with
    | 0 => p
    | 1 =>
      let p := p.writeImpedance b (p.dwellResult 0xE8 b)
      (p.clearAcc 0xE8).setLock (nextBin b t) 0 sb 0 p.countB
    | _ => (p.clearAcc 0xE8).setLock b 0 sb 0 p.countB
  match sb with
  | 0 => p
  | 1 =>
    let z := p.dwellResult 0xEC t
    let p := p.writeImpedance t z
    let p := if z.2.2 = one then
        let timp := interpDown (p.table 0x310 8) z.1
        let p := (p.sat 0x34 timp).put 0x4A (wrap (satuVal (rq ((timp - p.x 4).natAbs * one) (p.int 0x213))))
        (p.filtered (Config.fmcCoreTemp p.word (wrap timp))).setFlag 6 false
      else p.setFlag 6 true
    (p.clearAcc 0xEC).setLock p.binA p.stateA 0 p.countA 0
  | _ => (p.clearAcc 0xEC).setLock p.binA p.stateA 0 p.countA 0

/-- The OCV table (R397). -/
def ocv (p : Pg) : List (Int × Int) := p.table 0x218 32

/-- Cold c: re-linearisation and the full voltage-evidence SoC (R404). -/
def coldLinear (p : Pg) : Pg :=
  let s := clamp01 (p.x 0)
  let p := ((p.sat 0x59 s).sat 0x57 (interp p.ocv s)).sat 0x58 (slopeAt p.ocv s)
  if p.valid 1 && p.valid 5 then p.put 0x42 (wrap (clamp01 (inverse p.ocv p.vOcv))) else p

/-- PLATEAU: the slope at the linearisation point is below SLOPE_MIN (R404). -/
def plateau (p : Pg) (prm : Nat → Word) : Bool := decide (p.int 0x58 < (prm 0x205).toInt)

/-- Cold d: re-anchoring (R410, R411). -/
def coldAnchor (p : Pg) (n : Nat) : Pg :=
  let rest := p.nat 0x55
  if 1800000 ≤ rest ∧ p.nat 0x54 + rest < n + 1 ∧ p.valid 1 ∧ p.valid 3 ∧ !p.plateau p.word then
    let old := p.q
    let new := rhe (clamp01 (inverse p.ocv p.vOcv) * p.x 16 * 10000) one
    let p := (((p.setQ new).put 0x52 0).put 0x54 (Machine.word n)).put 0x400 (Machine.word n)
    (((p.sat 0x401 (rhe (new - old) 10000)).setFlag 4 false).setFlag 9 true)
  else p.setFlag 9 false

/-- One side of the conflict: whether its pass counts, the run, and whether the conflict ends (R406 to R408). -/
def conflict (on : Bool) (run : Nat) (flag beyond vValid vBeyond : Bool) : Bool × Nat × Bool :=
  let pass := beyond && vValid && vBeyond
  let on' := if pass then true else if vValid then false else on
  let run' := if pass then (if on then min (run + 100) 0xFFFFF else 0) else if vValid then 0 else run
  (on', run', if !beyond || (vValid && !vBeyond) then false else flag || (pass && decide (10000 < run')))

/-- Cold e: conflict runs and flags, on the anchored count (R406 to R408). -/
def coldConflict (p : Pg) (runs : Bool × Bool) : Pg × (Bool × Bool) :=
  let cs := p.int 0x41
  let v := p.int 0
  let (eo, er, ef) := conflict runs.1 (bitsOf (p.word 0x56) 39 20) (p.flag 0) (decide (cs ≤ 0)) (p.valid 1)
    (decide (p.int 0x201 + p.int 0x203 < v))
  let (fo, fr, ff) := conflict runs.2 (bitsOf (p.word 0x56) 19 0) (p.flag 1) (decide (one ≤ cs)) (p.valid 1)
    (decide (v < p.int 0x202 - p.int 0x204))
  (((p.put 0x56 (Machine.word (er * 2 ^ 20 + fr))).setFlag 0 ef).setFlag 1 ff, (eo, fo))

/-- COUNT_DEGRADED: UNCERTAIN exceeds U_MAX × x16 (R394). -/
def degraded (p : Pg) (prm : Nat → Word) : Bool := decide ((prm 0x207).toInt * p.x 16 < p.int 0x52 * one)

/-- Cold f: the base limits (R409). -/
def coldLimits (p : Pg) : Pg :=
  let dg := p.degraded p.word
  let cd := p.flag 0 || dg
  let cc := p.flag 1 || dg
  let sd := if cd then min (p.int 0x41) (p.int 0x42) else p.x 0
  let sc := if cc then max (p.int 0x41) (p.int 0x42) else p.x 0
  let chg := rhe (p.int 0x20E * interp (p.table 0x258 16) (p.x 4) * interp (p.table 0x298 8) sc) (2 ^ 64)
  let dis := rhe (p.int 0x20F * interp (p.table 0x278 16) (p.x 4) * interp (p.table 0x2A8 8) sd) (2 ^ 64)
  ((p.sat 0x5C chg).sat 0x5D dis).setFlag 10 (cd || cc)

/-- The cold pass, after operation 10 (R398). -/
def coldOps (p : Pg) (n : Nat) (runs : Bool × Bool) : Pg × (Bool × Bool) :=
  let p := ((p.coldSlow.coldLockIn).coldLinear.coldAnchor n).opCoulomb
  let r := p.coldConflict runs
  (r.1.coldLimits, r.2)

/-- Operation 11: flags, confidence, anomaly scores and outputs (R393, R394, R409). -/
def outputs (p : Pg) (prm : Nat → Word) (n : Nat) : Pg :=
  let dg := p.degraded prm
  let un := (p.int 0x53).natAbs
  let p := (((p.setFlag 8 (p.word 0x18 ≠ 0)).setFlag 5 (decide ((prm 0x208).toInt < un))).setFlag 3 (p.plateau prm)).setFlag 2 dg
  let conf := satuVal (one - rq (p.int 0x60 * one) (prm 0x212).toInt)
  let conf := if p.flag 0 || p.flag 1 then min conf (prm 0x206).toInt else conf
  let conf := if dg then min conf (2 ^ 31) else conf
  let e := Config.fmcInnovation p.word
  let varv := (prm 0x211).toInt
  let p := (p.put 0x40 (p.word 0x20)).sat 0x43 (rq (p.x 16 * one) (prm 0x200).toInt)
  let p := (p.sat 0x44 (rq ((prm 0x210).toInt * one) (p.x 17))).put 0x45 (p.word 0x24)
  let p := p.put 0x48 (wrap (satuVal (rq (un * one) (prm 0x208).toInt)))
  let p := p.sat 0x4B (p.int 0x4B + rq (e * e - p.int 0x4B * varv) (varv * 2 ^ 10))
  -- a point the step has not changed is written too (R393)
  let p := [0x41, 0x42, 0x46, 0x47, 0x49, 0x4A, 0x4C, 0x4E].foldl (fun p o => p.put o (p.word o)) p
  (p.put 0x4D (wrap conf)).put 0x4F (Machine.word n)

/-- The step of a cell page (R398): its points after it, and the runs of R406. `prm` holds the parameters as of the last cold
pass; a cold pass uses those of the page itself. -/
def cellStep (p : Pg) (prm : Nat → Word) (n : Nat) (cold : Bool) (runs : Bool × Bool) : Pg × (Bool × Bool) :=
  let runs := if p.nat 0x4F ≠ 0 ∧ n ≤ p.nat 0x4F + 1 then runs else (false, false)
  let p := p.hotOps prm n
  if cold then
    let r := p.coldOps n runs
    (r.1.outputs p.word n, r.2)
  else ((p.setFlag 9 false).outputs prm n, runs)

/-! ### Rack pages (R418) -/

/-- A power limit in S40 from a current limit (R418). -/
def rackPower (i vs rs : Int) : Int := rhe (4 * i * vs * 10 ^ 6 + i * i * rs) (10 ^ 18)

/-- The rack outputs that R418 states, from the reductions at 0x000 to 0x003; `imax`, `vs` and `rs` are the rack's rated
current, its string voltage and its string resistance. -/
def rackOutputs (p : Pg) (imax vs rs : Int) : Pg :=
  let chg := min (p.int 0) imax
  let dis := max (p.int 1) (-imax)
  let smin := p.int 2
  let smax := p.int 3
  let dv := smin + one - smax
  let soc := if dv ≤ 0 then 0 else clamp01 (rhe (smin * one) dv)
  ((((p.sat 0xC0 chg).sat 0xC1 dis).sat 0xC2 (rackPower chg vs rs)).sat 0xC3 (rackPower dis vs rs)).sat 0xC4 soc

end Pg

end Sys2Proof.Machine
end

