-- ==== Sys2Proof/Machine/KopCore.lean ====
section
/-! DEFINITION. Kollos messages, their protection, and the end of sessions (R627 to R630, R633 to R636). -/

namespace Sys2Proof.Config

/-- X25519 of RFC 7748: scalar and u-coordinate, 32 bytes each. -/
opaque x25519 : (k u : List Sys2Proof.Byte) → List Sys2Proof.Byte

/-- AES-128-GCM: ciphertext and tag of a plaintext, and the plaintext where the tag holds. The key is a number of 128 bits. -/
opaque gcmSeal : (key : Nat) → (nonce aad pt : List Sys2Proof.Byte) → List Sys2Proof.Byte
opaque gcmOpen : (key : Nat) → (nonce aad ct : List Sys2Proof.Byte) → Option (List Sys2Proof.Byte)

end Sys2Proof.Config

namespace Sys2Proof.Machine

/-- The message types of R629. -/
def mtHello : Nat := 0x01
def mtReply : Nat := 0x02
def mtFinish : Nat := 0x03
def mtAccept : Nat := 0x04
def mtRequest : Nat := 0x10
def mtResponse : Nat := 0x11
def mtNotice : Nat := 0x20
def mtClose : Nat := 0x21
def mtError : Nat := 0x7F

/-- A message as it arrives: its header's fields, its body of LEN bytes, and the header's bytes. -/
structure KopMsg where
  type : Nat
  id : Nat
  seq : Nat
  body : List Byte
  header : List Byte
  deriving DecidableEq, Repr

/-- The header of R628. -/
def kopHeader (type id seq len : Nat) : List Byte :=
  beBytes 2 0x4B50 ++ [1, byte type] ++ beBytes 4 id ++ beBytes 4 seq ++ beBytes 2 len ++ [0, 0]

/-- A message read; `none` where its MAGIC, VERSION, LEN or reserved bytes are wrong (R628). -/
def kopRead (l : List Byte) : Option KopMsg :=
  let len := beNat ((l.drop 12).take 2)
  if beNat (l.take 2) = 0x4B50 ∧ beNat ((l.drop 2).take 1) = 1 ∧ beNat ((l.drop 14).take 2) = 0 ∧ 16 + len ≤ l.length ∧
      16 + len ≤ 1400 then
    some { type := beNat ((l.drop 3).take 1), id := beNat ((l.drop 4).take 4), seq := beNat ((l.drop 8).take 4),
           body := (l.drop 16).take len, header := l.take 16 }
  else none

/-- The nonce of R630. -/
def kopNonce (dir id seq : Nat) : List Byte := [byte dir, 0, 0, 0] ++ beBytes 4 id ++ beBytes 4 seq

/-- A protected message (R630). -/
def kopSeal (key dir type id seq : Nat) (body : List Byte) : List Byte :=
  let hdr := kopHeader type id seq (body.length + 16)
  hdr ++ ((Config.gcmSeal key (kopNonce dir id seq) hdr body) ++ List.replicate (body.length + 16) 0).take (body.length + 16)

/-- What a protected message of a client holds, where its tag holds. -/
def kopOpen (key : Nat) (m : KopMsg) : Option (List Byte) :=
  if m.body.length < 16 then none else Config.gcmOpen key (kopNonce 1 m.id m.seq) m.header m.body

namespace Hw

/-- A change of the object server. -/
def onKop (h : Hw) (f : Kop → Kop) : Hw := { h with kop := f h.kop }

/-- KOP_COUNT (R649): 0 handshakes completed, 1 refused, 2 evictions, 3 idle closures, 4 failed tags, 5 malformed messages, 6 resent
responses, 7 STALE, 8 BUSY. -/
def kopCount (h : Hw) (i : Nat) : Hw :=
  h.onKop fun k => { k with counts := Tabs.set (fun _ => (0 : Nat)) k.counts i (min (Tabs.get (fun _ => 0) k.counts i + 1) (2 ^ 40 - 1)) }

/-- An ERROR to a client (R629). -/
def kopError (h : Hw) (src id status reason : Nat) : Hw :=
  h.send (.client src) (kopHeader mtError id 0 3 ++ beBytes 2 status ++ [byte reason])

/-- The session of an identifier. -/
def session (h : Hw) (id : Nat) : Option Session := h.kop.sessions.find? fun s => s.id == id

/-- A session takes a new state. -/
def setSession (h : Hw) (x : Session) : Hw :=
  h.onKop fun k => { k with sessions := k.sessions.map fun s => if s.id = x.id then x else s }

/-- A session closes (R635, R636): its NOTICE where one is due, then its entry, keys, cache and requests are gone. -/
def closeSession (h : Hw) (x : Session) (reason : Nat) (notice : Bool) : Hw :=
  let h := if notice then h.send (.client x.src) (kopSeal x.keys.dc 3 mtNotice x.id (x.notices + 1) [byte reason]) else h
  let h := { h with fab := { h.fab with reads := h.fab.reads.filter fun r => r.session ≠ x.id } }
  h.onKop fun k => { k with sessions := k.sessions.filter fun s => s.id ≠ x.id }

/-- Every session that a condition selects closes. -/
def closeWhere (h : Hw) (p : Session → Bool) (reason : Nat) (notice : Bool) : Hw :=
  (h.kop.sessions.filter p).foldl (fun h x => h.closeSession x reason notice) h

/-- A path stops serving: its sessions close with PATH_CHANGE and its handshakes are gone (R635, R650). -/
def pathEnds (h : Hw) (path : Nat) (notice : Bool) : Hw :=
  (h.closeWhere (fun x => x.path == path) 4 notice).onKop fun k => { k with hands := k.hands.filter fun x => x.path ≠ path }

/-- Pending writes with a commit LC get their outcome in the command log: 1 APPLIED, 2 REFUSED with a STATUS, 3 CANCELLED (R646). -/
def settleLc (h : Hw) (p : LcWrite → Bool) (outcome status : Nat) : Hw :=
  h.onKop fun k =>
    { k with
      pend := k.pend.filter fun w => !p w
      log := (k.pend.filter p).foldl (fun (t : Tab CmdLog) w =>
        let e := Tabs.get (fun _ => ({} : CmdLog)) t (w.ticket % 256)
        if w.ticket = 0 ∨ e.ticket ≠ w.ticket then t
        else Tabs.set (fun _ => ({} : CmdLog)) t (w.ticket % 256) { e with outcome := outcome, status := status }) k.log }

/-- A write of a point of the point space (R626). -/
def pointOid (oid : Nat) : Bool := decide (0x40000000 ≤ oid) && decide (oid < 0x44000000)

/-- A cold restart or a Dusk cancels the pending writes; through a warm Night a point-space write stays (R646). -/
def cancelLc (h : Hw) (keepPoints : Bool) : Hw := h.settleLc (fun w => !(keepPoints && pointOid w.oid)) 3 0

/-- Step 2 of every Dusk closes every session with DUSK (R82, R635). -/
def closeForDusk (h : Hw) : Hw := (h.closeWhere (fun _ => true) 1 true).onKop fun k => { k with hands := [] }

/-- The path that serves the object dictionary: 0 VM0, 1 minimal, 2 recovery (R109, R130, R515). -/
def servedPath (h : Hw) : Option Nat :=
  if !h.sysOn || h.fld Reg.PWR_STATE Fld.PWR_STATE_STATE = 4 then none
  else if h.pwr.recovery then some 2
  else if h.fld Reg.PWR_STATE Fld.PWR_STATE_LEVEL < 2 then none
  else if (h.vmSlot 0).state = .running then some 0
  else if h.crestOn then some 1 else none

end Hw

end Sys2Proof.Machine
end

