-- ==== Sys2Proof/Machine/Mailbox.lean ====
section
/-! DEFINITION. Mailboxes, doorbells and fabric instances (spec/17). -/

namespace Sys2Proof.Machine

/-- The owner code that stands for the fabric manager, the receiver of the instance channels (R544). -/
def managerCode : Nat := 0x100

/-- The receiver's domain is on (R538). -/
def Hw.receiverOn (h : Hw) (recv : Nat) : Bool :=
  if recv = managerCode then h.fabOn
  else if recv = 2 then h.crestOn
  else h.sysOn && (List.range 8).any fun k => h.appOn k

/-- A channel is open: MBX_CTRL.EN is set and both ends have an identity (R531, R552). -/
def Hw.channelOpen (h : Hw) (n : Nat) : Bool :=
  h.bit Reg.MBX_CTRL 0 && (h.chan n).sender ≠ 0 && (h.chan n).recv ≠ 0

/-- A channel with a completion appended to its FIFO of 32 entries, and whether the oldest was dropped (R533). -/
def Channel.complete (c : Channel) (seq code : Nat) : Channel × Bool :=
  if c.done.length < 32 then ({ c with done := c.done ++ [(seq, code)] }, false)
  else ({ c with done := c.done.drop 1 ++ [(seq, code)] }, true)

/-- A completion appended to a channel's FIFO, a dropped one counted (R533). -/
def Hw.mbxComplete (h : Hw) (n seq code : Nat) : Hw :=
  let r := (h.chan n).complete seq code
  let h := h.setChan n r.1
  if r.2 then h.count Reg.MBX_CNT_COMPDROP else h

/-- The oldest message of a channel is acknowledged with a code: its completion is appended, it enters the history when
its SEQ is not 0, and its credit returns (R533, R535, R537). An empty channel stays as it is. -/
def Hw.mbxAckHead (h : Hw) (n code : Nat) : Hw :=
  let c := h.chan n
  match c.queue with
  | [] => h
  | m :: q =>
    let hist := if m.seq = 0 then c.history else ((m.seq, code) :: c.history).take 16
    let h := h.setChan n { c with queue := q, credits := c.credits + 1, history := hist }
    h.mbxComplete n m.seq code

/-- Every message held on a channel is acknowledged with a code, in order (R539, R541). -/
def Hw.mbxAckAll (h : Hw) (n code : Nat) : Hw :=
  h.forEach (List.range (h.chan n).queue.length) fun h _ => h.mbxAckHead n code

/-- Every message held on the channels whose receiver domain is off is acknowledged DOMAIN_OFF (R539). -/
def Hw.mbxDomainOff (h : Hw) : Hw :=
  h.forEach (List.range 64) fun h n =>
    if (h.chan n).recv ≠ 0 ∧ !h.receiverOn (h.chan n).recv then h.mbxAckAll n 0xFF01 else h

/-- A hardware notice on a channel: LEN 0, SEQ 0; dropped and counted where it finds no credit, or where the channel is
closed or its receiver domain off (R536). -/
def Hw.postNotice (h : Hw) (n tag inl : Nat) : Hw :=
  let c := h.chan n
  if h.channelOpen n && h.receiverOn c.recv && c.credits ≠ 0 then
    h.setChan n { c with credits := c.credits - 1, queue := c.queue ++ [{ ptr := inl, len := 0, tag := tag, seq := 0 }] }
  else h.count Reg.MBX_CNT_NOTICE

/-- How a doorbell with a SEQ is handled: a new message, PENDING, CACHED with its stored code, or STALE (R537). -/
inductive Doorbell where
  | fresh | pending | cached (code : Nat) | stale
  deriving DecidableEq, Repr

/-- The first row of the table of R537 that applies to a SEQ. -/
def Channel.classify (c : Channel) (seq : Nat) : Doorbell :=
  if seq = 0 then .fresh
  else match c.last with
    | none => .fresh
    | some l =>
      let dlt := (seq + 65536 - l) % 65536
      if 1 ≤ dlt ∧ dlt ≤ 32767 then .fresh
      else if c.queue.any fun m => m.seq == seq then .pending
      else match c.history.find? fun x => x.1 == seq with
        | some x => .cached x.2
        | none => .stale

/-- A VM that is STARTING and writes its world channel becomes RUNNING (R514); VM0 then serves the object dictionary in place of the
minimal path, whose sessions close (R109, R515, R635). -/
def Hw.vmFirstWrite (h : Hw) (who : Who) (n : Nat) : Hw :=
  match who with
  | .vm v =>
    let x := h.vmSlot v
    if x.state = .starting ∧ x.worldChannel = n then
      let h := h.setVmSlot v { x with state := .running }
      if v.val = 0 then h.pathEnds 1 true else h
    else h
  | _ => h

/-- A doorbell of the sender on an open channel (R533, R535, R537, R539). -/
def Hw.doorbell (h : Hw) (n seq tag len : Nat) : Hw :=
  let c := h.chan n
  if !h.receiverOn c.recv then (h.setChan n { c with txResult := 5 }).count Reg.MBX_CNT_DOMOFF
  else match c.classify seq with
    | .fresh =>
      if c.credits = 0 then h.setChan n { c with txResult := 1 }
      else
        let m : MbxMsg := { ptr := bitsOf (h.reg (Reg.MBX_PTR n)) 33 0, len := len, tag := tag, seq := seq }
        h.setChan n { c with txResult := 0, credits := c.credits - 1, queue := c.queue ++ [m],
                             last := if seq = 0 then c.last else some seq }
    | .pending => (h.setChan n { c with txResult := 2 }).count Reg.MBX_CNT_REPEAT
    | .cached code => ((h.setChan n { c with txResult := 3 }).mbxComplete n seq code).count Reg.MBX_CNT_REPEAT
    | .stale => (h.setChan n { c with txResult := 4 }).count Reg.MBX_CNT_STALE

/-- An identity is the sender, or the receiver, of a channel. -/
def Hw.isSender (h : Hw) (who : Who) (n : Nat) : Bool := whoCode who ≠ 0 && (h.chan n).sender == whoCode who
def Hw.isReceiver (h : Hw) (who : Who) (n : Nat) : Bool := whoCode who ≠ 0 && (h.chan n).recv == whoCode who

/-- A write of MBX_DOORBELL: only the sender of an open channel rings it; any other write is ignored and counted (R531, R533). -/
def Hw.doorbellWrite (h : Hw) (who : Who) (n seq tag len : Nat) : Hw :=
  if h.channelOpen n && h.isSender who n then (h.doorbell n seq tag len).vmFirstWrite who n else h.count Reg.MBX_CNT_DENY

/-- MBX_DOORBELL. -/
def execMbxDoorbell (who : Who) (n : Fin 64) (seq : BitVec 16) (tag : Byte) (len : BitVec 16) (s : State) : Result :=
  .next (s.onHw fun h => h.guarded who (Reg.MBX_DOORBELL n) fun h => h.doorbellWrite who n seq.toNat tag.toNat len.toNat)

/-- A write of MBX_ACK: the receiver answers the oldest message by its SEQ (R533); a reserved code changes nothing (R552). -/
def Hw.ackWrite (h : Hw) (who : Who) (n seq code : Nat) : Hw :=
  let c := h.chan n
  if h.channelOpen n && h.isReceiver who n then
    if 0xFF00 ≤ code then h
    else match c.queue with
      | [] => h.setChan n { c with rxResult := 2 }
      | m :: _ =>
        if m.seq ≠ seq then h.setChan n { c with rxResult := 1 }
        else (h.setChan n { c with rxResult := 0 }).mbxAckHead n code
  else h.count Reg.MBX_CNT_DENY

/-- MBX_ACK. -/
def execMbxAck (who : Who) (n : Fin 64) (seq code : BitVec 16) (s : State) : Result :=
  .next (s.onHw fun h => h.guarded who (Reg.MBX_ACK n) fun h => h.ackWrite who n seq.toNat code.toNat)

/-- MBX_DONE as its sender reads it: VALID, SEQ and CODE of the oldest completion (R533, R552). -/
def Channel.doneWord (c : Channel) : Word :=
  match c.done with
  | [] => 0
  | x :: _ => word (2 ^ 32 + x.1 * 2 ^ 16 + x.2)

/-- A read of MBX_DONE returns the oldest completion and removes it (R533). Any other identity reads 0. -/
def Hw.doneRead (h : Hw) (who : Who) (n : Nat) : Hw × Word :=
  let c := h.chan n
  if h.isSender who n then (h.setChan n { c with done := c.done.drop 1 }, c.doneWord) else (h, 0)

/-- MBX_DONE_READ. -/
def execMbxDoneRead (who : Who) (n : Fin 64) (s : State) : Result :=
  .next (s.onHw fun h => h.guardedRead who (Reg.MBX_DONE n) fun h => h.doneRead who n)

/-! ### Hand-over of channels and instances (R541, R549) -/

/-- The requester of a RELEASE or RETURN may make it: the current owner, the secure world, or the hypervisor when the
owner is a VM or the hypervisor (R517). -/
def mayRelease (who : Who) (owner : Nat) : Bool :=
  who = .secure || (whoCode who ≠ 0 && whoCode who == owner) || (who = .hypervisor && (codeIsVm owner || owner == 4))

/-- A new owner is admissible: its bit is in GRANT and, if it is a VM, it is RUNNING (R517). -/
def Hw.newOwnerOk (h : Hw) (grant new : Nat) : Bool :=
  match codeBit new with
  | none => false
  | some b => bitN grant b && (!codeIsVm new || (h.vmSlot (new - 0x10)).state == .running)

/-- The outcome of a hand-over request before it runs: a refusal with its code, nothing to do, or a change of owner. -/
inductive HoVerdict where
  | refuse (code : Nat)
  | same
  | go (new : Nat)
  deriving DecidableEq, Repr

/-- R517's table: OP 1 RELEASE, 2 CLAIM, 3 RETURN; the codes are those of WLD_HO_STAT.RESULT. -/
def Hw.hoVerdict (h : Hw) (who : Who) (op owner new dflt grant claim : Nat) : HoVerdict :=
  if op = 2 then
    (if whoCode who ≠ 0 && bitN claim (whoBit who) then
      (if whoCode who = owner then .same else .go (whoCode who)) else .refuse 2)
  else if !mayRelease who owner then .refuse 2
  else if op = 1 then
    (if !h.newOwnerOk grant new then .refuse 5 else if new = owner then .same else .go new)
  else if dflt = owner then .same else .go dflt

/-- The world channel on which an owner receives hand-over notices: the slot's for a VM; for the others the channel that
the WORLDS section names, kept per owner code. -/
def Hw.worldChannelOf (h : Hw) (code : Nat) : Option Nat :=
  if codeIsVm code then (if (h.vmSlot (code - 0x10)).declared then some (h.vmSlot (code - 0x10)).worldChannel else none)
  else match Tabs.get (fun _ => (0 : Nat)) h.worldChan code with
    | 0 => none
    | n + 1 => some n

/-- The notice of a hand-over, on the world channels of both owners (R518 step 4, R536). -/
def Hw.hoNotice (h : Hw) (old new op kind id : Nat) : Hw :=
  let inl := old * 2 ^ 26 + new * 2 ^ 18 + op * 2 ^ 16 + kind * 2 ^ 12 + id
  let one (h : Hw) (code : Nat) : Hw := match h.worldChannelOf code with
    | some n => h.postNotice n 2 inl
    | none => h
  one (one h old) new

/-- The result of a request in MBX_HO_STAT, banked by identity (R552). -/
def Hw.setMbxHoStat (h : Hw) (who : Who) (new kind res op id : Nat) : Hw :=
  let w := word (new * 2 ^ 32 + kind * 2 ^ 30 + res * 2 ^ 20 + op * 2 ^ 12 + id)
  { h with mbxHoStat := Tabs.set Hw.zeroWord h.mbxHoStat (whoBit who) w }

/-- A source takes its new owner with EN 0, TARGET 0, PRIO 0xFF, neither pending nor active; a software source loses its senders
(R518, R524). -/
def Hw.sourceGrant (h : Hw) (i new : Nat) : Hw :=
  let h := h.setReg (Reg.IRQ_SRC i) (word (new * 2 ^ 32 + 0xFF * 2 ^ 16 + b2n (i < 0x200) * 8))
  if 0x200 ≤ i then h.setReg (Reg.IRQ_SEND (i - 0x200)) 0 else h

/-- A channel closed and reset: its messages are acknowledged 0xFF02, its credits are 16, and LAST, history, completions
and MBX_IE are cleared; the last results of its ends stay (R541 steps 1 and 2). -/
def Hw.channelReset (h : Hw) (n : Nat) : Hw :=
  let c := h.chan n
  (h.setChan n { c with credits := 16, queue := [], history := [], done := [], last := none }).setReg (Reg.MBX_IE n) 0

/-- A channel end or an instance moves to a new identity, and with it the interrupt source of the end (R541, R549, R552). DESIGN CHOICE
(log entry 44): the three steps of R541 are one, and an UNASSIGNED instance that is granted is IDLE. -/
def Hw.channelMove (h : Hw) (kind id old new op : Nat) : Hw :=
  let n := if kind = 3 then 48 + id else id
  let h := h.channelReset n
  let c := h.chan n
  let h := if kind = 1 then (h.setChan n { c with recv := new }).sourceGrant (0x40 + 2 * n) new
    else (h.setChan n { c with sender := new }).sourceGrant (0x41 + 2 * n) new
  let f := h.inst id
  let h := if kind = 3 then h.setInst id { f with vm := new - 0x10, state := if f.state = .unassigned then .idle else f.state } else h
  h.hoNotice old new op kind id

/-- A request of MBX_HO_REQ: KIND 1 receiver, 2 sender, 3 instance, which only a VM can own (R541, R549, R552). -/
def Hw.channelRequest (h : Hw) (who : Who) (op kind id new : Nat) : Hw :=
  if kind = 0 then h
  else if kind = 3 then
    let f := h.inst (id % 16)
    let own := if f.state = .unassigned then 0 else 0x10 + f.vm
    if 16 ≤ id then h.setMbxHoStat who new kind 3 op id
    else if f.item.isSome ∨ f.loaded ∨ f.state = .busy ∨ f.state = .quiescing then h.setMbxHoStat who new kind 4 op id
    else match h.hoVerdict who op own new (0x10 + f.dfltVm) f.grant f.claim with
      | .refuse c => h.setMbxHoStat who new kind c op id
      | .same => h.setMbxHoStat who own kind 0 op id
      | .go n =>
        if codeIsVm n then (h.channelMove 3 id own n op).setMbxHoStat who n kind 0 op id
        else h.setMbxHoStat who new kind 5 op id
  else if 48 ≤ id then h.setMbxHoStat who new kind 3 op id
  else
    let c := h.chan id
    let own := if kind = 1 then c.recv else c.sender
    let dflt := if kind = 1 then c.dfltRecv else c.dfltSender
    match h.hoVerdict who op own new dflt c.grant c.claim with
    | .refuse r => h.setMbxHoStat who new kind r op id
    | .same => h.setMbxHoStat who own kind 0 op id
    | .go n => (h.channelMove kind id own n op).setMbxHoStat who n kind 0 op id

/-- CHANNEL_RELEASE (R541). -/
def execChannelRelease (who : Who) (kind : Fin 4) (id : Fin 64) (new : Nat) (s : State) : Result :=
  .next (s.onHw fun h => h.guarded who Reg.MBX_HO_REQ fun h => h.channelRequest who 1 kind id new)

/-- CHANNEL_CLAIM (R541). -/
def execChannelClaim (who : Who) (kind : Fin 4) (id : Fin 64) (s : State) : Result :=
  .next (s.onHw fun h => h.guarded who Reg.MBX_HO_REQ fun h => h.channelRequest who 2 kind id (whoCode who))

/-- CHANNEL_RETURN (R541). -/
def execChannelReturn (who : Who) (kind : Fin 4) (id : Fin 64) (s : State) : Result :=
  .next (s.onHw fun h => h.guarded who Reg.MBX_HO_REQ fun h => h.channelRequest who 3 kind id 0)

/-! ### Fabric instances (R542 to R549) -/

/-- The first word of an instance's ridge grant on a ridge (R542). -/
def grantBase (r rgOfs : Nat) : Nat := 0x4000000 + 0x400000 * r + 0x78000 + rgOfs

/-- A kernel copied to the ridge grant of a ridge (R544). -/
def Hw.kernelTo (h : Hw) (i r : Nat) (ws : List Word) : Hw := h.writeRamList (grantBase r (h.inst i).rgOfs) ws

/-- The head message of an instance's channel points at a descriptor inside the DRAM grant (R544, R547). -/
def Hw.fiDescOk (h : Hw) (i : Nat) (m : MbxMsg) : Bool :=
  let f := h.inst i
  decide (f.dramBase ≤ m.ptr) && decide (m.ptr + 3 ≤ f.dramBase + f.dramSize)

/-- The message an instance's manager takes next: the head, or the one behind the running item. -/
def Hw.fiNext (h : Hw) (i : Nat) : Option MbxMsg :=
  let q := (h.chan (48 + i)).queue
  if (h.inst i).item.isSome then q[1]? else q.head?

/-- FI_LOAD: the work descriptor with OP LOAD copies a kernel into the ridge grant of every powered ridge (R544); BAD_DESC
and BUSY as R547 gives them. A message whose OP is not LOAD is not this step's. -/
def execFiLoad (i : Fin 16) (s : State) : Result :=
  .next (
    let h := s.hw
    let f := h.inst i
    match h.fiNext i with
    | none => s
    | some m =>
      if f.state ≠ .idle ∧ f.state ≠ .busy then s
      else if f.nextCode.isSome then s
      else if !h.fiDescOk i m then
        (if f.item.isSome then s.onHw fun h => h.setInst i { f with nextCode := some 0xF001 }
         else s.onHw fun h => h.mbxAckHead (48 + i) 0xF001)
      else if bitsOf (s.peek m.ptr) 39 32 ≠ 1 then s
      else if f.item.isSome then s.onHw fun h => h.setInst i { f with nextCode := some 0xF002 }
      else
        let src := (s.peek (m.ptr + 1)).toNat
        let len := (s.peek (m.ptr + 2)).toNat
        if f.code < len ∨ f.dramSize < src + len then s.onHw fun h => h.mbxAckHead (48 + i) 0xF001
        else
          let ws := (List.range len).map fun j => s.peek (f.dramBase + src + j)
          s.onHw fun h =>
            let h := h.forEach (List.range 16) fun h r => if h.fabOn && h.islandOn r then h.kernelTo i r ws else h
            (h.setInst i { f with loaded := true, kernel := ws }).mbxAckHead (48 + i) 0)

/-- FI_RUN: the work descriptor with OP RUN starts an item of NT tasks (R544); BAD_DESC and NOT_LOADED as R547 gives them. -/
def execFiRun (i : Fin 16) (s : State) : Result :=
  .next (
    let h := s.hw
    let f := h.inst i
    match (h.chan (48 + i.val)).queue with
    | [] => s
    | m :: _ =>
      if f.state ≠ .idle ∨ f.item.isSome then s
      else if !h.fiDescOk i m then s.onHw fun h => h.mbxAckHead (48 + i) 0xF001
      else if bitsOf (s.peek m.ptr) 39 32 = 1 then s
      else if bitsOf (s.peek m.ptr) 39 32 ≠ 2 then s.onHw fun h => h.mbxAckHead (48 + i) 0xF001
      else if !f.loaded then s.onHw fun h => h.mbxAckHead (48 + i) 0xF005
      else
        let entry := bitsOf (s.peek (m.ptr + 1)) 15 0
        let nt := bitsOf (s.peek (m.ptr + 2)) 11 0 + 1
        if f.code ≤ entry then s.onHw fun h => h.mbxAckHead (48 + i) 0xF001
        else s.onHw fun h => h.setInst i { f with state := .busy, item := some { run := true, entry := entry, tasks := nt } })

/-- The running item has no task left to run: all have ended, or one failed and those given have ended (R547). -/
def FiItem.finished (x : FiItem) : Bool :=
  (x.code ≠ 0 && x.ended == x.given) || (x.ended == x.tasks && x.given == x.tasks)

/-- FI_ITEM_DONE: every task of the item has ended, and the manager acknowledges it with its code (R547). -/
def execFiItemDone (i : Fin 16) (s : State) : Result :=
  .next (s.onHw fun h =>
    let f := h.inst i
    match f.item with
    | none => h
    | some x =>
      if f.state = .busy && x.finished then
        let h := (h.setInst i { f with state := .idle, item := none, nextCode := none }).mbxAckHead (48 + i) x.code
        match f.nextCode with
        | some c => h.mbxAckHead (48 + i) c
        | none => h
      else h)

/-- FI_BUDGET_GAIN: every 1 ms each assigned instance gains RATE units of 1 000 clocks a second, so RATE clocks, up to ten
such gains (R545). -/
def execFiBudgetGain (s : State) : Result :=
  .next (s.onHw fun h => h.forEach (List.range 16) fun h i =>
    let f := h.inst i
    let rate := h.fld (Reg.MBX_FI_CFG i) Fld.MBX_FI_CFG_RATE
    if f.state = .unassigned then h
    else h.setInst i { f with budget := min (f.budget + rate) (max f.budget (10 * rate)) })

/-- A task of an instance ends: its clocks are deducted and the item records the end, and the code of a failure (R545,
R547). -/
def Hw.fiTaskEnd (h : Hw) (i clocks code : Nat) : Hw :=
  let f := h.inst i
  match f.item with
  | none => h
  | some x =>
    h.setInst i { f with budget := f.budget - clocks, used := f.used + clocks,
                         item := some { x with ended := x.ended + 1, code := if x.code = 0 then code else x.code } }

/-- An identity may command an instance: its VM, the hypervisor or the secure world (R548). -/
def Hw.fiMayCommand (h : Hw) (who : Who) (i : Nat) : Bool :=
  who = .secure || who = .hypervisor || whoCode who == 0x10 + (h.inst i).vm

/-- The result of a command in MBX_FI_STAT.RESULT: 0 OK, 1 BUSY, 2 DENIED (R552). -/
def Hw.fiResult (h : Hw) (i r : Nat) : Hw := h.setInst i { h.inst i with lastResult := r }

/-- QUIESCE of an instance (R548): with no item running, every queued item is acknowledged ABORTED and the instance is
DRAINED at once. -/
def Hw.fiQuiesceNow (h : Hw) (i : Nat) : Hw :=
  let f := h.inst i
  if f.item.isSome then h.setInst i { f with state := .quiescing, lastResult := 0 }
  else (h.setInst i { f with state := .drained, lastResult := 0 }).mbxAckAll (48 + i) 0xF003

/-- A write of MBX_FI_CMD with OP QUIESCE: allowed in IDLE and BUSY (R548). -/
def Hw.fiQuiesceCmd (h : Hw) (who : Who) (i : Nat) : Hw :=
  if !h.fiMayCommand who i then h.fiResult i 2
  else if (h.inst i).state = .idle ∨ (h.inst i).state = .busy then h.fiQuiesceNow i
  else h.fiResult i 1

/-- FI_QUIESCE. -/
def execFiQuiesce (who : Who) (i : Fin 16) (s : State) : Result :=
  .next (s.onHw fun h => h.guarded who (Reg.MBX_FI_CMD i) fun h => h.fiQuiesceCmd who i)

/-- FI_DRAINED: the running tasks of a quiescing instance have ended; its item and those behind it are acknowledged ABORTED
in order, and it is DRAINED (R533, R548). -/
def execFiDrained (i : Fin 16) (s : State) : Result :=
  .next (s.onHw fun h =>
    let f := h.inst i
    match f.item with
    | none => h
    | some x =>
      if f.state = .quiescing && x.ended == x.given then
        (h.setInst i { f with state := .drained, item := none, nextCode := none }).mbxAckAll (48 + i) 0xF003
      else h)

/-- RESET of a drained instance: ridge grants written with 0, budget 0, kernel unloaded, channel reset (R548). -/
def Hw.fiResetNow (h : Hw) (i : Nat) (after : FiState) : Hw :=
  let f := h.inst i
  let h := h.forEach (List.range 16) fun h r =>
    if h.fabOn && h.islandOn r then h.zeroRam (grantBase r f.rgOfs) f.rgSize else h
  (h.setInst i { f with state := after, budget := 0, loaded := false, kernel := [], lastResult := 0 }).channelReset (48 + i)

/-- A write of MBX_FI_CMD with OP RESET: allowed in DRAINED (R548). -/
def Hw.fiResetCmd (h : Hw) (who : Who) (i : Nat) : Hw :=
  if !h.fiMayCommand who i then h.fiResult i 2
  else if (h.inst i).state = .drained then h.fiResetNow i .idle
  else h.fiResult i 1

/-- FI_RESET. -/
def execFiReset (who : Who) (i : Fin 16) (s : State) : Result :=
  .next (s.onHw fun h => h.guarded who (Reg.MBX_FI_CMD i) fun h => h.fiResetCmd who i)

/-- A write of MBX_FI_CMD with OP RESUME: a drained instance is IDLE with kernel and grants unchanged (R548). -/
def Hw.fiResumeCmd (h : Hw) (who : Who) (i : Nat) : Hw :=
  if !h.fiMayCommand who i then h.fiResult i 2
  else if (h.inst i).state = .drained then h.setInst i { h.inst i with state := .idle, lastResult := 0 }
  else h.fiResult i 1

/-- FI_RESUME. -/
def execFiResume (who : Who) (i : Fin 16) (s : State) : Result :=
  .next (s.onHw fun h => h.guarded who (Reg.MBX_FI_CMD i) fun h => h.fiResumeCmd who i)

/-- REMOVE of a drained instance: as RESET, UNASSIGNED, and its channel closed (R548). -/
def Hw.fiRemoveNow (h : Hw) (i : Nat) : Hw :=
  let h := h.fiResetNow i .unassigned
  h.setChan (48 + i) { h.chan (48 + i) with sender := 0 }

/-- A write of MBX_FI_CMD with OP REMOVE: allowed in DRAINED (R548). -/
def Hw.fiRemoveCmd (h : Hw) (who : Who) (i : Nat) : Hw :=
  if !h.fiMayCommand who i then h.fiResult i 2
  else if (h.inst i).state = .drained then h.fiRemoveNow i
  else h.fiResult i 1

/-- FI_REMOVE. -/
def execFiRemove (who : Who) (i : Fin 16) (s : State) : Result :=
  .next (s.onHw fun h => h.guarded who (Reg.MBX_FI_CMD i) fun h => h.fiRemoveCmd who i)

end Sys2Proof.Machine
end

