-- ==== Sys2Proof/Machine/Operands.lean ====
section
/-! DEFINITION. Cores as operands: their registers, lockstep groups, identities and control registers (R318 to R320, R335,
R349, R483 to R488, R504), and what every retired instruction does. -/

namespace Sys2Proof

/-- The kind of a core (R318). -/
def CoreId.isEngine : CoreId → Bool
  | .engine _ => true
  | _ => false

def CoreId.isCrest : CoreId → Bool
  | .crest _ => true
  | _ => false

def CoreId.isApp : CoreId → Bool
  | .app _ => true
  | _ => false

/-- The tag of a core in the translation caches: Crest cores 0 to 2, application cores 8 to 15. -/
def CoreId.slot : CoreId → Nat
  | .crest k => k
  | .app k => 8 + k
  | .engine _ => 16

end Sys2Proof

namespace Sys2Proof.Machine

/-- One fold of a multiple-input signature register (R356, R488). -/
def misrFold (sig x : Word) : Word :=
  (if sig.getMsbD 0 then (sig <<< 1) ^^^ 0x4000280001 else sig <<< 1) ^^^ x

/-- An instruction's effect on one core: the core after it, and what its signature register folds in (R488). -/
structure Ret where
  core : Core
  folds : List Word := []
  deriving DecidableEq, Repr

namespace Core

/-- The effect of writing a general register: folded unless the register is g0 (R488). -/
def ret (c : Core) (rd : GReg) (v : Word) : Ret := { core := c.setGpr rd v, folds := if rd = 0 then [] else [v] }

/-- An effect that writes no general register. -/
def quiet (c : Core) : Ret := { core := c }

/-- The current level (R335). -/
def level (c : Core) : Nat := bitsOf c.status 1 0

/-- The core is in the normal world (R335). -/
def ns (c : Core) : Bool := bitN c.status.toNat 2

/-- STATUS.IE. -/
def ie (c : Core) : Bool := bitN c.status.toNat 3

/-- A STATUS word. -/
def statusWord (level : Nat) (ns ie : Bool) : Word := word (level + 4 * b2n ns + 8 * b2n ie)

/-- The control registers that are banked by world on application cores (R335, R525). -/
def banked (n : Nat) : Bool := (8 ≤ n && n ≤ 13) || (32 ≤ n && n ≤ 34) || n == 56 || n == 59

/-- The key of a control register in `cr`: the normal world's bank lies at 128. -/
def crKey (ns : Bool) (n : Nat) : Nat := if ns && banked n then 128 + n else n

/-- The reset values of the control registers: IMASK 0xFF (R525), the others 0. -/
def crReset (k : Nat) : Word := if k = 56 ∨ k = 57 ∨ k = 58 ∨ k = 184 then 0xFF else 0

/-- A stored control register of the current world. -/
def crAt (c : Core) (n : Nat) : Word := Tabs.get crReset c.cr (crKey c.ns n)

/-- Writes a stored control register of the current world. -/
def setCrAt (c : Core) (n : Nat) (v : Word) : Core := { c with cr := Tabs.set crReset c.cr (crKey c.ns n) v }

/-- One instruction retires: pc, CYCLES and RETIRED advance by 1 (R320, R335; log entry 10). -/
def tick (c : Core) : Core := { c with pc := c.pc + 1, cycles := c.cycles + 1, retired := c.retired + 1 }

end Core

namespace Hw

/-- A core's state. -/
def coreOf (h : Hw) : CoreId → Core
  | .crest k => h.crestCore k
  | .app k => h.appCore k
  | .engine e => (h.engine e).core

/-- Replaces a core's state. -/
def setCore (h : Hw) (c : CoreId) (x : Core) : Hw :=
  match c with
  | .crest k => h.setCrestCore k x
  | .app k => h.setAppCore k x
  | .engine e => h.setEngine e { h.engine e with core := x }

/-- The duty group's mask (R483, R502). -/
def dutyMask (h : Hw) : Nat := h.fld Reg.CRS_STAT Fld.CRS_STAT_DUTY

/-- The mask of retired Crest cores (R491). -/
def retiredMask (h : Hw) : Nat := h.fld Reg.CRS_STAT Fld.CRS_STAT_RETIRED

/-- The Crest cores. -/
def crestCores : List (Fin 3) := [0, 1, 2]

/-- The duty group (R483). -/
def duty (h : Hw) : List (Fin 3) := crestCores.filter fun k => bitN h.dutyMask k

/-- The lockstep group of a core (R483): the duty group for its members, the core alone otherwise. -/
def members (h : Hw) (c : CoreId) : List CoreId :=
  match c with
  | .crest k => if bitN h.dutyMask k then h.duty.map .crest else [c]
  | _ => [c]

/-- The lowest-numbered core of a core's group (R485). -/
def lead (h : Hw) (c : CoreId) : CoreId := (h.members c).headD c

/-- A core's domain is on (R19). -/
def corePowered (h : Hw) : CoreId → Bool
  | .crest _ => h.crestOn
  | .app k => h.appOn k
  | .engine e => h.fabOn && h.islandOn (e / 32)

/-- The PLL of a core runs with the TCXO, and its block is not clock-gated (R72, R73, R100, R103). -/
def coreClocked (h : Hw) (c : CoreId) : Bool :=
  h.bit Reg.CLK_STAT 7 && match c with
    | .crest _ => h.bit Reg.CLK_STAT 4 && !h.bit Reg.PWR_CLK_GATED 24
    | .app k => h.bit Reg.CLK_STAT 5 && !h.bit Reg.PWR_CLK_GATED (16 + k)
    | .engine e => h.engineClocked e

/-- A core executes instructions: powered, clocked, out of reset, not halted, not waiting; an engine has a task (R72, R334, R348,
R498). -/
def running (h : Hw) (c : CoreId) : Bool :=
  let x := h.coreOf c
  h.corePowered c && h.coreClocked c && !x.inReset && (!x.halted || x.stepping) && !x.idle &&
    match c with
    | .engine e => (h.engine e).task.isSome
    | _ => true

/-- The identity of a core's accesses (R504). -/
def coreWho (h : Hw) : CoreId → Who
  | .crest k => if bitN h.dutyMask k then .crest else .crestStandby
  | .app k =>
    let x := h.appCore k
    if !x.ns then .secure else if x.level = 2 then .hypervisor
    else .vm ⟨bitsOf (x.crAt 45) 3 0, by unfold bitsOf; exact Nat.mod_lt _ (by decide)⟩
  | .engine _ => .system

/-- A Crest core's signature register (R488). -/
def crestSig (h : Hw) (k : Nat) : Word := Tabs.get zeroReg h.crs.sig k

/-- Sets a Crest core's signature register. -/
def setCrestSig (h : Hw) (k : Nat) (v : Word) : Hw := { h with crs := { h.crs with sig := Tabs.set zeroReg h.crs.sig k v } }

/-- A Crest core folds words into its signature register; other cores have none (R488). -/
def foldSig (h : Hw) (c : CoreId) (ws : List Word) : Hw :=
  match c with
  | .crest k => h.setCrestSig k (ws.foldl misrFold (h.crestSig k))
  | _ => h

/-- One core retires an instruction: its effect, then pc, CYCLES and RETIRED. -/
def retireOn (h : Hw) (c : CoreId) (f : Core → Ret) : Hw :=
  let r := f (h.coreOf c)
  (h.setCore c r.core.tick).foldSig c r.folds

/-- Every member of a core's group retires an instruction, each on its own registers (R483, R486). -/
def retireAll (h : Hw) (c : CoreId) (f : Core → Ret) : Hw := (h.members c).foldl (fun h m => h.retireOn m f) h

/-- CRS_STAT.HALTED follows the halted Crest cores (R502). -/
def noteHalted (h : Hw) (c : CoreId) (b : Bool) : Hw :=
  match c with
  | .crest k => if b then h.setBit Reg.CRS_STAT (8 + k) else h.clearBit Reg.CRS_STAT (8 + k)
  | _ => h

/-- Halts or resumes every member of a group in one clock (R498). -/
def setHalted (h : Hw) (c : CoreId) (b : Bool) : Hw :=
  (h.members c).foldl (fun h m =>
    (h.setCore m { h.coreOf m with halted := b, stepping := false, haltPending := false }).noteHalted m b) h

end Hw

namespace State

/-- WLD_DBG as it reads: LOCKED alone once the DBG_LOCK fuse is blown (R526, R529). -/
def wldDbg (s : State) : Word := if s.fuse.dbgLock then word (2 ^ 39) else s.hw.reg Reg.WLD_DBG

/-- Invasive debug is enabled for a core in its state (R526); the engines have no debug enable. -/
def invasive (s : State) (c : CoreId) : Bool :=
  let d := s.wldDbg.toNat
  let x := s.hw.coreOf c
  match c with
  | .crest _ => bitN d 5
  | .app _ =>
    if !x.ns then bitN d 3
    else bitN d 1 && (if x.level = 2 then bitN d 7 else bitN d (8 + bitsOf (x.crAt 45) 3 0))
  | .engine _ => false

/-- The debug port works: DBG_LOCK is not blown, and the debug unit has its power and clock (R50, R103). -/
def debugPort (s : State) : Bool :=
  !s.fuse.dbgLock && s.hw.sysOn && !s.hw.bit Reg.PWR_PWR_GATED 39 && !s.hw.bit Reg.PWR_CLK_GATED 39

/-- What follows every instruction or entry of a core: a single step ends, and a halt that waited for an enabled state
takes effect (R498, R526). -/
def afterInstr (s : State) (c : CoreId) : State :=
  let x := s.hw.coreOf c
  if x.stepping || (x.haltPending && s.invasive c) then s.onHw fun h => h.setHalted c true else s

end State

end Sys2Proof.Machine
end

