-- ==== Sys2Proof/Machine/Fabric.lean ====
section
/-! DEFINITION. The fabric manager: points, frames and undo logs, ownership, migration, rebuilding, quarantine, and the
handling of faults (R281 to R312, R353 to R357). -/

namespace Sys2Proof.Machine

/-! ### Addresses (R285, R287, R306) -/

/-- The page size of a page number (R285). -/
def pageSize (g : Nat) : Nat := if g < 16384 then 2048 else if g < 17664 then 256 else 4096

/-- The point address of an offset of a page (R285). -/
def pointAddr (g o : Nat) : Nat :=
  if g < 16384 then g * 2048 + o
  else if g < 17664 then 0x2040000 + (g - 16384) * 256 + o
  else if g < 17728 then 0x2000000 + (g - 17664) * 4096 + o
  else 0x2090000 + (g - 17728) * 4096 + o

/-- The page and the offset of a point address (R285). -/
def pointOf (p : Nat) : Nat × Nat :=
  if p < 0x2000000 then (p / 2048, p % 2048)
  else if p < 0x2040000 then (17664 + (p - 0x2000000) / 4096, p % 4096)
  else if p < 0x2090000 then (16384 + (p - 0x2040000) / 256, p % 256)
  else (17728 + (p - 0x2090000) / 4096, p % 4096)

/-- The level of a page (R296). -/
def pageLevel (g : Nat) : Nat := if g < 17664 then 0 else if g < 17728 then 1 else 2

/-- The backing word of a point (R287). -/
def backing (g o : Nat) : Nat := 0x140000000 + pointAddr g o

/-- The base of the fabric manager's DRAM area (R306). -/
def managerBase : Nat := 0x144000000

/-- The redo record of an engine (R306). -/
def redoBase (e : Nat) : Nat := managerBase + 0xC00000 + 8192 * e

/-- The hot shadow of a page (R306). -/
def shadowBase (g : Nat) : Nat := managerBase + 0x400000 + 256 * g

/-- The word of a ridge store an engine of ridge r reads or writes (R153, R283). -/
def ridgeWord (r w : Nat) : Nat := 0x4000000 + 0x400000 * r + w

/-- A word of a frame in the ridge of an engine (R283). -/
def frameAddr (e f o : Nat) : Nat := ridgeWord (e / 32) (0x100 * f + o)

/-- A word of a microcode slot of a ridge (R283), and of its DRAM image (R306; log entry 25). -/
def slotAddr (r s w : Nat) : Nat := ridgeWord r (0x68000 + 0x4000 * s + w)
def slotImage (s w : Nat) : Nat := managerBase + 0x20000 * s + w

/-- The frame of the audit copy in a ridge (R283, R349). -/
def auditFrame : Nat := 0x780

/-- What unwritten local memory holds. -/
def blankLocal : Nat → Container := fun _ => {}

/-- The tag of a word written in a task: TASK_LC mod 65 536 (R145, R351, R353). -/
def Task.tag (t : Task) : BitVec 16 := BitVec.ofNat 16 t.lc

/-- KIND of a task (R347). -/
def TaskKind.num : TaskKind → Nat
  | .step => 0 | .rollback => 1 | .release => 2 | .audit => 3 | .inst => 4 | .selftest => 5

/-- TASK, cr97 (R349). -/
def Task.word (t : Task) : Word :=
  Machine.word (t.kind.num * 2 ^ 36 + b2n t.spec * 2 ^ 35 + b2n t.cold * 2 ^ 34 + b2n t.sigcap * 2 ^ 33 + t.level * 2 ^ 31 +
    t.frame * 2 ^ 18 + t.page)

/-- Where an exception of an engine met its poisoned container (R357). -/
inductive FaultAt where
  | other | locals | slot | frame | back
  deriving DecidableEq, Repr

/-! ### The undo log (R281, R353) -/

/-- The entries of an undo log of one frame, each with the LC of the step it belongs to: that of the nearest older boundary
of the frame (R353). -/
def undoSteps (frame : Nat) : List Undo → Option Nat → List (Undo × Option Nat)
  | [], _ => []
  | u :: rest, lc =>
    let lc := if u.boundary && u.frame == frame then some u.word.toNat else lc
    (u, if u.frame = frame then lc else none) :: undoSteps frame rest lc

/-- The entries RBK removes: of the frame, of a step with LC at or above a bound (R353). -/
def undoFrom (frame lc : Nat) (l : List Undo) : List Undo × List Undo :=
  let m := undoSteps frame l none
  let sel (x : Undo × Option Nat) : Bool := match x.2 with
    | some n => lc ≤ n
    | none => false
  ((m.filter sel).map (·.1), (m.filter fun x => !sel x).map (·.1))

/-- The entries CMT removes: of the frame, of a step with LC at or below a bound (R353). -/
def undoUpTo (frame lc : Nat) (l : List Undo) : List Undo × List Undo :=
  let m := undoSteps frame l none
  let sel (x : Undo × Option Nat) : Bool := match x.2 with
    | some n => n ≤ lc
    | none => false
  ((m.filter sel).map (·.1), (m.filter fun x => !sel x).map (·.1))

/-- A list of undo entries has a poisoned one: its local address (R148, R281). -/
def poisonedUndo (all : List Undo) (sel : List Undo) : Option Nat :=
  if sel.any (·.poisoned) then some (0x800 + 2 * (all.takeWhile fun u => !u.poisoned).length) else none

namespace Hw

/-- The old data and tags of undo entries go back into the frame, newest first (R353). -/
def restore (h : Hw) (e : Nat) (l : List Undo) : Hw :=
  l.reverse.foldl (fun h u =>
    if u.boundary then h else h.setRam (frameAddr e u.frame u.ofs) { data := u.word, tag := u.tag, poisoned := false }) h

/-- A local word of an engine is read, an error that the read brings included (R147, R148): whether it finds an uncorrectable error.
Words 0x000 to 0x7FF are the working area, and entry i of the undo log holds words 0x800 + 2i and 0x801 + 2i (R281); a word of the
log that no entry holds keeps nothing. -/
def localRead (h : Hw) (e a : Nat) (f : Flaw) : Hw × Bool :=
  let g := h.engine e
  let m := 32 + e / 32
  let at_ := e * 0x1000 + a
  if a < 0x800 then
    let c := (Tabs.get blankLocal g.work a).hit f
    if c.flaw = .sound then (h, false)
    else ((h.setEngine e { g with work := Tabs.set blankLocal g.work a c.read }).eccFound m at_ c.finds, c.finds == .double)
  else
    let i := (a - 0x800) / 2
    match g.undo[i]? with
    | none => (h.eccFound m at_ f, f == .double)
    | some u =>
      let w := if u.poisoned then .sound else worseFlaw u.flaw f
      let u := { u with poisoned := u.poisoned || w == .double, flaw := .sound }
      ((h.setEngine e { g with undo := g.undo.set i u }).eccFound m at_ w, w == .double)

/-- A bit error hits a local word of a powered engine; the next read of it finds the error (R147, R148). -/
def strikeLocal (h : Hw) (e a : Nat) : Hw :=
  let g := h.engine e
  if !(h.fabOn && h.islandOn (e / 32)) then h
  else if a < 0x800 then
    h.setEngine e { g with work := Tabs.set blankLocal g.work a ((Tabs.get blankLocal g.work a).hit .single) }
  else match g.undo[(a - 0x800) / 2]? with
    | none => h
    | some u => h.setEngine e { g with undo := g.undo.set ((a - 0x800) / 2) { u with flaw := worseFlaw u.flaw .single } }

/-- Every entry of an engine's undo log is read. -/
def undoFound (h : Hw) (e : Nat) : Hw :=
  (List.range (h.engine e).undo.length).foldl (fun h i => (h.localRead e (0x800 + 2 * i) .sound).1) h

/-- The undo log of an engine rolled back for a frame from an LC on: the entries removed, and the data entries undone. -/
def rollbackFrame (h : Hw) (e frame lc : Nat) : Hw × Nat :=
  let g := h.engine e
  let r := undoFrom frame lc g.undo
  ((h.restore e r.1).setEngine e { g with undo := r.2 }, (r.1.filter fun u => !u.boundary).length)

/-- The undo log of an engine with a frame's certain steps removed, and how many entries went. -/
def releaseFrame (h : Hw) (e frame lc : Nat) : Hw × Nat :=
  let g := h.engine e
  let r := undoUpTo frame lc g.undo
  (h.setEngine e { g with undo := r.2 }, r.1.length)

/-- The undo log of an engine without the entries of a frame: they are freed (R303). -/
def freeFrameUndo (h : Hw) (e frame : Nat) : Hw :=
  h.setEngine e { h.engine e with undo := (h.engine e).undo.filter fun u => u.frame ≠ frame }

/-! ### Ownership (R294 to R296, R302, R303) -/

/-- The home engine and frame of a page (R294). -/
def homeOf (h : Hw) (g : Nat) : Nat × Nat :=
  match Tabs.get (fun _ => (none : Option (Nat × Nat))) h.cfg.fab.placement g with
  | some x => x
  | none =>
    if g < 16384 then (32 * (g / 1024) + g / 32 % 32, g % 1024)
    else if g < 17664 then
      let r := (g - 16384) / 160
      let p := (g - 16384) % 160
      if p < 128 then (32 * (2 * r + p / 64) + p / 2 % 32, 1024 + p % 64)
      else (32 * (2 * r + (p - 128) / 16) + 16 + (p - 128) % 16, 1088 + (p - 128) % 16)
    else if g < 17728 then (32 * ((g - 17664) / 4) + 28 + (g - 17664) % 4, 1104 + (g - 17664) % 4)
    else (32 * (g - 17728) + 24, 1108)

/-- Quarantine cause of an engine, 0 none (R309). -/
def quarOf (h : Hw) (e : Nat) : Nat := Tabs.get (fun _ => 0) h.fab.quar e

/-- An island is marked failed until reset (R308). -/
def islandFailed (h : Hw) (r : Nat) : Bool := h.bit Reg.FAB_ISLAND r

/-- An engine can own pages: its island is powered and sound, and it is not quarantined (R303, R309). -/
def engineActive (h : Hw) (e : Nat) : Bool :=
  decide (e < 512) && h.fabOn && h.islandOn (e / 32) && !h.islandFailed (e / 32) && h.quarOf e == 0

/-- An engine can take a task: active, clocked and without one. -/
def engineFree (h : Hw) (e : Nat) : Bool := h.engineActive e && h.engineClocked e && (h.engine e).task.isNone

/-- The page has an owner: RESIDENT or REBUILDING (R295). -/
def owned (p : Page) : Bool := p.state = .resident || p.state = .rebuilding

/-- The frames of a ridge that pages or migration records hold, with those promised to a page whose step still runs (R295, R303). -/
def usedFrames (h : Hw) (r : Nat) : List Nat :=
  h.fab.pages.flatMap fun x =>
    let p := x.2
    let src := if (owned p || p.state = .transit) && p.engine / 32 == r then [p.frame] else []
    let tgt := if p.state = .transit then p.target else if owned p then p.moveTo else none
    match tgt with
    | some (e, f) => if e / 32 = r then f :: src else src
    | none => src

/-- Pages an engine owns, and pages of a ridge (R317). -/
def pagesOn (h : Hw) (e : Nat) : Nat := (h.fab.pages.filter fun x => owned x.2 && x.2.engine == e).length
def pagesIn (h : Hw) (r : Nat) : Nat := (h.fab.pages.filter fun x => owned x.2 && x.2.engine / 32 == r).length

/-- The lowest free pool frame of a ridge, and how many there are (R294). -/
def freePool (h : Hw) (r : Nat) : Nat × Option Nat :=
  let used := h.usedFrames r
  let free := ((List.range 555).map (1109 + ·)).filter fun f => !used.contains f
  (free.length, free.head?)

/-- The element of a list with the least measure, the first among equals. -/
def argMin (f : Nat → Nat) : List Nat → Option Nat
  | [] => none
  | x :: xs => match argMin f xs with
    | none => some x
    | some y => if f y < f x then some y else some x

/-- Where a page is placed: its home when that engine is active and not to be avoided, else a pool frame of the ridge with
the most free ones, on its engine with the fewest pages (R303). -/
def chooseTarget (h : Hw) (g : Nat) (avoid : Nat → Bool) : Option (Nat × Nat) :=
  let home := h.homeOf g
  if h.engineActive home.1 ∧ !avoid home.1 ∧ !(h.usedFrames (home.1 / 32)).contains home.2 then some home
  else
    let engines (r : Nat) := ((List.range 32).map (32 * r + ·)).filter fun e => h.engineActive e && !avoid e
    let ridges := (List.range 16).filter fun r => !(engines r).isEmpty && (h.freePool r).2.isSome
    match argMin (fun r => 555 - (h.freePool r).1) ridges with
    | none => none
    | some r =>
      match argMin h.pagesOn (engines r), (h.freePool r).2 with
      | some e, some f => some (e, f)
      | _, _ => none

/-- A FABRIC record (R381): 1 audit, 2 quarantine, 3 rebuild, 4 migration, 5 island change. -/
def fabricRecord (h : Hw) (sub page e e2 code : Nat) : Hw :=
  h.note 0x11 sub [word h.lc, word (page * 2 ^ 25 + e * 2 ^ 16 + e2 % 256 * 2 ^ 8 + code % 256)]

/-- Migrations in progress (R303). -/
def migrations (h : Hw) : Nat := (h.fab.pages.filter fun x => x.2.state = .transit).length

/-- An engine runs a task of a page. -/
def pageTask (h : Hw) (g : Nat) : Option Task :=
  let p := h.page g
  match (h.engine p.engine).task with
  | some t => if owned p ∧ t.kind ≠ .inst ∧ t.kind ≠ .selftest ∧ t.kind ≠ .audit ∧ t.page = g then some t else none
  | none => none

/-- The audit in progress ends with a result (R311, R312): it is recorded, journaled, and no longer in progress. -/
def auditEnd (h : Hw) (result : Nat) : Hw :=
  match h.fab.audit with
  | none => h
  | some a =>
    let e := a.auditor.getD 0
    let h := h.setReg Reg.FAB_AUDIT_LAST (word (result * 2 ^ 37 + a.page * 2 ^ 22 + e * 2 ^ 13))
    let h := h.setReg Reg.FAB_AUDIT_LC (word a.lc)
    let h := { h with fab := { h.fab with audit := none } }
    h.fabricRecord 1 a.page a.owner e result

/-- An audit of a page is abandoned (R312). -/
def auditDropPage (h : Hw) (g : Nat) : Hw := if h.fab.audit.any fun a => a.page == g then h.auditEnd 5 else h

/-- An audit that an engine takes part in is abandoned (R312). -/
def auditDropEngine (h : Hw) (e : Nat) : Hw :=
  if h.fab.audit.any fun a => a.owner == e || a.auditor == some e || a.third == some e then h.auditEnd 5 else h

/-- The first n words of a page's frame. -/
def frameWords (h : Hw) (p : Page) (n : Nat) : List Word := (List.range n).map fun o => (h.ram (frameAddr p.engine p.frame o)).data

/-- What the manager keeps of a page is put back as it stood at the end of the step before m: the words it placed, and its
books (R372). -/
def forgetFrom (h : Hw) (g m : Nat) : Hw :=
  let p := h.page g
  let back := (p.saved.filter fun x => m ≤ x.1).getLast?
  let h := match back with
    | some (_, ws) => h.writeRamList (frameAddr p.engine p.frame 0) ws
    | none => h
  let spec := p.spec.filter (· < m)
  h.setPage g { p with spec := spec, last := match spec.getLast? with
                                       | some n => n + 1
                                       | none => p.certain,
                       saved := p.saved.filter (·.1 < m), sources := p.sources.filter (·.1 < m), rollback := none }

/-- KIND 0b10 of the provisional view: rolled back, awaiting its rerun (R376). -/
def viewRolledBack (h : Hw) (p : Page) : Hw :=
  let a := frameAddr p.engine p.frame 0xF1
  h.writeRam a (withBits (h.ram a).data 39 38 2)

/-- The speculative steps of a page are rolled back at once and their undo entries freed (R303, R357). -/
def rollbackAll (h : Hw) (g : Nat) : Hw :=
  let p := h.page g
  match p.spec.head? with
  | none => h.freeFrameUndo p.engine p.frame
  | some m =>
    let h := (h.rollbackFrame p.engine p.frame m).1
    let h := h.viewRolledBack p
    ((h.forgetFrom g m).freeFrameUndo p.engine p.frame).count Reg.FAB_CNT_ROLLBACK

/-- Step 1 of a migration: speculation rolled back, the page IN_TRANSIT, both frames held by the record (R303). -/
def startMigration (h : Hw) (g : Nat) (tgt : Nat × Nat) : Hw :=
  let h := (h.auditDropPage g).rollbackAll g
  h.setPage g { h.page g with state := .transit, target := some tgt, moveTo := none }

/-- A page is to move: at once, or once its running step has ended (R303). -/
def moveOut (h : Hw) (g : Nat) (tgt : Nat × Nat) : Hw :=
  if (h.pageTask g).isSome then h.setPage g { h.page g with moveTo := some tgt } else h.startMigration g tgt

/-- Pages whose home island is on again return home, up to 16 at a time; the rest wait (R302, R303, R314). -/
def sendHome (h : Hw) : Hw :=
  h.fab.homing.foldl (fun (h : Hw) g =>
    let p := h.page g
    let home := h.homeOf g
    let drop (h : Hw) : Hw := { h with fab := { h.fab with homing := h.fab.homing.filter (· ≠ g) } }
    if p.state = .undeclared ∨ (p.engine = home.1 ∧ p.frame = home.2) ∨ !h.engineActive home.1 ∨
        (h.usedFrames (home.1 / 32)).contains home.2 then drop h
    else if p.state = .resident ∧ p.moveTo.isNone ∧ h.migrations < 16 ∧ h.pstate ≠ 4 then drop (h.moveOut g home)
    else h) h

/-- A page becomes UNPLACED (R295, R299, R302). -/
def unplace (h : Hw) (g : Nat) : Hw :=
  let p := h.page g
  (h.setPage g { p with state := .unplaced, target := none, moveTo := none, spec := [], saved := [], rollback := none }).setBit
    Reg.FAB_IRQ_STAT 5

/-- A page's hot shadow has a poisoned word (R308). -/
def shadowPoisoned (h : Hw) (g : Nat) : Bool := (List.range 256).any fun o => (h.ram (shadowBase g + o)).poisoned

/-- A page is placed for its rebuild: its hot shadow, or the snapshot of an audit when that is the later, loaded with its tags
into a frame of another engine, or into the frame that a migration has just given it (R304, R307, R309); with a poisoned hot shadow a page restart is due instead (R308). -/
def placeRebuild (h : Hw) (g : Nat) (avoid : Nat → Bool) (snap : Option Audit := none) (own : Option (Nat × Nat) := none) : Hw :=
  let p := h.page g
  let h := (h.auditDropPage g).freeFrameUndo p.engine p.frame
  let h := h.setPage g { p with state := .undeclared }
  match own.or (h.chooseTarget g avoid) with
  | none => (h.setPage g p).unplace g
  | some (e, f) =>
    let snap := snap.filter fun a => decide (p.shadowLc ≤ a.lc)
    let h := if snap.isNone then h.foundIn (shadowBase g) 256 else h
    let bad := snap.isNone && h.shadowPoisoned g
    let h := match snap with
      | some a => h.writeRamList (frameAddr e f 0) a.snapshot
      | none => (List.range 256).foldl (fun h o => h.setRam (frameAddr e f o) (h.ram (shadowBase g + o))) h
    let start := match snap with
      | some a => a.lc
      | none => p.shadowLc
    let q := { p with state := .rebuilding, engine := e, frame := f, target := none, moveTo := none,
                      last := start, certain := start, spec := [], saved := [], rollback := none,
                      sources := p.sources.filter (·.1 < max start p.certain), rebuildTo := max p.rebuildTo p.certain,
                      restart := p.restart || bad, rebuild := false }
    let q := match snap with
      | some a => { q with params := a.params, runs := a.runs }
      | none => q
    (h.setPage g q).fabricRecord 3 g e 0 0

/-- The second copy of a migration has finished: the target owns the page (R303, R304). A poisoned word is copied as it stands, so
that it is met where its page goes (log entry 27). -/
def migrationDone (h : Hw) (g : Nat) : Hw :=
  let p := h.page g
  match p.state, p.target with
  | .transit, some (e, f) =>
    let h := h.foundIn (frameAddr p.engine p.frame 0) 256
    let h := (List.range 256).foldl (fun h o => h.setRam (frameAddr e f o) (h.ram (frameAddr p.engine p.frame o))) h
    let q := { p with state := .resident, engine := e, frame := f, target := none }
    let h := ((h.setPage g q).count Reg.FAB_CNT_MIGRATE).fabricRecord 4 g e p.engine 0
    if q.rebuild && h.engineActive e then h.placeRebuild g (fun _ => false) none (some (e, f))
    else if q.rebuild then h.placeRebuild g fun x => decide (x = e)
    else if !h.engineActive e then
      match h.chooseTarget g (· == e) with
      | some t => h.startMigration g t
      | none => h.unplace g
    else h
  | _, _ => h

/-- An engine is quarantined (R304, R309): its task is abandoned, its audits end, and its pages are rebuilt elsewhere. -/
def quarantine (h : Hw) (e cause : Nat) (snap : Option Audit := none) : Hw :=
  if h.quarOf e ≠ 0 then h
  else
    let h : Hw := { h with fab := { h.fab with quar := Tabs.set (fun _ => (0 : Nat)) h.fab.quar e cause } }
    let h : Hw := ((h.setBit Reg.FAB_IRQ_STAT 4).fabricRecord 2 0 e 0 cause).auditDropEngine e
    let g : Engine := h.engine e
    let running := g.task.any fun t => t.kind = .inst
    let h : Hw := h.setEngine e { g with task := if running then g.task else none,
                                         streams := if running then g.streams else [], undo := [] }
    h.fab.pages.foldl (fun (h : Hw) x =>
      let p := h.page x.1
      if p.engine ≠ e then h
      else if owned p then h.placeRebuild x.1 (· == e) (snap.filter fun a => a.page == x.1)
      else if p.state = .transit then h.setPage x.1 { p with rebuild := true }
      else h) h

/-- A poisoned word of a microcode slot: the slot is loaded again from its DRAM image (R308). -/
def reloadSlot (h : Hw) (r s : Nat) : Hw :=
  (List.range 0x4000).foldl (fun h w => h.writeRam (slotAddr r s w) (h.ram (slotImage s w)).word) (h.foundIn (slotImage s 0) 0x4000)

/-- Ridge r holds the spare slot where that is being loaded, is loaded or is retained (R715). -/
def slotHeld (h : Hw) (r : Nat) : Hw := if h.fld Reg.FAB_MC_STAT Fld.FAB_MC_STAT_SPARE = 0 then h else h.setBit Reg.FAB_MC_STAT (16 + r)

/-- The microcode slot in force, and the slot that a step of cycle n runs from (R369, R699). -/
def mcSlot (h : Hw) : Nat := h.fld Reg.FAB_STAT Fld.FAB_STAT_MC_SLOT
def slotFor (h : Hw) (n : Nat) : Nat := if n < h.fab.mcSince then 1 - h.mcSlot else h.mcSlot

/-- An engine takes a task (R348). -/
def loadTask (h : Hw) (e : Nat) (t : Task) : Hw :=
  let g := h.engine e
  let regs := if g.endRd = 0 then [] else [(g.endRd, t.word)]
  h.setEngine e { g with core := { g.core with g := regs, acc := [], flags := 0, pc := word t.kind.num }, work := [],
                         task := some { t with start := g.core.cycles, ckpt := false }, sig := 0, streams := [], report := none,
                         endRd := 0 }

/-- The fabric manager's handling of an exception that has abandoned a task (R308, R357). -/
def taskFault (h : Hw) (e : Nat) (t : Task) (code : Nat) (loc : FaultAt) : Hw :=
  let others : Nat → Bool := (· == e)
  match t.kind with
  | .inst => h
  | .selftest => h.quarantine e 2
  | _ =>
    if code = 0x04 ∧ loc = .locals then h.quarantine e 3
    else if code = 0x04 ∧ loc = .slot then (h.reloadSlot (e / 32) t.slot).loadTask e t
    else if t.kind = .audit then h.auditEnd 5
    else
      let p := h.page t.page
      if code = 0x04 ∧ loc = .back then
        let h := h.rollbackAll t.page
        h.setPage t.page { h.page t.page with restart := true }
      else if t.kind = .step ∧ p.state = .rebuilding ∧ p.excAt = some t.lc then h.unplace t.page
      else
        let h := if t.kind = .step then h.setPage t.page { p with excAt := some t.lc } else h
        h.placeRebuild t.page others

end Hw

end Sys2Proof.Machine
end

