-- ==== Sys2Proof/Machine/Steps.lean ====
section
/-! DEFINITION. Page steps: their inputs, when they may run, the standard FMC's run of one, what their end does, rollbacks,
audits and reductions (R282, R289, R291 to R301, R305, R310, R311, R357, R365, R370 to R376, R387, R392 to R419). -/

namespace Sys2Proof.Machine

/-- A substitute's status word (R365): CLASS ESTIMATED, SRC 0x4, AGE one more. -/
def substStatus (st : Word) : Word :=
  withBits (withBits (withBits st 11 10 1) 15 12 4) 23 16 (min (bitsOf st 23 16 + 1) 0xFF)

/-- A status word as it is placed in a page: SRC cleared, but for 0x4 (R289). -/
def placedStatus (st : Word) : Word := if bitsOf st 15 12 = 4 then st else withBits st 15 12 0

/-- The retention SRAM (R86). -/
def retention : Nat := 0x200000

/-- The node record of a node (R86). -/
def nodeRecord (n : Nat) : Nat := retention + 0x400 + 8 * n

/-- The points of a page as the FMC reads them: no step reads the provisional view (R376). -/
def fmcPage (pt : Nat → Word) (o : Nat) : Word := if 0xF0 ≤ o ∧ o ≤ 0xFF then 0 else pt o

namespace Hw

/-! ### Points -/

/-- A point of a page as it stands (R287): in its frame while the page is placed, else in its backing word. -/
def point (h : Hw) (g o : Nat) : Word :=
  let p := h.page g
  if o < 256 ∧ p.state ≠ .unplaced ∧ p.state ≠ .undeclared then (h.ram (frameAddr p.engine p.frame o)).data
  else (h.ram (backing g o)).data

/-- How many of a page's first words the manager writes as a step starts (R289, R291, R292). -/
def inputWords (g : Nat) : Nat := if g < 17664 then 0x20 else 0x80

/-- The latest point write of a point with a commit LC of m or earlier (R301). -/
def writeInForce (h : Hw) (g o m : Nat) : Option Word :=
  ((h.fab.writes.filter fun x => x.2.1 == g && x.2.2.1 == o && decide (x.1 ≤ m)).foldl (fun b x =>
    match b with
    | some (l, _) => if l ≤ x.1 then some (x.1, x.2.2.2) else b
    | none => some (x.1, x.2.2.2)) (none : Option (Nat × Word))).map (·.2)

/-- The point writes that take effect with the step of cycle m, in order of acceptance (R301). -/
def applyWrites (h : Hw) (g m : Nat) : Hw :=
  let l := (h.page g).last
  (h.fab.writes.filter fun x => x.2.1 == g && decide (x.1 ≤ m) && decide (l ≤ x.1)).foldl (fun h x =>
    h.writeRam (backing g x.2.2.1) x.2.2.2) h

/-! ### Inputs (R289, R365, R419) -/

/-- The reductions of a cycle as the history holds them (R306). -/
def reductionsOf (h : Hw) (g m : Nat) : Option (List Word) :=
  (h.fab.history.find? fun x => x.1 == g && x.2.1 == m).map (·.2.2)

/-- The rack of a rack page carries its current in an auxiliary channel: the node and the channel (R397, R419). -/
def rackShunt (h : Hw) (g : Nat) : Option (Nat × Nat) :=
  (h.cfg.fab.cells.findSome? fun x => match x.2 with
    | some c => if c.rack + 17664 = g then some c.current else none
    | none => none).bind fun id =>
      if inputKind id = 1 ∧ 16 ≤ id % 32 then some (id / 2 ^ 21 % 8 * 160 + id / 2 ^ 13 % 256, id % 32 - 16) else none

/-- The words that the Night record gives a page at the first step of a span (R419): the node record of a node page. -/
def placeNight (h : Hw) (p : Page) (g m : Nat) : Hw :=
  if h.fab.wake ≠ 0 ∧ m + 1 = h.fab.spanStart ∧ 16384 ≤ g ∧ g < 17664 then
    h.writeRamList (frameAddr p.engine p.frame 0x0A) ((List.range 8).map fun i => (h.ram (nodeRecord (g - 16384) + i)).word)
  else h

/-- One input pair of a page for cycle m: its words, and whether it is a substitute (R365, R371). -/
def inputPair (h : Hw) (g m o id : Nat) : Word × Word × Bool :=
  match h.known m id with
  | some (.value v st) => (v, placedStatus st, false)
  | _ => (Config.fmcPredictor (fmcPage (h.point g)) o, substStatus (h.point g (o + 1)), true)

/-- Places the inputs of cycle m in the page's frame; the number of substitutes (R289, R291, R365). -/
def placeInputs (h : Hw) (g m : Nat) : Hw × Nat :=
  let p := h.page g
  let a := frameAddr p.engine p.frame
  let pairs := (h.pageInputs g).map fun x => (x.1, h.inputPair g m x.1 x.2)
  let subs := (pairs.filter (·.2.2.2)).map (·.1)
  let h1 := pairs.foldl (fun h x => (h.writeRam (a x.1) x.2.1).writeRam (a (x.1 + 1)) x.2.2.1) h
  let h1 :=
    if g < 16384 then
      let st := ((h1.ram (a 1)).data).toNat
      let bal := bitN st 4
      let h1 := (h1.writeRam (a 6) (word (b2n bal))).writeRam (a 7) (word m)
      let h1 := h1.writeRam (a 0x10) (word (b2n (bal != bitN st 3)))
      let h1 := (h.cfg.fab.cmdInputs.filter (·.1 == g)).foldl (fun h x =>
        h.writeRam (a x.2.2) ((h.writeInForce g x.2.1 m).getD (h.ram (backing g x.2.1)).data)) h1
      h1.writeRam (a 0x18) (word ((subs.filter (· < 0x10)).foldl (fun n o => setBitN n (o / 2)) 0))
    else if g < 17664 then
      let r := (g - 16384) / 160
      let q := (g - 16384) % 160
      let h1 := match h.known m (frameInput r q) with
        | some (.value v _) => h1.writeRam (a 8) v
        | _ => h1
      (h1.writeRam (a 9) (word m)).placeNight p g m
    else match h.reductionsOf g m with
      | some ws => h1.writeRamList (a 0) ws
      | none => h1
  (h1, subs.length)

/-! ### When a step may run (R282, R296 to R298, R370) -/

/-- A cold pass is due at the certain step of cycle n (R298): some n' at or before n, after the previous cold pass, with
(n' - g) mod 100 = 0. -/
def coldDue (h : Hw) (g n : Nat) : Bool :=
  let p := h.page g
  decide ((if p.cold = 0 then h.fab.spanStart else p.cold + 1) ≤ n - (n + 17800 - g) % 100 + 1)

/-- The step's cycle: the first that carries inputs after the page's last step (R296, R303). -/
def stepCycle (h : Hw) (g : Nat) : Nat := h.nextCycle (max (h.page g).last h.firstOwed)

/-- The reductions that a page's step of cycle m needs are placed (R296). -/
def reduced (h : Hw) (g m : Nat) : Bool :=
  g < 17664 || (match h.pageCfg g with
    | some c => c.reductions.isEmpty
    | none => true) || (h.reductionsOf g m).isSome

/-- The undo entries of a page that its next step has first to see released (R373). -/
def releasable (h : Hw) (g : Nat) : Bool :=
  let p := h.page g
  p.certain ≠ 0 && !(undoUpTo p.frame (p.certain - 1) (h.engine p.engine).undo).1.isEmpty

/-- What the manager can do with a page's next step. -/
inductive Ready where
  | wait | stall
  | certain (m : Nat)
  | spec (m : Nat)
  deriving DecidableEq, Repr

/-- The rule of R370, with R282, R296, R298, R307 and R373. -/
def ready (h : Hw) (g : Nat) : Ready :=
  let p := h.page g
  let m := h.stepCycle g
  if !owned p || !h.engineFree p.engine || !h.flag Reg.FAB_CTRL Fld.FAB_CTRL_EN ||
      p.moveTo.isSome || p.rollback.isSome || p.restart || !h.cycled || decide (h.lc < m) || !h.carriesInputs m ||
      !h.reduced g m || h.releasable g then .wait
  else if (h.pageInputs g).any (fun x => decide (inputKind x.2 ≤ 2) && (h.known m x.2).isNone) then .wait
  else if p.spec.isEmpty ∧ (h.pageInputs g).all fun x => (h.known m x.2).isSome then .certain m
  else if p.state ≠ .resident ∨ h.lcCommit + h.depth < m ∨ h.coldDue g m then .wait
  else if 1024 < (h.engine p.engine).undo.length + Config.fmcBound g + 1 then .stall
  else .spec m

/-! ### The end of a step -/

/-- The points that reductions take from a page (R293); of a rack's, the limits that summaries add up as well (R725). -/
def sourcePoints (h : Hw) (g : Nat) : List Nat :=
  if g < 16384 then
    match h.cellCfg g with
    | some c => match h.pageCfg (17664 + c.rack) with
      | some r => (r.reductions.map (fun (x : Reduction) => x.source) ++ if h.cfg.fab.balance.contains c.rack then [0x40, 0x4C] else []).eraseDups
      | none => if h.cfg.fab.balance.contains c.rack then [0x40, 0x4C] else []
    | none => []
  else if 17664 ≤ g ∧ g < 17728 then
    ([0xC0, 0xC1, 0xC2, 0xC3] ++ h.cfg.fab.pages.flatMap fun (x : Nat × Option PageCfg) => match x.2 with
      | some c => if 17728 ≤ x.1 then c.reductions.map (·.source) else []
      | none => []).eraseDups
  else []

/-- The provisional view at the end of a step, outside the undo log (R375, R376). -/
def writeView (h : Hw) (g m : Nat) (spec : Bool) (subs : Nat) : Hw :=
  let p := h.page g
  let w1 := word (b2n spec * 2 ^ 38 + min subs 0xFF * 2 ^ 8 + min (m - h.lcCommit) 0xFF)
  let pts := if g < 16384 then h.cfg.fab.viewCell
    else if g < 17664 then (List.range 14).map (0x20 + ·) else h.cfg.fab.viewRack
  h.writeRamList (frameAddr p.engine p.frame 0xF0) (word m :: w1 :: (pts.take 14).map fun o => h.point g o)

/-- Waiting point reads of a page take the values of a certain step (R300). -/
def captureReads (h : Hw) (g m : Nat) : Hw :=
  { h with fab := { h.fab with reads := h.fab.reads.map fun x =>
      if x.page = g ∧ x.value.isNone then { x with value := some (m, h.point g x.ofs) } else x } }

/-- Speculative steps whose inputs are all known, and none as another value, are certain (R297, R372, R374). -/
def settlePage (h : Hw) (g : Nat) : Nat → Hw
  | 0 => h
  | k + 1 =>
    let p := h.page g
    match p.spec with
    | [] => h
    | m :: rest =>
      if p.rollback.isNone ∧ (h.pageInputs g).all fun x => (h.known m x.2).isSome then
        let h := h.setPage g { p with spec := rest, certain := m + 1, saved := p.saved.filter fun x => decide (m < x.1) }
        (if rest.isEmpty then h.captureReads g m else h).settlePage g k
      else h

/-- Settles every page. -/
def settleAll (h : Hw) : Hw := h.fab.pages.foldl (fun h x => h.settlePage x.1 x.2.spec.length) h

/-- The step of cycle m of page g has ended on engine e (R296, R298, R372, R375, R376). -/
def stepEnded (h : Hw) (g : Nat) (t : Task) (subs : Nat) : Hw :=
  let p := h.page g
  let m := t.lc
  let h := if m < p.ran then h.count Reg.FAB_CNT_REPLAY else h
  let src := (h.sourcePoints g).map fun o => (o, h.point g o)
  let q := { p with last := m + 1, ran := max p.ran (m + 1), sources := (m, src) :: p.sources.filter (·.1 ≠ m) }
  let q := if t.spec then { q with spec := p.spec ++ [m] } else { q with certain := m + 1 }
  let q := if t.cold then
      { q with cold := m + 1, shadowLc := m + 1,
               params := (List.range 0x120).foldl (fun tb i =>
                 Tabs.set (fun _ => (0 : Word)) tb (0x200 + i) (h.point g (0x200 + i))) [] }
    else q
  let h := (h.setPage g q).writeView g m t.spec subs
  let h := if t.spec then h else h.captureReads g m
  match q.moveTo with
  | some tgt => h.startMigration g tgt
  | none => h

/-- The signature a run of a step gives is reported to the audit (R310, R311). -/
def auditOwner (h : Hw) (e : Nat) (t : Task) (sig : Word) : Hw :=
  match h.fab.audit with
  | some a =>
    if t.sigcap ∧ a.page = t.page ∧ a.lc = t.lc ∧ a.owner = e then
      { h with fab := { h.fab with audit := some { a with ownerSig := some sig } } }
    else h
  | none => h

/-- A re-execution of an audited step has ended: the table of R311. -/
def auditEnded (h : Hw) (e : Nat) (sig : Word) : Hw :=
  match h.fab.audit with
  | none => h
  | some a =>
    match a.ownerSig, a.auditor, a.auditorSig with
    | some o, some x, none =>
      if x ≠ e then h
      else if o = sig then (h.count Reg.FAB_CNT_AUDIT).auditEnd 1
      else { h with fab := { h.fab with audit := some { a with auditorSig := some sig } } }
    | some o, some x, some b =>
      if a.third ≠ some e then h
      else
        let h := ((h.count Reg.FAB_CNT_AUDIT).count Reg.FAB_CNT_MISMATCH).setBit Reg.FAB_IRQ_STAT 3
        if sig = b then (h.auditEnd 2).quarantine a.owner 1 (some a)
        else if sig = o then (h.auditEnd 3).quarantine x 1
        else ((h.auditEnd 4).quarantine a.owner 1 (some a)).quarantine x 1
    | _, _, _ => h

/-- A ROLLBACK task has ended (R372, R376). -/
def rollbackEnded (h : Hw) (g m : Nat) : Hw :=
  ((h.viewRolledBack (h.page g)).forgetFrom g m).count Reg.FAB_CNT_ROLLBACK

/-- The inputs of a step that are substitutes, read back from its input words (R365). -/
def substCount (h : Hw) (g : Nat) : Nat := ((h.pageInputs g).filter fun x => bitsOf (h.point g (x.1 + 1)) 15 12 == 4).length

/-- What the manager does at the end of a task (R348): `sig` is SIG. -/
def taskEnded (h : Hw) (e : Nat) (t : Task) (sig : Word) : Hw :=
  match t.kind with
  | .step => (h.stepEnded t.page t (h.substCount t.page)).auditOwner e t sig
  | .rollback => h.rollbackEnded t.page t.lc
  | .release => h
  | .audit => h.auditEnded e sig
  | .inst => h
  | .selftest => h

/-! ### The standard FMC's step -/

/-- The Night average current and charge of a rack page at the first step of a span (R419): (0x0C6, 0x0C7). -/
def rackNight (h : Hw) (g m : Nat) (p : Pg) : Pg :=
  if h.fab.wake = 0 ∨ m + 1 ≠ h.fab.spanStart then p
  else match h.rackShunt g with
    | some (n, ch) =>
      if 2 ≤ ch then (p.put 0xC6 0).put 0xC7 0
      else
        let avg := (h.ram (nodeRecord n + 3 * ch + 2)).word.toInt
        (p.sat 0xC6 avg).sat 0xC7 (rhe (avg * (m - p.nat 0xC5 - 1 : Nat)) 10000)
    | none => (p.put 0xC6 0).put 0xC7 0

/-- The step of a page under the standard FMC, over its points as they stand: the points it writes, and the runs of R406. -/
def standardStep (h : Hw) (g m : Nat) (cold : Bool) (pt : Nat → Word) (prm : Nat → Word) (runs : Bool × Bool) :
    Pg × (Bool × Bool) :=
  let p : Pg := { base := fmcPage pt }
  if g < 16384 then p.cellStep prm m cold runs
  else if 17664 ≤ g ∧ g < 17728 then
    let p := p.puts 0x80 0xFFF ((Config.fmcOther g p.word).filter fun x => x.1 < 0xF0 || (cold && 0x100 ≤ x.1))
    let v := Config.rackValues p.word
    ((h.rackNight g m (p.rackOutputs v.1 v.2.1 v.2.2)).put 0xC5 (word m), runs)
  else (p.puts 0x20 (pageSize g - 1) ((Config.fmcOther g p.word).filter fun x =>
      (if g < 17664 then x.1 < 0xF0 else (0x80 ≤ x.1 && x.1 < 0xF0) || (cold && 0x100 ≤ x.1))), runs)

/-- The signature over written hot points in order of offset (R356). -/
def sigOf (l : List (Nat × Word)) : Word := l.foldl (fun s x => misrFold (misrFold s (word x.1)) x.2) 0

/-- The parameters as of the page's last cold pass. -/
def prmOf (t : Tab Word) (o : Nat) : Word := Tabs.get (fun _ => 0) t o

/-- One STP of a step under the standard FMC (R281, R351, R352). -/
def putPoint (h : Hw) (e : Nat) (t : Task) (o : Nat) (v : Word) : Hw :=
  let a := frameAddr e t.frame o
  let g := h.engine e
  let u : Undo := { boundary := false, frame := t.frame, ofs := o, tag := (h.ram a).tag, word := (h.ram a).data }
  let h := h.setEngine e { g with undo := if t.spec then g.undo ++ [u] else g.undo, sig := misrFold (misrFold g.sig (word o)) v }
  h.setRam a { data := v, tag := t.tag }

/-- A cold pass writes its image to the redo record, then the backing words and the hot shadow, and clears the record (R305,
R355); the STATE record precedes the clearing (R387). -/
def coldWrite (h : Hw) (e : Nat) (t : Task) (p : Pg) : Hw :=
  let g := t.page
  let size := pageSize g
  let c (w : Word) : Container := { data := w, tag := t.tag }
  let image := (List.range size).map fun o => if o < 256 then h.point g o else p.word o
  let h := image.zipIdx.foldl (fun h x => h.setRam (redoBase e + x.2) (c x.1)) h
  let h := h.setRam (redoBase e + 8191) (c (word (0x16 * 2 ^ 35 + g * 2 ^ 20 + t.lc % 2 ^ 20)))
  let q := h.page g
  let due := t.lc - (t.lc + 200 * 17744 * h.cfg.fab.statePeriod - 200 * g) % h.cfg.fab.statePeriod
  let h := if (if q.stateRec = 0 then h.fab.spanStart else q.stateRec + 1) ≤ due + 1 then
      (h.note 0x13 0 (word t.lc :: word g :: image)).setPage g { q with stateRec := t.lc + 1 }
    else h
  let h := image.zipIdx.foldl (fun h x => h.setRam (if x.2 < 256 then shadowBase g + x.2 else backing g x.2) (c x.1)) h
  h.setRam (redoBase e + 8191) (c 0)

/-- The STEP task that an engine holds runs to its end under the standard FMC; a poisoned point ends it as R357 says, and more
writes than the declared bound raise UNDO_OVERRUN (R149, R352). -/
def runStep (h : Hw) (e : Nat) (t : Task) : Hw :=
  let g := t.page
  let drop (h : Hw) (code : Nat) (loc : FaultAt) : Hw :=
    (h.setEngine e { h.engine e with task := none, report := some (code, 0) }).taskFault e t code loc
  let h := h.foundIn (frameAddr e t.frame 0) 0xF0
  let h := if t.cold then h.foundIn (backing g 256) (pageSize g - 256) else h
  if (List.range 0xF0).any fun o => (h.ram (frameAddr e t.frame o)).poisoned then drop h 0x04 .frame
  else if t.cold ∧ (List.range (pageSize g - 256)).any fun o => (h.ram (backing g (256 + o))).poisoned then drop h 0x04 .back
  else
    let q := h.page g
    let r := h.standardStep g t.lc t.cold (h.point g) (prmOf q.params) q.runs
    let hot := r.1.w.filter fun x => x.1 < 0xF0
    let h := if t.spec then
        h.setEngine e { h.engine e with
          undo := (h.engine e).undo ++ [{ boundary := true, frame := t.frame, word := word t.lc }] }
      else h
    let h := (if t.spec then hot.take t.wbound else hot).foldl (fun h x => h.putPoint e t x.1 x.2) h
    if t.spec ∧ t.wbound < hot.length then drop h 0x0D .other
    else
      let h := if t.cold then h.coldWrite e t r.1 else h
      let h := h.setPage g { h.page g with runs := r.2 }
      let sig := (h.engine e).sig
      let h := h.setEngine e { h.engine e with task := none, report := some (0, if t.sigcap then sig else 0) }
      h.taskEnded e t sig

/-- The manager starts the step of cycle m on the page's owner: point writes, inputs, the audit's snapshot, the task (R282,
R296, R301, R310, R348). -/
def startStep (h : Hw) (g m : Nat) (spec : Bool) : Hw :=
  let p := h.page g
  let e := p.engine
  let cold := !spec && h.coldDue g m
  let saved := (m, h.frameWords p (inputWords g))
  let h := (h.applyWrites g m).setPage g { p with saved := if spec then saved :: p.saved else p.saved }
  let h := (h.placeInputs g m).1
  let audited := !spec && h.fab.audit.any fun a => a.page == g && a.lc == m && a.ownerSig.isNone
  let h := if audited ∧ cold then h.auditDropPage g else h
  let capture := audited && !cold
  let h := if capture then
      { h with fab := { h.fab with audit := h.fab.audit.map fun a =>
          { a with snapshot := h.frameWords p 256, owner := e, params := p.params, runs := p.runs } } }
    else h
  h.loadTask e { kind := .step, spec := spec, cold := cold, sigcap := capture, level := pageLevel g, frame := p.frame, page := g,
                 lc := m, slot := h.slotFor m, wbound := if spec then Config.fmcBound g else 0 }

/-- A task of a page other than a step: ROLLBACK or RELEASE. -/
def pageJob (h : Hw) (k : TaskKind) (g lc : Nat) : Hw :=
  let p := h.page g
  h.loadTask p.engine { kind := k, level := pageLevel g, frame := p.frame, page := g, lc := lc, slot := h.slotFor lc }

/-- The audit copy in an auditor's ridge, and its task (R311, R349). -/
def startAudit (h : Hw) (e : Nat) (a : Audit) : Hw :=
  (h.writeRamList (frameAddr e auditFrame 0) a.snapshot).loadTask e
    { kind := .audit, sigcap := true, level := pageLevel a.page, frame := auditFrame, page := a.page, lc := a.lc,
      slot := h.slotFor a.lc }

/-- The audit step under the standard FMC: the signature over the copy (R311). -/
def auditSig (h : Hw) (a : Audit) : Word :=
  let pt (o : Nat) : Word := a.snapshot.getD o 0
  sigOf ((h.standardStep a.page a.lc false pt (prmOf a.params) a.runs).1.w.filter fun x => x.1 < 0xF0)

/-! ### Reductions (R293) -/

/-- The source pages of a rack's or device's reductions, with the index that an ARG result gives. -/
def reductionSources (h : Hw) (g : Nat) : List (Nat × Nat) :=
  if g < 17728 then
    h.cfg.fab.cells.filterMap fun x => match x.2 with
      | some c => if c.rack + 17664 = g then some (x.1, x.1) else none
      | none => none
  else ((List.range 64).filter fun k => h.pageDeclared (17664 + k)).map fun k => (17664 + k, k)

/-- One reduction over (index, value), by increasing index. -/
def reduce (op : RedOp) (l : List (Nat × Int)) : Word :=
  let ext (lt : Int → Int → Bool) : Option (Nat × Int) :=
    l.foldl (fun b x => match b with
      | none => some x
      | some y => if lt x.2 y.2 then some x else b) none
  match op with
  | .min => wrap ((ext fun a b => a < b).map (·.2) |>.getD 0)
  | .max => wrap ((ext fun a b => b < a).map (·.2) |>.getD 0)
  | .argmin => word ((ext fun a b => a < b).map (·.1) |>.getD 0)
  | .argmax => word ((ext fun a b => b < a).map (·.1) |>.getD 0)
  | .sum => wrap (satVal (l.foldl (fun n x => n + x.2) 0))

/-- A source's value of a point at the end of its step of cycle n. -/
def sourceAt (h : Hw) (g n o : Nat) : Int :=
  match (h.page g).sources.find? (·.1 == n) with
  | some (_, l) => ((l.find? (·.1 == o)).map (·.2.toInt)).getD 0
  | none => 0

/-- The reductions of cycle n of a rack or device page (R293). -/
def reductionWords (h : Hw) (g n : Nat) : List Word :=
  match h.pageCfg g with
  | none => []
  | some c => c.reductions.map fun r => reduce r.op ((h.reductionSources g).map fun s => (s.2, h.sourceAt s.1 n r.source))

end Hw

end Sys2Proof.Machine
end

