-- ==== Sys2Proof/Machine/Log.lean ====
section
/-! DEFINITION. The fault log, the retention log, checkpoints and restarts of pages (R86, R132 to R140, R158 to R162, R308). -/

namespace Sys2Proof.Config

/-- The FMC's state-format version, and whether it accepts one (R133, R134): named by the spec, held in the FMC image. -/
opaque fmcFormat : (build : Word) → Nat
opaque fmcAccepts : (build : Word) → (version : Nat) → Bool

end Sys2Proof.Config

namespace Sys2Proof.Machine

/-! ### Entries (R137) -/

namespace Hw

/-- Words 1 to 6 of an entry. -/
def entryBody (h : Hw) (code : Nat) (data : Word) : List Word :=
  let t := h.netTime.getD (0, 0)
  [word (code * 2 ^ 32 + b2n h.netTime.isSome * 2 ^ 31 + min h.log.boot 0xFFFFFF), word h.poweredMs,
    word (if h.cycled then h.lc else 0), t.1, t.2, data]

/-- An entry of the retention log, while VAO is good: up to 96, with SEQ 0 and no word 7 (R140). -/
def retEntry (h : Hw) (code : Nat) (data : Word) : Hw :=
  if !h.aoOn || 96 ≤ h.retLog then h
  else { h.writeRamList (retention + 0x100 + 8 * h.retLog) (0 :: h.entryBody code data) with retLog := h.retLog + 1 }

/-- The retention log is cleared (R140). -/
def clearRetLog (h : Hw) : Hw := { h.zeroRam (retention + 0x100) 768 with retLog := 0 }

end Hw

/-- The NOR regions (R158). -/
def norGold : Nat := 0
def norActive : Nat := 0x1800000
def norStaging : Nat := 0x3000000
def norConfigA : Nat := 0x4800000
def norConfigB : Nat := 0x4C10000
def norCkpt : Nat := 0x5020000
def norLog : Nat := 0x6120000

/-- Entries of the LOG region, and of one erase block (R158, R162). -/
def logEntries : Nat := 131072
def logBlock : Nat := 8192

/-- The words of a CRC as R137 and R133 take it: five bytes a word. -/
def wordsCrc (l : List Word) : Nat := (crc32c (wordsBytes l)).toNat

/-- Entry i of the LOG region, when it is well formed (R137, R138). -/
def Nor.entry (n : Nor) (i : Nat) : Option (List Word) :=
  let ws := (List.range 8).map fun j => n.word (norLog + 8 * i + j)
  if (ws.getD 7 0).toNat = 0x5A * 2 ^ 32 + wordsCrc (ws.take 7) then some ws else none

/-- The well-formed entries, by index. -/
def Nor.entries (n : Nor) : List (Nat × List Word) :=
  let keys := ((n.words.filter fun x => norLog ≤ x.1 && x.1 < norLog + 8 * logEntries).map fun x => (x.1 - norLog) / 8).eraseDups
  keys.filterMap fun i => (n.entry i).map fun e => (i, e)

/-- The newest well-formed entry (R138). -/
def Nor.newest (n : Nor) : Option (Nat × List Word) :=
  n.entries.foldl (fun b x => match b with
    | some y => if (y.2.getD 0 0).toNat < (x.2.getD 0 0).toNat then some x else b
    | none => some x) none

namespace State

/-- Words 1 to 6 of an entry go to the fault log, while VNOR is good: word 7 last; the block after the one being filled is kept
erased (R137, R138, R162). -/
def logWords (s : State) (body : List Word) : State :=
  if !s.hw.norOn then s
  else
    let i := s.hw.log.next
    let ws := word s.hw.log.seq :: body
    let nor := s.nor.programList (norLog + 8 * i) (ws ++ [word (0x5A * 2 ^ 32 + wordsCrc ws)])
    let j := (i + 1) % logEntries
    let nor := if j % logBlock = 0 then
        let b := (j / logBlock + 1) % 16
        nor.erase (norLog + 8 * logBlock * b) (norLog + 8 * logBlock * (b + 1) - 1)
      else nor
    { s with nor := nor, hw := { s.hw with log := { s.hw.log with next := j, seq := s.hw.log.seq + 1 } } }

/-- An entry of the fault log for an event of now. -/
def logEntry (s : State) (code : Nat) (data : Word) : State := s.logWords (s.hw.entryBody code data)

/-- A retention entry is copied into the fault log as RETENTION: its own powered time, LC, TIME80 and BOOT_COUNT, and its code in DATA
[39:32] (R139, R140). DATA [39:32] of the entry gives way to its code: the low 32 bits are kept (log entry 28). A poisoned word reads
0 (R149). -/
def copyRetEntry (s : State) (i : Nat) : State :=
  let a := retention + 0x100 + 8 * i
  let s := s.onHw fun h => h.foundIn a 8
  let w := fun j => (s.hw.ram (a + j)).word
  s.logWords [withBits (w 1) 39 32 0x0D, w 2, w 3, w 4, w 5, word (bitsOf (w 1) 39 32 * 2 ^ 32 + bitsOf (w 6) 31 0)]

/-- Every retention entry is copied, and the retention log cleared (R140). -/
def copyRetLog (s : State) : State :=
  ((List.range s.hw.retLog).foldl (fun s i => s.copyRetEntry i) s).onHw (·.clearRetLog)

/-! ### Checkpoints (R132 to R134, R161) -/

/-- A word of a checkpoint slot. -/
def ckptWord (s : State) (k w : Nat) : Word := s.nor.word (norCkpt + 0x110000 * k + w)

/-- A slot has been written: its COMMIT word or its SLOT_SEQ is not erased (R132). -/
def ckptWritten (s : State) (k : Nat) : Bool := s.ckptWord k 1 ≠ BitVec.allOnes 40

/-- SLOT_SEQ of a slot; 0 for one never written (R132). -/
def ckptSeq (s : State) (k : Nat) : Nat := if s.ckptWritten k then (s.ckptWord k 1).toNat else 0

/-- The COMMIT word that the words before it ask for (R133). -/
def commitWord (l : List Word) : Word := word (0xA5 * 2 ^ 32 + wordsCrc l)

/-- The slot is usable (R134). -/
def ckptUsable (s : State) (k : Nat) : Bool :=
  let n := (s.ckptWord k 5).toNat
  s.ckptWritten k && s.ckptWord k 0 == 1 && decide (n ≤ 16384) &&
    s.ckptWord k (8 + 64 * n) == commitWord ((List.range (8 + 64 * n)).map fun w => s.ckptWord k w) &&
    s.ckptWord k 3 == s.hw.cfg.fab.cellmap && Config.fmcAccepts s.hw.builds.fmc (bitsOf (s.ckptWord k 4) 15 0)

/-- The usable slot with the highest SLOT_SEQ (R135). -/
def ckptBest (s : State) : Option Nat :=
  ((List.range 16).filter fun k => s.ckptUsable k).foldl (fun b k => match b with
    | some j => if s.ckptSeq j < s.ckptSeq k then some k else b
    | none => some k) none

/-- DATA of a CHECKPOINT_RESTART entry (R139). -/
def restartData (s : State) : Word :=
  match s.ckptBest with
  | some k => word (k * 2 ^ 35 + bitsOf (s.ckptWord k 2) 34 0)
  | none => word (0x1F * 2 ^ 35)

/-- The declared cells, in index order (R133). -/
def cellsInOrder (s : State) : List Nat := (s.hw.cfg.fab.cells.filter fun x => x.2.isSome).map (·.1)

/-- The checkpointed points of a cell in a slot (R133): the body lists the cells in index order. -/
def ckptPoints (s : State) (k c : Nat) : List Word :=
  let i := (s.cellsInOrder.takeWhile (· ≠ c)).length
  (List.range 64).map fun j => s.ckptWord k (8 + 64 * i + j)

/-- The slot that the next checkpoint uses: the lowest SLOT_SEQ, then the lowest number (R132, R161). -/
def ckptNext (s : State) : Nat := (Hw.argMin (fun k => s.ckptSeq k) (List.range 16)).getD 0

/-- The body of a checkpoint of the last committed cycle is written to the next slot (R132, R133). -/
def writeCheckpoint (s : State) : State :=
  if !s.hw.norOn || s.hw.ckpt.isSome then s
  else
    let k := s.ckptNext
    let seq := (List.range 16).foldl (fun m j => max m (s.ckptSeq j)) 0 + 1
    let cells := s.cellsInOrder
    let head := [1, word seq, word s.hw.lcCommit, s.hw.cfg.fab.cellmap, word (Config.fmcFormat s.hw.builds.fmc % 2 ^ 16),
      word cells.length, 0, 0]
    let body := cells.flatMap fun c => (List.range 64).map fun j => s.hw.point c (0x20 + j)
    { s with nor := s.nor.programList (norCkpt + 0x110000 * k) (head ++ body),
             hw := { s.hw with ckpt := some k, fab := { s.hw.fab with sinceCkpt := 0 } } }

/-- Written slots are erased, the lowest SLOT_SEQ first, until at most 14 are left (R161). -/
def eraseSlots (s : State) : Nat → State
  | 0 => s
  | fuel + 1 =>
    let written := (List.range 16).filter fun k => s.ckptWritten k
    if written.length ≤ 14 then s
    else match Hw.argMin (fun k => s.ckptSeq k) written with
      | some j =>
        ({ s with nor := s.nor.erase (norCkpt + 0x110000 * j) (norCkpt + 0x110000 * (j + 1) - 1) } : State).eraseSlots fuel
      | none => s

/-- The COMMIT word is written, and written slots are erased until two slots are erased again (R133, R161). -/
def commitCheckpoint (s : State) : State :=
  match s.hw.ckpt with
  | none => s
  | some k =>
    if !s.hw.norOn then s
    else
      let n := (s.ckptWord k 5).toNat
      let ws := (List.range (8 + 64 * n)).map fun w => s.ckptWord k w
      let s := { s with nor := s.nor.program (norCkpt + 0x110000 * k + 8 + 64 * n) (commitWord ws), hw := { s.hw with ckpt := none } }
      s.eraseSlots 16

/-! ### Restarts of pages (R135, R308) -/

/-- The defaults of the parameter fields that a CELL section leaves out (R397). -/
def paramDefault (ith : Word) (cap : Word) (o : Nat) : Word :=
  if o = 0x203 ∨ o = 0x205 then word 200000000
  else if o = 0x204 then word 50000000
  else if o = 0x206 then word (2 ^ 30)
  else if o = 0x207 then word 128849019
  else if o = 0x208 then wrap (rhe (cap.toInt * 2) 1000)
  else if o = 0x209 then word 16
  else if o = 0x20B then ith
  else if o = 0x213 then word 5000000
  else if o = 0x214 then word 858993459
  else if o = 0x215 then word (20 * 2 ^ 35 + 6)
  else 0

/-- The initial value of a point of a page: what the CELL and FABRIC sections give, or the default of R397 (R135). -/
def initPoint (s : State) (g o : Nat) : Word :=
  if g < 16384 then match s.hw.cellCfg g with
    | some c =>
      if c.init.any fun x => x.1 == o then Tabs.get (fun _ => 0) c.init o
      else paramDefault (s.hw.reg Reg.PWR_NIGHT_ITH) (Tabs.get (fun _ => 0) c.init 0x200) o
    | none => 0
  else match s.hw.pageCfg g with
    | some c => Tabs.get (fun _ => 0) c.init o
    | none => 0

/-- The points of a page as a restart sets them: the 64 checkpointed ones of a cell, and initial values (R135, R308). -/
def restartPoint (s : State) (g : Nat) : Nat → Word :=
  match s.ckptBest with
  | some k =>
    let ws := s.ckptPoints k g
    fun o => if g < 16384 ∧ 0x20 ≤ o ∧ o ≤ 0x5F then ws.getD (o - 0x20) 0 else s.initPoint g o
  | none => s.initPoint g

/-- Every point of a page is loaded: its frame, its backing words and its hot shadow stand together (R305; log entry 26). -/
def loadPage (s : State) (g : Nat) : State :=
  let pt := s.restartPoint g
  s.onHw fun h =>
    let p := h.page g
    (List.range (pageSize g)).foldl (fun h o =>
      if o < 256 then (h.writeRam (frameAddr p.engine p.frame o) (pt o)).writeRam (shadowBase g + o) (pt o)
      else h.writeRam (backing g o) (pt o)) h

/-- The parameters that a page's steps use until its next cold pass. -/
def initParams (s : State) (g : Nat) : Tab Word :=
  let pt := s.restartPoint g
  (List.range 0x120).foldl (fun t i => Tabs.set (fun _ => (0 : Word)) t (0x200 + i) (pt (0x200 + i))) []

/-- A page restart (R308): the points are loaded, the restart is journaled, and the page goes on with its next step. -/
def pageRestart (s : State) (g : Nat) : State :=
  let s := s.loadPage g
  let prm := s.initParams g
  s.onHw fun h =>
    let p := h.page g
    let at_ := max p.certain p.rebuildTo
    let h := h.note 0x0D 0x05 [word h.lc, word g, s.restartData]
    (h.freeFrameUndo p.engine p.frame).setPage g
      { p with restart := false, last := at_, certain := at_, spec := [], saved := [], rollback := none, shadowLc := at_,
               params := prm, runs := (false, false) }

end State

end Sys2Proof.Machine
end

