-- ==== Sys2Proof/Machine/Wake.lean ====
section
/-! DEFINITION. Wake: how a source starts Dawn, its back-off, and its validation (R89, R93, R661, R662, R664, R666). -/

namespace Sys2Proof.Config

/-- CODE and DATA of a wake's entry in the retention log (R662): the code table of R139 has no row for it. -/
opaque wakeEntry : (sources : Nat) → Nat × Sys2Proof.Word

end Sys2Proof.Config

namespace Sys2Proof.Machine

/-- The states of PWR_STATE.STATE (R105). -/
def psBoot : Nat := 0
def psNight : Nat := 1
def psDawn : Nat := 2
def psDay : Nat := 3
def psDusk : Nat := 4

namespace Hw

/-- A change of the power controller beyond its registers. -/
def onPwr (h : Hw) (f : Power → Power) : Hw := { h with pwr := f h.pwr }

/-- The device runs: VAO is good and a boot has begun. -/
def booted (h : Hw) : Bool := h.aoOn && h.pwr.cause ≠ 0

/-- The state is one of R74, after a boot. -/
def inState (h : Hw) (s : Nat) : Bool := h.booted && h.pstate == s

/-- TARGET of the Dusk in progress: 1 Night, 2 Off. -/
def duskTarget (h : Hw) : Nat := h.fld Reg.PWR_STATE Fld.PWR_STATE_TARGET

/-- The end of a source's back-off in powered ms, plus 1; 0 for none. -/
def backoffEnd (h : Hw) (s : Nat) : Nat := Tabs.get (fun _ => 0) h.pwr.backoff s

/-- A source is in back-off (R666). -/
def inBackoff (h : Hw) (s : Nat) : Bool := decide (h.poweredMs + 1 < h.backoffEnd s)

/-- The back-off of a source ends or begins. -/
def setBackoff (h : Hw) (s e : Nat) : Hw := h.onPwr fun p => { p with backoff := Tabs.set (fun _ => (0 : Nat)) p.backoff s e }

/-- The sources of a mask that can wake: enabled, and not in back-off (R89, R661, R666). -/
def wakeable (h : Hw) (mask : Nat) : List Nat :=
  (List.range 12).filter fun s => bitN mask s && (h.bit Reg.WAKE_EN s || s == 9 || s == 10) && !h.inBackoff s

/-- The class of a source: 1 plant, 2 service (R661). -/
def wakeClass (h : Hw) (s : Nat) : Nat :=
  if 1 ≤ s ∧ s ≤ 4 then 2 else if 5 ≤ s ∧ s ≤ 8 then h.fld (Reg.CAN_SW_MASK (s - 5)) Fld.CAN_SW_MASK_CLASS else 1

/-- The source taken first: plant before service, then the lower bit (R661). -/
def firstWake (h : Hw) (l : List Nat) : Option Nat := match l.find? fun s => h.wakeClass s == 1 with
  | some s => some s
  | none => l.head?

/-- Sources are added to WAKE_SRC (R89, R93). -/
def addWakes (h : Hw) (l : List Nat) : Hw := l.foldl (fun (h : Hw) s => h.setBit Reg.WAKE_SRC s) h

/-- Dawn begins at W with the sources that were active (R89, R661, R662). -/
def startDawn (h : Hw) (l : List Nat) : Hw :=
  match h.firstWake l with
  | none => h
  | some s =>
    let cls := h.wakeClass s
    let h := (h.setReg Reg.WAKE_SRC 0).addWakes l
    let h := h.setFld Reg.WAKE_SRC Fld.WAKE_SRC_CLASS cls
    let h := (h.setFld Reg.PWR_STATE Fld.PWR_STATE_STATE psDawn).setFld Reg.PWR_STATE Fld.PWR_STATE_CAUSE 3
    let h := h.setFld Reg.PWR_STATE Fld.PWR_STATE_TARGET 0
    let m := orBits l
    (h.retEntry (Config.wakeEntry m).1 (Config.wakeEntry m).2).onPwr fun p => { p with wakeClass := cls, wakes := 0, restarted := 0, top := 1 }
where
  /-- The mask of some bits. -/
  orBits (l : List Nat) : Nat := l.foldl setBitN 0

/-- The wake pins and decoders of a mask that WAKE_EN leaves out are counted as undeclared, in the states in which a source wakes
(R131). -/
def countUnwakeable (h : Hw) (mask : Nat) : Hw :=
  if h.inState psNight || h.inState psDawn || (h.inState psDusk && h.duskTarget == 1) then
    ((List.range 9).filter fun s => bitN mask s && !h.bit Reg.WAKE_EN s).foldl (fun (h : Hw) _ => h.undeclare 10) h
  else h

/-- Sources become active in one SLOWCLK period (R89, R93, R661): in Night they start Dawn; in a Dusk with target Night they wait
for its end; in Dawn they are added. -/
def wake (h : Hw) (mask : Nat) : Hw :=
  let l := h.wakeable mask
  let h := h.countUnwakeable mask
  if l.isEmpty then h
  else if h.inState psNight then h.startDawn l
  else if h.inState psDusk && h.duskTarget == 1 then h.onPwr fun p => { p with wakes := l.foldl setBitN p.wakes }
  else if h.inState psDawn then h.addWakes l
  else h

/-- A source in the window of R664 proves its wake: bit s of `high` says that it read asserted throughout. -/
def wakeProved (h : Hw) (high s : Nat) : Bool :=
  decide (9 ≤ s) || h.pwr.kopSeen || (decide (s ≤ 4) && bitN high s) || (decide (5 ≤ s) && bitN h.pwr.canSeen (s - 5))

/-- A source is judged (R664, R666). -/
def judgeWake (h : Hw) (high s : Nat) : Hw :=
  if h.wakeProved high s then
    let h := if s ≤ 8 then (h.setBit Reg.GIO_WAKE_VAL s).setFld (Reg.GIO_WAKE_FW s) Fld.GIO_WAKE_FW_COUNT 0 else h
    h
  else
    let n := h.fld (Reg.GIO_WAKE_FW s) Fld.GIO_WAKE_FW_COUNT + 1
    let h := (h.setBit Reg.GIO_WAKE_VAL (12 + s)).count Reg.GIO_CNT_FALSE
    if h.fld Reg.GIO_WAKE_CFG Fld.GIO_WAKE_CFG_FW_LIMIT ≤ n then
      let h := (h.setFld (Reg.GIO_WAKE_FW s) Fld.GIO_WAKE_FW_COUNT 0).count Reg.GIO_CNT_BACKOFF
      (h.setBit Reg.GIO_IRQ_STAT 3).setBackoff s (h.poweredMs + 1000 * h.fld Reg.GIO_WAKE_CFG Fld.GIO_WAKE_CFG_BACKOFF + 1)
    else h.setFld (Reg.GIO_WAKE_FW s) Fld.GIO_WAKE_FW_COUNT n

/-- The window of R664 opens at the first Day cycle after Dawn. -/
def openWindow (h : Hw) : Hw :=
  (h.setReg Reg.GIO_WAKE_VAL (word (2 ^ 39))).onPwr fun p => { p with judgeAt := h.lc + 500, kopSeen := false, canSeen := 0 }

/-- The window closes unjudged: a Dusk begins or VIN is lost in it. -/
def dropWindow (h : Hw) : Hw := h.clearBit Reg.GIO_WAKE_VAL 39

/-- The window closes and every source of WAKE_SRC is judged (R664). -/
def closeWindow (h : Hw) (high : Nat) : Hw :=
  let src := (List.range 12).filter fun s => h.bit Reg.WAKE_SRC s
  let h := h.setReg Reg.GIO_WAKE_VAL 0
  (src.foldl (fun (h : Hw) s => h.judgeWake high s) h).setBit Reg.GIO_IRQ_STAT 2

/-- GIO_WAKE_FW as it reads (R683). -/
def wakeFwWord (h : Hw) (s : Nat) : Word :=
  let w := withBits (h.reg (Reg.GIO_WAKE_FW s)) 31 0 0
  if h.inBackoff s then word (w.toNat + 2 ^ 31 + (h.backoffEnd s - 1 - h.poweredMs + 999) / 1000) else w

/-- A write of CLEAR ends the back-off of a source and sets its count to 0 (R666). -/
def wakeClear (h : Hw) (s : Nat) : Hw := (h.setFld (Reg.GIO_WAKE_FW s) Fld.GIO_WAKE_FW_COUNT 0).setBackoff s 0

end Hw

end Sys2Proof.Machine
end

