-- ==== Sys2Proof/Machine/Can.lean ====
section
/-! DEFINITION. The CAN controllers, the Col gateway and the proxy objects (R651 to R677, R681, R682). -/

namespace Sys2Proof.Machine

/-! ### Frames (R667) -/

namespace CanFrame

def ide (f : CanFrame) : Bool := bitN f.hdr.toNat 39
def fdf (f : CanFrame) : Bool := bitN f.hdr.toNat 38
def brs (f : CanFrame) : Bool := bitN f.hdr.toNat 37
def rtr (f : CanFrame) : Bool := bitN f.hdr.toNat 36
def esi (f : CanFrame) : Bool := bitN f.hdr.toNat 35
def dlc (f : CanFrame) : Nat := bitsOf f.hdr 34 31
def id (f : CanFrame) : Nat := bitsOf f.hdr 28 0

end CanFrame

/-- The bytes of a DLC: the classical ones to 8, the FD ones to 64. -/
def dlcLen (fd : Bool) (d : Nat) : Nat :=
  if d ≤ 8 then d else if !fd then 8 else ([12, 16, 20, 24, 32, 48, 64] : List Nat).getD (d - 9) 64

/-- The DLC that holds n bytes. -/
def lenDlc (n : Nat) : Nat :=
  if n ≤ 8 then n else 9 + (([12, 16, 20, 24, 32, 48, 64] : List Nat).takeWhile (· < n)).length

/-- The length of a frame's data field. -/
def CanFrame.len (f : CanFrame) : Nat := if f.rtr then 0 else dlcLen f.fdf f.dlc

/-- A frame as it was received: reserved bits 0, the data of its length. -/
def canFrame (hdr : Word) (data : List Byte) : CanFrame :=
  let f : CanFrame := { hdr := withBits hdr 30 29 0, data := [] }
  { f with data := (data ++ List.replicate 64 0).take f.len }

namespace Hw

/-- The CAN block's own records. -/
def onCan (h : Hw) (f : Can → Can) : Hw := { h with can := f h.can }

/-- Controller n. -/
def ctl (h : Hw) (n : Nat) : CanCtl := Tabs.get (fun _ => ({} : CanCtl)) h.can.ctls n
def setCtl (h : Hw) (n : Nat) (c : CanCtl) : Hw := h.onCan fun x => { x with ctls := Tabs.set (fun _ => ({} : CanCtl)) x.ctls n c }

/-- The queue of output port p of the gateway. -/
def outq (h : Hw) (p : Nat) : List ColOut := Tabs.get (fun _ => ([] : List ColOut)) h.can.outq p
def setOutq (h : Hw) (p : Nat) (l : List ColOut) : Hw :=
  h.onCan fun x => { x with outq := Tabs.set (fun _ => ([] : List ColOut)) x.outq p l }

/-- The CAN controllers have CANCLK, which PLL_C makes from the TCXO (R72, R651). -/
def canClock (h : Hw) : Bool := h.bit Reg.CLK_STAT 7 && h.bit Reg.CLK_STAT 4

/-- A unit's block runs: its domain is on, it is neither clock-gated nor powered off, and a CAN controller has its clock (R100, R103,
R651). -/
def unitRuns (h : Hw) (u : Nat) : Bool :=
  h.sysOn && !h.bit Reg.PWR_CLK_GATED u && !h.bit Reg.PWR_PWR_GATED u && (u < 33 || 36 < u || h.canClock)

/-- The mode of a controller: 0 OFF, 1 BUS, 2 SLEEP (R652). -/
def canMode (h : Hw) (n : Nat) : Nat := h.fld (Reg.CAN_CTRL n) Fld.CAN_CTRL_MODE

/-- The controller is on the bus and takes part in it. -/
def canLive (h : Hw) (n : Nat) : Bool := h.unitRuns (33 + n) && h.canMode n == 1 && !(h.ctl n).busOff

/-- The gateway runs. -/
def colOn (h : Hw) : Bool := h.unitRuns 37 && h.bit Reg.COL_CTRL 0

/-- COL_CNT_DROP or COL_CNT_FMT increases (R682). -/
def colDrop (h : Hw) (cnt n : Nat) : Hw := if n = 0 then h else (h.countBy cnt n).setBit Reg.COL_IRQ_STAT 0

/-! ### The gateway's outputs (R669 to R671) -/

/-- Words 0 to 2 of routing entry e. -/
def route (h : Hw) (e w : Nat) : Word := h.reg (Reg.COL_ROUTE e w)

/-- The outputs that the enabled entries of an input port name, EXT apart (R671). -/
def eventPorts (h : Hw) (p : Nat) : List Nat :=
  (((List.range 1024).filter fun e => bitN (h.route e 0).toNat 39 && bitsOf (h.route e 0) 37 34 == p).map
    fun e => bitsOf (h.route e 0) 33 30).eraseDups.filter (· < 8)

/-- An output port can take frames: a CAN controller, or an enabled outbound stream. -/
def portTakes (h : Hw) (p : Nat) : Bool :=
  p < 4 || (bitN (h.reg (Reg.COL_STREAM (p - 4) 0)).toNat 39 && !bitN (h.reg (Reg.COL_STREAM (p - 4) 0)).toNat 38)

/-- An output enters its port's queue of 64, or is dropped and counted (R670). -/
def enqueue (h : Hw) (p : Nat) (o : ColOut) : Hw × Bool :=
  if h.portTakes p && decide ((h.outq p).length < 64) then (h.setOutq p (h.outq p ++ [o]), true)
  else (h.colDrop Reg.COL_CNT_DROP 1, false)

/-- TEC and REC as CAN_STAT shows them. -/
def tec (h : Hw) (n : Nat) : Nat := h.fld (Reg.CAN_STAT n) Fld.CAN_STAT_TEC
def rec_ (h : Hw) (n : Nat) : Nat := h.fld (Reg.CAN_STAT n) Fld.CAN_STAT_REC

/-- The message of a side-band event (R671). -/
def eventOut (h : Hw) (n code : Nat) : ColOut :=
  let w := h.reg (Reg.COL_EVT n)
  { frame := { hdr := word (b2n (bitN w.toNat 38) * 2 ^ 39 + 4 * 2 ^ 31 + bitsOf w 28 0),
               data := [byte code, byte n, byte (h.tec n), byte (h.rec_ n)] },
    input := n, event := some (code, n, h.tec n, h.rec_ n) }

/-- A side-band event of controller n goes to every output of its entries; one that a full queue drops is followed by QUEUE_DROP
(R671, R677). -/
def sideBand (h : Hw) (n code : Nat) : Hw :=
  if !h.colOn || !bitN (h.reg (Reg.COL_EVT n)).toNat 39 then h
  else
    let put := fun (h : Hw) (c : Nat) => (h.eventPorts n).foldl (fun (x : Hw × Bool) p =>
      let r := x.1.enqueue p (h.eventOut n c)
      (r.1, x.2 && r.2)) (h, true)
    let r := put h code
    if r.2 || code == 6 then r.1 else (put r.1 6).1

/-- A frame leaves the gateway's queue of a controller for its transmit FIFO while there is room (R655, R670). -/
def canRefill (h : Hw) (n : Nat) : Nat → Hw
  | 0 => h
  | fuel + 1 =>
    let c := h.ctl n
    match h.outq n with
    | [] => h
    | o :: l =>
      if h.unitRuns (33 + n) && h.canMode n == 1 && decide (c.tx.length < h.fld (Reg.CAN_CTRL n) Fld.CAN_CTRL_TX_LIMIT) then
        let t : CanTx := { frame := { o.frame with hdr := withBits o.frame.hdr 35 35 0 }, tag := 0 }
        ((h.setCtl n { c with tx := c.tx ++ [t] }).setOutq n l).canRefill n fuel
      else h

/-- Every controller's FIFO is filled up from its queue. -/
def refillAll (h : Hw) : Hw := (List.range 4).foldl (fun h n => h.canRefill n 64) h

/-- An output with the format that an entry names; `none` where the frame does not fit it. An FD frame's DLC is that of the bytes it
carries: a classical DLC above 8 carries 8 (R667, R669). -/
def reformat (f : CanFrame) (fmt : Nat) : Option CanFrame :=
  if fmt = 0 then some f
  else if fmt = 1 then (if 8 < f.data.length then none else some { f with hdr := withBits f.hdr 38 37 0 })
  else if f.rtr then none
  else some { f with hdr := withBits (withBits f.hdr 38 37 (if fmt = 2 then 0b10 else 0b11)) 34 31 (lenDlc f.data.length) }

/-- An output to EXT (R673). -/
def toExt (h : Hw) (c : Nat) (f : CanFrame) : Hw :=
  if f.data.length < 7 then h.colDrop Reg.COL_CNT_FMT 1
  else if !h.journalOn then h
  else (h.extArrive c (h.expandLc (beNat (f.data.take 2))) (word (beNat ((f.data.drop 2).take 5))) 0).1

/-- One matching entry makes one output (R669). -/
def routeOut (h : Hw) (p e : Nat) (f : CanFrame) (time : Option Int) : Hw :=
  let w0 := h.route e 0
  let w2 := h.route e 2
  let g := if bitN w2.toNat 39 then { f with hdr := withBits f.hdr 28 0 (bitsOf w2 28 0) } else f
  match reformat g (bitsOf w2 38 37) with
  | none => h.colDrop Reg.COL_CNT_FMT 1
  | some g =>
    let o := bitsOf w0 33 30
    if o = 8 then h.toExt (bitsOf w2 7 0) g
    else if 8 < o then h
    else
      let r := h.enqueue o { frame := g, input := p, time := time }
      if r.2 || 4 ≤ p then r.1 else r.1.sideBand p 6

/-- The routing entries that a frame from a port matches (R669). -/
def routesOf (h : Hw) (p : Nat) (f : CanFrame) : List Nat :=
  (List.range 1024).filter fun e =>
    let w := h.route e 0
    bitN w.toNat 39 && bitsOf w 37 34 == p && bitN w.toNat 38 == f.ide &&
      (Nat.xor f.id (bitsOf w 28 0) &&& bitsOf (h.route e 1) 28 0) == 0

/-- A frame enters the gateway on a port (R668, R669). -/
def gateway (h : Hw) (p : Nat) (f : CanFrame) (time : Option Int) : Hw :=
  if !h.colOn then h
  else
    let hits := h.routesOf p f
    if hits.isEmpty then h.count Reg.COL_CNT_NOROUTE
    else (hits.foldl (fun (g : Hw) e => g.routeOut p e f time) h).refillAll

/-! ### Error states (R653) -/

/-- STATE of a controller in BUS: 1 error-active, 2 error-passive, 3 bus-off. -/
def canState (h : Hw) (n : Nat) : Nat := h.fld (Reg.CAN_STAT n) Fld.CAN_STAT_STATE

/-- A new STATE: a change among error-active, error-passive and bus-off sets ERR and is an event. -/
def setCanState (h : Hw) (n st : Nat) : Hw :=
  let old := h.canState n
  let h := h.setFld (Reg.CAN_STAT n) Fld.CAN_STAT_STATE st
  let was := old == 3 || old == 5
  let isOff := st == 3 || st == 5
  if old = st || old = 0 || old = 4 || st = 0 || st = 4 || (was && isOff) then h
  else
    let h := h.setBit (Reg.CAN_IRQ_STAT n) 2
    let h := if isOff then h.count (Reg.CAN_CNT_BUSOFF n) else h
    h.sideBand n (if isOff then 3 else if was then 4 else if st = 2 then 1 else 2)

/-- TEC and REC take new values, and the controller its state by them; TEC above 255 is bus-off. -/
def setErrors (h : Hw) (n tec rec_ : Nat) : Hw :=
  if 255 < tec then
    let h := (h.setFld (Reg.CAN_STAT n) Fld.CAN_STAT_TEC 0xFF).setFld (Reg.CAN_STAT n) Fld.CAN_STAT_REC (min rec_ 255)
    let h := h.setCtl n { h.ctl n with busOff := true }
    h.setCanState n (if h.bit (Reg.CAN_CTRL n) 37 then 5 else 3)
  else
    let h := (h.setFld (Reg.CAN_STAT n) Fld.CAN_STAT_TEC tec).setFld (Reg.CAN_STAT n) Fld.CAN_STAT_REC (min rec_ 255)
    h.setCanState n (if 127 < tec || 127 < rec_ then 2 else 1)

/-! ### Modes (R652, R654) -/

/-- The transmit FIFO is flushed; a frame being sent ends with its attempt. -/
def canFlush (h : Hw) (n : Nat) (sending : Bool) : Hw :=
  let c := h.ctl n
  let keep := if sending then c.tx.head? else none
  let h := h.setCtl n { c with tx := [], abort := false, leaving := keep }
  h.countBy (Reg.CAN_CNT_ABORT n) (c.tx.length - b2n keep.isSome)

/-- The gateway's queue of an output is dropped (R670). -/
def dropOutq (h : Hw) (p : Nat) : Hw := (h.colDrop Reg.COL_CNT_DROP (h.outq p).length).setOutq p []

/-- The controller enters a mode; `sending` says that its head is being sent (R652 to R654, R670). -/
def setCanMode (h : Hw) (n m : Nat) (sending : Bool) : Hw :=
  let old := h.canMode n
  if old = m ∨ m = 3 then h
  else
    let h := h.setFld (Reg.CAN_CTRL n) Fld.CAN_CTRL_MODE m
    let st := Reg.CAN_STAT n
    if m = 1 then
      let h := h.setFld st Fld.CAN_STAT_FROZEN 0
      let s := if (h.ctl n).busOff then (if h.bit (Reg.CAN_CTRL n) 37 then 5 else 3)
        else if 127 < h.tec n || 127 < h.rec_ n then 2 else 1
      (h.setFld st Fld.CAN_STAT_STATE s).canRefill n 64
    else if m = 2 then
      let h := if old = 1 then h.canFlush n sending else h
      (h.setFld st Fld.CAN_STAT_FROZEN 1).setFld st Fld.CAN_STAT_STATE 4
    else
      let h := if old = 1 then h.canFlush n sending else h
      let h := h.setCtl n { h.ctl n with q0 := [], q1 := [], last := none, busOff := false }
      let h := ((h.setFld st Fld.CAN_STAT_FROZEN 0).setFld st Fld.CAN_STAT_STATE 0).setFld st Fld.CAN_STAT_TEC 0
      (h.setFld st Fld.CAN_STAT_REC 0).dropOutq n

/-- RECOVER starts the recovery of a bus-off controller (R653). -/
def canRecover (h : Hw) (n : Nat) : Hw :=
  if h.canMode n == 1 && h.canState n == 3 then h.setFld (Reg.CAN_STAT n) Fld.CAN_STAT_STATE 5 else h

/-- The head is removed: aborted, and counted. -/
def abortHead (h : Hw) (n : Nat) : Hw :=
  let c := h.ctl n
  if c.tx.isEmpty then h
  else ((h.setCtl n { c with tx := c.tx.drop 1, abort := false }).count (Reg.CAN_CNT_ABORT n)).canRefill n 64

/-- ABORT (R655): at once where the head is not being sent. -/
def canAbort (h : Hw) (n : Nat) (sending : Bool) : Hw :=
  if h.canMode n ≠ 1 || (h.ctl n).tx.isEmpty then h
  else if sending then h.setCtl n { h.ctl n with abort := true }
  else h.abortHead n

/-- A write of CAN_CTRL (R681). -/
def writeCanCtrl (h : Hw) (n : Nat) (v : Word) (sending : Bool) : Hw :=
  let lim := bitsOf v 34 29
  let h := h.setFld (Reg.CAN_CTRL n) Fld.CAN_CTRL_ABO (bitsOf v 37 37)
  let h := if lim = 0 ∨ 32 < lim then h else h.setFld (Reg.CAN_CTRL n) Fld.CAN_CTRL_TX_LIMIT lim
  let h := h.setCanMode n (bitsOf v 39 38) sending
  let h := if bitN v.toNat 36 || bitN v.toNat 37 then h.canRecover n else h
  if bitN v.toNat 35 then h.canAbort n sending else h

/-! ### Transmission (R655, R656) -/

/-- A frame is pushed: the code of CAN_TX_STAT.RESULT. -/
def pushTx (h : Hw) (n : Nat) (t : CanTx) : Hw × Nat :=
  let c := h.ctl n
  if h.canMode n ≠ 1 then (h, 2)
  else if h.fld (Reg.CAN_CTRL n) Fld.CAN_CTRL_TX_LIMIT ≤ c.tx.length then (h, 1)
  else (h.setCtl n { c with tx := c.tx ++ [t] }, 0)

/-- The staged frame. -/
def stagedFrame (h : Hw) (n : Nat) : CanFrame :=
  let f := canFrame (withBits (h.reg (Reg.CAN_TX_HDR n)) 35 35 0) (wordsBytes ((List.range 13).map fun i => h.reg (Reg.CAN_TX_DATA n i)))
  f

/-- A write of CAN_TX_PUSH. -/
def txPush (h : Hw) (n tag : Nat) : Hw :=
  let r := h.pushTx n { frame := h.stagedFrame n, tag := tag }
  r.1.setFld (Reg.CAN_TX_STAT n) Fld.CAN_TX_STAT_RESULT r.2

/-- The frame's bytes as the block's record of what it sent: header word, then data. -/
def sentCan (h : Hw) (n : Nat) (f : CanFrame) : Hw := h.send (.can n) (wordBytes f.hdr ++ f.data)

/-- The head, or the frame that outlived its mode, is sent; TEC falls by 1 (R655). -/
def txSent (h : Hw) (n : Nat) : Hw :=
  let c := h.ctl n
  let done (t : CanTx) (h : Hw) : Hw :=
    ((h.sentCan n t.frame).setFld (Reg.CAN_TX_STAT n) Fld.CAN_TX_STAT_LAST_TAG t.tag).setBit (Reg.CAN_IRQ_STAT n) 1
  match c.leaving with
  | some t => done t (h.setCtl n { c with leaving := none })
  | none => match c.tx with
    | [] => h
    | t :: l =>
      if !h.canLive n then h
      else
        let h := done t (h.setCtl n { c with tx := l, abort := false })
        (h.setErrors n (h.tec n - 1) (h.rec_ n)).canRefill n 64

/-- The attempt of the head ends without success: a pending abort removes it, and a frame that outlived its mode is dropped. -/
def attemptEnds (h : Hw) (n : Nat) : Hw :=
  let c := h.ctl n
  if c.leaving.isSome then (h.setCtl n { c with leaving := none }).count (Reg.CAN_CNT_ABORT n)
  else if c.abort then h.abortHead n else h

/-- An error on the bus (R653, R655, R656). -/
def busFault (h : Hw) (n : Nat) (lec : Nat) (tx eof : Bool) (up : Nat) : Hw :=
  let h := h.setFld (Reg.CAN_STAT n) Fld.CAN_STAT_LEC lec
  let h := if tx && eof && !(h.ctl n).tx.isEmpty then h.count (Reg.CAN_CNT_EOFERR n) else h
  let h := if tx then h.setErrors n (h.tec n + up) (h.rec_ n) else h.setErrors n (h.tec n) (h.rec_ n + up)
  if tx then h.attemptEnds n else h

/-! ### Reception (R657 to R659) -/

/-- Words 0 and 1 of a filter. -/
def filter (h : Hw) (n f w : Nat) : Word := h.reg (Reg.CAN_FLT n f w)

/-- The first enabled filter that matches. -/
def filterHit (h : Hw) (n : Nat) (x : CanFrame) : Option Nat :=
  (List.range 64).find? fun f =>
    let w := h.filter n f 0
    let k := bitsOf w 37 36
    bitN w.toNat 39 && bitN w.toNat 38 == x.ide && (Nat.xor x.id (bitsOf w 28 0) &&& bitsOf (h.filter n f 1) 28 0) == 0 &&
      (k == 0 || (k == 1 && !x.fdf) || (k == 2 && x.fdf))

/-- A frame goes into a receive queue of 64. -/
def queueRx (h : Hw) (n q : Nat) (r : CanRx) : Hw :=
  let c := h.ctl n
  let l := if q = 0 then c.q0 else c.q1
  if 64 ≤ l.length then h.count (Reg.CAN_CNT_RXDROP n)
  else (h.setCtl n (if q = 0 then { c with q0 := l ++ [r] } else { c with q1 := l ++ [r] })).setBit (Reg.CAN_IRQ_STAT n) 0

/-- A frame is received; one that passes no filter is counted as undeclared too (R131, R657 to R659). `eofErr` says that an error flag began at the last bit of its end-of-frame. -/
def rxFrame (h : Hw) (n : Nat) (x : CanFrame) (eofErr : Bool) : Hw :=
  if !h.canLive n then h
  else
    let o := h.observe
    let h := o.2
    let r := h.rec_ n
    let d := h.draw 9
    let h := if r = 0 then h else if r ≤ 127 then h.setErrors n (h.tec n) (r - 1) else d.2.setErrors n (h.tec n) (119 + d.1)
    let dup := (h.ctl n).last == some x
    let h := h.setCtl n { h.ctl n with last := none }
    match h.filterHit n x with
    | none => (h.count (Reg.CAN_CNT_NOFILT n)).undeclare 9
    | some f =>
      let act := bitsOf (h.filter n f 0) 35 33
      if act = 0 ∨ 5 < act then h
      else
        let h := h.setCtl n { h.ctl n with last := if eofErr then some x else none }
        let h := if dup then h.count (Reg.CAN_CNT_DUP n) else h
        let h := h.onPwr fun p => { p with canSeen := setBitN p.canSeen n }
        let e : CanRx := { frame := x, info := word (f * 2 ^ 34 + b2n dup * 2 ^ 33), lc := h.lc,
                           ofs := (rhe ((o.1 : Int) - h.tu.tSi) tNs).toNat }
        let h := if act = 1 ∨ act = 4 then h.queueRx n 0 e else if act = 2 ∨ act = 5 then h.queueRx n 1 e else h
        if 3 ≤ act then
          let h := if dup && h.colOn && !(h.routesOf n x).isEmpty then h.count Reg.COL_CNT_DUP else h
          h.gateway n x (h.netOf o.1)
        else h

/-- POP removes the head of a receive queue. -/
def rxPop (h : Hw) (n q : Nat) : Hw :=
  let c := h.ctl n
  h.setCtl n (if q = 0 then { c with q0 := c.q0.drop 1 } else { c with q1 := c.q1.drop 1 })

/-! ### Selective wake (R660, R665) -/

/-- The decoder of a line runs. -/
def decoderOn (h : Hw) (n : Nat) : Bool :=
  h.aoOn && h.flag Reg.PWR_RAIL_PG Fld.PWR_RAIL_PG_VIO33 && bitN (h.reg (Reg.CAN_SW_ID n)).toNat 39 && (!h.sysOn || h.canMode n ≠ 1)

/-- The frame error counter. -/
def fec (h : Hw) (n : Nat) : Nat := h.fld (Reg.CAN_SW_STAT n) Fld.CAN_SW_STAT_FEC
def fecStep (h : Hw) (n : Nat) (bad : Bool) : Hw :=
  h.setFld (Reg.CAN_SW_STAT n) Fld.CAN_SW_STAT_FEC (if bad then min 32 (h.fec n + 1) else h.fec n - 1)

/-- The frame is the line's wake-up frame. -/
def wakeFrame (h : Hw) (n : Nat) (x : CanFrame) : Bool :=
  let w := h.reg (Reg.CAN_SW_ID n)
  let mask := wordsBytes [h.reg (Reg.CAN_SW_DATA0 n), h.reg (Reg.CAN_SW_DATA1 n)]
  !x.fdf && !x.rtr && x.ide == bitN w.toNat 38 && (Nat.xor x.id (bitsOf w 28 0) &&& h.fld (Reg.CAN_SW_MASK n) Fld.CAN_SW_MASK_MASK) == 0 &&
    x.dlc == bitsOf w 37 34 && (!bitN w.toNat 33 || (x.data.zip mask).any fun b => b.1 &&& b.2 ≠ 0)

/-- A decoder's match: in Night it wakes the device; in Day, of a sleeping controller, it raises WAKE. `hdr` goes to GIO_WAKE_CAN. -/
def decoderWake (h : Hw) (n : Nat) (hdr : Word) : Hw :=
  if h.inState psDay then
    (if h.sysOn && h.canMode n == 2 then (h.setBit (Reg.CAN_IRQ_STAT n) 3).sideBand n 5 else h)
  else
    let src := 5 + n
    let h := if h.wakeable (2 ^ src) = [] then h else h.setReg (Reg.GIO_WAKE_CAN n) hdr
    h.wake (2 ^ src)

/-! ### Proxies (R674 to R676) -/

def proxyCfg (h : Hw) (i : Nat) : Option ProxyCfg := Tabs.get (fun _ => (none : Option ProxyCfg)) h.cfg.proxies i
def proxy (h : Hw) (i : Nat) : Proxy := Tabs.get (fun _ => ({} : Proxy)) h.can.proxies i
def setProxy (h : Hw) (i : Nat) (p : Proxy) : Hw := h.onCan fun x => { x with proxies := Tabs.set (fun _ => ({} : Proxy)) x.proxies i p }

/-- A fetch fails with a STATUS of R642. -/
def proxyFail (h : Hw) (i kind : Nat) : Hw :=
  ((h.setProxy i { h.proxy i with state := 3, kind := kind, at_ := h.lc, acc := [] }).count Reg.COL_CNT_PROXYFAIL).setBit Reg.COL_IRQ_STAT 3

/-- The fetches of a controller in flight. -/
def fetches (h : Hw) (n : Nat) : List Nat :=
  (h.cfg.proxies.filter fun x => (x.2.any fun c => c.can == n) && (h.proxy x.1).state == 1).map (·.1)

/-- A fetch starts: the request frame goes to the controller (R676). -/
def startFetch (h : Hw) (i : Nat) (c : ProxyCfg) : Hw :=
  let tag := Tabs.get (fun _ => (0 : Nat)) h.can.tags c.can % 255 + 1
  let h := h.onCan fun x => { x with tags := Tabs.set (fun _ => (0 : Nat)) x.tags c.can tag }
  let f : CanFrame := { hdr := word (bitsOf c.req 39 39 * 2 ^ 39 + b2n c.fd * 2 ^ 38 + 4 * 2 ^ 31 + bitsOf c.req 28 0),
                        data := [0x01#8] ++ beBytes 2 c.obj ++ [byte tag] }
  (h.pushTx c.can { frame := f, tag := tag }).1.setProxy i
    { h.proxy i with state := 1, at_ := h.lc, tag := tag, acc := [], seg := none }

/-- A segment of the fetch of proxy i. -/
def segment (h : Hw) (i : Nat) (c : ProxyCfg) (d : List Byte) : Hw :=
  let p := h.proxy i
  let idx := (d.getD 4 0).toNat
  let b5 := (d.getD 5 0).toNat
  let st := b5 % 16
  let body := d.drop 6
  if p.seg = some idx then h
  else if idx ≠ (match p.seg with | some j => j + 1 | none => 0) then h.proxyFail i 3
  else if st ≠ 0 then
    let r := h.draw 4
    if st = 2 then h.proxyFail i 6 else if st = 1 then h.proxyFail i 2
    else r.2.proxyFail i (([10, 6, 2, 3] : List Nat).getD r.1 3)
  else if 128 ≤ b5 then
    let rem := c.len - p.acc.length
    if p.acc.length ≤ c.len ∧ dlcLen c.fd (lenDlc (6 + rem)) = d.length ∧ rem ≤ body.length then
      h.setProxy i { p with state := 2, at_ := h.lc, lc := h.lc, value := p.acc ++ body.take rem, acc := [], seg := some idx }
    else h.proxyFail i 3
  else h.setProxy i { p with acc := p.acc ++ body, seg := some idx }

/-- A frame answers the fetch of a declared proxy that is in flight (R676). -/
def answersFetch (h : Hw) (n : Nat) (x : CanFrame) (e : Nat × Option ProxyCfg) : Bool := match e.2 with
  | none => false
  | some c =>
    let p := h.proxy e.1
    c.can == n && p.state == 1 && x.ide == bitN c.rsp.toNat 39 && x.id == bitsOf c.rsp 28 0 && x.fdf == c.fd &&
      x.data.getD 0 0 == 0x81 && beNat ((x.data.drop 1).take 2) == c.obj && (x.data.getD 3 0).toNat == p.tag

/-- A response frame: the fetch in flight that it answers, if any. -/
def segmentIn (h : Hw) (n : Nat) (x : CanFrame) : Hw :=
  match h.cfg.proxies.find? (h.answersFetch n x) with
  | some (i, some c) => h.segment i c x.data
  | _ => h

/-- The fetches on a controller fail with TIMEOUT (R677). -/
def failFetches (h : Hw) (n : Nat) : Hw := (h.fetches n).foldl (fun h i => h.proxyFail i 10) h

end Hw

/-! ### Streams (R672) -/

/-- A quadlet-aligned ACF message: type, the bytes after its first two, padded. -/
def acfMsg (type : Nat) (rest : List Byte) : List Byte :=
  let n := (rest.length + 2 + 3) / 4
  beBytes 2 (type * 512 + n % 512) ++ rest ++ List.replicate (4 * n - 2 - rest.length) 0

/-- An output of a stream as its ACF message. -/
def acfOf (o : ColOut) : List Byte :=
  match o.event with
  | some (code, n, _, _) => acfMsg 0x05 (beBytes 6 (0x4B5A00000000 + 256 * n + code))
  | none =>
    let f := o.frame
    let pad := (4 - f.data.length % 4) % 4
    let flags := pad * 64 + b2n o.time.isSome * 32 + b2n f.rtr * 16 + b2n f.ide * 8 + b2n f.brs * 4 + b2n f.fdf * 2 + b2n f.esi
    let bus := if o.input < 4 then o.input else 0x1F
    let ts := match o.time with
      | some t => (rhe t tNs).toNat
      | none => 0
    acfMsg 0x01 ([byte flags, byte bus] ++ beBytes 8 ts ++ beBytes 4 (if f.ide then f.id else f.id / 2 ^ 18) ++ f.data)

/-- The outputs that fit an AVTPDU of 1 400 bytes: how many, and their messages. -/
def acfFit : Nat → List ColOut → Nat × List Byte
  | _, [] => (0, [])
  | room, o :: l =>
    let m := acfOf o
    if room < m.length then (0, []) else (let r := acfFit (room - m.length) l; (r.1 + 1, m ++ r.2))

/-- An AVTPDU of subtype NTSCF. -/
def avtpdu (sid seq : Nat) (body : List Byte) : List Byte :=
  [0x82#8] ++ beBytes 2 (0x8000 + body.length % 2048) ++ [byte seq] ++ beBytes 8 sid ++ body

/-- A DLC and the data of an ACF_CAN message as a frame (R672). -/
def frameOfAcf (m : List Byte) : CanFrame :=
  let fl := (m.getD 2 0).toNat
  let pad := fl / 64
  let data := (m.drop 16).take (m.length - 16 - pad)
  let eff := bitN fl 3
  let id := beNat ((m.drop 12).take 4) % 2 ^ 29
  canFrame (word (b2n eff * 2 ^ 39 + b2n (bitN fl 1) * 2 ^ 38 + b2n (bitN fl 2) * 2 ^ 37 + b2n (bitN fl 4) * 2 ^ 36 +
    lenDlc data.length % 16 * 2 ^ 31 + (if eff then id else id % 2048 * 2 ^ 18))) data

/-- The ACF messages of an AVTPDU's body. -/
def acfSplit : Nat → List Byte → List (List Byte)
  | 0, _ => []
  | fuel + 1, l =>
    let n := beNat (l.take 2) % 512 * 4
    if n < 4 ∨ l.length < n then [] else l.take n :: acfSplit fuel (l.drop n)

namespace Hw

/-- The 64-bit identifier of a stream. -/
def streamId (h : Hw) (k : Nat) : Nat := bitsOf (h.reg (Reg.COL_STREAM k 0)) 31 0 * 2 ^ 32 + bitsOf (h.reg (Reg.COL_STREAM k 1)) 31 0

/-- An AVTPDU arrives for an inbound stream: its messages enter routing, others are counted (R672). -/
def streamIn (h : Hw) (l : List Byte) : Hw :=
  let sid := beNat ((l.drop 4).take 8)
  match (List.range 4).find? fun k => bitsOf (h.reg (Reg.COL_STREAM k 0)) 39 38 == 3 && h.streamId k == sid with
  | none => h.count Reg.COL_CNT_NOROUTE
  | some k =>
    if l.getD 0 0 ≠ 0x82 then h.count Reg.COL_CNT_NOROUTE
    else
      let seq := (l.getD 3 0).toNat
      let want := Tabs.get (fun _ => (0 : Nat)) h.can.seqIn k
      let h := if want ≠ 0 ∧ want ≠ seq + 1 then h.count Reg.COL_CNT_SEQGAP else h
      let h := h.onCan fun x => { x with seqIn := Tabs.set (fun _ => (0 : Nat)) x.seqIn k ((seq + 1) % 256 + 1) }
      let body := (l.drop 12).take (beNat ((l.drop 1).take 2) % 2048)
      (acfSplit 512 body).foldl (fun (h : Hw) m =>
        if beNat (m.take 2) / 512 = 1 then h.gateway (4 + k) (frameOfAcf m) none else h.count Reg.COL_CNT_NOROUTE) h

end Hw

namespace State

/-- The identity of the gateway's owner. -/
def colWho (s : State) : Option Who := codeWho (s.hw.unitOwner 37)

/-- An AVTPDU of outbound stream k is closed and written to COL_ORING (R672). -/
def closePdu (s : State) (k : Nat) : State :=
  let h := s.hw
  let q := h.outq (4 + k)
  if !h.colOn || q.isEmpty || !h.portTakes (4 + k) then s
  else
    let fit := acfFit 1388 q
    let seq := Tabs.get (fun _ => (0 : Nat)) h.can.seqOut k
    let bytes := avtpdu (h.streamId k) seq fit.2
    let s := s.onHw fun h => (h.setOutq (4 + k) (q.drop fit.1)).onCan fun x =>
      { x with seqOut := Tabs.set (fun _ => (0 : Nat)) x.seqOut k ((seq + 1) % 256) }
    let lost := fun (s : State) => s.onHw fun h => h.colDrop Reg.COL_CNT_DROP fit.1
    let ctl := Reg.COL_ORING_CTL
    if !hpHolds h ctl then lost s
    else match s.colWho with
      | none => lost s
      | some who =>
        let d := h.fld Reg.COL_ORING_BASE Fld.COL_ORING_BASE_BASE + 2 * h.fld ctl Fld.COL_ORING_CTL_HEAD
        match s.dmaReads who d 2 with
        | (s, some [w0, w1]) =>
          if !bitN w0.toNat 39 then lost s
          else
            let r := s.dmaWrites who (bitsOf w1 33 0) (Hw.packBytes bytes)
            if !r.2 then lost r.1
            else
              let r := r.1.dmaWrites who d [word (k * 2 ^ 37 + bytes.length)]
              r.1.onHw fun h => (h.setFld ctl Fld.COL_ORING_CTL_HEAD (nextHead h ctl)).setBit Reg.COL_IRQ_STAT 1
        | (s, _) => lost s

/-- The head of COL_IRING is taken (R672). -/
def takePdu (s : State) : State :=
  let h := s.hw
  let ctl := Reg.COL_IRING_CTL
  if !h.colOn || !hpHolds h ctl then s
  else match s.colWho with
    | none => s
    | some who =>
      let d := h.fld Reg.COL_IRING_BASE Fld.COL_IRING_BASE_BASE + 2 * h.fld ctl Fld.COL_IRING_CTL_HEAD
      match s.dmaReads who d 2 with
      | (s, some [w0, w1]) =>
        if !bitN w0.toNat 39 then s
        else
          let n := bitsOf w0 15 0
          let done := fun (s : State) =>
            (s.dmaWrites who d [withBits w0 39 39 0]).1.onHw fun h =>
              (h.setFld ctl Fld.COL_IRING_CTL_HEAD (nextHead h ctl)).setBit Reg.COL_IRQ_STAT 2
          (match s.dmaReads who (bitsOf w1 33 0) ((n + 4) / 5) with
          | (s, some ws) => done (s.onHw fun h => h.streamIn ((wordsBytes ws).take n))
          | (s, none) => done (s.onHw fun h => h.count Reg.COL_CNT_NOROUTE))
      | (s, _) => s

end State

end Sys2Proof.Machine
end

