-- ==== Sys2Proof/Machine/FabricRows.lean ====
section
/-! DEFINITION. The fabric manager's commands: task dispatch, reductions, migration, rebuilding, quarantine, audit (R293 to
R312, R347, R348, R370 to R373, R545). -/

namespace Sys2Proof.Machine

/-- A speculative step waits for the undo log: it is counted once (R282, R317). -/
def Hw.stallStep (h : Hw) (g : Nat) : Hw :=
  let p := h.page g
  let m := h.stepCycle g + 1
  let h := if p.stalled = m then h else (h.count Reg.FAB_CNT_STALL).setPage g { p with stalled := m }
  h.setFld Reg.FAB_STAT Fld.FAB_STAT_STALL 1

/-- TASK_DISPATCH_STEP: the manager dispatches the next step of a page, certain or speculative, or lets it wait (R282, R296,
R370). With `run` the standard FMC runs the task to its end; without, the rows of its instructions do. A page restart that is
due comes first (R308). -/
def execTaskDispatchStep (g : Fin 17744) (run : Bool) (s : State) : Result :=
  let s := if (s.hw.page g).restart ∧ Hw.owned (s.hw.page g) then s.pageRestart g else s
  .next (s.onHw fun h =>
    let h := h.settlePage g (h.page g).spec.length
    let go (m : Nat) (spec : Bool) : Hw :=
      let h := h.startStep g m spec
      let e := (h.page g).engine
      match run, (h.engine e).task with
      | true, some t => h.runStep e t
      | _, _ => h
    match h.ready g with
    | .wait => h
    | .stall => h.stallStep g
    | .certain m => go m false
    | .spec m => go m true)

/-- The page's owner is free for a task of the page. -/
def Hw.ownerFree (h : Hw) (g : Nat) : Bool :=
  let p := h.page g
  Hw.owned p && h.engineFree p.engine

/-- TASK_DISPATCH_ROLLBACK: undoes the speculative steps of a page from the pending LC on (R372); a poisoned entry of the undo
log ends the task as R357 says. -/
def execTaskDispatchRollback (g : Fin 17744) (run : Bool) (s : State) : Result :=
  .next (s.onHw fun h =>
    let p := h.page g
    match p.rollback with
    | none => h
    | some m =>
      if !h.ownerFree g then h
      else
        let h := h.pageJob .rollback g m
        if !run then h
        else
          let h := h.undoFound p.engine
          let x := h.engine p.engine
          match x.task, poisonedUndo x.undo (undoFrom p.frame m x.undo).1 with
          | some t, some _ => (h.setEngine p.engine { x with task := none }).taskFault p.engine t 0x04 .locals
          | _, _ =>
            let h := (h.rollbackFrame p.engine p.frame m).1
            (h.setEngine p.engine { h.engine p.engine with task := none, report := some (0, 0) }).rollbackEnded g m)

/-- TASK_DISPATCH_RELEASE: frees the undo entries of a page's steps that have become certain (R373). -/
def execTaskDispatchRelease (g : Fin 17744) (run : Bool) (s : State) : Result :=
  .next (s.onHw fun h =>
    let h := h.settlePage g (h.page g).spec.length
    let p := h.page g
    if !h.ownerFree g || !h.releasable g then h
    else
      let h := h.pageJob .release g (p.certain - 1)
      if !run then h
      else
        let h := (h.releaseFrame p.engine p.frame (p.certain - 1)).1
        h.setEngine p.engine { h.engine p.engine with task := none, report := some (0, 0) })

/-- TASK_DISPATCH_AUDIT: after the audited step is committed, an engine of another powered ridge runs it again; after a
mismatch an engine of a third (R311). `odd` is a signature that differs from that of a sound run. -/
def execTaskDispatchAudit (e : Fin 512) (run : Bool) (odd : Option Word) (s : State) : Result :=
  .next (s.onHw fun h =>
    match h.fab.audit with
    | none => h
    | some a =>
      let free := h.engineFree e && e.val / 32 ≠ a.owner / 32
      if !free || a.ownerSig.isNone || decide (h.lcCommit < a.lc) then h
      else
        let next : Option Audit := match a.auditor with
          | none => some { a with auditor := some e }
          | some x => if a.auditorSig.isSome ∧ a.third.isNone ∧ e.val / 32 ≠ x / 32 then some { a with third := some e } else none
        match next with
        | none => h
        | some a =>
          let h := ({ h with fab := { h.fab with audit := some a } } : Hw).startAudit e a
          if !run then h
          else
            let sig := odd.getD (h.auditSig a)
            (h.setEngine e { h.engine e with task := none, report := some (0, sig) }).auditEnded e sig)

/-- TASK_DISPATCH_INSTANCE: an engine with no page step ready takes the next task of an instance whose budget is above 0
(R543 to R545). DESIGN CHOICE (log entry 43): the deficit round robin by WEIGHT among such instances is the order in which these
commands come. -/
def execTaskDispatchInstance (e : Fin 512) (i : Fin 16) (s : State) : Result :=
  .next (s.onHw fun h =>
    let f := h.inst i
    let busy := h.fab.pages.any fun x => x.2.engine == e.val && (match h.ready x.1 with
      | .certain _ => true
      | .spec _ => true
      | _ => false)
    match f.item with
    | none => h
    | some x =>
      if !h.engineFree e || busy || f.state ≠ .busy || !x.run || x.code ≠ 0 ||
          decide (x.tasks ≤ x.given) || decide (f.budget ≤ 0) then h
      else
        (h.setInst i { f with item := some { x with given := x.given + 1 } }).loadTask e
          { kind := .inst, page := x.given, lc := 0, slot := h.mcSlot, fi := i })

/-- TASK_DISPATCH_SELFTEST: the engine self-test (R309, R347), on an engine that owns no page yet; one that fails is
quarantined. -/
def execTaskDispatchSelftest (e : Fin 512) (run pass : Bool) (s : State) : Result :=
  .next (s.onHw fun h =>
    if !h.engineFree e || h.pagesOn e ≠ 0 then h
    else
      let h := h.loadTask e { kind := .selftest, slot := h.mcSlot }
      if !run then h
      else
        let h := h.setEngine e { h.engine e with task := none, report := some (0, 0) }
        if pass then h else h.quarantine e 2)

/-- REDUCTION_COMPUTE: the reductions of the first cycle that a rack or device page still lacks, once every source step of that
cycle is certain and complete (R293, R306). -/
def execReductionCompute (g : Fin 17744) (s : State) : Result :=
  .next (s.onHw fun h =>
    let p := h.page g
    let n := h.nextCycle (max p.reduced h.firstOwed)
    let src := h.reductionSources g
    if g.val < 17664 || !h.pageDeclared g || !h.carriesInputs n || decide (h.lc < n) ||
        !(src.all fun x => decide (n + 1 ≤ (h.page x.1).certain)) then h
    else
      let ws := h.reductionWords g n
      let hist := (g.val, n, ws) :: h.fab.history
      let keep := hist.filter fun x => x.1 ≠ g.val || decide (n < x.2.1 + 256)
      let h : Hw := { h with fab := { h.fab with history := keep } }
      let h := h.setPage g { p with reduced := n + 1 }
      let h := src.foldl (fun h x =>
        h.setPage x.1 { h.page x.1 with sources := (h.page x.1).sources.filter fun y => decide (n ≤ y.1 + 256) }) h
      if Hw.owned p ∧ h.stepCycle g = n then h.writeRamList (frameAddr p.engine p.frame 0) ws else h)

/-! ### Ownership (R302 to R304, R307 to R309) -/

/-- The result of FAB_MIG_REQ (R317). -/
def Hw.migResult (h : Hw) (r : Nat) : Hw := h.setFld Reg.FAB_MIG_STAT Fld.FAB_MIG_STAT_RESULT r

/-- A migration of a page to a named engine: into its home frame where it is home, else into a pool frame (R303, R304). -/
def Hw.migrateTo (h : Hw) (g e : Nat) (homeOnly : Bool) : Hw :=
  let p := h.page g
  if 17744 ≤ g ∨ !h.pageDeclared g then h.migResult 2
  else if p.state ≠ .resident ∨ p.moveTo.isSome ∨ 16 ≤ h.migrations ∨ h.pstate = 4 then h.migResult 1
  else if !h.engineActive e then h.migResult 3
  else
    let home := h.homeOf g
    let frame := if e = home.1 ∧ !(h.usedFrames (e / 32)).contains home.2 then some home.2
      else if homeOnly then none else (h.freePool (e / 32)).2
    if p.engine = e ∧ (!homeOnly ∨ p.frame = home.2) then h.migResult 0
    else match frame with
      | none => h.migResult 3
      | some f =>
        let h := h.migResult 0
        h.moveOut g (e, f)

/-- FAB_MIG_REQ by its OP (R317). -/
def Hw.migRequest (h : Hw) (w : Word) : Hw :=
  let g := bitsOf w 35 21
  let e := bitsOf w 20 12
  let op := bitsOf w 1 0
  if op = 1 then h.migrateTo g e false
  else if op = 2 then h.migrateTo g (h.homeOf g).1 true
  else if op = 3 then (h.quarantine e 5).migResult 0
  else h

/-- The word that a request writes. -/
def migWord (g e op : Nat) : Word := word (g * 2 ^ 21 + e * 2 ^ 12 + op)

/-- MIGRATE_PAGE: FAB_MIG_REQ OP 0b01 (R302 to R304). -/
def execMigratePage (who : Who) (page : Fin 32768) (engine : Fin 512) (s : State) : Result :=
  .next (s.onHw fun h => h.guarded who Reg.FAB_MIG_REQ fun h => h.migRequest (migWord page engine 1))

/-- RETURN_PAGE_HOME: FAB_MIG_REQ OP 0b10 (R302). -/
def execReturnPageHome (who : Who) (page : Fin 32768) (s : State) : Result :=
  .next (s.onHw fun h => h.guarded who Reg.FAB_MIG_REQ fun h => h.migRequest (migWord page 0 2))

/-- QUARANTINE_ENGINE: FAB_MIG_REQ OP 0b11 (R309). -/
def execQuarantineEngine (who : Who) (engine : Fin 512) (s : State) : Result :=
  .next (s.onHw fun h => h.guarded who Reg.FAB_MIG_REQ fun h => h.migRequest (migWord 0 engine 3))

/-- MIGRATION_COPY_DONE: the copy engines have copied the hot segment of a page IN_TRANSIT (R303, R304); a page that waits to return
home takes its place among the 16 (R302). -/
def execMigrationCopyDone (g : Fin 17744) (s : State) : Result := .next (s.onHw fun h => (h.migrationDone g).sendHome)

/-- REBUILD_DONE: a rebuilt page has reached the last step that was certain before the rebuild (R307, R317); a page restart
that is due takes the place of the steps (R308). -/
def execRebuildDone (g : Fin 17744) (s : State) : Result :=
  let s := if (s.hw.page g).restart ∧ Hw.owned (s.hw.page g) then s.pageRestart g else s
  .next (s.onHw fun h =>
    let p := h.page g
    if p.state ≠ .rebuilding ∨ p.certain < p.rebuildTo ∨ (h.pageTask g).isSome then h
    else
      let h := h.setPage g { p with state := .resident, rebuildTo := 0, excAt := none }
      if h.fab.pages.any fun x => x.2.state = .rebuilding then h else h.setBit Reg.FAB_IRQ_STAT 2)

/-- STEP_TIMEOUT: a step has run longer than four times its declared bound: it is abandoned and the engine quarantined (R308,
R309). -/
def execStepTimeout (e : Fin 512) (s : State) : Result :=
  .next (s.onHw fun h =>
    match (h.engine e).task with
    | some t => if t.kind = .step then h.quarantine e 4 else h
    | none => h)

/-- AUDIT_START: an audit of a page and one of its coming steps, which is no cold pass, starts every PERIOD cycles (R310). The
choice is the command's. -/
def execAuditStart (g : Fin 17744) (lc : Nat) (s : State) : Result :=
  .next (s.onHw fun h =>
    let p := h.page g
    let due := h.fab.auditAt = 0 || decide (h.fab.auditAt + h.fld Reg.FAB_AUDIT_CFG Fld.FAB_AUDIT_CFG_PERIOD ≤ h.lc + 1)
    if !h.flag Reg.FAB_CTRL Fld.FAB_CTRL_AUDIT_EN || !h.flag Reg.FAB_CTRL Fld.FAB_CTRL_EN || h.fab.audit.isSome || !due ||
        p.state ≠ .resident || decide (lc < h.stepCycle g) || !h.carriesInputs lc || (lc + 17800 - g.val) % 100 = 0 ||
        h.pstate = 4 then h
    else { h with fab := { h.fab with auditAt := h.lc + 1, audit := some { page := g, lc := lc, snapshot := [], owner := p.engine } } })

end Sys2Proof.Machine
end

