-- ==== Sys2Proof/Machine/CanRows.lean ====
section
/-! DEFINITION. The commands of the CAN controllers, the gateway, the proxies, selective wake and the general inputs (spec/21). -/

namespace Sys2Proof.Machine

namespace Hw

/-- The AO part of the GIO block and the decoders are written by the secure world and by Crest (R683). -/
def aoWriter : Who → Bool
  | .secure | .crest => true
  | _ => false

/-- A frame that the decoder of a line has seen: the counter moves (R660). -/
def decoderSees (h : Hw) (n : Nat) (bad : Bool) : Hw := if h.decoderOn n then h.fecStep n bad else h

/-- A wake-up frame on a line (R660, R665). -/
def wakeFrameSeen (h : Hw) (n : Nat) (x : CanFrame) : Hw :=
  if h.decoderOn n && h.wakeFrame n x then
    ((h.fecStep n false).setBit (Reg.CAN_SW_STAT n) 33).decoderWake n x.hdr
  else h

/-- The frame error counter has passed 31 (R660). -/
def fecOverflow (h : Hw) (n : Nat) : Hw :=
  if h.decoderOn n && h.fec n == 32 && bitN (h.reg (Reg.CAN_SW_ID n)).toNat 32 then
    (h.setBit (Reg.CAN_SW_STAT n) 32).decoderWake n (word (2 ^ 30))
  else h

/-- A bus-off controller that recovers (R653). -/
def busOn (h : Hw) (n : Nat) : Hw :=
  if h.canMode n == 1 && h.canState n == 5 then
    let h := h.setCtl n { h.ctl n with busOff := false }
    let h := (h.setFld (Reg.CAN_STAT n) Fld.CAN_STAT_TEC 0).setFld (Reg.CAN_STAT n) Fld.CAN_STAT_REC 0
    (h.setCanState n 1).canRefill n 64
  else h

/-- DI i shows a new level; an undeclared one is not sampled, and is counted (R131, R679). -/
def diChange (h : Hw) (i : Nat) (level : Bool) : Hw :=
  if h.unitRuns 38 && h.inState psDay && !bitN h.cfg.di i then h.undeclare 5
  else if h.unitRuns 38 && h.inState psDay && bitN h.cfg.di i && h.bit Reg.GIO_DI i != level then
    let h := if level then h.setBit Reg.GIO_DI i else h.clearBit Reg.GIO_DI i
    (h.setBit Reg.GIO_DI_CHG i).setBit Reg.GIO_IRQ_STAT 0
  else h

/-- WAKE_LINE rises in Day without dispatch: VM0 writes DISPATCH with commit LC a + LEAD (R663). The write is journaled as a
COMMAND. -/
def wakeLineRise (h : Hw) : Hw :=
  if h.inState psDay && h.level == 3 && !h.pwr.dispatch && (h.vmSlot 0).state == .running then
    let lc := h.lc + h.fld Reg.FAB_LT_CFG Fld.FAB_LT_CFG_LEAD
    let h := h.journalCommand lc 0x38C00000 [1]
    { h with kop := { h.kop with pend := h.kop.pend ++
      [({ oid := 0x38C00000, acc := h.lc, lc := lc, type := 1, value := [1], ticket := 0, session := 0 } : LcWrite)] } }
  else h

end Hw

/-! ### Rows -/

/-- CAN_MODE_OFF: CAN_CTRL.MODE OFF, flushing every queue (R652). -/
def execCanModeOff (who : Who) (n : Fin 4) (sending : Bool) (s : State) : Result :=
  .next (s.onHw fun h => h.guarded who (Reg.CAN_CTRL n) fun h => h.setCanMode n 0 sending)

/-- CAN_MODE_BUS (R652, R654). -/
def execCanModeBus (who : Who) (n : Fin 4) (s : State) : Result :=
  .next (s.onHw fun h => h.guarded who (Reg.CAN_CTRL n) fun h => h.setCanMode n 1 false)

/-- CAN_MODE_SLEEP (R652, R654). -/
def execCanModeSleep (who : Who) (n : Fin 4) (sending : Bool) (s : State) : Result :=
  .next (s.onHw fun h => h.guarded who (Reg.CAN_CTRL n) fun h => h.setCanMode n 2 sending)

/-- CAN_RECOVER: a write of CAN_CTRL.RECOVER (R653). -/
def execCanRecover (who : Who) (n : Fin 4) (s : State) : Result :=
  .next (s.onHw fun h => h.guarded who (Reg.CAN_CTRL n) fun h => h.canRecover n)

/-- CAN_ABORT: a write of CAN_CTRL.ABORT (R655). -/
def execCanAbort (who : Who) (n : Fin 4) (sending : Bool) (s : State) : Result :=
  .next (s.onHw fun h => h.guarded who (Reg.CAN_CTRL n) fun h => h.canAbort n sending)

/-- CAN_TX_PUSH (R655). -/
def execCanTxPush (who : Who) (n : Fin 4) (tag : Byte) (s : State) : Result :=
  .next (s.onHw fun h => h.guarded who (Reg.CAN_TX_PUSH n) fun h => h.txPush n tag.toNat)

/-- CAN_RX_POP (R658). -/
def execCanRxPop (who : Who) (n : Fin 4) (q : Fin 2) (s : State) : Result :=
  .next (s.onHw fun h => h.guarded who (Reg.CAN_RX_STAT n q) fun h => h.rxPop n q)

/-- CAN_FRAME_RECEIVED (R657 to R659, R668). -/
def execCanFrameReceived (n : Fin 4) (hdr : Word) (data : List Byte) (eofErr : Bool) (s : State) : Result :=
  .next (s.onHw fun h => h.rxFrame n (canFrame hdr data) eofErr)

/-- CAN_FRAME_SENT (R655). -/
def execCanFrameSent (n : Fin 4) (s : State) : Result :=
  .next (s.onHw fun h => if h.unitRuns (33 + n) then h.txSent n else h)

/-- CAN_ERROR_STATE_CHANGE: TEC and REC take the values that ISO 11898-1 gives them (R653). -/
def execCanErrorStateChange (n : Fin 4) (tec rc : Fin 512) (s : State) : Result :=
  .next (s.onHw fun h => if h.canLive n then h.setErrors n tec rc else h)

/-- CAN_BUS_OFF_RECOVERED (R653). -/
def execCanBusOffRecovered (n : Fin 4) (s : State) : Result :=
  .next (s.onHw fun h => if h.unitRuns (33 + n) then h.busOn n else h)

/-- CAN_BUS_ERROR (R653, R655, R656). -/
def execCanBusError (n : Fin 4) (lec : Fin 8) (tx eof : Bool) (up : Fin 9) (s : State) : Result :=
  .next (s.onHw fun h => if h.canLive n then h.busFault n lec tx eof up else h)

/-- LOST_ARBITRATION (R655). -/
def execLostArbitration (n : Fin 4) (s : State) : Result :=
  .next (s.onHw fun h => if h.unitRuns (33 + n) then h.attemptEnds n else h)

/-- STREAM_PDU_CLOSE (R672). -/
def execStreamPduClose (k : Fin 4) (s : State) : Result := .next (s.closePdu k)

/-- STREAM_RX_DESCRIPTOR (R672). -/
def execStreamRxDescriptor (s : State) : Result := .next s.takePdu

/-- SELECTIVE_WAKE_FRAME (R660, R665). -/
def execSelectiveWakeFrame (n : Fin 4) (hdr : Word) (data : List Byte) (s : State) : Result :=
  .next (s.onHw fun h => h.wakeFrameSeen n (canFrame hdr data))

/-- WAKE_FEC_OVERFLOW (R660). -/
def execWakeFecOverflow (n : Fin 4) (s : State) : Result := .next (s.onHw fun h => h.fecOverflow n)

/-- WAKE_DECODER_FRAME: a frame that does not match (R660). -/
def execWakeDecoderFrame (n : Fin 4) (bad : Bool) (s : State) : Result := .next (s.onHw fun h => h.decoderSees n bad)

/-- PROXY_SEGMENT (R676). -/
def execProxySegment (n : Fin 4) (hdr : Word) (data : List Byte) (s : State) : Result :=
  .next (s.onHw fun h => if h.canLive n then h.segmentIn n (canFrame hdr data) else h)

/-- PROXY_TIMEOUT (R676). -/
def execProxyTimeout (i : Fin 256) (s : State) : Result :=
  .next (s.onHw fun h => if h.sysOn && (h.proxy i).state == 1 then h.proxyFail i 10 else h)

/-- WAKE_VALIDATION_CLOSE: bit s of `high` says that source s read asserted throughout the window (R664). -/
def execWakeValidationClose (high : BitVec 12) (s : State) : Result :=
  .next (s.onHw fun h =>
    if h.sysOn && h.bit Reg.GIO_WAKE_VAL 39 && decide (h.pwr.judgeAt ≤ h.lc) then h.closeWindow high.toNat else h)

/-- WAKE_BACKOFF_END (R666). -/
def execWakeBackoffEnd (src : Fin 9) (s : State) : Result :=
  .next (s.onHw fun h => if h.aoOn && !h.inBackoff src then h.setBackoff src 0 else h)

/-- WAKE_BACKOFF_CLEAR: a write of GIO_WAKE_FW.CLEAR (R666, R683). -/
def execWakeBackoffClear (who : Who) (src : Fin 9) (s : State) : Result :=
  .next (s.onHw fun h =>
    if Hw.aoWriter who then (if h.aoOn then (h.wakeClear src).busOk 0 else h.busError)
    else (h.deny who true (Reg.GIO_WAKE_FW src)).busError)

/-- DI_DEBOUNCED_CHANGE (R679). -/
def execDiDebouncedChange (i : Fin 32) (level : Bool) (s : State) : Result := .next (s.onHw fun h => h.diChange i level)

/-- WAKE_LINE_RISE (R663). -/
def execWakeLineRise (s : State) : Result := .next (s.onHw fun h => h.wakeLineRise)

end Sys2Proof.Machine
end

