-- ==== Sys2Proof/Machine/Crest.lean ====
section
/-! DEFINITION. The Crest cluster: groups, the voter, signatures, resynchronisation, retirement, mode changes, alive
supervision and debug (R483 to R500, R526). -/

namespace Sys2Proof.Machine

/-- The operations of CRS_MODE_REQ and the results of CRS_MODE_STAT (R494, R502). -/
def opDetach : Nat := 1
def opHandover : Nat := 2
def opJoin : Nat := 3
def opRetire : Nat := 4
def opCancel : Nat := 5

namespace Hw

/-- The number of members of the duty group. -/
def dutySize (h : Hw) : Nat := h.duty.length

/-- A core is retired (R491). -/
def isRetired (h : Hw) (k : Nat) : Bool := bitN h.retiredMask k

/-- A JOIN of core k is pending. -/
def joining (h : Hw) (k : Nat) : Bool := h.crs.request == some (opJoin, k)

/-- A core is a single core: not duty, not retired, and neither held by a stop nor under resynchronisation (R484, R490,
R500). -/
def isSingle (h : Hw) (k : Nat) : Bool :=
  !bitN h.dutyMask k && !h.isRetired k && (h.crs.testing ≠ some k || h.joining k) && h.crs.held ≠ some k

/-- The mode as the partition of the cores names it (R484). -/
def modeOf (h : Hw) : Nat :=
  let singles := (crestCores.filter fun k => h.isSingle k.val).length
  match h.dutySize with
  | 3 => 1
  | 2 => if singles = 0 then 2 else 3
  | _ => if singles = 0 then 5 else 4

/-- CRS_STAT.MODE follows the partition. -/
def noteMode (h : Hw) : Hw := h.setFld Reg.CRS_STAT Fld.CRS_STAT_MODE h.modeOf

/-- The mode in force. -/
def mode (h : Hw) : Nat := h.fld Reg.CRS_STAT Fld.CRS_STAT_MODE

/-- Sets or clears a core's DUTY bit. -/
def setDuty (h : Hw) (k : Nat) (b : Bool) : Hw :=
  if b then h.setBit Reg.CRS_STAT k else h.clearBit Reg.CRS_STAT k

/-- A Crest core held in reset (R490, R491). -/
def holdCore (h : Hw) (k : Nat) : Hw := (h.setCrestCore k Core.crestInit).noteHalted (.crest ⟨k % 3, Nat.mod_lt _ (by decide)⟩) false

/-- A Crest core started from reset at a vector, with translation off (R494, R502). -/
def startCore (h : Hw) (k : Nat) (vec : Word) : Hw := h.setCrestCore k { Core.crestInit with pc := vec, inReset := false }

/-- The signature registers of the duty group cleared: a new window starts (R489). -/
def newWindow (h : Hw) : Hw := h.duty.foldl (fun h k => h.setCrestSig k.val 0) h

/-- The result of a mode request, with MODE_DONE when it completes or fails (R493, R502). -/
def modeResult (h : Hw) (op res : Nat) : Hw :=
  let h := h.setReg Reg.CRS_MODE_STAT (word (op * 16 + res))
  if res = 1 then h else h.setBit Reg.CRS_IRQ_STAT 4

/-- An update of the Crest firmware ends ABORTED (R698, R711). -/
def crestUpdateAborts (h : Hw) : Hw :=
  if h.upd.act.any fun a => a.type == 2 && a.started && !a.handed then { h with upd := { h.upd with act := none, updResult := 5 } } else h

/-- A pending request ends with a result; READY clears when a hand-over completes or ends (R493, R502). -/
def endRequest (h : Hw) (res : Nat) : Hw :=
  match h.crs.request with
  | none => h
  | some (op, _) =>
    let h := { h with crs := { h.crs with request := none, validated := false } }
    let h := h.clearBit Reg.CRS_STAT 17
    let h := if op = opHandover then h.setReg Reg.CRS_READY 0 else h
    let h := if op = opHandover ∧ res = 5 then h.crestUpdateAborts else h
    h.modeResult op res

/-- A core is retired: held in reset, in no group, counted (R491). A request on it ends with its own result elsewhere. -/
def retireCore (h : Hw) (k : Nat) : Hw :=
  let h := (h.holdCore k).setDuty k false
  let h := h.setBit Reg.CRS_STAT (4 + k)
  let h := if h.crs.testing = some k then { h with crs := { h.crs with testing := none } }.clearBit Reg.CRS_STAT 18 else h
  let h := if h.crs.held = some k then { h with crs := { h.crs with held := none } } else h
  ((h.count Reg.CRS_CNT_RETIRE).setBit Reg.CRS_IRQ_STAT 2).noteMode

/-- The duty group stops: members held in reset and restarted together at CRS_RESTART_VEC, RESTARTING until the first
CRS_ALIVE; at the third stop within 60 s of powered time held in reset until the next device reset. A core under
resynchronisation stays held, and a pending DETACH, JOIN or HANDOVER ends ABORTED (R492, R500). -/
def groupStop (h : Hw) : Hw :=
  let h := match h.crs.testing with
    | some k => ({ h with crs := { h.crs with testing := none, held := some k } }.clearBit Reg.CRS_STAT 18).holdCore k
    | none => h
  let h := match h.crs.request with
    | some (op, _) => if op = opRetire then h else h.endRequest 5
    | none => h
  let stops := (h.poweredMs :: h.crs.stops).take 3
  let off := stops.length = 3 && decide (h.poweredMs - stops.getLastD 0 < 60000)
  let h := { h with crs := { h.crs with stops := stops, off := off, lapse := false } }
  let vec := h.reg Reg.CRS_RESTART_VEC
  let h := h.duty.foldl (fun h k => if off then h.holdCore k else (h.holdCore k).startCore k vec) h
  let h := (h.setBit Reg.CRS_STAT 19).newWindow.noteMode
  (h.count Reg.CRS_CNT_RESTART).setBit Reg.CRS_IRQ_STAT 3

/-- The record of a mismatch: CRS_LAST_MIS with the odd cores, 0b111 when there is no majority, and how it was found
(R489, R502). -/
def noteMismatch (h : Hw) (odd : Nat) (bus : Bool) : Hw :=
  let h := h.setReg Reg.CRS_LAST_MIS (word (2 ^ 39 + odd * 2 ^ 33 + b2n bus * 2 ^ 32 + h.lc % 2 ^ 32))
  let h := h.count (if bus then Reg.CRS_CNT_VOTE else Reg.CRS_CNT_MISMATCH)
  h.setBit Reg.CRS_IRQ_STAT 0

/-- The resynchronisation of a core completed less than RETIRE_MS ms of powered time before (R491). -/
def recentResync (h : Hw) (k : Nat) : Bool :=
  match Tabs.get (fun _ => (0 : Nat)) h.crs.resyncAt k with
  | 0 => false
  | n + 1 => decide (h.poweredMs - n < h.fld Reg.CRS_CFG Fld.CRS_CFG_RETIRE_MS)

/-- One core of three is found odd: it leaves the voter and is held in reset for its self-test, or is retired; a pending
DETACH, JOIN or HANDOVER ends ABORTED (R490, R491, R500). -/
def oddCore (h : Hw) (k : Nat) (bus : Bool) : Hw :=
  let h := h.noteMismatch (2 ^ k) bus
  let h := match h.crs.request with
    | some (op, _) => if op = opRetire then h else h.endRequest 5
    | none => h
  if h.recentResync k then h.retireCore k
  else
    let h := (h.holdCore k).setDuty k false
    ({ h with crs := { h.crs with testing := some k } }.setBit Reg.CRS_STAT 18).noteMode

/-- A group that cannot decide: every member differs, or the two of a pair (R492). -/
def undecided (h : Hw) (bus : Bool) : Hw := (h.noteMismatch 7 bus).groupStop

/-- The member of three whose value is not the majority's: `none` when all agree, `some none` when all differ. -/
def oddOf {α : Type} [DecidableEq α] (l : List (Nat × α)) : Option (Option Nat) :=
  match l with
  | [(a, x), (b, y), (c, z)] =>
    if x = y then (if y = z then none else some (some c))
    else if x = z then some (some b) else if y = z then some (some a) else some none
  | [(_, x), (_, y)] => if x = y then none else some none
  | _ => none

/-- What the output voter does with the members' accesses: whether it issues them, and what it finds (R487). -/
def vote {α : Type} [DecidableEq α] (h : Hw) (l : List (Nat × α)) : Hw × Bool :=
  match oddOf l with
  | none => (h, true)
  | some (some k) => (h.oddCore k true, true)
  | some none => (h.undecided true, false)

/-- The comparison at the end of a window of a group of two or three: the signatures go to CRS_SIG, every one is compared and set to 0
(R489). -/
def compareWindow (h : Hw) : Hw × Bool :=
  if h.dutySize < 2 then (h, true)
  else
  let l : List (Nat × Word) := h.duty.map fun k => (k.val, h.crestSig k.val)
  let h := h.duty.foldl (fun h k => h.setReg (Reg.CRS_SIG k) (h.crestSig k)) h
  match oddOf l with
  | none => (h.newWindow, true)
  | some (some k) => ((h.oddCore k false).newWindow, false)
  | some none => (h.undecided false, false)

/-- HANDOVER step 3: identity, routing and holds pass to core k, and the former pair is held in reset (R495). -/
def passDuty (h : Hw) (k : Nat) : Hw :=
  let h := h.duty.foldl (fun h j => (h.holdCore j).setDuty j false) h
  let h := ((h.setDuty k true).noteMode).endRequest 0
  { h with upd := { h.upd with act := h.upd.act.map fun a => if a.type = 2 ∧ a.started then { a with handed := true } else a } }

/-- A pending request is carried out at a window boundary of the duty group (R493 to R495). A HANDOVER waits for its core's
second CRS_READY; a JOIN starts the core's self-test. -/
def carryOut (h : Hw) : Hw :=
  match h.crs.request with
  | none => h
  | some (op, k) =>
    if op = opDetach then
      let h := ((h.holdCore k).setDuty k false).startCore k (h.reg Reg.CRS_BOOT_VEC)
      (h.noteMode).endRequest 0
    else if op = opHandover then (if h.crs.validated then h.passDuty k else h)
    else if op = opJoin then
      (if h.crs.testing = some k then h
       else
        let h := h.holdCore k
        ({ h with crs := { h.crs with testing := some k } }.setBit Reg.CRS_STAT 18).noteMode)
    else (h.retireCore k).endRequest 0

end Hw

/-- CREST_WINDOW_BOUNDARY: the duty group of two or three compares; then a pending request is carried out, unless the
boundary found a mismatch, which is handled first (R489, R493, R500). -/
def execCrestWindowBoundary (s : State) : Result :=
  .next (s.onHw fun h =>
    if !h.crestOn || h.crs.off || h.duty.any fun k => (h.crestCore k).halted then h
    else
      let r := h.compareWindow
      if r.2 then r.1.carryOut else r.1)

namespace Hw

/-- The state of a core of the group is copied into another, which joins it; the caches of all three are invalidated, and
all start a new window (R490 steps 5 and 6). -/
def resyncCopy (h : Hw) (k : Nat) : Hw :=
  let from_ := h.crestCore (h.duty.headD 0)
  let h := (h.setCrestCore k from_).setDuty k true
  let h := { h with xlat := h.xlat.filter fun x => 8 ≤ x.core,
                    crs := { h.crs with testing := none, held := if h.crs.held = some k then none else h.crs.held,
                                        resyncAt := Tabs.set (fun _ => (0 : Nat)) h.crs.resyncAt k (h.poweredMs + 1) } }
  let h := (h.clearBit Reg.CRS_STAT 18).newWindow.noteMode
  (h.count Reg.CRS_CNT_RESYNC).setBit Reg.CRS_IRQ_STAT 1

/-- The self-test of an odd or joining core ends (R490 steps 3 to 6, R494). -/
def selftestDone (h : Hw) (pass : Bool) : Hw :=
  match h.crs.testing with
  | none => h
  | some k =>
    let joining := h.joining k
    if !pass then
      let h := h.retireCore k
      if joining then h.endRequest 7 else h
    else
      let r := h.compareWindow
      if !r.2 then r.1
      else
        let h := r.1.resyncCopy k
        if joining then h.endRequest 0 else h

/-- A mode request of the duty group or the secure world (R493, R494). Other identities' writes are ignored (R502). -/
def modeRequest (h : Hw) (who : Who) (op k : Nat) : Hw :=
  if who ≠ .crest ∧ who ≠ .secure then h
  else if op = opCancel then
    match h.crs.request with
    | some (o, j) =>
      if o = opHandover then h.endRequest 5
      else if o = opJoin then
        let h := if h.crs.testing = some j then
            ({ h with crs := { h.crs with testing := none } }.clearBit Reg.CRS_STAT 18).noteMode
          else h
        h.endRequest 5
      else h.modeResult op 4
    | none => h.modeResult op 4
  else if h.crs.request.isSome then h.modeResult op 2
  else if 3 ≤ k then h.modeResult op 3
  else
    let m := h.mode
    let duty := bitN h.dutyMask k
    let ok :=
      if op = opDetach then m == 1 && duty
      else if op = opHandover then m == 3 && h.isSingle k && h.bit Reg.CRS_READY 0
      else if op = opJoin then (m == 4 || m == 3 || m == 2) && !duty && !h.isRetired k && h.crs.testing ≠ some k
      else m ≠ 5 && !h.isRetired k && !(duty && h.dutySize == 1)
    if !ok then h.modeResult op 4
    else
      let h := { h with crs := { h.crs with request := some (op, k), validated := false } }
      let h := (h.setBit Reg.CRS_STAT 17).modeResult op 1
      if h.dutySize = 1 then h.carryOut else h

end Hw

/-- RESYNC_SELFTEST_DONE. -/
def execResyncSelftestDone (pass : Bool) (s : State) : Result := .next (s.onHw fun h => h.selftestDone pass)

/-- MODE_DETACH: a request of CRS_MODE_REQ with OP DETACH (R494). -/
def execModeDetach (who : Who) (k : Fin 4) (s : State) : Result := .next (s.onHw fun h => h.guarded who Reg.CRS_MODE_REQ fun h => h.modeRequest who opDetach k)

/-- MODE_HANDOVER (R494, R495). -/
def execModeHandover (who : Who) (k : Fin 4) (s : State) : Result := .next (s.onHw fun h => h.guarded who Reg.CRS_MODE_REQ fun h => h.modeRequest who opHandover k)

/-- MODE_JOIN (R494). -/
def execModeJoin (who : Who) (k : Fin 4) (s : State) : Result := .next (s.onHw fun h => h.guarded who Reg.CRS_MODE_REQ fun h => h.modeRequest who opJoin k)

/-- MODE_RETIRE (R494). -/
def execModeRetire (who : Who) (k : Fin 4) (s : State) : Result := .next (s.onHw fun h => h.guarded who Reg.CRS_MODE_REQ fun h => h.modeRequest who opRetire k)

/-- MODE_CANCEL (R494). -/
def execModeCancel (who : Who) (s : State) : Result := .next (s.onHw fun h => h.guarded who Reg.CRS_MODE_REQ fun h => h.modeRequest who opCancel 0)

/-- HANDOVER_TIMEOUT: the pending HANDOVER has not passed the duties by R + 20 ms and ends ABORTED (R495); in an update of the Crest
firmware, the detached core has not written CRS_READY by A + 200 ms (R698). -/
def execHandoverTimeout (s : State) : Result :=
  .next (s.onHw fun h => if h.crs.request.any fun r => r.1 == opHandover then h.endRequest 5
    else if h.crs.request.isNone && h.upd.act.any (fun a => decide (a.lc + 200 ≤ h.lc)) then h.crestUpdateAborts else h)

/-- A write of CRS_ALIVE by the duty group restarts the timer, ends a lapse and ends RESTARTING (R492, R497). -/
def Hw.aliveWrite (h : Hw) (who : Who) : Hw :=
  if who ≠ .crest then h
  else ({ h with crs := { h.crs with lapse := false } }.setBit Reg.CRS_STAT 16).clearBit Reg.CRS_STAT 19

/-- CRS_ALIVE. -/
def execCrsAlive (who : Who) (_token : BitVec 40) (s : State) : Result := .next (s.onHw fun h => h.guarded who Reg.CRS_ALIVE fun h => h.aliveWrite who)

/-- The duty group is halted for debug. -/
def Hw.dutyHalted (h : Hw) : Bool := h.duty.any fun k => (h.crestCore k).halted

/-- ALIVE_LAPSE: no write within ALIVE_MS, with the timer frozen while the duty group is halted (R497). -/
def execAliveLapse (s : State) : Result :=
  .next (s.onHw fun h =>
    if !h.crestOn || h.dutyHalted || h.crs.lapse || h.crs.off then h
    else
      let h := { h with crs := { h.crs with lapse := true } }
      ((h.clearBit Reg.CRS_STAT 16).count Reg.CRS_CNT_ALIVE).setBit Reg.CRS_IRQ_STAT 5)

/-- ALIVE_LAPSE_LIMIT: a lapse of 4 × ALIVE_MS stops and restarts the duty group (R492, R497). -/
def execAliveLapseLimit (s : State) : Result :=
  .next (s.onHw fun h => if h.crs.lapse && !h.dutyHalted then h.groupStop else h)

/-- DEBUG_HALT: a debug request halts every member of the group, or waits for an enabled state (R498, R526). -/
def execDebugHalt (c : CoreId) (s : State) : Result :=
  .next (
    if !s.debugPort || c.isEngine || !s.hw.corePowered c || (s.hw.coreOf c).inReset then s
    else if s.invasive c then s.onHw fun h => h.setHalted c true
    else s.onHw fun h => (h.members c).foldl (fun h m => h.setCore m { h.coreOf m with haltPending := true }) h)

/-- DEBUG_RESUME: every member of a halted group resumes (R498). -/
def execDebugResume (c : CoreId) (s : State) : Result :=
  .next (if s.debugPort && (s.hw.coreOf c).halted then s.onHw fun h => h.setHalted c false else s)

/-- DEBUG_STEP: every member of a halted group executes one instruction, the group's next, while invasive debug is enabled for it
(R498, R526). -/
def execDebugStep (c : CoreId) (s : State) : Result :=
  .next (
    if s.debugPort && s.invasive c && (s.hw.coreOf c).halted then
      s.onHw fun h => (h.members c).foldl (fun h m => h.setCore m { h.coreOf m with stepping := true }) h
    else s)

end Sys2Proof.Machine
end

