-- ==== Sys2Proof/Machine/JournalRows.lean ====
section
/-! DEFINITION. The commands of the journal unit: absent markers, external inputs, the settings of logical time, export (R363,
R364, R367, R384 to R386, R390). -/

namespace Sys2Proof.Machine

/-- ABSENT_MARKING: at SI(n + H) or later, or at step 1 of a Dusk (R81), every input of cycle n that is not known gets an absent marker; speculative steps that
used the substitutes become certain (R364, R372, R374). -/
def execAbsentMarking (n : Nat) (s : State) : Result :=
  .next (s.onHw fun h =>
    if !h.journalOn || !h.carriesInputs n || (h.pstate ≠ 4 && decide (h.lc < n + h.horizon)) then h else (h.markAbsent n).settleAll)

/-- EXT_IN: a value of an external channel arrives (R362, R363, R372). -/
def execExtIn (c : Fin 256) (lc : Nat) (v st : Word) (s : State) : Result :=
  .next (s.onHw fun h => if !h.journalOn then h else (h.extArrive c lc v st).1)

/-- FAB_LT_CFG after a write: a field out of its range stays as it was last written (R13, R390). -/
def ltCfgMerge (old w : Word) : Word :=
  let f := fun (hi lo a b : Nat) => if a ≤ bitsOf w hi lo ∧ bitsOf w hi lo ≤ b then bitsOf w hi lo else bitsOf old hi lo
  word (f 39 32 0 64 * 2 ^ 32 + f 25 16 4 1000 * 2 ^ 16 + f 10 0 20 2000)

/-- The settings take effect at the next SI (R367). -/
def Hw.setLtCfg (h : Hw) (w : Word) : Hw :=
  { h with fab := { h.fab with ltCfg := some (ltCfgMerge (h.fab.ltCfg.getD (h.reg Reg.FAB_LT_CFG)) w) } }

/-- LT_CFG_WRITE: a write of HORIZON, LEAD and DEPTH (R367, R390). -/
def execLtCfgWrite (who : Who) (w : Word) (s : State) : Result :=
  .next (s.onHw fun h => h.guarded who Reg.FAB_LT_CFG fun h => h.setLtCfg w)

/-! ### Export (R384 to R386) -/

/-- A datagram of the export stream (R385). -/
def Hw.datagram (h : Hw) (flags jpos : Nat) (ws : List Word) : List Byte :=
  let body := [0x4B#8, 0x4A#8, 0x01#8, byte flags] ++ beBytes 2 h.cfg.deviceId ++ beBytes 3 h.log.boot ++ beBytes 5 jpos ++
    beBytes 2 ws.length ++ wordsBytes ws
  body ++ beBytes 4 (crc32c body).toNat

/-- A datagram goes to every declared collector (R384). -/
def Hw.toCollectors (h : Hw) (b : List Byte) : Hw := h.cfg.fab.collectors.foldl (fun h c => h.send (.collector c) b) h

/-- The container of a journal position (R379). -/
def Hw.journalCell (h : Hw) (j : Nat) : Container := h.ram (dramBase + j % 2 ^ 30)

/-- A journal word is still held (R379). -/
def Hw.journalHeld (h : Hw) (j : Nat) : Bool := decide ((h.wpos + 2 ^ 40 - j % 2 ^ 40) % 2 ^ 40 ≤ 2 ^ 30)

/-- The journal words of a range are read (R147, R148). -/
def Hw.journalFound (h : Hw) (j n : Nat) : Hw := (List.range n).foldl (fun h i => h.eccRead (dramBase + (j + i) % 2 ^ 30)) h

/-- The words that a datagram can carry from a position: up to n, before WPOS and before a poisoned container. -/
def Hw.journalRun (h : Hw) (j : Nat) : Nat → List Word
  | 0 => []
  | n + 1 =>
    if j % 2 ^ 40 = h.wpos ∨ (h.journalCell j).poisoned then [] else (h.journalCell j).data :: h.journalRun (j + 1) n

/-- The exporter runs: VM0 runs and the DRAM is on (R384). -/
def Hw.exporterOn (h : Hw) : Bool := (h.vmSlot 0).state = .running && h.dramOn

/-- In a Dusk, the end-of-Day record ends the journal once every closed cycle is committed (R80 step 2). -/
def Hw.endDay (h : Hw) : Hw :=
  if h.pstate == 4 && h.journalOn && h.fab.spanStart ≠ 0 && !h.fab.ended && decide (h.fab.spanEnd ≤ h.lcCommit + 1) then
    let h := h.note 0x0D 0x03 [word (h.fab.spanEnd - 1)]
    { h with fab := { h.fab with ended := true } }
  else h

/-- JOURNAL_EXPORT_DATAGRAM: the exporter sends up to n + 1 words from FAB_JNL_XPOS on; words overwritten or poisoned give a GAP
record in their place (R149, R384 to R386). -/
def execJournalExportDatagram (n : Fin 290) (s : State) : Result :=
  .next (s.onHw fun h =>
    let x := (h.reg Reg.FAB_JNL_XPOS).toNat
    let h := if h.exporterOn then h.journalFound x (n + 1) else h
    if !h.exporterOn || x = h.wpos then h
    else
      let gap (lost : Nat) : Hw :=
        let h := h.toCollectors (h.datagram 0x20 x [Hw.recordHeader 0x3E 1 0 0 0 0 0, word lost])
        { h.setReg Reg.FAB_JNL_XPOS (word (x + lost)) with fab := { h.fab with exportGap := true } }
      if !h.journalHeld x then gap ((h.wpos + 2 ^ 40 - x) % 2 ^ 40 - 2 ^ 30)
      else match h.journalRun x (n + 1) with
        | [] => gap 1
        | ws =>
          let h := h.toCollectors (h.datagram (if h.fab.exportGap then 0x80 else 0) x ws)
          { h.setReg Reg.FAB_JNL_XPOS (word (x + ws.length)) with fab := { h.fab with exportGap := false } })

/-- The datagrams that answer a request, up to 290 words each; a poisoned word gives a GAP record in its place (R149, R386). -/
def Hw.resend (h : Hw) (j : Nat) : Nat → Nat → Hw
  | 0, _ => h
  | _, 0 => h
  | fuel + 1, n =>
    let h := h.journalFound j (min n 290)
    match h.journalRun j (min n 290) with
    | [] =>
      if j % 2 ^ 40 = h.wpos then h
      else (h.toCollectors (h.datagram 0x60 j [Hw.recordHeader 0x3E 1 0 0 0 0 0, word 1])).resend (j + 1) fuel (n - 1)
    | ws => (h.toCollectors (h.datagram 0x40 j ws)).resend (j + ws.length) fuel (n - ws.length)

/-- EXPORT_RETRANSMIT_REQUEST: a declared collector asks for words; those of them still held are sent again; any other source is
ignored (R386). -/
def execExportRetransmitRequest (src : Nat) (jpos : Word) (n : Fin 65536) (s : State) : Result :=
  .next (s.onHw fun h =>
    if !h.exporterOn || !h.cfg.fab.collectors.contains src then h
    else
      let behind := (h.wpos + 2 ^ 40 - jpos.toNat) % 2 ^ 40 - 2 ^ 30
      h.resend ((jpos.toNat + behind) % 2 ^ 40) (n + 1) (n.val - behind))

end Sys2Proof.Machine
end

