-- ==== Sys2Proof/Machine/Cards.lean ====
section
/-! DEFINITION. The access codes of the register cards of spec/ (R9): for each register or array of registers the bits that a
write sets, clears or sets by a 1, and the bits that a read clears; and the values of a field that are no reserved encodings. -/

namespace Sys2Proof.Machine

/-- Which values of a field are no reserved encodings (R13). -/
inductive Legal where
  | range (lo hi : Nat)
  | notEq (v : Nat)
  | zeroOr (lo hi : Nat)
  | low12 (v : Nat)
  deriving DecidableEq, Repr

/-- The value is no reserved encoding. -/
def Legal.ok : Legal → Nat → Bool
  | .range lo hi, v => decide (lo ≤ v) && decide (v ≤ hi)
  | .notEq w, v => v ≠ w
  | .zeroOr lo hi, v => v == 0 || (decide (lo ≤ v) && decide (v ≤ hi))
  | .low12 w, v => v % 4096 == w

/-- A card: the first address, count and stride of its outer and of its inner index; its RW, W1C, W1S and RC bits; and the fields
with reserved encodings. -/
structure Card where
  base : Nat
  n : Nat
  s : Nat
  m : Nat
  t : Nat
  rw : Nat
  w1c : Nat
  w1s : Nat
  rc : Nat
  legal : List (Nat × Nat × Legal)
  deriving DecidableEq, Repr

/-- The card covers an address. -/
def Card.covers (c : Card) (a : Nat) : Bool :=
  decide (c.base ≤ a) && decide ((a - c.base) / c.s < c.n) && decide ((a - c.base) % c.s / c.t < c.m) && decide ((a - c.base) % c.s % c.t = 0)

namespace Cards

def pwr : List Card := [
  ⟨0x10000002, 1, 0x1, 1, 0x1, 0xFFFFFFFFFF, 0x0, 0x0, 0x0, []⟩,
  ⟨0x10000004, 1, 0x1, 1, 0x1, 0xC0FFFFFFFF, 0x0, 0x0, 0x0, [(39, 38, .notEq 3), (31, 0, .range 1000 86400000)]⟩,
  ⟨0x10000005, 1, 0x1, 1, 0x1, 0xFFFFFFFFFF, 0x0, 0x0, 0x0, [(39, 0, .range 0 549755813887)]⟩,
  ⟨0x1000000A, 1, 0x1, 1, 0x1, 0x0, 0x1FFFFFF, 0x0, 0x0, []⟩,
  ⟨0x10000010, 1, 0x1, 1, 0x1, 0xFFFFFFFFFF, 0x0, 0x0, 0x0, []⟩,
  ⟨0x10000011, 1, 0x1, 1, 0x1, 0xFFFFFFFFFF, 0x0, 0x0, 0x0, []⟩,
  ⟨0x10000016, 1, 0x1, 1, 0x1, 0x0, 0x0, 0x0, 0xFFFFFFFFFF, []⟩
]

def clk : List Card := [
  ⟨0x10010001, 1, 0x1, 1, 0x1, 0xFFFFFFFFFF, 0x0, 0x0, 0x0, []⟩
]

def wake : List Card := [
  ⟨0x10010010, 1, 0x1, 1, 0x1, 0x9FF, 0x0, 0x0, 0x0, []⟩,
  ⟨0x10010012, 1, 0x1, 1, 0x1, 0xFFFFFFFFFF, 0x0, 0x0, 0x0, []⟩
]

def grd : List Card := [
  ⟨0x10020000, 1, 0x1, 1, 0x1, 0xFFFF0000, 0x0, 0x1, 0x0, [(31, 24, .range 1 255), (23, 16, .range 1 255)]⟩,
  ⟨0x10020003, 1, 0x1, 1, 0x1, 0x3FFFF, 0x0, 0x0, 0x0, []⟩,
  ⟨0x10020004, 1, 0x1, 1, 0x1, 0xFF, 0x0, 0x0, 0x0, []⟩,
  ⟨0x10020005, 1, 0x1, 1, 0x1, 0xFFFFFFFFFF, 0x0, 0x0, 0x0, []⟩,
  ⟨0x10020006, 1, 0x1, 1, 0x1, 0x0, 0x8, 0x0, 0x0, []⟩,
  ⟨0x10020010, 1, 0x1, 1, 0x1, 0x0, 0x8000000000, 0x0, 0x0, []⟩,
  ⟨0x10020020, 1, 0x1, 1, 0x1, 0x0, 0x0, 0x0, 0xFFFFFFFFFF, []⟩,
  ⟨0x10020021, 1, 0x1, 1, 0x1, 0x0, 0x0, 0x0, 0xFFFFFFFFFF, []⟩,
  ⟨0x10020022, 1, 0x1, 1, 0x1, 0x0, 0x0, 0x0, 0xFFFFFFFFFF, []⟩,
  ⟨0x10020023, 1, 0x1, 1, 0x1, 0x0, 0x0, 0x0, 0xFFFFFFFFFF, []⟩,
  ⟨0x10020024, 1, 0x1, 1, 0x1, 0x0, 0x0, 0x0, 0xFFFFFFFFFF, []⟩,
  ⟨0x10020025, 1, 0x1, 1, 0x1, 0x0, 0x0, 0x0, 0xFFFFFFFFFF, []⟩,
  ⟨0x10020030, 1, 0x1, 1, 0x1, 0x0, 0xF, 0x0, 0x0, []⟩,
  ⟨0x10020031, 1, 0x1, 1, 0x1, 0xF, 0x0, 0x0, 0x0, []⟩,
  ⟨0x10020100, 512, 0x1, 1, 0x1, 0xFFFFFFFFFF, 0x0, 0x0, 0x0, []⟩,
  ⟨0x10020400, 928, 0x1, 1, 0x1, 0xFC000FFFFF, 0x0, 0x0, 0x0, []⟩,
  ⟨0x10021000, 16, 0x500, 160, 0x8, 0x3FC0, 0x0, 0x0, 0x0, []⟩,
  ⟨0x10021001, 16, 0x500, 128, 0x8, 0xBFBFBFBFBF, 0x0, 0x0, 0x0, []⟩,
  ⟨0x10021002, 16, 0x500, 128, 0x8, 0xBFBFBFBFBF, 0x0, 0x0, 0x0, []⟩,
  ⟨0x10021003, 16, 0x500, 128, 0x8, 0xBFBFBFBFBF, 0x0, 0x0, 0x0, []⟩,
  ⟨0x10021004, 16, 0x500, 128, 0x8, 0xBFBFBFBFBF, 0x0, 0x0, 0x0, []⟩,
  ⟨0x10021401, 16, 0x500, 32, 0x8, 0xBFBFBFBF00, 0x0, 0x0, 0x0, []⟩,
  ⟨0x10026000, 8192, 0x1, 1, 0x1, 0xFFFFFFFFFF, 0x0, 0x0, 0x0, []⟩
]

def fuse : List Card := [
  ⟨0x10030040, 7, 0x1, 1, 0x1, 0xFFFFFFFFFF, 0x0, 0x0, 0x0, []⟩
]

def time : List Card := [
  ⟨0x10040000, 1, 0x1, 1, 0x1, 0x3, 0x0, 0x0, 0x0, []⟩,
  ⟨0x10040009, 1, 0x1, 1, 0x1, 0xFFFFFFFFFF, 0x0, 0x0, 0x0, []⟩,
  ⟨0x1004000C, 1, 0x1, 1, 0x1, 0xFFFFFFC0FF, 0x0, 0x0, 0x0, [(39, 26, .range 1 10000), (25, 14, .range 10 4000), (7, 0, .range 1 255)]⟩,
  ⟨0x10040011, 1, 0x1, 1, 0x1, 0x7FFFF, 0x0, 0x0, 0x0, []⟩,
  ⟨0x10040020, 1, 0x1, 1, 0x1, 0xF, 0x0, 0x0, 0x0, []⟩,
  ⟨0x10040030, 1, 0x1, 1, 0x1, 0x3FFFFFFFFF, 0x0, 0x0, 0x0, []⟩,
  ⟨0x10040038, 1, 0x1, 1, 0x1, 0x0, 0x0, 0x0, 0xFFFFFFFFFF, []⟩,
  ⟨0x10040039, 1, 0x1, 1, 0x1, 0x0, 0x0, 0x0, 0xFFFFFFFFFF, []⟩,
  ⟨0x1004003A, 1, 0x1, 1, 0x1, 0x0, 0x0, 0x0, 0xFFFFFFFFFF, []⟩,
  ⟨0x1004003B, 1, 0x1, 1, 0x1, 0x0, 0x0, 0x0, 0xFFFFFFFFFF, []⟩,
  ⟨0x1004003C, 1, 0x1, 1, 0x1, 0x0, 0x0, 0x0, 0xFFFFFFFFFF, []⟩,
  ⟨0x10040040, 1, 0x1, 1, 0x1, 0x0, 0xFF, 0x0, 0x0, []⟩,
  ⟨0x10040041, 1, 0x1, 1, 0x1, 0xFF, 0x0, 0x0, 0x0, []⟩,
  ⟨0x10040048, 1, 0x1, 1, 0x1, 0xFFF0000000, 0x0, 0x0, 0x0, [(39, 38, .notEq 3), (37, 28, .range 1 900)]⟩,
  ⟨0x10040100, 8, 0x4, 1, 0x1, 0xF000000000, 0x0, 0x0, 0x0, [(37, 36, .range 0 1)]⟩,
  ⟨0x10040101, 8, 0x4, 3, 0x1, 0xFFFFFFFFFF, 0x0, 0x0, 0x0, []⟩,
  ⟨0x10040200, 16, 0x4, 1, 0x1, 0xC000000000, 0x0, 0x0, 0x0, []⟩,
  ⟨0x10040201, 16, 0x4, 3, 0x1, 0xFFFFFFFFFF, 0x0, 0x0, 0x0, []⟩
]

/-- The cards of VNK. DESIGN CHOICE (log entry 50): a value outside a range that a card states for a field without calling it reserved, as
those of NCELL, NAUX, NSPARE and NCMD, is a reserved encoding of R13, and the field keeps its value. -/
def vnk : List Card := [
  ⟨0x10100000, 16, 0x1000, 1, 0x1, 0x7, 0x0, 0x0, 0x0, []⟩,
  ⟨0x10100010, 16, 0x1000, 1, 0x1, 0x0, 0x0, 0x0, 0xFFFFFFFFFF, []⟩,
  ⟨0x10100011, 16, 0x1000, 1, 0x1, 0x0, 0x0, 0x0, 0xFFFFFFFFFF, []⟩,
  ⟨0x10100012, 16, 0x1000, 1, 0x1, 0x0, 0x0, 0x0, 0xFFFFFFFFFF, []⟩,
  ⟨0x10100013, 16, 0x1000, 1, 0x1, 0x0, 0x0, 0x0, 0xFFFFFFFFFF, []⟩,
  ⟨0x10100014, 16, 0x1000, 1, 0x1, 0x0, 0x0, 0x0, 0xFFFFFFFFFF, []⟩,
  ⟨0x10100015, 16, 0x1000, 1, 0x1, 0x0, 0x0, 0x0, 0xFFFFFFFFFF, []⟩,
  ⟨0x10100100, 16, 0x1000, 1, 0x1, 0xFFFFFFFFC0, 0x0, 0x0, 0x0, []⟩,
  ⟨0x10100101, 16, 0x1000, 1, 0x1, 0xFFFFFFFFFF, 0x0, 0x0, 0x0, [(39, 32, .range 0 128), (31, 24, .range 0 32), (23, 16, .range 0 16), (15, 8, .range 0 16)]⟩,
  ⟨0x10100104, 16, 0x1000, 4, 0x1, 0xFFFFFFFFFF, 0x0, 0x0, 0x0, []⟩,
  ⟨0x10100108, 16, 0x1000, 1, 0x1, 0xE0FFFFFF, 0x0, 0x0, 0x0, [(23, 16, .range 1 255), (15, 0, .range 1 65535)]⟩,
  ⟨0x1010010C, 16, 0x1000, 1, 0x1, 0x0, 0x0, 0x0, 0xFFFFFFFFFF, []⟩,
  ⟨0x1010010D, 16, 0x1000, 1, 0x1, 0x0, 0x0, 0x0, 0xFFFFFFFFFF, []⟩,
  ⟨0x1010010E, 16, 0x1000, 1, 0x1, 0x0, 0x0, 0x0, 0xFFFFFFFFFF, []⟩,
  ⟨0x10100110, 16, 0x1000, 7, 0x1, 0xFFFFFFFFFF, 0x0, 0x0, 0x0, []⟩,
  ⟨0x10100120, 16, 0x1000, 1, 0x1, 0x3FFFFFFFF, 0x0, 0x0, 0x0, []⟩,
  ⟨0x10100121, 16, 0x1000, 1, 0x1, 0x3F00, 0x0, 0x0, 0x0, []⟩,
  ⟨0x10100300, 16, 0x1000, 160, 0x1, 0x0, 0x0, 0x0, 0x3FFFFFFF, []⟩,
  ⟨0x10100400, 16, 0x1000, 128, 0x1, 0xFFFF, 0x0, 0x0, 0x0, []⟩,
  ⟨0x10100800, 1, 0x1, 1, 0x1, 0xFF0000, 0x0, 0x1, 0x0, [(23, 16, .range 0 15)]⟩,
  ⟨0x10100802, 1, 0x1, 1, 0x1, 0x0, 0xFFFFFFFF, 0x0, 0x0, []⟩,
  ⟨0x10100803, 1, 0x1, 1, 0x1, 0xFFFFFFFF, 0x0, 0x0, 0x0, []⟩
]

def snp : List Card := [
  ⟨0x10200000, 1, 0x1, 1, 0x1, 0xFFFF0000, 0x0, 0x1, 0x0, [(31, 16, .range 100 3000)]⟩,
  ⟨0x10200010, 1, 0x1, 1, 0x1, 0x7FFFF, 0x0, 0x0, 0x0, [(15, 0, .range 0 49151)]⟩,
  ⟨0x10200012, 1, 0x1, 1, 0x1, 0xFFFFFFFFFF, 0x0, 0x0, 0x0, []⟩,
  ⟨0x10200020, 1, 0x1, 1, 0x1, 0x0, 0x0, 0x0, 0xFFFFFFFFFF, []⟩,
  ⟨0x10200021, 1, 0x1, 1, 0x1, 0x0, 0x0, 0x0, 0xFFFFFFFFFF, []⟩,
  ⟨0x10200022, 1, 0x1, 1, 0x1, 0x0, 0x0, 0x0, 0xFFFFFFFFFF, []⟩,
  ⟨0x10200023, 1, 0x1, 1, 0x1, 0x0, 0x0, 0x0, 0xFFFFFFFFFF, []⟩,
  ⟨0x10200024, 1, 0x1, 1, 0x1, 0x0, 0x0, 0x0, 0xFFFFFFFFFF, []⟩,
  ⟨0x10200025, 1, 0x1, 1, 0x1, 0x0, 0x0, 0x0, 0xFFFFFFFFFF, []⟩,
  ⟨0x10200030, 1, 0x1, 1, 0x1, 0x0, 0x1F, 0x0, 0x0, []⟩,
  ⟨0x10200031, 1, 0x1, 1, 0x1, 0x1F, 0x0, 0x0, 0x0, []⟩,
  ⟨0x10200040, 1, 0x1, 1, 0x1, 0x1F, 0x0, 0x0, 0x0, []⟩,
  ⟨0x10200041, 1, 0x1, 1, 0x1, 0xFFFFFFFF00, 0x0, 0x0, 0x0, []⟩,
  ⟨0x10200042, 1, 0x1, 1, 0x1, 0xFFFFFFFFFF, 0x0, 0x0, 0x0, []⟩,
  ⟨0x10200043, 1, 0x1, 1, 0x1, 0xFFFFFFFFFF, 0x0, 0x0, 0x0, []⟩
]

def fab : List Card := [
  ⟨0x10300000, 1, 0x1, 1, 0x1, 0x7F000006, 0x0, 0x1, 0x0, [(30, 24, .range 10 90)]⟩,
  ⟨0x10300005, 1, 0x1, 1, 0x1, 0x0, 0x0, 0x0, 0xFFFFF, []⟩,
  ⟨0x10300007, 1, 0x1, 1, 0x1, 0xFFFFFFFFFF, 0x0, 0x0, 0x0, []⟩,
  ⟨0x10300008, 1, 0x1, 1, 0x1, 0x0, 0x3F, 0x0, 0x0, []⟩,
  ⟨0x10300009, 1, 0x1, 1, 0x1, 0x3F, 0x0, 0x0, 0x0, []⟩,
  ⟨0x1030000D, 1, 0x1, 1, 0x1, 0xFFFFFFFFFF, 0x0, 0x0, 0x0, []⟩,
  ⟨0x10300010, 1, 0x1, 1, 0x1, 0xFFFF0000, 0x0, 0x0, 0x0, []⟩,
  ⟨0x10300018, 1, 0x1, 1, 0x1, 0x1F, 0x0, 0x0, 0x0, []⟩,
  ⟨0x10300028, 1, 0x1, 1, 0x1, 0x7FFF, 0x0, 0x0, 0x0, [(14, 0, .range 0 17743)]⟩,
  ⟨0x10300030, 1, 0x1, 1, 0x1, 0xFFFFF, 0x0, 0x0, 0x0, [(19, 0, .range 1000 600000)]⟩,
  ⟨0x10300038, 1, 0x1, 1, 0x1, 0x0, 0x0, 0x0, 0xFFFFFFFFFF, []⟩,
  ⟨0x10300039, 1, 0x1, 1, 0x1, 0x0, 0x0, 0x0, 0xFFFFFFFFFF, []⟩,
  ⟨0x1030003A, 1, 0x1, 1, 0x1, 0x0, 0x0, 0x0, 0xFFFFFFFFFF, []⟩,
  ⟨0x1030003B, 1, 0x1, 1, 0x1, 0x0, 0x0, 0x0, 0xFFFFFFFFFF, []⟩,
  ⟨0x1030003C, 1, 0x1, 1, 0x1, 0x0, 0x0, 0x0, 0xFFFFFFFFFF, []⟩,
  ⟨0x1030003D, 1, 0x1, 1, 0x1, 0x0, 0x0, 0x0, 0xFFFFFFFFFF, []⟩,
  ⟨0x1030003E, 1, 0x1, 1, 0x1, 0x0, 0x0, 0x0, 0xFFFFFFFFFF, []⟩
]

def crs : List Card := [
  ⟨0x10400001, 1, 0x1, 1, 0x1, 0x1FFFF, 0x0, 0x0, 0x0, [(16, 0, .range 256 65536)]⟩,
  ⟨0x10400002, 1, 0x1, 1, 0x1, 0xFFFFFFF, 0x0, 0x0, 0x0, [(27, 20, .range 1 255), (19, 0, .range 1000 1048575)]⟩,
  ⟨0x10400007, 1, 0x1, 1, 0x1, 0x3FFFFFFFF, 0x0, 0x0, 0x0, []⟩,
  ⟨0x10400008, 1, 0x1, 1, 0x1, 0x3FFFFFFFF, 0x0, 0x0, 0x0, []⟩,
  ⟨0x10400014, 1, 0x1, 1, 0x1, 0x0, 0x8000000000, 0x0, 0x0, []⟩,
  ⟨0x10400020, 1, 0x1, 1, 0x1, 0x0, 0x0, 0x0, 0xFFFFFFFFFF, []⟩,
  ⟨0x10400021, 1, 0x1, 1, 0x1, 0x0, 0x0, 0x0, 0xFFFFFFFFFF, []⟩,
  ⟨0x10400022, 1, 0x1, 1, 0x1, 0x0, 0x0, 0x0, 0xFFFFFFFFFF, []⟩,
  ⟨0x10400023, 1, 0x1, 1, 0x1, 0x0, 0x0, 0x0, 0xFFFFFFFFFF, []⟩,
  ⟨0x10400024, 1, 0x1, 1, 0x1, 0x0, 0x0, 0x0, 0xFFFFFFFFFF, []⟩,
  ⟨0x10400025, 1, 0x1, 1, 0x1, 0x0, 0x0, 0x0, 0xFFFFFFFFFF, []⟩,
  ⟨0x10400030, 1, 0x1, 1, 0x1, 0x0, 0x3F, 0x0, 0x0, []⟩,
  ⟨0x10400031, 1, 0x1, 1, 0x1, 0x3F, 0x0, 0x0, 0x0, []⟩
]

def irq : List Card := [
  ⟨0x10500000, 1, 0x1, 1, 0x1, 0x0, 0x0, 0x1, 0x0, []⟩,
  ⟨0x10500020, 1, 0x1, 1, 0x1, 0x0, 0x0, 0x0, 0xFFFFFFFFFF, []⟩,
  ⟨0x10501000, 1024, 0x1, 1, 0x1, 0xFFFF0001, 0x0, 0x0, 0x0, []⟩,
  ⟨0x10501400, 512, 0x1, 1, 0x1, 0xFFFFF, 0x0, 0x0, 0x0, []⟩
]

def mbx : List Card := [
  ⟨0x10600000, 1, 0x1, 1, 0x1, 0x0, 0x0, 0x1, 0x0, []⟩,
  ⟨0x10600010, 1, 0x1, 1, 0x1, 0x0, 0x0, 0x0, 0xFFFFFFFFFF, []⟩,
  ⟨0x10600011, 1, 0x1, 1, 0x1, 0x0, 0x0, 0x0, 0xFFFFFFFFFF, []⟩,
  ⟨0x10600012, 1, 0x1, 1, 0x1, 0x0, 0x0, 0x0, 0xFFFFFFFFFF, []⟩,
  ⟨0x10600013, 1, 0x1, 1, 0x1, 0x0, 0x0, 0x0, 0xFFFFFFFFFF, []⟩,
  ⟨0x10600014, 1, 0x1, 1, 0x1, 0x0, 0x0, 0x0, 0xFFFFFFFFFF, []⟩,
  ⟨0x10600015, 1, 0x1, 1, 0x1, 0x0, 0x0, 0x0, 0xFFFFFFFFFF, []⟩,
  ⟨0x10600100, 64, 0x10, 1, 0x1, 0x3FFFFFFFF, 0x0, 0x0, 0x0, []⟩,
  ⟨0x10600800, 16, 0x8, 1, 0x1, 0xFF1FFFFFFF, 0x0, 0x0, 0x0, [(39, 32, .range 1 255)]⟩
]

def lsi : List Card := [
  ⟨0x10700000, 1, 0x1, 1, 0x1, 0x0, 0x0, 0x1, 0x0, []⟩,
  ⟨0x10700001, 1, 0x1, 1, 0x1, 0x0, 0xF000, 0x0, 0x0, []⟩,
  ⟨0x10700002, 1, 0x1, 1, 0x1, 0x7FF003F, 0x0, 0x0, 0x0, [(26, 16, .range 150 2000), (5, 0, .range 2 50)]⟩,
  ⟨0x10700010, 1, 0x1, 1, 0x1, 0xFFFFFFFFFF, 0x0, 0x0, 0x0, []⟩,
  ⟨0x10700020, 1, 0x1, 1, 0x1, 0x0, 0x0, 0x0, 0xFFFFFFFFFF, []⟩,
  ⟨0x10700021, 1, 0x1, 1, 0x1, 0x0, 0x0, 0x0, 0xFFFFFFFFFF, []⟩,
  ⟨0x10700022, 1, 0x1, 1, 0x1, 0x0, 0x0, 0x0, 0xFFFFFFFFFF, []⟩,
  ⟨0x10700023, 1, 0x1, 1, 0x1, 0x0, 0x0, 0x0, 0xFFFFFFFFFF, []⟩,
  ⟨0x10700024, 1, 0x1, 1, 0x1, 0x0, 0x0, 0x0, 0xFFFFFFFFFF, []⟩,
  ⟨0x10700025, 1, 0x1, 1, 0x1, 0x0, 0x0, 0x0, 0xFFFFFFFFFF, []⟩,
  ⟨0x10700026, 1, 0x1, 1, 0x1, 0x0, 0x0, 0x0, 0xFFFFFFFFFF, []⟩,
  ⟨0x10700030, 1, 0x1, 1, 0x1, 0x0, 0x7F, 0x0, 0x0, []⟩,
  ⟨0x10700031, 1, 0x1, 1, 0x1, 0x7F, 0x0, 0x0, 0x0, []⟩,
  ⟨0x10700100, 64, 0x1, 1, 0x1, 0x3FFFFFFF, 0x0, 0x0, 0x0, [(29, 28, .notEq 3)]⟩,
  ⟨0x10700180, 4, 0x1, 1, 0x1, 0xFFFFFFFFFF, 0x0, 0x0, 0x0, []⟩
]

def swc : List Card := [
  ⟨0x10800000, 1, 0x1, 1, 0x1, 0x0, 0x0, 0x1, 0x0, []⟩,
  ⟨0x10800008, 1, 0x1, 1, 0x1, 0x0, 0xF, 0x0, 0x0, []⟩,
  ⟨0x10800009, 1, 0x1, 1, 0x1, 0xF, 0x0, 0x0, 0x0, []⟩,
  ⟨0x10800010, 1, 0x1, 1, 0x1, 0x0, 0x0, 0x0, 0xFFFFFFFFFF, []⟩,
  ⟨0x10800011, 1, 0x1, 1, 0x1, 0x0, 0x0, 0x0, 0xFFFFFFFFFF, []⟩,
  ⟨0x10800012, 1, 0x1, 1, 0x1, 0x0, 0x0, 0x0, 0xFFFFFFFFFF, []⟩,
  ⟨0x10800013, 1, 0x1, 1, 0x1, 0x0, 0x0, 0x0, 0xFFFFFFFFFF, []⟩,
  ⟨0x10800014, 1, 0x1, 1, 0x1, 0x0, 0x0, 0x0, 0xFFFFFFFFFF, []⟩,
  ⟨0x10800020, 1, 0x1, 1, 0x1, 0xFFFFC0FFFF, 0x0, 0x0, 0x0, [(39, 38, .notEq 3), (15, 0, .range 1 65535)]⟩,
  ⟨0x10800021, 1, 0x1, 1, 0x1, 0x8000003FFF, 0x0, 0x0, 0x0, []⟩,
  ⟨0x10800028, 1, 0x1, 1, 0x1, 0x800000FFFF, 0x0, 0x0, 0x0, [(15, 0, .range 1 65535)]⟩,
  ⟨0x10800030, 1, 0x1, 1, 0x1, 0xF80FFFFFFF, 0x0, 0x0, 0x0, []⟩,
  ⟨0x10800031, 1, 0x1, 1, 0x1, 0xFFFFFFFF00, 0x0, 0x0, 0x0, []⟩,
  ⟨0x10800032, 1, 0x1, 1, 0x1, 0x7FF, 0x0, 0x0, 0x0, []⟩,
  ⟨0x10800100, 11, 0x8, 8, 0x1, 0x3FFF, 0x0, 0x0, 0x0, [(13, 0, .zeroOr 8 16352)]⟩,
  ⟨0x10800180, 11, 0x1, 1, 0x1, 0xFFFFC000, 0x0, 0x0, 0x0, [(15, 14, .notEq 3)]⟩,
  ⟨0x108001A0, 11, 0x1, 1, 0x1, 0xFF3FFFFFFF, 0x0, 0x0, 0x0, []⟩,
  ⟨0x108001C0, 11, 0x1, 1, 0x1, 0xFFFFFF, 0x0, 0x0, 0x0, []⟩,
  ⟨0x10800200, 256, 0x1, 1, 0x1, 0xE3FFFFFFFF, 0x0, 0x0, 0x0, [(33, 22, .range 1 4094)]⟩
]

def hp : List Card := [
  ⟨0x10800400, 3, 0x10, 1, 0x1, 0x3FFFFFFFF, 0x0, 0x0, 0x0, []⟩,
  ⟨0x10800401, 3, 0x10, 1, 0x1, 0x7FFFFFE000, 0x0, 0x0, 0x0, [(38, 26, .zeroOr 4 4096)]⟩,
  ⟨0x10800402, 3, 0x10, 1, 0x1, 0x3FFFFFFFF, 0x0, 0x0, 0x0, []⟩,
  ⟨0x10800403, 3, 0x10, 1, 0x1, 0x7FFFFFE000, 0x0, 0x0, 0x0, [(38, 26, .zeroOr 4 4096)]⟩,
  ⟨0x10800404, 3, 0x10, 1, 0x1, 0x0, 0xF, 0x0, 0x0, []⟩,
  ⟨0x10800405, 3, 0x10, 1, 0x1, 0xF, 0x0, 0x0, 0x0, []⟩,
  ⟨0x10800406, 3, 0x10, 1, 0x1, 0x0, 0x0, 0x0, 0xFFFFFFFFFF, []⟩,
  ⟨0x10800407, 3, 0x10, 1, 0x1, 0x0, 0x0, 0x0, 0xFFFFFFFFFF, []⟩
]

def mac : List Card := [
  ⟨0x10810000, 8, 0x10000, 1, 0x1, 0x9, 0x0, 0x0, 0x0, []⟩,
  ⟨0x10810008, 8, 0x10000, 1, 0x1, 0x0, 0xF, 0x0, 0x0, []⟩,
  ⟨0x10810009, 8, 0x10000, 1, 0x1, 0xF, 0x0, 0x0, 0x0, []⟩,
  ⟨0x10810020, 8, 0x10000, 1, 0x1, 0x0, 0xFFFFFFFF, 0x0, 0x0, []⟩
]

def can : List Card := [
  ⟨0x10A00001, 4, 0x1000, 1, 0x1, 0x3FFFFFFF, 0x0, 0x0, 0x0, []⟩,
  ⟨0x10A00002, 4, 0x1000, 1, 0x1, 0xFF3FFFFFFF, 0x0, 0x0, 0x0, []⟩,
  ⟨0x10A00010, 4, 0x1000, 1, 0x1, 0xFFFFFFFFFF, 0x0, 0x0, 0x0, []⟩,
  ⟨0x10A00011, 4, 0x1000, 13, 0x1, 0xFFFFFFFFFF, 0x0, 0x0, 0x0, []⟩,
  ⟨0x10A00060, 4, 0x1000, 1, 0x1, 0x0, 0x0, 0x0, 0xFFFFFFFFFF, []⟩,
  ⟨0x10A00061, 4, 0x1000, 1, 0x1, 0x0, 0x0, 0x0, 0xFFFFFFFFFF, []⟩,
  ⟨0x10A00062, 4, 0x1000, 1, 0x1, 0x0, 0x0, 0x0, 0xFFFFFFFFFF, []⟩,
  ⟨0x10A00063, 4, 0x1000, 1, 0x1, 0x0, 0x0, 0x0, 0xFFFFFFFFFF, []⟩,
  ⟨0x10A00064, 4, 0x1000, 1, 0x1, 0x0, 0x0, 0x0, 0xFFFFFFFFFF, []⟩,
  ⟨0x10A00065, 4, 0x1000, 1, 0x1, 0x0, 0x0, 0x0, 0xFFFFFFFFFF, []⟩,
  ⟨0x10A00068, 4, 0x1000, 1, 0x1, 0x0, 0xF, 0x0, 0x0, []⟩,
  ⟨0x10A00069, 4, 0x1000, 1, 0x1, 0xF, 0x0, 0x0, 0x0, []⟩,
  ⟨0x10A00070, 4, 0x1000, 1, 0x1, 0xFFFFFFFFFF, 0x0, 0x0, 0x0, [(37, 34, .range 0 8), (31, 29, .range 0 3)]⟩,
  ⟨0x10A00071, 4, 0x1000, 1, 0x1, 0xC01FFFFFFF, 0x0, 0x0, 0x0, [(39, 38, .range 1 2)]⟩,
  ⟨0x10A00072, 4, 0x1000, 1, 0x1, 0xFFFFFFFFFF, 0x0, 0x0, 0x0, []⟩,
  ⟨0x10A00073, 4, 0x1000, 1, 0x1, 0xFFFFFF0000, 0x0, 0x0, 0x0, []⟩,
  ⟨0x10A00074, 4, 0x1000, 1, 0x1, 0x0, 0x300000000, 0x0, 0x0, []⟩,
  ⟨0x10A00100, 4, 0x1000, 64, 0x2, 0xFE1FFFFFFF, 0x0, 0x0, 0x0, [(37, 36, .notEq 3), (35, 33, .range 0 5)]⟩,
  ⟨0x10A00101, 4, 0x1000, 64, 0x2, 0x1FFFFFFF, 0x0, 0x0, 0x0, []⟩
]

def col : List Card := [
  ⟨0x10B00000, 1, 0x1, 1, 0x1, 0x1, 0x0, 0x0, 0x0, []⟩,
  ⟨0x10B00010, 1, 0x1, 1, 0x1, 0x3FFFFFFFF, 0x0, 0x0, 0x0, []⟩,
  ⟨0x10B00011, 1, 0x1, 1, 0x1, 0x7FFFFFE000, 0x0, 0x0, 0x0, [(38, 26, .zeroOr 4 4096)]⟩,
  ⟨0x10B00012, 1, 0x1, 1, 0x1, 0x3FFFFFFFF, 0x0, 0x0, 0x0, []⟩,
  ⟨0x10B00013, 1, 0x1, 1, 0x1, 0x7FFFFFE000, 0x0, 0x0, 0x0, [(38, 26, .zeroOr 4 4096)]⟩,
  ⟨0x10B00020, 4, 0x2, 1, 0x1, 0xC0FFFFFFFF, 0x0, 0x0, 0x0, []⟩,
  ⟨0x10B00021, 4, 0x2, 1, 0x1, 0xFFFFFFFF, 0x0, 0x0, 0x0, []⟩,
  ⟨0x10B00028, 4, 0x1, 1, 0x1, 0x3FF, 0x0, 0x0, 0x0, [(9, 0, .range 0 1000)]⟩,
  ⟨0x10B00030, 4, 0x1, 1, 0x1, 0xC01FFFFFFF, 0x0, 0x0, 0x0, []⟩,
  ⟨0x10B00038, 1, 0x1, 1, 0x1, 0x0, 0x0, 0x0, 0xFFFFFFFFFF, []⟩,
  ⟨0x10B00039, 1, 0x1, 1, 0x1, 0x0, 0x0, 0x0, 0xFFFFFFFFFF, []⟩,
  ⟨0x10B0003A, 1, 0x1, 1, 0x1, 0x0, 0x0, 0x0, 0xFFFFFFFFFF, []⟩,
  ⟨0x10B0003B, 1, 0x1, 1, 0x1, 0x0, 0x0, 0x0, 0xFFFFFFFFFF, []⟩,
  ⟨0x10B0003C, 1, 0x1, 1, 0x1, 0x0, 0x0, 0x0, 0xFFFFFFFFFF, []⟩,
  ⟨0x10B0003D, 1, 0x1, 1, 0x1, 0x0, 0x0, 0x0, 0xFFFFFFFFFF, []⟩,
  ⟨0x10B00040, 1, 0x1, 1, 0x1, 0x0, 0xF, 0x0, 0x0, []⟩,
  ⟨0x10B00041, 1, 0x1, 1, 0x1, 0xF, 0x0, 0x0, 0x0, []⟩,
  ⟨0x10B01000, 1024, 0x4, 1, 0x1, 0xFFDFFFFFFF, 0x0, 0x0, 0x0, []⟩,
  ⟨0x10B01001, 1024, 0x4, 1, 0x1, 0x1FFFFFFF, 0x0, 0x0, 0x0, []⟩,
  ⟨0x10B01002, 1024, 0x4, 1, 0x1, 0xE01FFFFFFF, 0x0, 0x0, 0x0, []⟩
]

def gio : List Card := [
  ⟨0x10C00001, 1, 0x1, 1, 0x1, 0x0, 0xFFFFFFFF, 0x0, 0x0, []⟩,
  ⟨0x10C00003, 1, 0x1, 1, 0x1, 0xFF, 0x0, 0x0, 0x0, [(7, 0, .range 1 255)]⟩,
  ⟨0x10C00008, 1, 0x1, 1, 0x1, 0xFFFFFFFF, 0x0, 0x0, 0x0, []⟩,
  ⟨0x10C00020, 1, 0x1, 1, 0x1, 0x0, 0xFFFF, 0x0, 0x0, []⟩,
  ⟨0x10C00040, 1, 0x1, 1, 0x1, 0xF00001FFFF, 0x0, 0x0, 0x0, [(39, 36, .range 1 15), (16, 0, .range 60 86400)]⟩,
  ⟨0x10C00052, 1, 0x1, 1, 0x1, 0x0, 0x0, 0x0, 0xFFFFFFFFFF, []⟩,
  ⟨0x10C00053, 1, 0x1, 1, 0x1, 0x0, 0x0, 0x0, 0xFFFFFFFFFF, []⟩,
  ⟨0x10C00058, 1, 0x1, 1, 0x1, 0x0, 0xF, 0x0, 0x0, []⟩,
  ⟨0x10C00059, 1, 0x1, 1, 0x1, 0xF, 0x0, 0x0, 0x0, []⟩
]

def nor : List Card := [
  ⟨0x10D00001, 1, 0x1, 1, 0x1, 0x7FFFFFF, 0x0, 0x0, 0x0, []⟩,
  ⟨0x10D00002, 1, 0x1, 1, 0x1, 0x7FFFFF, 0x0, 0x0, 0x0, []⟩,
  ⟨0x10D00003, 1, 0x1, 1, 0x1, 0x3FFFFFFFF, 0x0, 0x0, 0x0, []⟩
]

def dmc : List Card := [
  ⟨0x10E00010, 1, 0x1, 1, 0x1, 0x3, 0x0, 0x0, 0x0, [(1, 0, .notEq 3)]⟩,
  ⟨0x10E00020, 1, 0x1, 1, 0x1, 0x80000FFFFF, 0x0, 0x0, 0x0, [(19, 0, .range 3600 604800)]⟩
]

def dbg : List Card := [
  ⟨0x10F00001, 1, 0x1, 1, 0x1, 0x0, 0x0, 0x0, 0xFFFFFFFFFF, []⟩
]

def wld : List Card := [
  ⟨0x11000000, 1, 0x1, 1, 0x1, 0x0, 0x0, 0x1, 0x0, []⟩,
  ⟨0x11000020, 1, 0x1, 1, 0x1, 0xFFFFBF, 0x0, 0x0, 0x0, []⟩,
  ⟨0x11000030, 1, 0x1, 1, 0x1, 0x0, 0x8000000000, 0x0, 0x0, []⟩,
  ⟨0x11000032, 1, 0x1, 1, 0x1, 0x0, 0x0, 0x0, 0xFFFFFFFFFF, []⟩,
  ⟨0x11000033, 1, 0x1, 1, 0x1, 0x0, 0x0, 0x0, 0xFFFFFFFFFF, []⟩,
  ⟨0x11000034, 1, 0x1, 1, 0x1, 0x0, 0x0, 0x0, 0xFFFFFFFFFF, []⟩,
  ⟨0x11000035, 1, 0x1, 1, 0x1, 0x0, 0x0, 0x0, 0xFFFFFFFFFF, []⟩,
  ⟨0x11000100, 64, 0x4, 1, 0x1, 0x83FFFFFFFF, 0x0, 0x0, 0x0, [(33, 0, .low12 0)]⟩,
  ⟨0x11000101, 64, 0x4, 1, 0x1, 0x3FFFFFFFF, 0x0, 0x0, 0x0, [(33, 0, .low12 0xFFF)]⟩,
  ⟨0x11000102, 64, 0x4, 1, 0x1, 0xFFFFFFFFFF, 0x0, 0x0, 0x0, []⟩,
  ⟨0x11000219, 14, 0x1, 1, 0x1, 0xFF0FFFFF, 0x0, 0x0, 0x0, []⟩,
  ⟨0x11000228, 3, 0x1, 1, 0x1, 0xFF0FFFFF, 0x0, 0x0, 0x0, []⟩,
  ⟨0x11000259, 14, 0x1, 1, 0x1, 0xFFFFFFFFFF, 0x0, 0x0, 0x0, []⟩,
  ⟨0x11000268, 3, 0x1, 1, 0x1, 0xFFFFFFFFFF, 0x0, 0x0, 0x0, []⟩,
  ⟨0x11000280, 17, 0x1, 1, 0x1, 0xFFFFFFFFFF, 0x0, 0x0, 0x0, []⟩
]

/-- The cards of the block whose window holds an address (R154). -/
def ofBlock (a : Nat) : List Card :=
  let b := a / 0x10000
  if b = 0x1000 then pwr
  else if b = 0x1001 then clk ++ wake
  else if b = 0x1002 then grd
  else if b = 0x1003 then fuse
  else if b = 0x1004 then time
  else if b = 0x1010 then vnk
  else if b = 0x1020 then snp
  else if b = 0x1030 then fab
  else if b = 0x1040 then crs
  else if b = 0x1050 then irq
  else if b = 0x1060 then mbx
  else if b = 0x1070 then lsi
  else if b = 0x10A0 then can
  else if b = 0x10B0 then col
  else if b = 0x10C0 then gio
  else if b = 0x10D0 then nor
  else if b = 0x10E0 then dmc
  else if b = 0x10F0 then dbg
  else if b = 0x1100 then wld
  else if 0x1080 ≤ b ∧ b < 0x1089 then swc ++ hp ++ mac
  else []

end Cards

/-- The card of a register, when it has a writable or read-clear bit. -/
def cardOf (a : Nat) : Option Card := (Cards.ofBlock a).find? fun c => c.covers a

/-- The mask of bits [hi:lo]. -/
def maskOf (hi lo : Nat) : Nat := (2 ^ (hi + 1 - lo) - 1) * 2 ^ lo

/-- The RW bits that a write of v changes: those of a field with a reserved encoding stay (R13). -/
def Card.rwFor (c : Card) (v : Word) : Nat :=
  c.legal.foldl (fun m (f : Nat × Nat × Legal) => if f.2.2.ok (bitsOf v f.1 f.2.1) then m else m &&& (maskOf 39 0 ^^^ maskOf f.1 f.2.1)) c.rw

/-- The register after a write of v over its old value (R9, R11, R13). -/
def Card.merge (c : Card) (old v : Word) : Word :=
  let rw := word (c.rwFor v)
  (((old &&& ~~~rw) ||| (v &&& rw)) &&& ~~~(v &&& word c.w1c)) ||| (v &&& word c.w1s)

namespace Hw

/-- A write by the register's card alone; an offset without a card, or a register without a writable bit, keeps its value (R9, R12). -/
def plain (h : Hw) (a : Nat) (v : Word) : Hw := match cardOf a with
  | some c => h.setReg a (c.merge (h.reg a) v)
  | none => h

/-- The RW bits of one write, fields with reserved encodings apart. -/
def plainFor (h : Hw) (a : Nat) (v : Word) (keep : Nat) : Hw := match cardOf a with
  | some c => h.setReg a (c.merge (h.reg a) ((v &&& ~~~(word keep)) ||| (h.reg a &&& word keep)))
  | none => h

end Hw

end Sys2Proof.Machine
end

