-- ==== Sys2Proof/Machine/Image.lean ====
section
/-! DEFINITION. Images in NOR: headers, signatures, compatibility, and the firmware sets (R684 to R693, R697, R706, R707, R748). -/

namespace Sys2Proof.Machine

/-! ### Where images live (R158, R685) -/

/-- The partition of a TYPE and SLOT in a firmware set: its offset and its length. -/
def partOf (type slot : Nat) : Nat × Nat :=
  if type = 1 then (0, 0x100000) else if type = 2 then (0x100000, 0x100000) else if type = 3 then (0x200000, 0x80000)
  else if slot = 0 then (0x280000, 0x400000) else (0x680000 + 0x120000 * (slot - 1), 0x120000)

/-- The words of a CONFIG slot (R158). -/
def configLen : Nat := 0x410000

/-- The base of CONFIG A or B. -/
def configBase (b : Bool) : Nat := if b then norConfigB else norConfigA

/-- An erased word. -/
def erased : Word := BitVec.allOnes 40

namespace Nor

/-- The image at a base. -/
def image (n : Nor) (b : Nat) : Nat → Word := fun w => n.word (b + w)

end Nor

/-! ### The header (R686) -/

/-- Fields of a header. -/
def imgType (w : Nat → Word) : Nat := bitsOf (w 0) 15 8
def imgSlot (w : Nat → Word) : Nat := bitsOf (w 0) 7 4
def imgVersion (w : Nat → Word) : Nat := bitsOf (w 1) 29 0
def imgBuild (w : Nat → Word) : Word := w 2
def imgArb (w : Nat → Word) : Nat := bitsOf (w 3) 6 0
def imgLen (w : Nat → Word) : Nat := bitsOf (w 4) 26 0
def imgKey (w : Nat → Word) : Nat := bitsOf (w 5) 1 0
def imgCompat (w : Nat → Word) : Nat := bitsOf (w 28) 4 0

/-- The image is there: its word 0 is not erased (R685). -/
def imgPresent (w : Nat → Word) : Bool := w 0 ≠ erased

/-- The header is well formed, for a TYPE and SLOT and a partition's length. -/
def imgHeader (w : Nat → Word) (type slot size : Nat) : Bool :=
  let n := imgCompat w
  w 0 == word (0x4B49 * 2 ^ 24 + 2 ^ 16 + type * 2 ^ 8 + slot * 2 ^ 4) && bitsOf (w 1) 39 30 == 0 && bitsOf (w 3) 39 7 == 0 &&
    decide (imgArb w ≤ 64) && bitsOf (w 4) 39 27 == 0 && decide (64 + imgLen w ≤ size) && bitsOf (w 5) 39 2 == 0 &&
    bitsOf (w 27) 15 0 == 0 && bitsOf (w 28) 39 5 == 0 && decide (n ≤ 16) &&
    ((List.range n).all fun i => bitsOf (w (29 + 2 * i)) 31 30 == 0 && bitsOf (w (30 + 2 * i)) 39 30 == 0) &&
    ((List.range (2 * (16 - n))).all fun i => w (29 + 2 * n + i) == 0) &&
    (if type = 1 then decide (1 ≤ bitsOf (w 62) 39 32) && decide (bitsOf (w 62) 39 32 ≤ 32) else w 62 == 0)

/-- The signed words. -/
def imgSigned (w : Nat → Word) : List Word :=
  (List.range 13).map w ++ (List.range 37).map (fun i => w (26 + i)) ++ (List.range (imgLen w)).map fun i => w (64 + i)

/-- PUBKEY and SIG. -/
def imgPub (w : Nat → Word) : List Byte := (wordsBytes ((List.range 7).map fun i => w (6 + i))).take 32
def imgSig (w : Nat → Word) : List Byte := (wordsBytes ((List.range 13).map fun i => w (13 + i))).take 64

/-- The hash of a key slot. -/
def Fuse.keyHash (f : Fuse) (k : Nat) : List Byte :=
  (wordsBytes ((List.range 7).map fun i => Tabs.get (fun _ => (0 : Word)) f.key (7 * k + i))).take 32

/-- A key slot is programmed and not revoked (R697). -/
def Fuse.keyGood (f : Fuse) (k : Nat) : Bool := f.keyValid.getLsbD k && !f.revoked.getLsbD k

/-- A key slot may sign a TYPE and SLOT (R684): KEY0 the firmware, an owner key the rest. -/
def keyAllowed (k type slot : Nat) : Bool := if type < 4 ∨ (type = 4 ∧ slot = 0) then k == 0 else decide (1 ≤ k)

/-- The signature check of R687. -/
def imgSignature (f : Fuse) (w : Nat → Word) : Bool :=
  let k := imgKey w
  f.keyGood k && (sha64 (imgPub w)).take 32 == f.keyHash k && keyAllowed k (imgType w) (imgSlot w) &&
    Config.ed25519 (imgPub w) (sha64 (wordsBytes (imgSigned w))) (imgSig w)

/-- The image admits the hardware (R688). -/
def imgAdmits (w : Nat → Word) : Bool :=
  let b := wordsBytes [w 26, w 27]
  let has := fun (i : Nat) (v : Byte) => b.getD i 0 == v || b.getD (i + 1) 0 == v
  has 0 0x02 && has 2 0xB1 && has 4 0xA2 && has 6 0xC0

/-- The entries of an image for a component: MIN and MAX. -/
def imgEntries (w : Nat → Word) (type : Nat) : List (Nat × Nat) :=
  ((List.range (imgCompat w)).filter fun i => bitsOf (w (29 + 2 * i)) 39 32 == type).map fun i =>
    (bitsOf (w (29 + 2 * i)) 29 0, bitsOf (w (30 + 2 * i)) 29 0)

/-- An image accepts a version of a component through its one entry (R689, R690). -/
def imgAccepts (w : Nat → Word) (type v : Nat) : Bool := match imgEntries w type with
  | [(lo, hi)] => decide (lo ≤ v) && decide (v ≤ hi)
  | _ => false

/-- A working set is compatible (R689). -/
def setOk (l : List (Nat → Word)) : Bool :=
  l.all fun x => l.all fun y => imgType x == imgType y || imgAccepts x (imgType y) (imgVersion y)

/-- The field of an image's TYPE (R706). -/
def Fuse.arbOf (f : Fuse) (type : Nat) : Nat :=
  if type ≤ 2 then f.arb0 else if type = 3 then f.arb1 else if type = 4 then f.arb2 else f.arb3

/-- Anti-rollback passes (R706, R707). -/
def imgArbOk (f : Fuse) (w : Nat → Word) : Bool :=
  if imgType w = 4 ∧ imgSlot w ≠ 0 then imgArb w == 0 else f.lifecycle < 2 || decide (f.arbOf (imgType w) ≤ imgArb w)

/-- Whether an SFW image reads a section's FMT (R748). -/
def sfwReads (sfw : Nat → Word) (type fmt : Nat) : Bool :=
  (List.range (bitsOf (sfw 62) 39 32)).any fun i =>
    let e := sfw (bitsOf (sfw 62) 31 0 + i)
    bitsOf e 39 24 == type && decide (bitsOf e 23 16 ≤ fmt) && decide (fmt ≤ bitsOf e 15 8)

/-! ### Firmware sets (R691 to R693) -/

/-- MARK of an image (R691). -/
def markStaged : Word := erased
def markActivated : Word := 0x00FFFFFFFF
def markProven : Word := 0

/-- The images of a set: SFW, CFW, FMC and HVF SLOT 0. -/
def fwTypes : List Nat := [1, 2, 3, 4]

namespace State

/-- An image of a set at a region's base. -/
def partImage (s : State) (region type slot : Nat) : Nat → Word := s.nor.image (region + (partOf type slot).1)

/-- The region that rule 2 of R692 takes an image from. -/
def takeRegion (s : State) (type slot : Nat) : Nat :=
  let w := s.partImage norStaging type slot
  if imgPresent w ∧ (w 63 = markActivated ∨ w 63 = markProven) then norStaging else norActive

/-- The working set by R692, reading headers only: the region of each TYPE, or GOLD with its reason and the failing TYPE. -/
def chooseSet (s : State) (gold : Option Nat) : (Nat → Nat) × Option (Nat × Nat) :=
  match gold with
  | some r => (fun _ => norGold, some (r, 0))
  | none =>
    let img := fun t => s.partImage (s.takeRegion t 0) t 0
    match fwTypes.find? fun t => !(imgPresent (img t) && imgHeader (img t) t 0 (partOf t 0).2) with
    | some t => (fun _ => norGold, some (0x03, t))
    | none => match fwTypes.find? fun t => !imgAdmits (img t) with
      | some t => (fun _ => norGold, some (0x04, t))
      | none => if setOk (fwTypes.map img) then (fun t => s.takeRegion t 0, none) else (fun _ => norGold, some (0x04, 0))

/-- The check of a set's signatures and anti-rollback at step 8, with the reason and TYPE of the first failure (R692, R693). -/
def setFault (s : State) (region : Nat → Nat) : Option (Nat × Nat) :=
  let img := fun t => s.partImage (region t) t 0
  match fwTypes.find? fun t => !imgSignature s.fuse (img t) with
  | some t => some (0x05, t)
  | none => (fwTypes.find? fun t => region t ≠ norGold && !imgArbOk s.fuse (img t)).map fun t => (0x06, t)

/-- GOLD's images pass the checks that hold for them: signature and R688 (R693). -/
def goldOk (s : State) : Bool :=
  fwTypes.all fun t =>
    let w := s.partImage norGold t 0
    imgPresent w && imgHeader w t 0 (partOf t 0).2 && imgSignature s.fuse w && imgAdmits w

end State

end Sys2Proof.Machine
end

