-- ==== Sys2Proof/Machine/DieCore.lean ====
section
/-! DEFINITION. The load dies: what a die answers, and how its channels change (R454 to R478). -/

namespace Sys2Proof.Machine

/-- The fields of a channel's configuration (R455, R482). -/
def LoadChan.fs_ (c : LoadChan) : Nat := c.cfg / 2 ^ 28 % 4
def LoadChan.hlMask (c : LoadChan) : Nat := c.cfg / 2 ^ 24 % 16
def LoadChan.maxRetries (c : LoadChan) : Nat := c.cfg / 2 ^ 20 % 16

namespace Die

/-- A channel of the die. -/
def chan (x : Die) (p : Nat) : LoadChan := Tabs.get (fun _ => ({} : LoadChan)) x.chans p

/-- Replaces a channel. -/
def setChan (x : Die) (p : Nat) (c : LoadChan) : Die := { x with chans := Tabs.set (fun _ => ({} : LoadChan)) x.chans p c }

/-- Changes every channel. -/
def each (x : Die) (f : LoadChan → LoadChan) : Die := (List.range 16).foldl (fun x p => x.setChan p (f (x.chan p))) x

/-- A hard line that maps to the channel is asserted (R476). -/
def hardLine (x : Die) (c : LoadChan) : Bool := (List.range 4).any fun i => bitN x.hl i && bitN c.hlMask i

/-- Some line holds the channel off (R458, R476, R478). -/
def heldOff (x : Die) (c : LoadChan) : Bool :=
  !x.powered || x.low || x.hardLine c || c.latch ≠ 0 || c.retry

/-- The channel conducts (R458, R473). -/
def conducts (x : Die) (c : LoadChan) : Bool :=
  !x.heldOff c && (c.forced == 2 || (c.forced == 0 && (c.mode == 1 || (c.mode == 2 && c.level))))

/-- STATE of a sample word (R461, R480). -/
def stateOf (x : Die) (c : LoadChan) : Nat :=
  if x.hardLine c then 7
  else if c.latch ≠ 0 then c.latch
  else if x.low then 0
  else if c.retry then 4
  else if c.forced = 1 then 0
  else if c.forced = 2 then 1
  else if c.mode = 2 then (if c.level then 2 else 3)
  else c.mode

/-- The sample word of a channel whose sensed current is `code`, with CLAMP and SAT; FS is the channel's, which its first SET clears
(R461, R474). -/
def sampleWord (x : Die) (c : LoadChan) (code : Nat) (clamp sat : Bool) : Word :=
  word (x.stateOf c * 2 ^ 36 + b2n c.fs * 2 ^ 35 + b2n c.openFlag * 2 ^ 34 + b2n clamp * 2 ^ 33 + b2n sat * 2 ^ 32 +
    c.retries % 16 * 2 ^ 28 + b2n c.hardOff * 2 ^ 27 + code % 2 ^ 24)

/-- A hard line opens a channel: its commanded mode becomes OFF (R476). -/
def openChan (c : LoadChan) : LoadChan := { c with mode := 0, hardOff := true, retry := false, forced := 0 }

/-- The die's hard lines take new levels: each newly asserted one opens the channels it maps (R476). -/
def setLines (x : Die) (hl : Nat) : Die :=
  if !x.powered then { x with hl := hl }
  else
    let new := fun (c : LoadChan) => (List.range 4).any fun i => bitN hl i && !bitN x.hl i && bitN c.hlMask i
    ({ x with hl := hl }).each fun c => if new c then openChan c else c

/-- The summary FS clears once refreshes have resumed and no channel differs from its commanded state (R474). -/
def settleFs (x : Die) : Die :=
  if x.fs && ((List.range 16).all (fun p => !(x.chan p).fs) ||
      (x.running && (List.range 16).all fun p =>
        let c := x.chan p
        c.forced == 0 || (c.forced == 1 && c.mode == 0) || (c.forced == 2 && c.mode == 1))) then
    ({ x with fs := false }).each fun c => { c with fs := false }
  else x

/-- A held SET or CLEAR is applied at a sample instant (R459, R465, R474, R476, R480). -/
def applyHeld (x : Die) (c : LoadChan) : LoadChan :=
  match c.held with
  | none => c
  | some (3, _) => { c with held := none, mode := 0, latch := 0, retry := false, forced := 0 }
  | some (m, l) =>
    let c := { c with held := none, fs := false, forced := 0, hardOff := false }
    if m = 0 then { c with mode := 0, retry := false }
    else if x.low then { c with mode := 0 }
    else if x.hardLine c then openChan c
    else { c with mode := m, line := l, retry := false, retries := 0, level := bitN x.lines l }

/-- A sample instant applies what the die holds: configurations first (R480). -/
def edge (x : Die) : Die :=
  let x := x.each fun c => match c.heldCfg with
    | some v =>
      let c := { c with cfg := v, heldCfg := none }
      if x.hardLine c then openChan c else c
    | none => c
  (x.each fun c => x.applyHeld c).settleFs

/-- The ACK code of a SET (R456, R460). -/
def setAck (x : Die) (c : LoadChan) (m : Nat) : Nat :=
  if m = 0 then 0 else if c.latch ≠ 0 then 4 else if x.hardLine c then 3 else 0

/-- A request that the die evaluates, on a channel: what the channel becomes, and the ACK code (R455). -/
def evalChan (x : Die) (c : LoadChan) (op data : Nat) : LoadChan × Nat :=
  if op = 1 then
    if data % 4 = 3 then (c, 2)
    else
      let a := x.setAck c (data % 4)
      (if a = 0 then { c with held := some (data % 4, data / 16 % 8) } else c, a)
  else if op = 2 then
    if data / 2 ^ 28 % 4 = 3 then (c, 2) else ({ c with heldCfg := some (data % 2 ^ 30) }, 0)
  else ({ c with held := some (3, 0) }, 0)

/-- DATA of a STATUS response (R455). -/
def statusData (x : Die) : Nat := x.temp % 256 * 2 ^ 32 + x.vls % 65536 * 2 ^ 16 + x.wseq % 256 * 2 ^ 8 + 0xC0

/-- A request is executed: the die, the response DATA and the ACK code (R455, R456, R471). -/
def execute (x : Die) (op ch data tag : Nat) : Die × Nat × Nat :=
  if op = 1 ∨ op = 2 ∨ op = 6 then
    if !x.configured && op ≠ 2 then (x, 0, 6)
    else
      let c := x.chan ch
      if tag ≠ 0 ∧ c.tag = tag then (x, 0, c.ack)
      else
        let r := x.evalChan c op data
        (x.setChan ch { r.1 with tag := tag, ack := r.2 }, 0, r.2)
  else if op = 3 then
    -- a window outside its range is no encoding that the table defines (R455, R471; DEDUCED, log entry 41)
    if data / 256 % 256 < 2 ∨ 50 < data / 256 % 256 ∨ data / 2 ^ 16 % 2048 < 150 ∨ 2000 < data / 2 ^ 16 % 2048 then (x, 0, 2)
    else ({ x with configured := true, night := data % 2 == 1, dayMs := data / 256 % 256, nightMs := data / 2 ^ 16 % 2048 }, 0, 0)
  else if op = 4 then
    if !x.configured then (x, x.wseq, 6)
    else
      let d := (data % 256 + 256 - x.wseq) % 256
      if 1 ≤ d ∧ d ≤ 64 then
        let x := { x with wseq := data % 256, running := true }
        (x.settleFs, x.wseq, 0)
      else (x, x.wseq, 5)
  else if op = 5 then (x, (x.chan ch).sample.toNat, 0)
  else if op = 7 then (x, x.statusData, 0)
  else if op = 0 then (x, 0, 0)
  else (x, 0, 2)

/-- A response frame (R454). -/
def response (op ch data ack : Nat) : BitVec 64 :=
  let top := op % 16 * 2 ^ 52 + ch % 16 * 2 ^ 48 + data % 2 ^ 40 * 2 ^ 8 + ack % 256
  BitVec.ofNat 64 (top * 256 + (crc8 (beBytes 7 top)).toNat)

/-- One exchange: the die sends the response to the request before, and answers this one in the next exchange (R453, R455). -/
def exchange (x : Die) (op ch data tag : Nat) (crcOk : Bool) : Die × BitVec 64 :=
  let was := x.resp
  if !crcOk then ({ x with resp := response op ch 0 1 }, was)
  else
    let r := x.execute op ch data tag
    ({ r.1 with resp := response op ch r.2.1 r.2.2 }, was)

/-- The window expires: each channel takes its stored fail-safe state (R473, R480). -/
def expire (x : Die) : Die :=
  ({ x with running := false, fs := true }).each fun c =>
    let c := { c with fs := true }
    if x.hardLine c || x.low then c
    else if c.fs_ = 0 then { c with forced := 1, retry := false }
    else if c.fs_ = 1 then { c with forced := 2, retry := false, retries := if c.latch = 0 then 0 else c.retries }
    else c

/-- VLS falls between the lockout and 16 V: every channel is held off and its mode becomes OFF (R478). -/
def sag (x : Die) : Die := ({ x with low := true }).each fun c => { c with mode := 0, forced := 0, retry := false, held := none }

/-- VLS falls below the lockout: the die loses everything (R475, R478). -/
def die_off (x : Die) : Die := { powered := false, hl := x.hl, lines := x.lines, silent := x.silent }

/-- The die's supply takes a value in mV: below its lockout it loses everything, up to 16 V it holds its channels off, from 16.5 V
on it resumes, and after the lockout it starts unconfigured (R475, R478). -/
def supplied (x : Die) (v : Nat) : Die :=
  if v < 10000 then { x.die_off with vls := v }
  else
    let x := { x with powered := true, low := x.low || !x.powered, vls := v }
    if v < 16000 then x.sag else if 16500 ≤ v then { x with low := false } else x

end Die

namespace Hw

/-- The hard lines of every die take the levels of a mask over HL0 to HL15 (R436, R476). -/
def setHardLines (h : Hw) (hl : Nat) : Hw :=
  (List.range 4).foldl (fun h d => if (h.die d).hl = hl / 2 ^ (4 * d) % 16 then h
    else h.setDie d ((h.die d).setLines (hl / 2 ^ (4 * d) % 16))) h

/-- No line is driven: every line reads asserted (R477). -/
def floatHardLines (h : Hw) : Hw := h.setHardLines 0xFFFF

end Hw

end Sys2Proof.Machine
end

