-- ==== Sys2Proof/Machine/Guard.lean ====
section
/-! DEFINITION. The guard units: comparison, events, the trip matrix and its outputs (R424 to R441, R446, R718 to R721). -/

namespace Sys2Proof.Config

/-- CODE and DATA of a guard event's entry in the retention log, and w1 of its journal record (R435): the spec gives the code
table of R139 and the body of R381 for other entries only. The action is 0 activation, 1 latch, 2 clear. -/
opaque guardEntry : (event action : Nat) → Nat × Word
opaque guardRecord : (event action : Nat) → Word

end Sys2Proof.Config

namespace Sys2Proof.Machine

/-- The event identifiers of R432. -/
def evExists (e : Nat) : Bool := e < 0x392 || (0x398 ≤ e && e < 0x3A0)

/-- A warning event (R432). -/
def evWarning (e : Nat) : Bool := (e < 0x300 && e % 2 == 0) || (0x360 ≤ e && e < 0x370) || (0x380 ≤ e && e < 0x390)

namespace Hw

/-- Guards armed (R441). -/
def grdOn (h : Hw) : Bool := h.aoOn && h.bit Reg.GRD_CTRL 0

/-- The device is in the safe state (R438). -/
def safe (h : Hw) : Bool := h.bit Reg.GRD_STAT 0

/-- The event is active; is latched; its condition holds (R433). -/
def evActive (h : Hw) (e : Nat) : Bool := h.bit (Reg.GRD_EVT_ACT (e / 40)) (e % 40)
def evLatched (h : Hw) (e : Nat) : Bool := h.bit (Reg.GRD_EVT_LATCH (e / 40)) (e % 40)
def evCond (h : Hw) (e : Nat) : Bool := Tabs.get (fun _ => false) h.grd.cond e

/-- The condition of an event starts or ends. -/
def setCond (h : Hw) (e : Nat) (v : Bool) : Hw := { h with grd := { h.grd with cond := Tabs.set (fun _ => false) h.grd.cond e v } }

/-- A bit of a row. -/
def row (h : Hw) (e : Nat) (f : BitField) : Nat := h.fld (Reg.GRD_MATRIX e) f

/-- The row is enabled. -/
def rowOn (h : Hw) (e : Nat) : Bool := h.bit (Reg.GRD_MATRIX e) 39

/-- The events that are active or latched, in order. -/
def eventsOn (h : Hw) : List Nat :=
  (List.range 24).flatMap fun i =>
    let w := h.reg (Reg.GRD_EVT_ACT i) ||| h.reg (Reg.GRD_EVT_LATCH i)
    if w = 0 then [] else ((List.range 40).filter fun b => bitN w.toNat b).map (40 * i + ·)

/-- Some trip-level event is active or latched (R439). -/
def tripOn (h : Hw) : Bool := h.eventsOn.any fun e => !evWarning e

/-- The bits that any of the values sets. -/
def orAll (l : List Nat) : Nat := l.foldl (fun a b => a ||| b) 0

/-! ### Outputs -/

/-- The applied set is evaluated again and drives the outputs (R434, R436, R437, R438, R441). -/
def applyMatrix (h : Hw) : Hw :=
  let on := h.eventsOn
  let rows := on.filter h.rowOn
  let hl := if h.safe then 0xFFFF else orAll (rows.map fun e => h.row e Fld.GRD_MATRIX_HL)
  let outs := if h.safe || !h.grd.opened then 0xF else orAll (rows.map fun e => h.row e Fld.GRD_MATRIX_TO)
  let h := h.setFld Reg.GRD_STAT Fld.GRD_STAT_HL hl
  let h := h.setFld Reg.GRD_STAT Fld.GRD_STAT_TO outs
  let h := h.setFld Reg.GRD_STAT Fld.GRD_STAT_WARN (b2n (on.any evWarning))
  let h := h.setFld Reg.GRD_STAT Fld.GRD_STAT_TRIP (b2n (on.any fun e => !evWarning e))
  h.setHardLines hl

/-- The stop message leaves through its egress ports, by the injector (R437, R564). -/
def sendStop (h : Hw) : Hw := if h.cfg.sw.stopFrame.isEmpty then h else h.inject h.cfg.sw.stopFrame h.cfg.sw.stopPorts

/-- Adds 1 to PEER_COUNT (R729). -/
def peerCountUp (h : Hw) (i : Nat) : Hw :=
  { h with peerCount := Tabs.set (fun _ => (0 : Nat)) h.peerCount i (min (Tabs.get (fun _ => 0) h.peerCount i + 1) (2 ^ 40 - 1)) }

/-- The device takes part in a tree (R716): its role is not none. -/
def inTree (h : Hw) : Bool := h.cfg.role < 3

/-- The LC that a peer frame carries (R718). -/
def lcBytes (h : Hw) : List Byte := beBytes 5 h.lc

/-- The ports of a peer frame with their LANs: a trip takes the uplinks and the downlinks, a frame to a child the downlinks, and
any other the uplinks, whose segment the partner is on (R716, R718, R720). -/
def peerPorts (h : Hw) (kind dst : Nat) : List (Nat × Nat) :=
  let child := h.cfg.sw.neighbours.any fun n => n.dev == dst && n.rel == 1
  (if kind ≠ 1 && child then [] else [0, 1].zipIdx) ++ (if kind = 1 || child then h.cfg.sw.downlinks.zipIdx else [])

/-- A peer frame of a kind, one copy for each port, by the injector (R718): a trip from the reserve in class 7, a ring frame in
class 6. `mac` is the destination address. -/
def sendPeerTo (h : Hw) (kind dst mac : Nat) (body : List Byte) : Hw :=
  let seq := (Tabs.get (fun _ => 0) h.peerSeq kind + 1) % 2 ^ 32
  let p := [byte kind, 1] ++ beBytes 2 h.cfg.plantTag ++ beBytes 2 h.cfg.deviceId ++ beBytes 2 dst ++ h.lcBytes ++ beBytes 4 seq ++ body
  let cls := if kind = 1 then 7 else 6
  let h := { h with peerSeq := Tabs.set (fun _ => (0 : Nat)) h.peerSeq kind seq }
  (h.peerPorts kind dst).foldl (fun (h : Hw) x =>
    let f := beBytes 6 mac ++ beBytes 6 h.cfg.sw.mac ++ [0x81, 0x00] ++
      beBytes 2 (cls * 8192 + Tabs.get (fun _ => 0) h.cfg.sw.peerVid x.2 % 4096) ++ [0x88, 0xB6] ++ p
    let f := f ++ List.replicate (60 - f.length) 0
    if kind = 1 then h.inject f [x.1] else h.inject6 f [x.1]) h

/-- A peer frame to a declared neighbour (R717, R718). -/
def sendPeer (h : Hw) (kind dst : Nat) (body : List Byte) : Hw :=
  match h.cfg.sw.neighbours.find? fun n => n.dev == dst with
  | some n => h.sendPeerTo kind dst n.mac body
  | none => h

/-- One transmission of a trip frame, in Day with the SYS domain on (R720, R723). -/
def sendTrip (h : Hw) (e rep : Nat) : Hw :=
  if h.sysOn && h.inTree then
    let g := Tabs.get (fun _ => 0) h.cfg.sw.tripGroup e
    (h.sendPeerTo 0x01 0xFFFF (Tabs.get (fun _ => 0) h.cfg.sw.groupMac g)
      ([byte g] ++ beBytes 2 e ++ [byte rep] ++ List.replicate 21 0)).peerCountUp 1
  else h

/-- The first of the three transmissions of the stop message (R437). -/
def startStop (h : Hw) : Hw := { h.sendStop with grd := { h.grd with stops := 2 } }

/-- The first of the three transmissions of a trip frame (R720). -/
def startTrip (h : Hw) (e : Nat) : Hw := let h := h.sendTrip e 0; { h with grd := { h.grd with trips := h.grd.trips ++ [(e, 1)] } }

/-- The safe state is entered (R438); STOP and TREE are each sent once. -/
def enterSafe (h : Hw) (e : Nat) : Hw :=
  if h.safe then h
  else
    let h := (h.setBit Reg.GRD_STAT 0).setBit Reg.GRD_IRQ_STAT 2
    ((h.startStop).startTrip e).applyMatrix

/-! ### Events -/

/-- An activation, a latch or a clear is written to the retention log, and at Full to the journal (R435). -/
def guardNote (h : Hw) (e action : Nat) : Hw :=
  let h := h.retEntry (Config.guardEntry e action).1 (Config.guardEntry e action).2
  if h.level = 3 then h.note 0x11 0x06 [word h.lc, Config.guardRecord e action] else h

/-- The first trip-level event is recorded (R435). Its instant within the cycle is free. -/
def firstEvent (h : Hw) (e ring pos : Nat) (node : Bool) : Hw :=
  if h.bit Reg.GRD_FIRST_EVT 39 then h
  else
    let d := h.drawWord
    let h := d.2.setReg Reg.GRD_FIRST_EVT
      (word (2 ^ 39 + e * 2 ^ 16 + ring % 16 * 2 ^ 12 + pos % 256 * 2 ^ 4 + b2n node * 2 ^ 3))
    (h.setReg Reg.GRD_FIRST_LC (word h.lc)).setReg Reg.GRD_FIRST_OFS d.1

/-- The actions of a row that becomes applied, beyond those that hold while it is (R434). -/
def rowActions (h : Hw) (e : Nat) : Hw :=
  if !h.rowOn e then h
  else
    let sf := h.row e Fld.GRD_MATRIX_SAFE = 1 && !h.safe
    let h := if h.row e Fld.GRD_MATRIX_IRQ = 1 then h.setBit Reg.GRD_IRQ_STAT (if evWarning e then 1 else 0) else h
    if sf then h.enterSafe e
    else
      let h := if h.row e Fld.GRD_MATRIX_STOP = 1 then h.startStop else h
      if h.row e Fld.GRD_MATRIX_TREE = 1 then h.startTrip e else h

/-- The condition of an event holds (R433): the event becomes active, latches where its row says so, and its row acts. -/
def raiseEvent (h : Hw) (e ring pos : Nat) (node : Bool) : Hw :=
  if !h.grdOn || !evExists e then h
  else
    let h := h.setCond e true
    if h.evActive e then h
    else
      let was := h.evLatched e
      let h := (h.setBit (Reg.GRD_EVT_ACT (e / 40)) (e % 40)).guardNote e 0
      let h := if evWarning e then h.count Reg.GRD_CNT_WARN
        else
          let h := (h.count Reg.GRD_CNT_TRIP).firstEvent e ring pos node
          let h := if 0x300 ≤ e ∧ e < 0x340 then h.count Reg.GRD_CNT_MEAS else h
          if h.bit (Reg.GRD_MATRIX e) 38 && !was then (h.setBit (Reg.GRD_EVT_LATCH (e / 40)) (e % 40)).guardNote e 1 else h
      let h := if was then h else h.rowActions e
      h.applyMatrix

/-- An active event ends. -/
def endEvent (h : Hw) (e : Nat) : Hw :=
  if h.evActive e then (h.clearBit (Reg.GRD_EVT_ACT (e / 40)) (e % 40)).applyMatrix else h

/-- The condition of an event no longer holds: a trip-level event ends; a warning waits for its guard cycles (R433). -/
def dropCond (h : Hw) (e : Nat) : Hw :=
  if h.evCond e then
    let h := h.setCond e false
    if evWarning e then h else h.endEvent e
  else h

/-- An event follows a condition. -/
def follow (h : Hw) (e ring pos : Nat) (v : Bool) : Hw := if v then h.raiseEvent e ring pos false else h.dropCond e

/-! ### The channel map and the comparison (R424 to R431) -/

/-- Byte j of words 1 to 4 of a position's entry. -/
def nodeByte (h : Hw) (k p j : Nat) : Nat := bitsOf (h.reg (Reg.GRD_NODE k p (1 + j / 5))) (39 - 8 * (j % 5)) (32 - 8 * (j % 5))

/-- The channel is guarded. -/
def guarded_ (h : Hw) (k p j : Nat) : Bool := bitN (h.nodeByte k p j) 7

/-- The zone of a channel (R426). -/
def zoneOf (h : Hw) (k p j : Nat) : Nat :=
  if p < 128 then bitsOf (h.reg (Reg.GRD_NODE k p 0)) 13 8 else h.nodeByte k p j % 64

/-- The four levels that a channel is compared against: warning and trip of its high kind, then of its low kind (R424, R426). -/
def levels (h : Hw) (k p j : Nat) : List Word :=
  if p < 128 then (List.range 4).map fun i => h.reg (Reg.GRD_SET (h.nodeByte k p j % 64) (i + if j < 16 then 0 else 4))
  else (List.range 4).map fun i => h.reg (Reg.GRD_AUX (k * 128 + (p - 128) * 4 + j) i)

/-- A level is disabled: high, and low (R424). -/
def highOff : Word := 0x7FFFFFFFFF
def lowOff : Word := 0x8000000000

/-- A value is beyond level i of the four (R425). -/
def beyond (i : Nat) (v l : Word) : Bool :=
  if i < 2 then l ≠ highOff && decide (l.toInt ≤ v.toInt) else l ≠ lowOff && decide (v.toInt ≤ l.toInt)

/-- The code of crossing i of a channel within its position: of a cell node the event's k of R432, of an auxiliary node 4j + k. -/
def crossing (p j i : Nat) : Nat := if p < 128 then (if j < 16 then i else 4 + i) else 4 * j + i

/-- The event of a crossing of a position (R432). -/
def crossingEvent (h : Hw) (k p c : Nat) : Nat :=
  if p < 128 then 8 * h.zoneOf k p 0 + c else 0x200 + 4 * h.zoneOf k p (c / 4) + c % 4

/-- The kind of THRESH whose codes a crossing rests on (R187). -/
def crossingKind (p c : Nat) : Nat := if p < 128 then 1 + c / 2 else (if c % 4 < 2 then 0x10 else 0x14) + c / 4

/-- The channels of a kind, as a mask. -/
def kindMask (kind : Nat) : Nat := if kind ≤ 2 then 0xFFFF else if kind ≤ 4 then 0xF else 2 ^ (kind % 4)

/-- The node holds the codes of a kind for every channel that has it (R185, R430). -/
def kindHeld (h : Hw) (k p kind : Nat) : Bool :=
  Tabs.get (fun _ => 0) h.grd.codes ((160 * k + p) * 32 + kind) &&& kindMask kind == kindMask kind

/-- The key of a channel in the guards' tables. -/
def chanKey (k p j : Nat) : Nat := (160 * k + p) * 32 + j

/-- The channels of a position. -/
def chansOf (p : Nat) : Nat := if p < 128 then 20 else 4

/-- A channel has a compared value: its MEAS ends (R431). -/
def measSeen (h : Hw) (k p j : Nat) : Hw :=
  let c := chanKey k p j
  let h := { h with grd := { h.grd with seen := c :: h.grd.seen, meas := Tabs.set (fun _ => (0 : Nat)) h.grd.meas c 0 } }
  if h.grd.measOut.contains c then
    let h := { h with grd := { h.grd with measOut := h.grd.measOut.erase c } }
    let z := h.zoneOf k p j
    if h.grd.measOut.any fun c => h.zoneOf (c / 32 / 160) (c / 32 % 160) (c % 32) == z then h else h.dropCond (0x300 + z)
  else h

/-- The device-side check of one value of a direct copy, clocked with the rings (R20, R429). -/
def guardValue (h : Hw) (k p j : Nat) (v : Word) : Hw :=
  if !h.grdOn || !h.ringClock || !h.guarded_ k p j then h
  else
    let h := h.measSeen k p j
    let hits := (h.levels k p j).zipIdx.filterMap fun x => if beyond x.2 v x.1 then some (crossing p j x.2) else none
    let key := 160 * k + p
    let old := (Tabs.get (fun _ => (none : Option (List Nat))) h.grd.devSide key).getD []
    let h := { h with grd := { h.grd with devSide := Tabs.set (fun _ => none) h.grd.devSide key (some (old ++ hits)) } }
    hits.foldl (fun h c => h.raiseEvent (h.crossingEvent k p c) k p false) h

/-- A direct copy of a position is compared in this cycle, whatever its channels give (R430). -/
def guardCopy (h : Hw) (k p : Nat) : Hw :=
  let key := 160 * k + p
  let old := (Tabs.get (fun _ => (none : Option (List Nat))) h.grd.devSide key).getD []
  { h with grd := { h.grd with devSide := Tabs.set (fun _ => none) h.grd.devSide key (some old) } }

/-- The crossings that the FLAGS of a position say (R183, R430). -/
def flagCrossings (h : Hw) (k p flags : Nat) : List Nat :=
  if p < 128 then
    (if h.bit (Reg.GRD_NODE k p 0) 7 then
      ((List.range 8).filter fun b => bitN flags b).map fun b => 2 * (3 - b / 2) + b % 2
    else [])
  else ((List.range 8).filter fun b => bitN flags b && h.guarded_ k p (b / 2)).map fun b => 4 * (b / 2) + b % 2

/-- The node-side check: the FLAGS of a valid GD copy (R430). -/
def guardFlags (h : Hw) (k p flags : Nat) : Hw :=
  if !h.grdOn || !h.bit (Reg.GRD_NODE k p 0) 6 then h
  else
    let hits := h.flagCrossings k p flags
    let key := 160 * k + p
    let old := (Tabs.get (fun _ => (none : Option (List Nat))) h.grd.nodeSide key).getD []
    let h := { h with grd := { h.grd with nodeSide := Tabs.set (fun _ => none) h.grd.nodeSide key (some (old ++ hits)) } }
    hits.foldl (fun h c => h.raiseEvent (h.crossingEvent k p c) k p true) h

/-- The two checks of a position differ in some event (R430). -/
def sidesDiffer (h : Hw) (key : Nat) (node dev : List Nat) : Bool :=
  let k := key / 160
  let p := key % 160
  let f := fun (l : List Nat) => (l.filter fun c => h.kindHeld k p (crossingKind p c)).map fun c => h.crossingEvent k p c
  (f node).any (fun e => !(f dev).contains e) || (f dev).any (fun e => !(f node).contains e)

/-- The positions declared on an instance (R211). -/
def declared (h : Hw) (k : Nat) : List Nat :=
  (List.range 160).filter fun p => h.bit (Reg.VNK_RING_DECL k (p / 40)) (p % 40)

/-- A guard cycle ends, which the instances `ks` carried (R430 to R433): differences are counted, warnings and missing values count
their cycles, and the conditions of the cycle end. -/
def closeGuardCycle (h : Hw) (ks : List Nat) : Hw :=
  if !h.grdOn then h
  else
    let diffs := (h.grd.nodeSide.filter fun x => match x.2, Tabs.get (fun _ => (none : Option (List Nat))) h.grd.devSide x.1 with
      | some a, some b => h.sidesDiffer x.1 a b
      | _, _ => false).length
    let h := if diffs = 0 then h else (h.countBy Reg.GRD_CNT_SRC_DIFF diffs).setBit Reg.GRD_IRQ_STAT 3
    let absent := ((h.eventsOn.filter fun e => evWarning e && h.evActive e && !h.evCond e)).foldl
      (fun t e => Tabs.set (fun _ => (0 : Nat)) t e (Tabs.get (fun _ => 0) h.grd.absent e + 1)) ([] : Tab Nat)
    let chans := ks.flatMap fun k => if (h.ring k).complete then
        (h.declared k).flatMap fun p => ((List.range (chansOf p)).filter fun j => h.guarded_ k p j).map fun j => chanKey k p j
      else []
    let meas := chans.foldl (fun t c => if h.grd.seen.contains c then Tabs.set (fun _ => (0 : Nat)) t c 0
      else Tabs.set (fun _ => (0 : Nat)) t c (Tabs.get (fun _ => 0) t c + 1)) h.grd.meas
    let h := { h with grd := { h.grd with absent := absent, meas := meas, seen := [], nodeSide := [], devSide := [] } }
    ((h.grd.cond.filter fun x => x.2 && decide (x.1 < 0x300)).map (·.1)).foldl (fun h e => h.dropCond e) h

/-- The first cycle at Guard: TRIP_OUT follows the matrix (R441). -/
def openTripOut (h : Hw) : Hw := if h.grd.opened then h else { h with grd := { h.grd with opened := true } }.applyMatrix

/-! ### Writes of the block (R433, R438, R439, R446, R450) -/

/-- The event of a TRIP_IN: it counts only while declared used (R131, R440). -/
def tripIn (h : Hw) (i : Nat) : Hw := h.follow (0x390 + i) 0 0 (h.bit Reg.GRD_TRIPIN (16 + i) && h.bit Reg.GRD_TRIPIN (18 + i))

/-- The registers of GRD that only the secure world and Crest write. -/
def grdOwner : Who → Bool
  | .secure | .crest => true
  | _ => false

/-- A clear of a latch (R433). -/
def clearLatch (h : Hw) (e : Nat) : Hw :=
  if !h.evLatched e then h
  else if h.evCond e then h.count Reg.GRD_CNT_REFUSED
  else ((h.clearBit (Reg.GRD_EVT_LATCH (e / 40)) (e % 40)).guardNote e 2).applyMatrix

/-- An event identifier of no event: STOP and TREE of a safe state that a write enters name one that the spec does not give. -/
def safeByWrite (h : Hw) : Hw := if h.safe then h else let d := h.draw 4096; d.2.enterSafe d.1

/-- A write of GRD_SAFE (R438, R439). -/
def writeSafe (h : Hw) (who : Who) (v : Word) : Hw :=
  if !grdOwner who then h
  else if bitN v.toNat 0 then
    let h := h.safeByWrite
    if bitN v.toNat 1 then h.count Reg.GRD_CNT_REFUSED else h
  else if bitN v.toNat 1 then
    (if h.tripOn then h.count Reg.GRD_CNT_REFUSED else (h.clearBit Reg.GRD_STAT 0).applyMatrix)
  else h

/-- A write of GRD_CRS_TRIP: the conditions of CRS_TRIP0 to 7 (R432). -/
def writeCrsTrip (h : Hw) (who : Who) (v : Word) : Hw :=
  if !grdOwner who then h
  else
    let h := h.setReg Reg.GRD_CRS_TRIP (word (v.toNat % 256))
    (List.range 8).foldl (fun h i => h.follow (0x398 + i) 0 0 (bitN v.toNat i)) h

/-- A write at offset 0x0100 to 0x7FFF: direct while EN is 0, and into the pending copy while it is 1 (R446). -/
def writeGuard (h : Hw) (a : Nat) (v : Word) : Hw :=
  if !h.bit Reg.GRD_CTRL 0 then h.setReg a v
  else { h with grd := { h.grd with pend := Tabs.set (fun _ => (none : Option Word)) h.grd.pend a (if h.reg a = v then none else some v) } }

/-- A write of GRD_PEND_CTL (R446). -/
def writePend (h : Hw) (who : Who) (v : Word) : Hw :=
  if !grdOwner who then h
  else
    let h := if bitN v.toNat 3 then h.clearBit Reg.GRD_PEND_CTL 3 else h
    if bitN v.toNat 1 then { h.clearBit Reg.GRD_PEND_CTL 2 with grd := { h.grd with pend := [] } }
    else if bitN v.toNat 0 then h.setBit Reg.GRD_PEND_CTL 2 else h

/-- The guards are armed: conditions that hold already raise their events (R440, R441). -/
def arm (h : Hw) : Hw :=
  let h := ((h.setBit Reg.GRD_CTRL 0).tripIn 0).tripIn 1
  (List.range 8).foldl (fun h i => h.follow (0x398 + i) 0 0 (h.bit Reg.GRD_CRS_TRIP i)) h

/-- MEAS follows the channel map: the event of a zone holds while a channel that counts in it has no compared value (R431). -/
def settleMeas (h : Hw) : Hw :=
  let zones := h.grd.measOut.map fun c => h.zoneOf (c / 32 / 160) (c / 32 % 160) (c % 32)
  (List.range 64).foldl (fun h z => h.follow (0x300 + z) 0 0 (zones.contains z)) h

/-- The armed copy replaces the copy in force; a row of an active or latched event whose value differs is withheld (R446). -/
def applyPend (h : Hw) : Hw :=
  let isRow := fun a => Reg.GRD_MATRIX 0 ≤ a && a < Reg.GRD_MATRIX 0x3A0
  let held := fun a => isRow a && (h.evActive (a - Reg.GRD_MATRIX 0) || h.evLatched (a - Reg.GRD_MATRIX 0))
  let h1 := h.grd.pend.foldl (fun (g : Hw) x => match x.2 with
    | none => g
    | some v => if held x.1 then (g.count Reg.GRD_CNT_REFUSED).setBit Reg.GRD_PEND_CTL 3 else g.setReg x.1 v) h
  ({ h1.clearBit Reg.GRD_PEND_CTL 2 with grd := { h1.grd with pend := [] } }).settleMeas.applyMatrix

end Hw

end Sys2Proof.Machine
end

