-- ==== Sys2Proof/Machine/Lsi.lean ====
section
/-! DEFINITION. The LSI: the links to the dies, commands, samples, the kicker and the loss of a die (R453 to R482). -/

namespace Sys2Proof.Config

/-- The limit of a VLS group above a case temperature of 105 °C, in µA: R452 has no row there. -/
opaque groupLimitHot : (celsius : Int) → Int

end Sys2Proof.Config

namespace Sys2Proof.Machine

/-- The sense LSB of a channel position, in µA (R451). -/
def senseLsb (p : Nat) : Int := if p < 2 then 500 else if p < 8 then 250 else 50

/-- The open-load level OL of a channel position, in µA (R451). -/
def openLevel (p : Nat) : Int := if p < 2 then 100000 else if p < 8 then 50000 else 5000

/-- The shortest pulse that a channel position follows, in µs (R451). -/
def shortestPulse (p : Nat) : Nat := if p < 2 then 50 else 5

/-- The current that a sample word reports, in µA (R462). -/
def sampleCurrent (p : Nat) (w : Word) : Int := (BitVec.ofNat 24 w.toNat).toInt * senseLsb p

/-- SAT of a sample word. -/
def sampleSat (w : Word) : Bool := bitN w.toNat 32

/-- The limit of a VLS group at a case temperature (R452). -/
def groupLimit (t : Int) : Int :=
  if t ≤ 85 then 35000000 else if t ≤ 105 then 35000000 - 700000 * (t - 85) else Config.groupLimitHot t

namespace Hw

/-- The links run, clocked by the TCXO (R20, R482). -/
def lsiOn (h : Hw) : Bool := h.aoOn && h.bit Reg.LSI_CTRL 0 && h.bit Reg.CLK_STAT 7

/-- A die is lost (R478). -/
def lsiLost (h : Hw) (d : Nat) : Bool := h.bit Reg.LSI_STAT (8 + d)

/-- A die is marked lost (R478). -/
def loseDie (h : Hw) (d : Nat) : Hw :=
  if h.lsiOn && !h.lsiLost d then (h.setBit Reg.LSI_STAT (8 + d)).setBit Reg.LSI_IRQ_STAT 5 else h

/-- Requests in a row got no valid response: three of them lose the die (R478). -/
def noAnswer (h : Hw) (d n : Nat) : Hw :=
  let x := h.die d
  let h := (h.countBy Reg.LSI_CNT_SPIERR n).setDie d { x with silent := x.silent + n }
  if 3 ≤ x.silent + n then h.loseDie d else h

/-- A STATUS of a die is read: DIE_STAT takes it, a supply below 16 V loses the die, and one of 16.5 V or above of a configured die
clears LOST, whatever lost it (R455, R478; DESIGN CHOICE, log entry 42). -/
def statusRead (h : Hw) (d : Nat) : Hw :=
  let x := h.die d
  if !h.lsiOn || !x.powered then h
  else
    let h := h.setReg (Reg.LSI_DIE_STAT d) (word x.statusData)
    if x.vls < 16000 then h.loseDie d
    else if 16500 ≤ x.vls ∧ x.configured then h.clearBit Reg.LSI_STAT (8 + d)
    else h

/-- The dies' temperatures and supplies as they measure them, in any power state of the device (R53). -/
def supplies (h : Hw) (l : List (Fin 4 × BitVec 8 × BitVec 16)) : Hw :=
  l.foldl (fun (h : Hw) e => h.setDie e.1 { (h.die e.1).supplied e.2.2.toNat with temp := e.2.1.toNat }) h

/-- A change of the LSI beyond its registers. -/
def onLsi (h : Hw) (f : Lsi → Lsi) : Hw := { h with lsi := f h.lsi }

/-- A bit of LSI_STAT. -/
def lsiStat (h : Hw) (b : Nat) (v : Bool) : Hw := if v then h.setBit Reg.LSI_STAT b else h.clearBit Reg.LSI_STAT b

/-- QFREE follows the queue (R482). -/
def lsiFree (h : Hw) : Hw := h.setFld Reg.LSI_CMD_STAT Fld.LSI_CMD_STAT_QFREE (32 - h.lsi.queue.length)

/-- A command of a channel ends with a result (R459, R460, R481, R482). -/
def lsiResult (h : Hw) (c code lc : Nat) : Hw :=
  let h := h.setFld Reg.LSI_CMD_STAT Fld.LSI_CMD_STAT_RESULT code
  let h := if code = 0 ∨ code = 6 then h.setFld Reg.LSI_CMD_STAT Fld.LSI_CMD_STAT_APPLIED lc else h
  let h := h.onLsi fun l => { l with results := Tabs.set (fun _ => ((0, 0) : Nat × Nat)) l.results c (code, lc) }
  if code = 0 then h else h.setBit Reg.LSI_IRQ_STAT 0

/-- A refused command (R460). -/
def lsiRefuse (h : Hw) (c code : Nat) : Hw := (h.lsiResult c code 0).count Reg.LSI_CNT_REFUSED

/-- A write of LSI_CMD; a command to an undeclared channel counts under R131 (R459, R460). -/
def lsiCommandAt (h : Hw) (c op line lc : Nat) : Hw :=
  if h.bit Reg.GRD_STAT 0 then h.lsiRefuse c 2
  else if !bitN h.lsi.declared c then (h.undeclare 4).lsiRefuse c 8
  else if h.lsiLost (c / 16) then h.lsiRefuse c 4
  else if 32 ≤ h.lsi.queue.length then h.lsiRefuse c 1
  else (h.onLsi fun l => { l with queue := l.queue ++ [{ chan := c, op := op, line := line, lc := lc }] }).lsiFree

/-- A write of LSI_CMD: the apply LC is LSI_CMD_LC. -/
def lsiCommand (h : Hw) (c op line : Nat) : Hw := h.lsiCommandAt c op line (h.reg Reg.LSI_CMD_LC).toNat

/-- The next TAG of a channel (R456). -/
def nextTag (h : Hw) (c : Nat) : Nat := Tabs.get (fun _ => 0) h.lsi.tags c % 255 + 1

/-- The LSI sends a request and reads its answer with a NOP: the ACK code, or none from a die without supply, which a repeat does not
change (R453, R456). -/
def lsiAsk (h : Hw) (d op ch data : Nat) : Hw × Option Nat :=
  let c := 16 * d + ch
  let tagged := op == 1 || op == 2 || op == 6
  let tag := if tagged then h.nextTag c else 0
  let h := if tagged then h.onLsi fun l => { l with tags := Tabs.set (fun _ => (0 : Nat)) l.tags c tag } else h
  let x := h.die d
  if !x.powered then (h.noAnswer d 1, none)
  else
    let r := x.execute op ch data tag
    (h.setDie d { r.1 with resp := Die.response 0 0 0 0 }, some r.2.2)

/-- DATA of a CFG_DIE with the windows of LSI_WD (R455, R472). -/
def cfgDieData (h : Hw) (night : Bool) : Nat :=
  b2n night + h.fld Reg.LSI_WD Fld.LSI_WD_DAY * 2 ^ 8 + h.fld Reg.LSI_WD Fld.LSI_WD_NIGHT * 2 ^ 16

/-- CFG_DIE to a die, with a window (R472). -/
def sendCfgDie (h : Hw) (d : Nat) (night : Bool) : Hw := ((h.lsiAsk d 3 0 (h.cfgDieData night)).1).lsiStat (4 + d) night

/-- CFG_CH of a channel, from LSI_CH_CFG (R482). -/
def sendCfgCh (h : Hw) (c : Nat) : Hw := (h.lsiAsk (c / 16) 2 (c % 16) ((h.reg (Reg.LSI_CH_CFG c)).toNat % 2 ^ 30)).1

/-- The kicker's refresh of a die (R471, R472): after a SEQ answer the next WSEQ is the reported one plus 1. -/
def refresh (h : Hw) (d : Nat) : Hw :=
  let w := (Tabs.get (fun _ => 0) h.lsi.wseqs d + 1) % 256
  let r := h.lsiAsk d 4 0 w
  let w := if r.2 = some 5 then (r.1.die d).wseq else w
  r.1.onLsi fun l => { l with wseqs := Tabs.set (fun _ => (0 : Nat)) l.wseqs d w }

/-- A queued command is sent in step 4 of the cycle before SI(L), and its result is known (R459, R460). -/
def sendCmd (h : Hw) (L : Nat) (q : LsiCmd) : Hw :=
  let d := q.chan / 16
  if h.bit Reg.GRD_STAT 0 then h.lsiRefuse q.chan 2
  else if h.lsiLost d then h.lsiRefuse q.chan 4
  else
    let r := if q.op = 3 then h.lsiAsk d 6 (q.chan % 16) 0 else h.lsiAsk d 1 (q.chan % 16) (q.op + 16 * q.line)
    match r.2 with
    | some 0 => r.1.lsiResult q.chan (if q.lc = 0 ∨ q.lc = L then 0 else 6) L
    | some 3 => r.1.lsiRefuse q.chan 3
    | some 4 => r.1.lsiRefuse q.chan 5
    | none => (r.1.noAnswer d 2).lsiResult q.chan 7 0
    | _ => r.1.lsiResult q.chan 7 0

/-- What step 4 of the cycle before SI(L) sends: changed configurations, then the commands due at L (R457, R459, R482). -/
def lsiSendAll (h : Hw) (L : Nat) : Hw :=
  let h := h.lsi.dirty.foldl (fun (h : Hw) i => if i < 64 then h.sendCfgCh i else h.sendCfgDie (i - 64) (h.bit Reg.LSI_STAT (4 + i - 64))) h
  let due := h.lsi.queue.filter fun q => decide (q.lc ≤ L)
  let h := h.onLsi fun l => { l with dirty := [], queue := l.queue.filter fun q => decide (L < q.lc) }
  (due.foldl (fun h q => h.sendCmd L q) h).lsiFree

/-- Open load at a sample instant (R466): the count of instants below OL, and the flag. -/
def openLoad (x : Die) (p : Nat) (c : LoadChan) (i : Int) : LoadChan :=
  if !x.conducts c then c
  else if i < openLevel p then { c with openRun := min (c.openRun + 1) 16, openFlag := c.openFlag || decide (16 ≤ c.openRun + 1) }
  else { c with openRun := 0, openFlag := c.openFlag && decide (i < 2 * openLevel p) }

/-- A die samples its channels with the sensed currents, then applies what it holds (R457, R461, R466). -/
def dieEdge (h : Hw) (d : Nat) (sense : Nat → Nat × Bool × Bool) : Hw :=
  let x := h.die d
  if !x.powered then h
  else
    let y := (List.range 16).foldl (fun (y : Die) p =>
      let c := x.chan p
      let f := sense (16 * d + p)
      let w := x.sampleWord c f.1 f.2.1 f.2.2
      y.setChan p (openLoad x p { c with sample := w } (sampleCurrent p w))) x
    let new := ((List.range 16).filter fun p => (y.chan p).openFlag && !(x.chan p).openFlag).length
    let h := if new = 0 then h else (h.countBy Reg.LSI_CNT_OPEN new).setBit Reg.LSI_IRQ_STAT 1
    h.setDie d y.edge

/-- The mean of a group's current follows the samples of a cycle, and GROUP_OVER follows the mean (R479). -/
def groupMean (h : Hw) (d : Nat) (ws : List Word) : Hw :=
  let sum := (ws.zipIdx.map fun x => if sampleSat x.1 then 0 else sampleCurrent x.2 x.1).foldl (· + ·) 0
  let sums := (sum :: Tabs.get (fun _ => []) h.lsi.sums d).take 1000
  let mean := rheQ (sums.foldl (· + ·) 0) 1000
  let t := (BitVec.ofNat 8 (bitsOf (h.reg (Reg.LSI_DIE_STAT d)) 39 32)).toInt
  let h := h.onLsi fun l => { l with sums := Tabs.set (fun _ => ([] : List Int)) l.sums d sums }
  let h := h.setReg (Reg.LSI_GROUP_I d) (BitVec.ofInt 40 mean)
  if groupLimit t < mean then
    (if h.bit Reg.LSI_STAT (20 + d) then h else (h.setBit Reg.LSI_STAT (20 + d)).setBit Reg.LSI_IRQ_STAT 6)
  else h.clearBit Reg.LSI_STAT (20 + d)

/-- The record of a load channel for cycle n, from its sample or without one (R264, R268, R462). -/
def loadRecord (h : Hw) (n c : Nat) (w : Option Word) : Hw :=
  let key := 2 ^ 20 + c
  let old := Tabs.get (fun _ => (none : Option Word)) h.snp.last key
  let age := Tabs.get (fun _ => 0xFF) h.snp.age key
  let cls := match w with
    | none => 2
    | some w => if sampleSat w then 3 else 0
  let v := match w with
    | none => old.getD 0
    | some w => BitVec.ofInt 40 (sampleCurrent (c % 16) w)
  let age := if cls = 0 then 0 else if age = 0xFF then 0xFF else min (age + 1) 0xFF
  let np := b2n (h.bit Reg.SNP_STAT 3)
  let st := word (age * 2 ^ 16 + 5 * 2 ^ 12 + cls * 2 ^ 10 + np * 2 ^ 8)
  let h := if cls = 2 then (h.count Reg.SNP_CNT_STALE).setBit Reg.SNP_IRQ_STAT 0
    else if cls = 3 then (h.count Reg.SNP_CNT_OOR).setBit Reg.SNP_IRQ_STAT 1 else h
  { h with snp := { h.snp with
      last := if cls = 0 then Tabs.set (fun _ => (none : Option Word)) h.snp.last key (some v) else h.snp.last
      age := Tabs.set (fun _ => 0xFF) h.snp.age key age
      loads := Tabs.set (fun _ => ((0, 0) : Word × Word)) h.snp.loads (n * 64 + c) (v, st) } }

/-- The load-die records of a cycle: journaled, and handed to the fabric (R268, R462). -/
def loadRecords (h : Hw) (n d : Nat) (ws : Option (List Word)) : Hw :=
  if !h.snpOn then h
  else
    let h := match ws with
      | some l => if h.carriesInputs n then h.record 0x07 d 0 0 (h.kOf n) 0 l else h
      | none => h
    (List.range 16).foldl (fun h p =>
      let c := 16 * d + p
      let h := h.loadRecord n c (ws.map fun l => l.getD p 0)
      let r := Tabs.get (fun _ => ((0, 0) : Word × Word)) h.snp.loads (n * 64 + c)
      if !h.carriesInputs n then h
      else if (h.inputOf n (loadInput d p)).isSome then h.lateInput n (loadInput d p) r.1 r.2 else h.giveInput n (loadInput d p) r.1 r.2) h

/-- The 16 samples of a die for cycle n are read and passed on, or the die gives none (R268, R457, R478). -/
def readSamples (h : Hw) (n d : Nat) (mute : Bool) : Hw :=
  let x := h.die d
  if mute || !x.powered then
    ((h.noAnswer d 16).loadRecords n d none).groupMean d (List.replicate 16 0)
  else
    let ws := (List.range 16).map fun p => (x.chan p).sample
    let h := h.setDie d { x with silent := 0 }
    let h := ws.zipIdx.foldl (fun h e => h.setReg (Reg.LSI_CH_SAMPLE (16 * d + e.2)) e.1) h
    ((h.loadRecords n d (some ws)).groupMean d ws).lsiStat (16 + d) (h.die d).fs

/-- The kicker refreshes (R472). -/
def kicking (h : Hw) : Bool := h.lsiOn && h.bit Reg.LSI_STAT 0 && (h.pwr.configured || decide (1 ≤ h.level))

/-- What the load dies do at SI(L) and in the steps of R457 that follow: the sensed values of each channel as (CODE, CLAMP, SAT),
and the dies that answer nothing. -/
def lsiCycle (h : Hw) (L : Nat) (sense : Nat → Nat × Bool × Bool) (mute : List Nat) : Hw :=
  if !h.lsiOn then h
  else
    let h := h.lsiSendAll L
    let h := (List.range 4).foldl (fun h d => h.dieEdge d sense) h
    let h := (List.range 4).foldl (fun h d => h.readSamples L d (mute.contains d)) h
    let h := if h.kicking then (List.range 4).foldl (fun h d => h.refresh d) h else h
    if L % 100 = 0 then
      (List.range 4).foldl (fun h d => if mute.contains d then h else h.statusRead d) h
    else h

/-- A burst: the dies sample, and one refresh each; no commands (R457, R472). -/
def lsiBurst (h : Hw) (n : Nat) (sense : Nat → Nat × Bool × Bool) (mute : List Nat) : Hw :=
  if !h.lsiOn then h
  else
    let h := (List.range 4).foldl (fun h d => h.dieEdge d sense) h
    let h := (List.range 4).foldl (fun h d => h.readSamples n d (mute.contains d)) h
    if h.kicking then (List.range 4).foldl (fun h d => h.refresh d) h else h

/-- One exchange of a link, whatever sent it (R453 to R456). -/
def dieExchange (h : Hw) (d op ch data tag : Nat) (crcOk : Bool) : Hw :=
  if !h.lsiOn then h
  else
    let x := h.die d
    if !x.powered then h.noAnswer d 1
    else
      let r := x.exchange op ch data tag crcOk
      (h.setDie d { r.1 with silent := 0 }).send (.die d) (beBytes 8 r.2.toNat)

/-- A die's state changes by an event of one of its channels. -/
def onChan (h : Hw) (c : Nat) (f : Die → LoadChan → LoadChan) : Hw :=
  let x := h.die (c / 16)
  h.setDie (c / 16) (x.setChan (c % 16) (f x (x.chan (c % 16))))

/-- Line l of die d is fed from a TIM output (R469, R482). -/
def lineFromTim (h : Hw) (d l : Nat) : Bool := h.bit (Reg.LSI_DIL d) (39 - 5 * l)

/-- The lines whose source loses its power read low, and the channels that follow them open (R469, R470). -/
def linesDown (h : Hw) (p : Nat → Nat → Bool) : Hw :=
  (List.range 4).foldl (fun (h : Hw) d =>
    let x := h.die d
    let x := { x with lines := (List.range 8).foldl (fun n l => if p d l then clearBitN n l else n) x.lines }
    h.setDie d (x.each fun c => if c.mode == 2 && p d c.line then { c with level := false } else c)) h

/-- A counter and an interrupt of the LSI, while the AO domain is on. -/
def lsiNote (h : Hw) (cnt irq : Nat) : Hw := if h.aoOn then (h.count cnt).setBit Reg.LSI_IRQ_STAT irq else h

end Hw

/-! ### Rows -/

/-- DIE_NOP. -/
def execDieNop (d : Fin 4) (ch : Fin 16) (data : Word) (tag : Byte) (crcOk : Bool) (s : State) : Result :=
  .next (s.onHw fun h => h.dieExchange d 0 ch data.toNat tag.toNat crcOk)

/-- DIE_SET. -/
def execDieSet (d : Fin 4) (ch : Fin 16) (data : Word) (tag : Byte) (crcOk : Bool) (s : State) : Result :=
  .next (s.onHw fun h => h.dieExchange d 1 ch data.toNat tag.toNat crcOk)

/-- DIE_CFG_CH. -/
def execDieCfgCh (d : Fin 4) (ch : Fin 16) (data : Word) (tag : Byte) (crcOk : Bool) (s : State) : Result :=
  .next (s.onHw fun h => h.dieExchange d 2 ch data.toNat tag.toNat crcOk)

/-- DIE_CFG_DIE. -/
def execDieCfgDie (d : Fin 4) (ch : Fin 16) (data : Word) (tag : Byte) (crcOk : Bool) (s : State) : Result :=
  .next (s.onHw fun h => h.dieExchange d 3 ch data.toNat tag.toNat crcOk)

/-- DIE_REFRESH. -/
def execDieRefresh (d : Fin 4) (ch : Fin 16) (data : Word) (tag : Byte) (crcOk : Bool) (s : State) : Result :=
  .next (s.onHw fun h => h.dieExchange d 4 ch data.toNat tag.toNat crcOk)

/-- DIE_SAMPLE. -/
def execDieSample (d : Fin 4) (ch : Fin 16) (data : Word) (tag : Byte) (crcOk : Bool) (s : State) : Result :=
  .next (s.onHw fun h => h.dieExchange d 5 ch data.toNat tag.toNat crcOk)

/-- DIE_CLEAR. -/
def execDieClear (d : Fin 4) (ch : Fin 16) (data : Word) (tag : Byte) (crcOk : Bool) (s : State) : Result :=
  .next (s.onHw fun h => h.dieExchange d 6 ch data.toNat tag.toNat crcOk)

/-- DIE_STATUS. -/
def execDieStatus (d : Fin 4) (ch : Fin 16) (data : Word) (tag : Byte) (crcOk : Bool) (s : State) : Result :=
  .next (s.onHw fun h => h.dieExchange d 7 ch data.toNat tag.toNat crcOk)

/-- LOAD_CMD_OFF. -/
def execLoadCmdOff (who : Who) (c : Fin 64) (line : Fin 8) (s : State) : Result :=
  .next (s.onHw fun h => h.guarded who Reg.LSI_CMD fun h => h.lsiCommand c 0 line)

/-- LOAD_CMD_ON. -/
def execLoadCmdOn (who : Who) (c : Fin 64) (line : Fin 8) (s : State) : Result :=
  .next (s.onHw fun h => h.guarded who Reg.LSI_CMD fun h => h.lsiCommand c 1 line)

/-- LOAD_CMD_FOLLOW. -/
def execLoadCmdFollow (who : Who) (c : Fin 64) (line : Fin 8) (s : State) : Result :=
  .next (s.onHw fun h => h.guarded who Reg.LSI_CMD fun h => h.lsiCommand c 2 line)

/-- LOAD_CMD_CLEAR. -/
def execLoadCmdClear (who : Who) (c : Fin 64) (line : Fin 8) (s : State) : Result :=
  .next (s.onHw fun h => h.guarded who Reg.LSI_CMD fun h => h.lsiCommand c 3 line)

/-- OVERCURRENT_EVENT: a retry within the warm-up while retries remain, or the latch (R463, R465, R480). -/
def execOvercurrentEvent (c : Fin 64) (warm : Bool) (s : State) : Result :=
  .next (s.onHw fun h =>
    let x := h.die (c / 16)
    let y := x.chan (c % 16)
    if x.powered && (x.conducts y || x.hardLine y) && y.latch == 0 then
      let lamp := warm && !x.hardLine y && (y.mode == 1 || y.forced == 2) && decide (y.retries < y.maxRetries)
      (h.onChan c fun _ y => if lamp then { y with retry := true } else { y with latch := 5, retry := false }).lsiNote
        Reg.LSI_CNT_OC 2
    else h)

/-- THERMAL_SHUTDOWN (R464). -/
def execThermalShutdown (c : Fin 64) (s : State) : Result :=
  .next (s.onHw fun h =>
    if (h.die (c / 16)).powered then
      (h.onChan c fun _ y => { y with latch := 6, retry := false }).lsiNote Reg.LSI_CNT_OT 3
    else h)

/-- LAMP_RETRY_END (R465). -/
def execLampRetryEnd (c : Fin 64) (s : State) : Result :=
  .next (s.onHw fun h => h.onChan c fun _ y => if y.retry then { y with retry := false, retries := y.retries + 1 } else y)

/-- DIRECT_LINE_CHANGE: a line has held a new level for `us` µs, or returns after them (R470). -/
def execDirectLineChange (d : Fin 4) (l : Fin 8) (level : Bool) (us : Nat) (s : State) : Result :=
  .next (s.onHw fun h =>
    let x := h.die d
    if level && (!h.aoOn || (h.lineFromTim d l && !h.sysOn)) then h
    else
    let follows := fun (p : Nat) => (x.chan p).mode == 2 && (x.chan p).line == l.val && (x.chan p).level ≠ level
    let short := ((List.range 16).filter fun p => follows p && decide (us < shortestPulse p)).length
    let x := if us < 5 then x else { x with lines := if level then setBitN x.lines l else clearBitN x.lines l }
    let x := (List.range 16).foldl (fun (x : Die) p =>
      if follows p && decide (shortestPulse p ≤ us) then x.setChan p { x.chan p with level := level } else x) x
    let h := h.setDie d x
    if h.aoOn && short ≠ 0 then h.countBy Reg.LSI_CNT_PULSE short else h)

/-- WATCHDOG_EXPIRE (R473, R480). -/
def execWatchdogExpire (d : Fin 4) (s : State) : Result :=
  .next (s.onHw fun h =>
    let x := h.die d
    if x.powered && x.running then
      let h := (h.setDie d x.expire).lsiNote Reg.LSI_CNT_WDX 4
      if h.aoOn then h.lsiStat (16 + d) true else h
    else h)

/-- DIE_LOST: three requests in a row without an answer, or a VLS below 16 V in units of 1 mV (R478). -/
def execDieLost (d : Fin 4) (vls : Option (BitVec 16)) (s : State) : Result :=
  .next (s.onHw fun h =>
    match vls with
    | none => h.loseDie d
    | some v => if 16000 ≤ v.toNat then h else (h.setDie d ((h.die d).supplied v.toNat)).loseDie d)

/-- DIE_RESTORE: a die that answers NOT_CONFIGURED is configured again (R478). -/
def execDieRestore (d : Fin 4) (s : State) : Result :=
  .next (s.onHw fun h =>
    let x := h.die d
    if h.lsiOn && !x.configured && x.powered then
      let h := h.sendCfgDie d (h.bit Reg.LSI_STAT (4 + d))
      let h := (List.range 16).foldl (fun h p => h.sendCfgCh (16 * d + p)) h
      (h.clearBit Reg.LSI_STAT (8 + d)).setBit Reg.LSI_STAT (12 + d)
    else h)

/-- DIE_VLS_RECOVER: VLS rises to 16.5 V or above, in any power state of the device (R53). A die that kept its configuration resumes
with it, and the STATUS that shows the supply clears LOST; one that was below its lockout has restarted and waits for its
configuration (R478). -/
def execDieVlsRecover (d : Fin 4) (vls : BitVec 16) (s : State) : Result :=
  .next (s.onHw fun h =>
    if vls.toNat < 16500 then h else (h.setDie d ((h.die d).supplied vls.toNat)).statusRead d)

end Sys2Proof.Machine
end

