-- ==== Sys2Proof/Machine/Snp.lean ====
section
/-! DEFINITION. The synchronous snapshot: calibration, status words, the records of a cycle and what the journal keeps of them
(R251 to R268, R381, R382). -/

namespace Sys2Proof.Machine

/-! ### Calibration (R257 to R261) -/

/-- The entry of a channel, with the range index of an auxiliary one (R257). -/
def calEntry (k p j r : Nat) : Nat :=
  k * 3072 + (if p < 128 then (if j < 16 then p * 16 + j else 2048 + p * 4 + (j - 16)) else 2560 + (p - 128) * 16 + j * 4 + r)

/-- The bytes of a payload from a position on, as a number (R176). -/
def field (l : List Byte) (i n : Nat) : Nat := beNat ((l.drop i).take n)

/-- The code of channel j (R176, R184). -/
def codeOf (p j : Nat) (l : List Byte) : BitVec 24 := BitVec.ofNat 24 (field l (if p < 128 then 3 * j else 5 * j) 3)

/-- NSTAT and BAL_STATE, ACK_SEQ and ACK_CODE (R184). -/
def nstatOf (p : Nat) (l : List Byte) : Nat := field l (if p < 128 then 60 else 20) 2
def balOf (p : Nat) (l : List Byte) : Nat := if p < 128 then field l 62 2 else 0
def ackSeqOf (p : Nat) (l : List Byte) : Nat := field l (if p < 128 then 64 else 22) 2
def ackCodeOf (p : Nat) (l : List Byte) : Nat := field l (if p < 128 then 66 else 24) 1

/-- A calibrated value (R260, R264): the value word, its CLASS, RANGE_HI and RANGE_LO, NOCONV and the CAL_ID. -/
structure CalVal where
  v : Word := 0
  cls : Nat := 0
  hi : Bool := false
  lo : Bool := false
  noconv : Bool := false
  calId : Nat := 0
  deriving DecidableEq, Repr

/-- The value of R260, before saturation. -/
def calValue (offset gain tref k1 k2 : Int) (x : Int) (t : Option Int) : Int :=
  let a := x * 2 ^ 16 - offset
  let dt := match t with
    | some t => rheQ (t - tref) 1000
    | none => 0
  rheQ (a * gain * 2 ^ 4 + k1 * dt * 2 ^ 20 + k2 * dt * dt) (2 ^ 40)

/-- Saturation to the 40-bit signed range. -/
def sat40 (v : Int) : Int := if v < -(2 ^ 39) then -(2 ^ 39) else if 2 ^ 39 ≤ v then 2 ^ 39 - 1 else v

namespace Hw

/-- Word w of an entry as frames of cycle n use it (R262). -/
def calWord (h : Hw) (n e w : Nat) : Word :=
  match (h.snp.calq.filter fun c => c.entry == e && decide (c.lc ≤ n)).foldl (fun (b : Option CalChg) c => match b with
      | some x => if x.lc ≤ c.lc then some c else b
      | none => some c) none with
  | some c => c.words.getD w 0
  | none => Tabs.get (fun _ => 0) h.snp.cal (8 * e + w)

/-- The last VALID value of a channel. -/
def lastOf (h : Hw) (key : Nat) : Option Word := Tabs.get (fun _ => (none : Option Word)) h.snp.last key

/-- The AGE of a channel (R263). -/
def ageOf (h : Hw) (key : Nat) : Nat := Tabs.get (fun _ => 0xFF) h.snp.age key

/-- The value, CLASS and bits of channel j of a frame of cycle n; its reference channel is calibrated first (R259 to R261,
R264). A chain of references longer than the channels of a node cannot be. -/
def calibrate (h : Hw) (n k p : Nat) (l : List Byte) : Nat → Nat → CalVal
  | 0, _ => { cls := 2 }
  | fuel + 1, j =>
    let aux := 128 ≤ p
    let r := if aux then field l (5 * j + 3) 1 else 0
    let old := (h.lastOf (chanKey k p j)).getD 0
    let code := codeOf p j l
    let nc := code = 0x800000 || bitN (nstatOf p l) 13
    if aux ∧ 3 < r then { v := old, cls := 3, noconv := nc }
    else
      let w := fun i => h.calWord n (calEntry k p j r) i
      let s := fun i => (w i).toInt
      let id := bitsOf (w 7) 39 24
      if nc || (aux && (field l (5 * j + 4) 1) &&& bitsOf (w 7) 15 8 ≠ 0) then { v := old, cls := 3, noconv := nc, calId := id }
      else
        let kind := bitsOf (w 7) 19 18
        let t := if kind = 0 then none
          else
            let q := bitsOf (w 7) 17 16 + (if kind = 1 then 16 else 0)
            let ref := h.calibrate n k p l fuel q
            some (if ref.cls = 0 then ref.v.toInt else ((h.lastOf (chanKey k p q)).map (·.toInt)).getD (s 2))
        let x := calValue (s 0) (s 1) (s 2) (s 3) (s 4) code.toInt t
        let v := sat40 x
        let hi := decide (v < x) || decide (s 6 < v)
        let lo := decide (x < v) || decide (v < s 5)
        { v := BitVec.ofInt 40 v, cls := if hi || lo then 3 else 0, hi := hi, lo := lo, calId := id }

/-- The calibrated channels of a frame. -/
def calibrated (h : Hw) (n k p : Nat) (l : List Byte) : List CalVal :=
  (List.range (chansOf p)).map fun j => h.calibrate n k p l 5 j

/-- QFREE and CALQ_PEND follow the changes that have not taken effect (R262, R278). -/
def setCalq (h : Hw) : Hw :=
  let n := (h.snp.calq.filter fun c => !c.eff).length
  (h.setFld Reg.SNP_CALQ_STAT Fld.SNP_CALQ_STAT_QFREE (64 - n)).setFld Reg.SNP_STAT Fld.SNP_STAT_CALQ_PEND (b2n (n ≠ 0))

/-! ### Copies (R252 to R256, R265) -/

/-- The key of a position's record in a cycle. -/
def recKey (n k p : Nat) : Nat := n * 2560 + 160 * k + p

def recOf (h : Hw) (n k p : Nat) : Rec := Tabs.get (fun _ => ({} : Rec)) h.snp.recs (recKey n k p)
def setRec (h : Hw) (n k p : Nat) (r : Rec) : Hw :=
  { h with snp := { h.snp with recs := Tabs.set (fun _ => ({} : Rec)) h.snp.recs (recKey n k p) r } }

/-- The topology of an instance (R211). -/
def topo (h : Hw) (k : Nat) : Nat := h.fld (Reg.VNK_RING_CFG k) Fld.VNK_RING_CFG_TOPO

/-- Every copy that the device can receive has arrived (R253): both direct ones on a closed ring, the direct and the relayed
one on a dual-homed ring. -/
def allCame (h : Hw) (k : Nat) (r : Rec) : Bool :=
  if h.topo k = 1 then r.came.contains 0 && r.came.contains 1
  else (r.came.contains 0 || r.came.contains 1) && r.came.contains 2

/-- The record is final (R253). -/
def isFinal (h : Hw) (n k p : Nat) : Bool :=
  decide (n ≤ (h.reg Reg.SNP_CLOSED_LC).toNat) || h.allCame k (h.recOf n k p)

/-- The guards compare the values of a direct copy (R429). -/
def guardFrame (h : Hw) (n k p : Nat) (l : List Byte) : Hw :=
  let vals := h.calibrated n k p l
  (vals.zipIdx.foldl (fun h x => if x.1.cls = 0 ∨ x.1.hi ∨ x.1.lo then h.guardValue k p x.2 x.1.v else h) (h.guardCopy k p))

/-! ### What the journal keeps of a copy (R381, R382) -/

/-- Numbers of w bits each as words, from [39] down, the last word padded with zeros. -/
def packBits (w : Nat) (l : List Nat) : List Word :=
  let n := l.length * w
  let words := (n + 39) / 40
  let total := l.foldl (fun a x => a * 2 ^ w + x % 2 ^ w) 0 * 2 ^ (words * 40 - n)
  (List.range words).map fun i => word (total / 2 ^ (40 * (words - 1 - i)))

/-- The code bytes' positions of a payload, and the tail (R382). -/
def codesOf (p : Nat) (l : List Byte) : List Nat := (List.range (chansOf p)).map fun j => (codeOf p j l).toNat
def tailOf (p : Nat) (l : List Byte) : List Byte :=
  (l.zipIdx.filter fun x => if p < 128 then decide (60 ≤ x.2) else decide (20 ≤ x.2) || decide (3 ≤ x.2 % 5)).map (·.1)

/-- The smallest width that holds every difference, and its WSEL (R382). -/
def deltaWidth (d : List Int) : Nat × Nat :=
  (([(0, 0), (4, 1), (8, 2), (12, 3), (16, 4)] : List (Nat × Nat)).find? fun x =>
    d.all fun v => if x.1 = 0 then v == 0 else decide (-(2 ^ (x.1 - 1) : Int) ≤ v) && decide (v < (2 ^ (x.1 - 1) : Int))).getD (24, 5)

/-- A FRAME record: the bytes of a copy, valid or not (R381). -/
def frameRecord (h : Hw) (n k p src : Nat) (valid : Bool) (bytes : List Byte) : Hw :=
  let b := bytes.take 184
  h.record 0x02 k p src (h.kOf n) (b2n valid * 32) (word b.length :: packBytes b)

/-- A valid copy that is not in COPYSET: as DELTA, or as FRAME (R382). `bytes` are the frame's bytes 1 to 9 + LEN. -/
def copyRecord (h : Hw) (n k p src : Nat) (bytes l : List Byte) : Hw :=
  let key := 160 * k + p
  let old := Tabs.get (fun _ => ([] : List Byte)) h.snp.refs key
  let h1 :=
    if old.isEmpty || (n + 1024 * 1024 - key) % 1024 == 0 || (src == 2 && h.topo k == 1) then h.frameRecord n k p src true bytes
    else
      let d := ((codesOf p l).zip (codesOf p old)).map fun x => (BitVec.ofInt 24 ((x.1 : Int) - x.2)).toInt
      let w := deltaWidth d
      let same := tailOf p l == tailOf p old
      let body := packBits w.1 (d.map fun v => (v % 2 ^ w.1).toNat) ++ (if same then [] else packBytes (tailOf p l))
      h.record 0x03 k p src (h.kOf n) (w.2 * 8 + b2n same * 4) body
  { h1 with snp := { h1.snp with refs := Tabs.set (fun _ => ([] : List Byte)) h1.snp.refs key l } }

/-- The key of a ring's copies from one source in a cycle. -/
def setKey (n k src : Nat) : Nat := (n * 8 + k) * 4 + src

/-- A valid copy enters the journal (R382). -/
def journalCopy (h : Hw) (n k p src : Nat) (first : List Byte) (bytes l : List Byte) : Hw :=
  if !h.carriesInputs n then h
  else if first.isEmpty then h.copyRecord n k p src bytes l
  else if first = l then
    let old := Tabs.get (fun _ => ([] : List Nat)) h.snp.copyset (setKey n k src)
    { h with snp := { h.snp with copyset := Tabs.set (fun _ => ([] : List Nat)) h.snp.copyset (setKey n k src) (p :: old) } }
  else h.copyRecord n k p src bytes l

/-- The byte positions in which two payloads differ. -/
def diffs (a b : List Byte) : List Nat := ((a.zip b).zipIdx.filter fun x => x.1.1 ≠ x.1.2).map (·.2)

/-- A byte position of a payload that R265 looks at: a channel's field, NSTAT or BAL_STATE. -/
def sharedByte (p i : Nat) : Bool := if p < 128 then decide (i < 64) else decide (i < 22)

/-- Channel j disagrees (R265). -/
def disagrees (p j : Nat) (d : List Nat) : Bool :=
  d.any fun i =>
    if p < 128 then (decide (3 * j ≤ i) && decide (i < 3 * j + 3)) || (decide (60 ≤ i) && decide (i < 64))
    else (decide (5 * j ≤ i) && decide (i < 5 * j + 5)) || decide (i = 20) || decide (i = 21)

/-- A valid copy of an MS or AX frame of cycle n from a source enters the record: 0 AB, 1 BA, 2 relayed (R251 to R256, R265, R429). `bytes`
are the frame's bytes 1 to 9 + LEN and `l` its payload. -/
def recordCopy (h : Hw) (n k p src : Nat) (bytes l : List Byte) : Hw :=
  if !h.snpOn then h
  else
    let r := h.recOf n k p
    if h.isFinal n k p then
      (if k < 8 then (h.count Reg.SNP_CNT_LATE).setBit Reg.SNP_IRQ_STAT 2 else h)
    else
      let d := if r.payload.isEmpty then [] else diffs r.payload l
      let new := d.any (sharedByte p) && !r.diff.any (sharedByte p)
      let use := r.payload.isEmpty || (r.src == 2 && src ≠ 2)
      let h1 := if k < 8 then h.journalCopy n k p src r.payload bytes l else h
      let h1 := if new then h1.count Reg.SNP_CNT_DISAGREE else h1
      let h1 := h1.setRec n k p
        { r with payload := if use then l else r.payload, src := if use then src else r.src, came := src :: r.came
                 diff := r.diff ++ d }
      let h1 := if src = 2 then h1 else h1.guardFrame n k p l
      if 8 ≤ k then
        (h1.calibrated n k p l).zipIdx.foldl (fun h x => if x.1.cls = 0 then
          { h with snp := { h.snp with last := Tabs.set (fun _ => (none : Option Word)) h.snp.last (chanKey k p x.2) (some x.1.v) } }
          else h) h1
      else h1

/-- An invalid copy in a slot of a position: it has arrived (R253, R256, R381). -/
def recordBadCopy (h : Hw) (n k p src : Nat) (bytes : List Byte) : Hw :=
  if !h.snpOn || 8 ≤ k then h
  else if h.isFinal n k p then (h.count Reg.SNP_CNT_LATE).setBit Reg.SNP_IRQ_STAT 2
  else
    let h := if h.carriesInputs n then h.frameRecord n k p src false bytes else h
    let r := h.recOf n k p
    h.setRec n k p { r with came := src :: r.came }

/-! ### The records of a cycle (R256, R263 to R267) -/

/-- The mask sent to a position in a ring cycle (R267). -/
def maskSent (h : Hw) (k n p : Nat) : Nat :=
  match (h.ring k).balSent.find? fun x => x.1 == n with
  | some x => Tabs.get (fun _ => 0) x.2 p
  | none => 0

/-- A record: its input identifier, value and status. -/
abbrev SnapRec := Nat × Word × Word

/-- The record of one channel becomes what it stays (R263, R264, R267). -/
def finishChan (h : Hw) (n k p : Nat) (r : Rec) (x : CalVal) (j : Nat) : Hw × SnapRec :=
  let key := chanKey k p j
  let stale := r.payload.isEmpty
  let cls := if stale then 2 else x.cls
  let v := if stale then (h.lastOf key).getD 0 else x.v
  let age := if cls = 0 then 0 else if h.ageOf key = 0xFF then 0xFF else min (h.ageOf key + 1) 0xFF
  let ns := nstatOf p r.payload
  let cell := p < 128 ∧ j < 16
  let sent := bitN (h.maskSent k (n - 2) p) j
  let bal := decide cell && (if stale then sent else bitN (balOf p r.payload) j)
  let mis := decide cell && (stale || bal ≠ sent)
  let st := word ((if stale then bitsOf (h.calWord n (calEntry k p j 0) 7) 39 24 else x.calId) * 2 ^ 24 + age * 2 ^ 16 + r.src * 2 ^ 12 +
    cls * 2 ^ 10 + b2n (disagrees p j r.diff) * 2 ^ 9 + b2n (h.bit Reg.SNP_STAT 3) * 2 ^ 8 + b2n (bitN ns 9) * 2 ^ 7 +
    b2n (!stale && x.noconv) * 2 ^ 6 + b2n (bitN ns 12) * 2 ^ 5 + b2n bal * 2 ^ 4 + b2n mis * 2 ^ 3 + b2n (!stale && x.hi) * 2 ^ 2 +
    b2n (!stale && x.lo) * 2)
  let h := { h with snp := { h.snp with
    last := if cls = 0 then Tabs.set (fun _ => (none : Option Word)) h.snp.last key (some v) else h.snp.last
    age := Tabs.set (fun _ => 0xFF) h.snp.age key age } }
  let h := if cls = 2 then (h.count Reg.SNP_CNT_STALE).setBit Reg.SNP_IRQ_STAT 0
    else if cls = 3 then (h.count Reg.SNP_CNT_OOR).setBit Reg.SNP_IRQ_STAT 1 else h
  (h, ringInput k p j, v, st)

/-- The records of a position (R256): every channel, and the frame's own entry with NSTAT and BAL_STATE (R266). -/
def finishPos (h : Hw) (n k p : Nat) : Hw × List SnapRec :=
  let r := h.recOf n k p
  let vals := h.calibrated n k p r.payload
  let h := if r.src = 2 then h.count Reg.SNP_CNT_RELAY else h
  let h := if p < 128 ∧ (r.payload.isEmpty ∨ balOf p r.payload ≠ h.maskSent k (n - 2) p) then h.count Reg.SNP_CNT_BALMIS else h
  let x := vals.zipIdx.foldl (fun (a : Hw × List SnapRec) c =>
    let y := a.1.finishChan n k p r c.1 c.2
    (y.1, a.2 ++ [y.2])) (h, [])
  let bal := if r.payload.isEmpty then h.maskSent k (n - 2) p else balOf p r.payload
  (x.1, x.2 ++ [(frameInput k p, word (bal * 2 ^ 16 + nstatOf p r.payload), 0)])

/-- A record is handed to the fabric manager (R256). -/
def handOn (h : Hw) (n : Nat) (recs : List SnapRec) : Hw :=
  if h.carriesInputs n then recs.foldl (fun (h : Hw) r =>
      if (h.inputOf n r.1).isSome then h.lateInput n r.1 r.2.1 r.2.2 else h.giveInput n r.1 r.2.1 r.2.2) h
  else h

/-- The records of a position in a cycle: those that are final already, or what they become now, handed on. -/
def finishNow (h : Hw) (n k p : Nat) : Hw × List SnapRec :=
  if (h.recOf n k p).done then (h, Tabs.get (fun _ => ([] : List SnapRec)) h.snp.outs (recKey n k p))
  else
    let y := h.finishPos n k p
    (y.1.handOn n y.2, y.2)

/-- The records of the cycle before are final, on which those of a cycle depend (R256). -/
def prevDone (h : Hw) (n k p : Nat) : Bool :=
  decide (n ≤ (h.reg Reg.SNP_CLOSED_LC).toNat + 1) || (h.recOf (n - 1) k p).done

/-- A record of a declared position that has every copy it can have is final, and handed on, as soon as that of the cycle before is; the
cycles after may wait for it (R253, R256). -/
def finishDue (h : Hw) (n k p : Nat) : Nat → Hw
  | 0 => h
  | fuel + 1 =>
    let r := h.recOf n k p
    if 8 ≤ k || r.done || !(h.declared k).contains p || !h.allCame k r || !h.prevDone n k p then h
    else
      let y := h.finishNow n k p
      let h := y.1.setRec n k p { r with done := true }
      let outs := Tabs.set (fun _ => ([] : List SnapRec)) h.snp.outs (recKey n k p) y.2
      ({ h with snp := { h.snp with outs := outs } }).finishDue (n + 1) k p fuel

/-- A copy of an MS or AX frame of cycle n: valid with its payload, or invalid; its record may become final with it. CLOSE is at most 3 000 µs,
so at most three later cycles wait. -/
def takeCopy (h : Hw) (n k p src : Nat) (bytes l : List Byte) : Hw := (h.recordCopy n k p src bytes l).finishDue n k p 5
def takeBadCopy (h : Hw) (n k p src : Nat) (bytes : List Byte) : Hw := (h.recordBadCopy n k p src bytes).finishDue n k p 5

/-- The direct slots of cycle n have passed on a ring: what has not come by them does not come (R253). -/
def slotsPass (h : Hw) (n k : Nat) : Hw :=
  if !h.snpOn || 8 ≤ k || decide (n ≤ (h.reg Reg.SNP_CLOSED_LC).toNat) then h
  else (h.declared k).foldl (fun (h : Hw) p =>
    let r := h.recOf n k p
    if r.done then h else (h.setRec n k p { r with came := 0 :: 1 :: r.came }).finishDue n k p 5) h

/-- A bitmap of positions in four words (R381). -/
def bitmap (l : List Nat) : List Word :=
  (List.range 4).map fun i => word ((List.range 40).foldl (fun w b => if l.contains (40 * i + b) then setBitN w b else w) 0)

/-- The records of a ring's copies and minislots in a cycle, and its closure record (R381). -/
def closeRing (h : Hw) (n k : Nat) (missing : List Nat) : Hw :=
  let kk := h.kOf n
  let h := (List.range 3).foldl (fun (h : Hw) src =>
    let c := Tabs.get (fun _ => ([] : List Nat)) h.snp.copyset (setKey n k src)
    if c.isEmpty then h else h.record 0x04 k 0 src kk 0 (bitmap c)) h
  let h := (List.range 3).foldl (fun (h : Hw) src =>
    let g := Tabs.get (fun _ => ([] : List (Nat × Byte))) h.snp.gdset (setKey n k src)
    let b := Tabs.get (fun _ => ([] : List Nat)) h.snp.gdbad (setKey n k src)
    if g.isEmpty && b.isEmpty then h
    else h.record 0x05 k 0 src kk (b2n (!b.isEmpty)) (bitmap (g.map (·.1)) ++ (if b.isEmpty then [] else bitmap b) ++
      packBytes ((g.filter fun x => x.2 ≠ 0).flatMap fun x => [byte x.1, x.2]))) h
  h.record 0x06 k missing.length 0 kk 0 (if missing.isEmpty then [] else bitmap missing)

/-! ### Windows (R273 to R275) -/

def win (h : Hw) (w : Nat) : Win := Tabs.get (fun _ => ({} : Win)) h.snp.wins w
def setWin (h : Hw) (w : Nat) (x : Win) : Hw := { h with snp := { h.snp with wins := Tabs.set (fun _ => ({} : Win)) h.snp.wins w x } }

/-- The input identifier of channel i of a window's kind (R174, R273). -/
def winChan (kind i : Nat) : Nat :=
  if kind = 1 then ringInput (i / 2048) (i / 16 % 128) (i % 16)
  else if kind = 2 then ringInput (i / 512) (i / 4 % 128) (16 + i % 4)
  else if kind = 3 then ringInput (i / 128) (128 + i % 128 / 4) (i % 4)
  else loadInput (i / 16) (i % 16)

/-- The kind, the first index and the count of a source (R273). -/
def winSrc (x : Win) : Nat × Nat × Nat := (bitsOf x.src 39 36, bitsOf x.src 35 20, bitsOf x.src 19 8)

/-- One record is folded into a window (R274). -/
def Win_fold (x : Win) (ch : Nat) (v st : Word) : Win :=
  if bitsOf st 11 10 = 0 then
    let i := v.toInt
    let first := x.nValid = 0
    { x with
      nValid := x.nValid + 1
      sum := (BitVec.ofInt 80 (x.sum + i)).toInt
      min := if first ∨ i < x.min then i else x.min
      minCh := if first ∨ i < x.min then ch else x.minCh
      max := if first ∨ x.max < i then i else x.max
      maxCh := if first ∨ x.max < i then ch else x.maxCh }
  else { x with nOther := x.nOther + 1 }

/-- The journal record of a window (R381): 1 start, 2 stop, 3 refused, 4 state change. -/
def winNote (h : Hw) (w op : Nat) (x : Win) (lc : Nat) : Hw :=
  h.note 0x10 w [word h.lc, word (op * 2 ^ 36 + x.state * 2 ^ 32), word lc]

/-- A window changes its state (R275). -/
def winState (h : Hw) (w : Nat) (x : Win) (s lc : Nat) : Hw :=
  let y := { x with state := s }
  let h := (h.setWin w y).winNote w 4 y lc
  if 4 ≤ s then h.setBit Reg.SNP_IRQ_STAT 3 else h

/-- The records of a closed cycle are folded into the windows that cover it; ARMED windows whose start has closed run (R274,
R275). -/
def winClosed (h : Hw) (n : Nat) (recs : List SnapRec) : Hw :=
  (List.range 32).foldl (fun (h : Hw) w =>
    let x := h.win w
    if x.state = 1 ∨ x.state = 2 then
      let s := winSrc x
      let y := if x.start ≤ n && x.stop.all (fun t => decide (n < t)) then
          (List.range s.2.2).foldl (fun (x : Win) i =>
            match recs.find? fun r => r.1 == winChan s.1 (s.2.1 + i) with
            | some r => Win_fold x (s.2.1 + i) r.2.1 r.2.2
            | none => x) x
        else x
      let h := if y = x then h else h.setWin w y
      if y.state = 1 ∧ y.start ≤ n then h.winState w y 2 y.start else h
    else h) h

/-- LC_commit has reached a cycle: windows end, or lose their stop (R275). -/
def winCommitted (h : Hw) : Hw :=
  (List.range 32).foldl (fun (h : Hw) w =>
    let x := h.win w
    match x.stop with
    | none => h
    | some t =>
      if x.state = 2 ∧ t ≤ h.lcCommit + 1 then h.winState w x 4 t
      else if x.state = 3 ∧ t + h.horizon ≤ h.lcCommit then h.winState w x 6 t
      else h) h

/-! ### Closure (R253, R256) -/

/-- Changes whose commit LC has come take effect (R262, R278). -/
def calEffect (h : Hw) (n : Nat) : Hw :=
  if h.snp.calq.any fun c => !c.eff && decide (c.lc ≤ n) then
    let q := h.snp.calq.map fun c => if c.lc ≤ n then { c with eff := true } else c
    let h := { h with snp := { h.snp with calq := q } }
    h.setCalq.setBit Reg.SNP_IRQ_STAT 4
  else h

/-- Changes written as objects that have not taken effect are cancelled with their pending writes (R646). -/
def cancelCal (h : Hw) : Hw :=
  if h.snp.calq.any fun c => c.obj && !c.eff then
    ({ h with snp := { h.snp with calq := h.snp.calq.filter fun c => !(c.obj && !c.eff) } }).setCalq
  else h

/-- Changes in effect go into the store once no earlier cycle is open; nothing reads otherwise for it (R262). -/
def foldCal (h : Hw) (n : Nat) : Hw :=
  let due := h.snp.calq.filter fun c => c.eff && decide (c.lc ≤ n + 1)
  let cal := due.foldl (fun t c => c.words.zipIdx.foldl (fun t w => Tabs.set (fun _ => (0 : Word)) t (8 * c.entry + w.2) w.1) t) h.snp.cal
  { h with snp := { h.snp with cal := cal, calq := h.snp.calq.filter fun c => !(c.eff && decide (c.lc ≤ n + 1)) } }

/-- The cycle carries ring inputs: in burst operation the burst cycles alone do (R83, R251). -/
def ringInputs (h : Hw) (n : Nat) : Bool := !h.bit Reg.VNK_CTRL 1 || (n % 100 == 0 && decide (h.pwr.burstAt ≤ n))

/-- The records of cycle n become final, in order of ring and position, and are handed on (R253, R256). -/
def finishAll (h : Hw) (n : Nat) : Hw × List SnapRec :=
  if !h.ringInputs n then (h, [])
  else
    let carried := h.carriesInputs n
    ((List.range 8).filter fun k => h.topo k ≠ 0).foldl (fun (a : Hw × List SnapRec) k =>
      let ps := a.1.declared k
      let missing := ps.filter fun p => (a.1.recOf n k p).payload.isEmpty
      let b := ps.foldl (fun (a : Hw × List SnapRec) p =>
        let y := a.1.finishNow n k p
        (y.1, a.2 ++ y.2)) a
      (if carried then b.1.closeRing n k missing else b.1, b.2)) (h, [])

/-- Windows fold, and the tables of the cycle are dropped. -/
def closeRest (h : Hw) (n : Nat) (recs : List SnapRec) : Hw :=
  let loads := (Tabs.keep h.snp.loads (64 * n) (64 * n + 63)).map fun e => (loadInput (e.1 % 64 / 16) (e.1 % 16), e.2.1, e.2.2)
  let h := (h.setReg Reg.SNP_CLOSED_LC (word n)).winClosed n (if h.ringInputs n then recs ++ loads else [])
  let h := h.foldCal n
  { h with snp := { h.snp with
      recs := Tabs.clear h.snp.recs 0 (n * 2560 + 2559)
      outs := Tabs.clear h.snp.outs 0 (n * 2560 + 2559)
      loads := Tabs.clear h.snp.loads 0 (64 * n + 63)
      copyset := Tabs.clear h.snp.copyset 0 (n * 32 + 31)
      gdset := Tabs.clear h.snp.gdset 0 (n * 32 + 31)
      gdbad := Tabs.clear h.snp.gdbad 0 (n * 32 + 31) } }

/-- Cycle n closes: every record is final, journaled and handed on (R253, R256). -/
def closeCycle (h : Hw) (n : Nat) : Hw :=
  let x := h.finishAll n
  x.1.closeRest n x.2

end Hw

/-- SNP_CLOSURE: at SI(n) + CLOSE, in order of the cycles (R253). -/
def execSnpClosure (n : Nat) (s : State) : Result :=
  .next (s.onHw fun h =>
    let c := (h.reg Reg.SNP_CLOSED_LC).toNat
    let m := h.nextCycle (c + 1)
    if h.snpOn && decide (c < n) && decide (n ≤ h.lc) && !(h.carriesInputs m && decide (m < n)) then h.closeCycle n
    else h)

end Sys2Proof.Machine
end

