-- ==== Sys2Proof/Machine/SnpRows.lean ====
section
/-! DEFINITION. The rows that write the SNP (R259, R262, R273, R275, R278). -/

namespace Sys2Proof.Machine

namespace Hw

/-- An entry serves a temperature channel; and an auxiliary channel (R257). -/
def entryIsTemp (e : Nat) : Bool := 2048 ≤ e % 3072 && e % 3072 < 2560
def entryIsAux (e : Nat) : Bool := 2560 ≤ e % 3072

/-- An entry's words keep R259. -/
def calOk (e : Nat) (ws : List Word) : Bool :=
  let kind := bitsOf (ws.getD 7 0) 19 18
  decide (e < 49152) && decide ((ws.getD 5 0).toInt ≤ (ws.getD 6 0).toInt) &&
    (kind == 0 || (kind == 1 && !entryIsTemp e && !entryIsAux e) || (kind == 2 && entryIsAux e))

/-- A write of SNP_CAL_DATA (R278): the store while EN is 0, and the staging entry while it is 1. -/
def writeCalData (h : Hw) (v : Word) : Hw :=
  let e := h.fld Reg.SNP_CAL_ADDR Fld.SNP_CAL_ADDR_ENTRY
  let w := h.fld Reg.SNP_CAL_ADDR Fld.SNP_CAL_ADDR_WORD
  if h.bit Reg.SNP_CTRL 0 then { h with snp := { h.snp with staging := h.snp.staging.set w v } }
  else { h with snp := { h.snp with cal := Tabs.set (fun _ => (0 : Word)) h.snp.cal (8 * e + w) v } }

/-- A read of SNP_CAL_DATA: the addressed word in force. -/
def readCalData (h : Hw) : Word :=
  h.calWord h.lc (h.fld Reg.SNP_CAL_ADDR Fld.SNP_CAL_ADDR_ENTRY) (h.fld Reg.SNP_CAL_ADDR Fld.SNP_CAL_ADDR_WORD)

/-- A calibration change is requested for entry e at a commit LC, as an object or through the queue (R262): 0 OK, 1 QUEUE_FULL, 2 PAST_LC,
3 SAME_CAL_ID, 4 BAD_ENTRY. One whose commit LC has come already takes effect at once. -/
def calChange (h : Hw) (obj : Bool) (lc e : Nat) (ws : List Word) : Hw × Nat :=
  let rest := h.snp.calq.filter fun c => !(!c.eff && c.entry == e && c.lc == lc)
  let pending := rest.filter fun c => !c.eff
  let id := bitsOf (ws.getD 7 0) 39 24
  if 64 ≤ pending.length then (h, 1)
  else if lc ≤ (h.reg Reg.SNP_CLOSED_LC).toNat then (h, 2)
  else if id = bitsOf (h.calWord h.lc e 7) 39 24 ∨
      pending.any (fun c => c.entry == e && bitsOf (c.words.getD 7 0) 39 24 == id) then (h, 3)
  else if !calOk e ws then (h, 4)
  else
    let c : CalChg := { lc := lc, entry := e, words := ws, obj := obj }
    let h := { h with snp := { h.snp with calq := rest ++ [c] } }
    ((h.setCalq.note 0x0F 0 ([word lc, word e] ++ ws)).calEffect h.lc, 0)

/-- A write of SNP_CALQ_GO (R278). -/
def calqGo (h : Hw) (e : Nat) : Hw :=
  let r := h.calChange false (h.reg Reg.SNP_CALQ_LC).toNat e h.snp.staging
  r.1.setFld Reg.SNP_CALQ_STAT Fld.SNP_CALQ_STAT_RESULT r.2

/-- A source word is one of R273: its kind, and a count and last index within the kind. -/
def srcOk (w : Word) : Bool :=
  let s := winSrc { src := w }
  let last := if s.1 = 1 then 16384 else if s.1 = 2 then 4096 else if s.1 = 3 then 1024 else 64
  decide (1 ≤ s.1) && decide (s.1 ≤ 4) && decide (1 ≤ s.2.2) && decide (s.2.2 ≤ if s.1 = 1 then 2048 else 64) &&
    decide (s.2.1 + s.2.2 ≤ last)

/-- The source of a window is one of R273. -/
def winSrcOk (x : Win) : Bool := srcOk x.src

/-- A window without its results (R275). -/
def winCleared (x : Win) : Win := { src := x.src }

/-- A refused request (R275): 1 BUSY, 2 BAD_VALUE. -/
def winRefuse (h : Hw) (w code lc : Nat) : Hw × Nat :=
  let x := { h.win w with result := code }
  ((h.setWin w x).winNote w 3 x lc, code)

/-- An accepted request: the window's new state, EMPTY at once where its stop is not later than its start; what LC_commit has reached already
follows at once (R275). -/
def winAccept (h : Hw) (w op : Nat) (x : Win) (s lc : Nat) : Hw × Nat :=
  let s := if (s = 1 ∨ s = 2) ∧ x.stop.any (fun t => decide (t ≤ x.start)) then 5 else s
  let y := { x with state := s, result := 0 }
  let h := (h.setWin w y).winNote w op y lc
  ((if s = 5 then h.winState w y 5 lc else h).winCommitted, 0)

/-- The state is IDLE, DONE, EMPTY or ORPHAN. -/
def winIdle (x : Win) : Bool := x.state == 0 || decide (4 ≤ x.state)

/-- A start request (R275): 0 OK, 1 BUSY, 2 BAD_VALUE. -/
def winStart (h : Hw) (w lc : Nat) : Hw × Nat :=
  let x := h.win w
  if lc ≤ (h.reg Reg.SNP_CLOSED_LC).toNat ∨ !winSrcOk x then h.winRefuse w 2 lc
  else if winIdle x then h.winAccept w 1 { winCleared x with start := lc } 1 lc
  else if x.state = 3 then h.winAccept w 1 { x with start := lc } 1 lc
  else h.winRefuse w 1 lc

/-- A stop request (R275). -/
def winStop (h : Hw) (w lc : Nat) : Hw × Nat :=
  let x := h.win w
  if winIdle x then h.winAccept w 2 { winCleared x with stop := some lc } 3 lc
  else if x.state = 3 then h.winRefuse w 1 lc
  else if lc ≤ (h.reg Reg.SNP_CLOSED_LC).toNat then h.winRefuse w 2 lc
  else if x.stop.isSome then h.winRefuse w 1 lc
  else h.winAccept w 2 { x with stop := some lc } x.state lc

/-- A clear (R275). -/
def winClear (h : Hw) (w : Nat) : Hw := h.winState w (winCleared (h.win w)) 0 0

/-- A write of SNP_WIN_CMD (R278). -/
def winCmd (h : Hw) (op : Nat) : Hw :=
  let w := h.fld Reg.SNP_WIN_SEL Fld.SNP_WIN_SEL_WIN
  if op = 1 then (h.winStart w (h.reg Reg.SNP_WIN_START).toNat).1
  else if op = 2 then (h.winStop w (h.reg Reg.SNP_WIN_STOP).toNat).1
  else if op = 3 then h.winClear w else h

end Hw

/-- SNP_CAL_DATA_WRITE. -/
def execSnpCalDataWrite (who : Who) (v : Word) (s : State) : Result :=
  .next (s.onHw fun h => h.guarded who Reg.SNP_CAL_DATA fun h => h.writeCalData v)

/-- SNP_CALQ_GO. -/
def execSnpCalqGo (who : Who) (entry : Fin 65536) (s : State) : Result :=
  .next (s.onHw fun h => h.guarded who Reg.SNP_CALQ_GO fun h => h.calqGo entry)

/-- WINDOW_START: SNP_WIN_CMD with OP start. -/
def execWindowStart (who : Who) (s : State) : Result :=
  .next (s.onHw fun h => h.guarded who Reg.SNP_WIN_CMD fun h => h.winCmd 1)

/-- WINDOW_STOP: SNP_WIN_CMD with OP stop. -/
def execWindowStop (who : Who) (s : State) : Result :=
  .next (s.onHw fun h => h.guarded who Reg.SNP_WIN_CMD fun h => h.winCmd 2)

/-- WINDOW_CLEAR: SNP_WIN_CMD with OP clear. -/
def execWindowClear (who : Who) (s : State) : Result :=
  .next (s.onHw fun h => h.guarded who Reg.SNP_WIN_CMD fun h => h.winCmd 3)

end Sys2Proof.Machine
end

