-- ==== Sys2Proof/Machine/SwitchRows.lean ====
section
/-! DEFINITION. The rows of the MACs, the switch and the host ports (R554 to R580). -/

namespace Sys2Proof.Config

/-- The content of a PRP supervision frame of a node (R573): IEC 62439-3 gives it. LAN is 0xA or 0xB. -/
opaque prpSupervision : (mac seq lan : Nat) → List Byte

end Sys2Proof.Config

namespace Sys2Proof.Machine

namespace Hw

/-! ### Reception (R556 to R574) -/

/-- A peer frame is one that the switch core accepts (R719). `l` has its tag. -/
def peerOk (h : Hw) (p : Nat) (l : List Byte) : Bool :=
  let lans := [0, 1].zipIdx ++ h.cfg.sw.downlinks.zipIdx
  let lan := (lans.find? fun x => x.1 == p).map (·.2)
  let vid := (tagOf l).map (· % 4096)
  let b := (untagged l).drop 14
  let kind := frameField b 0 1
  let src := frameField b 4 2
  let dst := frameField b 6 2
  let near := h.cfg.sw.neighbours.any fun n => n.dev == src &&
    (if kind = 5 then n.rel == 1 else n.rel == 2 || h.cfg.rings.any fun r => r.2.any fun c => c.peerId == src)
  lan.isSome && (lan.map fun x => Tabs.get (fun _ => 0) h.cfg.sw.peerVid x) == vid && frameField b 1 1 == 1 &&
    frameField b 2 2 == h.cfg.plantTag && (kind == 1 || (decide (2 ≤ kind) && decide (kind ≤ 5) && near)) &&
    (dst == h.cfg.deviceId || dst == 0xFFFF)

/-- The stages from VLAN to lookup, with their counters (R556 to R559): what remains of the frame, unless it is discarded. -/
def stages (h : Hw) (p : Nat) (l : List Byte) : Hw × Option Fwd :=
  if frameField (untagged l) 12 2 = 0x88B6 ∧ !h.peerOk p l then ((h.peerCountUp 2).undeclare 11, none)
  else
    let w := h.forward p l none
    let h := if w.unknown then h.undeclare 8 else h
    let h := if w.demoted then h.macCount p 21 1 else h
    match w.drop with
    | some c => (h.macCount p c 1, none)
    | none => (h, some w)

def rxOf (h : Hw) (p : Nat) : Option SwRx := Tabs.get (fun _ => none) h.sw.rx p
def setRx (h : Hw) (p : Nat) (r : Option SwRx) : Hw := h.onSw fun s => { s with rx := Tabs.set (fun _ => none) s.rx p r }

/-- The first 64 bytes of a frame (R556), with the ingress timestamp of a PTP event message (R595; log entry 46). -/
def frameIn (h : Hw) (p : Nat) (head : List Byte) : Hw :=
  if !h.swOn || !h.linkUp p || (h.rxOf p).isSome || head.length < 60 then h
  else if frameField head 12 2 = 0x8808 then h.setRx p (some { ctl := true })
  else
    let t := if ptpEvent (untagged head) then
        let o := h.observe
        (o.2, some ((o.1 : Int) - (h.reg (Reg.TIME_PORT p 1)).toNat))
      else (h, none)
    let h := t.1
    if h.prpOn && p < 2 then h.setRx p (some { late := true, time := t.2 })
    else match h.stages p head with
      | (h, none) => h.setRx p (some {})
      | (h, some w) =>
        let m := h.mirrorTakes p true w.hit
        let a := m.1.takeIn p w (untagged head) (frameField head 0 6) t.2
        a.1.setRx p (some { frame := a.2, sample := m.2.1, copy := m.2.2, time := t.2 })

/-- The counters of a good frame of length L (R580). -/
def goodFrame (h : Hw) (p len mac : Nat) : Hw :=
  let h := (h.macCount p 0 1).macCount p 1 len
  let h := h.macCount p (if mac = 2 ^ 48 - 1 then 4 else if groupAddr mac then 3 else 2) 1
  h.macCount p (if len ≤ 64 then 5 else if len ≤ 127 then 6 else if len ≤ 255 then 7 else if len ≤ 511 then 8
    else if len ≤ 1023 then 9 else if len ≤ 1522 then 10 else 11) 1

/-- A frame that ends with an error: what has begun cut-through is ended at each egress, and the rest is discarded (R560, R567). -/
def badFrame (h : Hw) (id len : Nat) : Hw :=
  match h.swFrame id with
  | none => h
  | some f =>
    if f.started.isEmpty then h.dropFrame f
    else
      let n := min 8 (cellsOf len)
      (h.setFree (h.swFree + (f.cells - n))).putFrame { f with bad := true, egress := f.started, cells := n }

/-- The redundancy control trailer of a frame on a port: its sequence number (R574). `l` has no FCS. -/
def trailer (p : Nat) (l : List Byte) : Option Nat :=
  let t := l.drop (l.length - 6)
  if 20 ≤ l.length ∧ frameField t 4 2 = 0x88FB ∧ frameField t 2 2 / 4096 = (if p = 0 then 0xA else 0xB) ∧
      frameField t 2 2 % 4096 = ((untagged l).length - 14) % 4096 then some (frameField t 0 2) else none

/-- The PRP step: the frame without its trailer, unless it is a duplicate (R574). -/
def prpStep (h : Hw) (p : Nat) (l : List Byte) : Hw × Option (List Byte) :=
  match trailer p l with
  | none => (h, some l)
  | some seq =>
    let sa := frameField l 6 6
    let age := h.fld Reg.SWC_PRP Fld.SWC_PRP_AGE
    if h.sw.keys.any fun k => k.1 == sa && k.2.1 == seq && k.2.2.1 ≠ p && decide (h.lc < k.2.2.2 + age) then (h.macCount p 22 1, none)
    else
      (h.onSw fun s => { s with keys := ((sa, seq, p, h.lc) :: s.keys.filter fun k => !(k.1 == sa && k.2.1 == seq)).take 4096 },
        some (l.take (l.length - 6)))

/-- A good frame whose stages have run (R560). -/
def frameWhole (h : Hw) (r : SwRx) (p : Nat) (l : List Byte) : Hw :=
  let n := cellsOf (l.length + 4)
  let h := match r.frame.bind h.swFrame with
    | some f => (h.setFree (h.swFree + (f.cells - n))).putFrame { f with bytes := untagged l, cells := n, whole := true }
    | none => h
  let h := if r.sample then h.mirrorCopy p l true else h
  if r.copy then h.mirrorCopy p l false else h

/-- A good frame of the PRP pair (R556, R574). -/
def frameLate (h : Hw) (r : SwRx) (p : Nat) (l : List Byte) : Hw :=
  match h.prpStep p l with
  | (h, none) => h
  | (h, some b) => match h.stages p b with
    | (h, none) => h
    | (h, some w) =>
      let m := h.mirrorTakes p true w.hit
      let a := m.1.admitWhole p w (untagged b) (b.length + 4) r.time
      let h := if m.2.1 then a.1.mirrorCopy p l true else a.1
      if m.2.2 then h.mirrorCopy p l false else h

/-- The end of a frame (R556, R560, R567, R571, R580). `l` has no FCS. -/
def frameEnd (h : Hw) (p : Nat) (l : List Byte) (fcsOk codeErr : Bool) : Hw :=
  let len := l.length + 4
  if !h.swOn || !h.linkUp p then h
  else match h.rxOf p with
    | none => if len < 64 then h.macCount p 12 1 else h
    | some r =>
      let h := h.setRx p none
      let bad := fun (h : Hw) => match r.frame with
        | some id => h.badFrame id len
        | none => h
      let err := fun (h : Hw) (c : Nat) => bad ((h.macCount p c 1).setBit (Reg.MAC_IRQ_STAT p) 2)
      if len < 64 then bad (h.macCount p 12 1)
      else if 2000 < len then err h 13
      else if codeErr then err h 15
      else if !fcsOk then err h 14
      else
        let h := h.goodFrame p len (frameField l 0 6)
        let h := if r.ctl then h else h.announced (untagged l)
        if r.ctl then (if frameField l 14 2 = 1 then h else h.macCount p 17 1)
        else if r.late then h.frameLate r p l
        else h.frameWhole r p l

/-! ### Egress (R565 to R567) -/

def sendingOf (h : Hw) (q : Nat) : Option (Nat × Bool × Bool) := Tabs.get (fun _ => none) h.sw.sending q

/-- The frames that an egress may start now. -/
def startable (h : Hw) (q : Nat) : List SwFrame :=
  h.sw.frames.filter fun f => f.egress.contains q && !f.started.contains q && !f.bad && (f.whole || f.ct.contains q)

/-- The next frame of a class: the injector's first, then the ingress ports round robin (R566). -/
def nextOf (h : Hw) (q c : Nat) (l : List SwFrame) : Option SwFrame :=
  let l := l.filter fun f => f.cls == c
  let start := Tabs.get (fun _ => 0) h.sw.served (8 * q + c)
  (11 :: (List.range 11).map fun i => (start + i) % 11).findSome? fun p => l.find? fun f => f.ingress == p

/-- The weight of a class. -/
def weightOf (h : Hw) (q c : Nat) : Nat := bitsOf (h.reg (Reg.SWC_EGR q)) (5 * c + 4) (5 * c)

/-- The length that a frame has on the line, for the deficit. -/
def lineLen (h : Hw) (q : Nat) (f : SwFrame) : Nat := (h.sentBytes f q).length + 4

/-- Deficit round robin over the classes that have a frame (R566): the class whose turn comes, and the deficits. -/
def roundRobin (h : Hw) (q : Nat) (heads : List (Nat × SwFrame)) : Nat → Hw × Option SwFrame
  | 0 => (h, none)
  | fuel + 1 =>
    let t := Tabs.get (fun _ => 0) h.sw.turn q
    let key := fun c => 8 * q + c
    match heads.find? fun x => x.1 + 1 == t with
    | some x =>
      let d := Tabs.get (fun _ => 0) h.sw.deficit (key x.1)
      let n := h.lineLen q x.2
      if n ≤ d then (h.onSw fun s => { s with deficit := Tabs.set (fun _ => (0 : Nat)) s.deficit (key x.1) (d - n) }, some x.2)
      else advance h q heads fuel t
    | none =>
      let h := if t = 0 then h else h.onSw fun s => { s with deficit := Tabs.set (fun _ => (0 : Nat)) s.deficit (key (t - 1)) 0 }
      advance h q heads fuel t
where
  /-- The turn passes to the next class with a frame, which gains its quantum. -/
  advance (h : Hw) (q : Nat) (heads : List (Nat × SwFrame)) (fuel t : Nat) : Hw × Option SwFrame :=
    match ((List.range 6).map fun i => (t + i) % 6).findSome? fun c => heads.find? fun x => x.1 == c with
    | none => (h, none)
    | some x =>
      let k := 8 * q + x.1
      roundRobin (h.onSw fun s => { s with turn := Tabs.set (fun _ => (0 : Nat)) s.turn q (x.1 + 1),
                                           deficit := Tabs.set (fun _ => (0 : Nat)) s.deficit k
                                             (Tabs.get (fun _ => 0) s.deficit k + 256 * h.weightOf q x.1) }) q heads fuel

/-- The frame that an egress takes at a frame boundary (R566). DESIGN CHOICE (log entry 45): of two classes of weight 0 the lower is
served. -/
def choose (h : Hw) (q : Nat) : Hw × Option SwFrame :=
  let l := h.startable q
  match h.nextOf q 7 l, h.nextOf q 6 l with
  | some f, _ => (h, some f)
  | none, some f => (h, some f)
  | none, none =>
    let heads := (List.range 6).filterMap fun c => (h.nextOf q c l).map fun f => (c, f)
    let weighted := heads.filter fun x => h.weightOf q x.1 ≠ 0
    let queued := h.sw.frames.any fun f =>
      f.egress.contains q && !f.started.contains q && decide (f.cls < 6) && h.weightOf q f.cls ≠ 0
    if weighted.isEmpty then (h, if queued then none else heads.head?.map (·.2)) else h.roundRobin q weighted 128

/-- The egress begins a frame. -/
def egressStart (h : Hw) (q : Nat) : Hw :=
  if !h.swOn || (h.sendingOf q).isSome || (isEp q && (!h.linkUp q || h.paused q)) then h
  else match h.choose q with
    | (h, none) => h
    | (h, some f) =>
      let h := h.putFrame { f with started := f.started ++ [q] }
      let h := h.onSw fun s => { s with served := Tabs.set (fun _ => (0 : Nat)) s.served (8 * q + f.cls) (if f.ingress = 11 then Tabs.get (fun _ => 0) s.served (8 * q + f.cls) else f.ingress + 1) }
      let m := if f.mirror.isNone then h.mirrorTakes q false none else (h, false, false)
      m.1.onSw fun s => { s with sending := Tabs.set (fun _ => none) s.sending q (some (f.id, m.2.1, m.2.2)) }

/-- The frame with its correctionField increased by a residence time in 2⁻¹⁶ ns (R595). `i` is where the PTP message begins. -/
def corrected (l : List Byte) (i res : Nat) : List Byte :=
  l.take (i + 8) ++ beBytes 8 ((frameField l (i + 8) 8 + res) % 2 ^ 64) ++ l.drop (i + 16)

/-- The identity that ties a Follow_Up to its Sync: domain, source port and sequence number. -/
def ptpKey (l : List Byte) (i : Nat) : List Byte := (l.drop (i + 4)).take 1 ++ (l.drop (i + 20)).take 12

/-- The residence correction of a transparent-clock port pair: of a one-step Sync and of a Follow_Up; a two-step Sync leaves its
residence time for its Follow_Up (R595). Its value is free. -/
def transparent (h : Hw) (f : SwFrame) (q : Nat) : Hw × SwFrame :=
  match ptpAt f.bytes with
  | none => (h, f)
  | some i =>
    let type := frameField f.bytes i 1 % 16
    let key := ptpKey f.bytes i
    if !isEp f.ingress || !isEp q || !h.bit (Reg.TIME_PORT f.ingress 0) 38 then (h, f)
    else if type = 0 then
      let d := h.draw (2 ^ 48)
      if bitN (frameField f.bytes (i + 6) 1) 1 then
        (d.2.onTu fun t => { t with residence := ((q, key, d.1) :: t.residence).take 64 }, f)
      else (d.2, { f with bytes := corrected f.bytes i d.1 })
    else if type = 8 then
      match h.tu.residence.find? fun x => x.1 == q && x.2.1 == key with
      | some x => (h.onTu fun t => { t with residence := t.residence.erase x }, { f with bytes := corrected f.bytes i x.2.2 })
      | none => (h, f)
    else (h, f)

/-- The counters of a frame sent whole (R580). -/
def sentFrame (h : Hw) (q : Nat) (l : List Byte) : Hw :=
  let mac := frameField l 0 6
  let h := ((h.macCount q 23 1).macCount q 24 (l.length + 4)).macCount q
    (if mac = 2 ^ 48 - 1 then 27 else if groupAddr mac then 26 else 25) 1
  h.send (.eth q) l

end Hw

namespace State

/-- The egress finishes its frame and releases its reference (R565, R567, R577). -/
def egressDone (s : State) (q : Nat) : State :=
  match s.hw.sendingOf q with
  | none => s
  | some (id, sample, copy) =>
    match s.hw.swFrame id with
    | none => s.onHw fun h => h.onSw fun w => { w with sending := Tabs.set (fun _ => none) w.sending q none }
    | some f =>
      if !f.whole && !f.bad then s
      else
        let fin := fun (h : Hw) => (h.onSw fun w => { w with sending := Tabs.set (fun _ => none) w.sending q none }).releaseRef id q
        if f.bad then s.onHw fun h => fin (h.macCount q 30 1)
        else
          let c := s.hw.transparent f q
          let l := c.1.sentBytes c.2 q
          let s := if isEp q then
              let l := Hw.padded l
              let s := { s with hw := c.1.sentFrame q l }
              match f.stamp with
              | some (i, idx) =>
                let o := s.hw.observe
                ({ s with hw := o.2 } : State).hpStamp i idx (o.1 + (s.hw.reg (Reg.TIME_PORT q 2)).toNat)
              | none => s
            else ({ s with hw := c.1 } : State).hpDeliver (q - 8) f l
          s.onHw fun h =>
            let h := fin h
            let h := if sample then h.mirrorCopy q l true else h
            if copy then h.mirrorCopy q l false else h

end State

namespace Hw

/-! ### Links and pauses (R554, R569, R570) -/

/-- The link of an EP goes down (R569). -/
def linkFall (h : Hw) (p : Nat) : Hw :=
  let queued := (h.sw.frames.filter fun f => f.egress.contains p).map (·.id)
  let h := h.macCount p 29 queued.length
  let h := queued.foldl (fun (h : Hw) id => h.releaseRef id p) h
  let h := match (h.rxOf p).bind (·.frame) with
    | some id => h.badFrame id 2000
    | none => h
  let h := (h.setRx p none).onSw fun s => { s with sending := Tabs.set (fun _ => none) s.sending p none }
  let spent := h.draw ((h.reg (Reg.MAC_PAUSE p)).toNat + 1)
  let h := if h.paused p then spent.2.macCount p 28 spent.1 else h
  let h := (h.clearBit (Reg.MAC_STAT p) 5).setReg (Reg.MAC_PAUSE p) 0
  if h.linkUp p then (h.clearBit (Reg.MAC_STAT p) 7).setBit (Reg.MAC_IRQ_STAT p) 0 else h

/-- The module pins of EP0 and EP1: MODABS, LOS, TXFLT (R584). -/
def modulePins (h : Hw) (p : Nat) (pins : BitVec 3) : Hw := if p < 2 then h.setFld (Reg.MAC_STAT p) ⟨4, 2⟩ pins.toNat else h

/-- An EP is enabled: declared by the SWITCH section, or one of the two that the recovery server brings up (R44, R130, R131). -/
def epEnabled (h : Hw) (p : Nat) : Bool := h.cfg.sw.ports.contains p || (h.pwr.recovery && decide (p < 2))

/-- EP0_TXDIS and EP1_TXDIS: released, and the laser off, while SYS is off or in reset and while the port is not enabled (R44). -/
def txDis (h : Hw) (p : Nat) : Bool := !h.swOn || !h.epEnabled p

/-- PHY_RST_N, the one reset of the PHYs of EP2 to EP7: held low under the same conditions, while none of them is enabled (R43, R44). -/
def phyResetLow (h : Hw) : Bool := !h.swOn || !(List.range 6).any fun i => h.epEnabled (2 + i)

/-- The line side of an EP can be up: its laser on, or its PHY out of reset. -/
def lineOn (h : Hw) (p : Nat) : Bool := h.epEnabled p && if p < 2 then !h.txDis p else !h.phyResetLow

/-- The forwarding entries of the SWITCH section stand in the switch (R555, R559). -/
def loadFdb (h : Hw) (t : Tab (Word × Word × Word)) : Hw :=
  let h := h.onSw fun s => { s with fdb := t }
  h.setFld Reg.SWC_FDB_STAT Fld.SWC_FDB_STAT_COUNT (t.filter fun x => bitN x.2.1.toNat 39).length

/-- The port carries class 7 under the TREE section, or the stop message (R572). -/
def noPause (h : Hw) (p : Nat) : Bool :=
  h.cfg.sw.stopPorts.contains p || (h.inTree && (p < 2 || h.cfg.sw.downlinks.contains p))

/-- A write of MAC_CTRL (R569, R572). -/
def writeMacCtrl (h : Hw) (p : Nat) (v : Word) : Hw :=
  if bitN v.toNat 3 && h.noPause p then h
  else
    let h := h.setReg (Reg.MAC_CTRL p) (word (v.toNat / 8 % 2 * 8 + v.toNat % 2))
    if bitN v.toNat 0 then h else h.linkFall p

end Hw

/-! ### Rows -/

/-- FRAME_INGRESS (R556). -/
def execFrameIngress (p : Fin 8) (head : List Byte) (s : State) : Result := .next (s.onHw fun h => h.frameIn p head)

/-- FRAME_EOF (R560). -/
def execFrameEof (p : Fin 8) (bytes : List Byte) (fcsOk codeErr : Bool) (s : State) : Result :=
  .next (s.onHw fun h => h.frameEnd p bytes fcsOk codeErr)

/-- EGRESS_FRAME_START (R566). -/
def execEgressFrameStart (q : Fin 11) (s : State) : Result := .next (s.onHw fun h => h.egressStart q)

/-- EGRESS_FRAME_DONE (R565). -/
def execEgressFrameDone (q : Fin 11) (s : State) : Result := .next (s.egressDone q)

/-- LINK_UP: block lock with LOS low, or 1 000 Mb/s full duplex from the PHY (R554). -/
def execLinkUp (p : Fin 8) (speedBad : Bool) (pins : BitVec 3) (s : State) : Result :=
  .next (s.onHw fun h =>
    if h.swOn && !h.epEnabled p then h.undeclare 7
    else if !h.swOn || !h.bit (Reg.MAC_CTRL p) 0 || !h.lineOn p then h
    else
      let h := h.modulePins p pins
      if 2 ≤ p.val && speedBad then (h.linkFall p).setBit (Reg.MAC_STAT p) 6
      else if p.val < 2 && h.bit (Reg.MAC_STAT p) 3 then h
      else
        let h := h.clearBit (Reg.MAC_STAT p) 6
        if h.linkUp p then h else (h.setBit (Reg.MAC_STAT p) 7).setBit (Reg.MAC_IRQ_STAT p) 0)

/-- LINK_DOWN (R569). -/
def execLinkDown (p : Fin 8) (pins : BitVec 3) (s : State) : Result :=
  .next (s.onHw fun h => if h.sysOn then (h.modulePins p pins).linkFall p else h)

/-- RX_PAUSE_FRAME: a PAUSE frame with a good FCS; `spent` quanta of the timer it replaces have passed (R570). -/
def execRxPauseFrame (p : Fin 8) (q : BitVec 16) (addressed : Bool) (spent : BitVec 16) (s : State) : Result :=
  .next (s.onHw fun h =>
    if !h.swOn || !h.linkUp p then h
    else
      let h := h.macCount p 16 1
      if !h.bit (Reg.MAC_CTRL p) 3 || !addressed then h
      else
        let h := if h.paused p then h.macCount p 28 (min spent.toNat (h.reg (Reg.MAC_PAUSE p)).toNat) else h
        let h := h.setReg (Reg.MAC_PAUSE p) (word q.toNat)
        if q = 0 then h.clearBit (Reg.MAC_STAT p) 5 else h.setBit (Reg.MAC_STAT p) 5)

/-- PAUSE_EXPIRE (R570). -/
def execPauseExpire (p : Fin 8) (s : State) : Result :=
  .next (s.onHw fun h =>
    if !h.paused p then h
    else ((h.macCount p 28 (h.reg (Reg.MAC_PAUSE p)).toNat).setReg (Reg.MAC_PAUSE p) 0).clearBit (Reg.MAC_STAT p) 5)

/-- PRP_SUPERVISION_SEND: for each declared node that is a host port, on both LANs (R573). -/
def execPrpSupervisionSend (s : State) : Result :=
  .next (s.onHw fun h =>
    if !h.swOn || !h.prpOn then h
    else h.cfg.sw.prpNodes.zipIdx.foldl (fun (h : Hw) x =>
      if !x.1.2 then h
      else
        let n := h.nextSeq x.2
        [0, 1].foldl (fun (h : Hw) q =>
          if h.linkUp q then h.sentFrame q (Config.prpSupervision x.1.1 n.2 (0xA + q)) else h) n.1) h)

/-- HP_TX_TAIL: descriptors are handed to hardware (R577). -/
def execHpTxTail (who : Who) (i : Fin 3) (tail : BitVec 13) (s : State) : Result :=
  let a := Reg.HP_TX_CTL i
  let s := s.onHw fun h => h.guarded who a fun h =>
    if tail.toNat < h.fld a Fld.HP_TX_CTL_SIZE then h.setFld a Fld.HP_TX_CTL_TAIL tail.toNat else h
  .next (if s.hw.busErr then s else s.hpSend i 4096)

/-- HP_RX_TAIL (R577). -/
def execHpRxTail (who : Who) (i : Fin 3) (tail : BitVec 13) (s : State) : Result :=
  let a := Reg.HP_RX_CTL i
  .next (s.onHw fun h => h.guarded who a fun h =>
    if tail.toNat < h.fld a Fld.HP_RX_CTL_SIZE then h.setFld a Fld.HP_RX_CTL_TAIL tail.toNat else h)

/-- The words of a forwarding entry that nothing has written. -/
def noFdb : Nat → Word × Word × Word := fun _ => (0, 0, 0)

/-- A command of SWC_FDB_CMD (R559, R583). -/
def Hw.fdbCmd (h : Hw) (op idx : Nat) : Hw :=
  let put := fun (h : Hw) (e : Word × Word × Word) =>
    let h := h.onSw fun s => { s with fdb := Tabs.set noFdb s.fdb idx e }
    h.setFld Reg.SWC_FDB_STAT Fld.SWC_FDB_STAT_COUNT (h.sw.fdb.filter fun x => bitN x.2.1.toNat 39).length
  let result := fun (h : Hw) (r : Nat) => h.setFld Reg.SWC_FDB_STAT Fld.SWC_FDB_STAT_RESULT r
  let cur := Tabs.get noFdb h.sw.fdb idx
  if op = 1 then
    let e := (h.reg Reg.SWC_FDB_W0, h.reg Reg.SWC_FDB_W1, h.reg Reg.SWC_FDB_W2)
    let key := fun (x : Word × Word × Word) => (bitsOf x.1 27 0, bitsOf x.2.1 39 8)
    if bitN e.1.toNat 39 && h.sw.fdb.any fun x => x.1 ≠ idx && bitN x.2.1.toNat 39 && key x.2 == key e then result h 1
    else result (put h e) 0
  else if op = 2 then
    result (((h.setReg Reg.SWC_FDB_W0 cur.1).setReg Reg.SWC_FDB_W1 cur.2.1).setReg Reg.SWC_FDB_W2 cur.2.2) 0
  else if op = 3 then result (put h (withBits cur.1 39 39 0, cur.2)) 0
  else h

/-- FDB_WRITE (R559). -/
def execFdbWrite (who : Who) (idx : Fin 16384) (s : State) : Result :=
  .next (s.onHw fun h => h.guarded who Reg.SWC_FDB_CMD fun h => h.fdbCmd 1 idx)

/-- FDB_READ (R559). -/
def execFdbRead (who : Who) (idx : Fin 16384) (s : State) : Result :=
  .next (s.onHw fun h => h.guarded who Reg.SWC_FDB_CMD fun h => h.fdbCmd 2 idx)

/-- FDB_INVALIDATE (R559). -/
def execFdbInvalidate (who : Who) (idx : Fin 16384) (s : State) : Result :=
  .next (s.onHw fun h => h.guarded who Reg.SWC_FDB_CMD fun h => h.fdbCmd 3 idx)

/-- A write of MAC_MGMT_CMD. -/
def Hw.mgmtWrite (h : Hw) (who : Who) (n op reg addr data : Nat) : Hw :=
  h.guarded who (Reg.MAC_MGMT_CMD n) fun h => h.mgmtCmd n op reg addr data

/-- MDIO_C22_WRITE: EP2 to EP7 (R579). -/
def execMdioC22Write (who : Who) (n : Fin 6) (reg : Fin 32) (data : BitVec 16) (s : State) : Result :=
  .next (s.onHw fun h => h.mgmtWrite who (2 + n) 0 reg 0 data.toNat)

/-- MDIO_C22_READ (R579). -/
def execMdioC22Read (who : Who) (n : Fin 6) (reg : Fin 32) (s : State) : Result :=
  .next (s.onHw fun h => h.mgmtWrite who (2 + n) 1 reg 0 0)

/-- MDIO_C45_WRITE (R579). -/
def execMdioC45Write (who : Who) (n : Fin 6) (devad : Fin 32) (addr data : BitVec 16) (s : State) : Result :=
  .next (s.onHw fun h => h.mgmtWrite who (2 + n) 2 devad addr.toNat data.toNat)

/-- MDIO_C45_READ (R579). -/
def execMdioC45Read (who : Who) (n : Fin 6) (devad : Fin 32) (addr : BitVec 16) (s : State) : Result :=
  .next (s.onHw fun h => h.mgmtWrite who (2 + n) 3 devad addr.toNat 0)

/-- TWO_WIRE_WRITE: EP0 and EP1; `hi` selects address 0x51 (R579). -/
def execTwoWireWrite (who : Who) (n : Fin 2) (hi : Bool) (addr data : Byte) (s : State) : Result :=
  .next (s.onHw fun h => h.mgmtWrite who n 0 (b2n hi) addr.toNat data.toNat)

/-- TWO_WIRE_READ (R579). -/
def execTwoWireRead (who : Who) (n : Fin 2) (hi : Bool) (addr : Byte) (s : State) : Result :=
  .next (s.onHw fun h => h.mgmtWrite who n 1 (b2n hi) addr.toNat 0)

/-- MGMT_DONE (R579). -/
def execMgmtDone (n : Fin 8) (ack : Bool) (data : BitVec 16) (s : State) : Result :=
  .next (s.onHw fun h => if h.sysOn then h.mgmtEnd n ack data.toNat else h)

end Sys2Proof.Machine
end

