-- ==== Sys2Proof/Machine/Vanik.lean ====
section
/-! DEFINITION. Vanik rings: the layout of the cycle, the frames that the device sends, roles, and what an end accepts (R167 to
R197, R214 to R216, R246). -/

namespace Sys2Proof.Machine

namespace Hw

/-- A change of a ring beyond its registers. -/
def onRing (h : Hw) (k : Nat) (f : Ring → Ring) : Hw := h.setRing k (f (h.ring k))

/-- A change of a port beyond its registers. -/
def onPort (h : Hw) (p : Nat) (f : Port → Port) : Hw := h.setPort p (f (h.port p))

/-! ### Roles (R211, R214, R250) -/

/-- The LC of the ring cycle in progress (R211). -/
def cycle (h : Hw) : Nat := (h.reg Reg.VNK_CYCLE).toNat

/-- The controller runs: enabled, clocked, its pads powered (R20, R72, R96, R211). -/
def vnkOn (h : Hw) : Bool := h.aoOn && h.bit Reg.VNK_CTRL 0 && h.ringClock && h.ringIo

def cycling (h : Hw) (k : Nat) : Bool := h.bit (Reg.VNK_RING_STAT k) 22
def leads (h : Hw) (k : Nat) : Bool := h.bit (Reg.VNK_RING_STAT k) 21
def standby (h : Hw) (k : Nat) : Bool := h.bit (Reg.VNK_RING_STAT k) 20
def broken (h : Hw) (k : Nat) : Bool := h.bit (Reg.VNK_RING_STAT k) 23
def takenOver (h : Hw) (k : Nat) : Bool := h.bit (Reg.VNK_RING_ROLE k) 10
def phase (h : Hw) (k : Nat) : Nat := h.fld (Reg.VNK_RING_ROLE k) Fld.VNK_RING_ROLE_PHASE
def setPhase (h : Hw) (k p : Nat) : Hw := h.setFld (Reg.VNK_RING_ROLE k) Fld.VNK_RING_ROLE_PHASE p

/-- A bit of VNK_RING_STAT changes, which raises RING_CHG (R211). -/
def ringStat (h : Hw) (k b : Nat) (v : Bool) : Hw :=
  if h.bit (Reg.VNK_RING_STAT k) b = v then h
  else (if v then h.setBit (Reg.VNK_RING_STAT k) b else h.clearBit (Reg.VNK_RING_STAT k) b).setBit Reg.VNK_IRQ_STAT k

/-- A bit of VNK_RING_ROLE. -/
def ringRole (h : Hw) (k b : Nat) (v : Bool) : Hw :=
  if v then h.setBit (Reg.VNK_RING_ROLE k) b else h.clearBit (Reg.VNK_RING_ROLE k) b

def closedRing (h : Hw) (k : Nat) : Bool := h.topo k == 1

/-- The end is on this device (R211). -/
def endHere (h : Hw) (k : Nat) (endB : Bool) : Bool :=
  if h.topo k = 1 then true else if endB then h.topo k == 3 else h.topo k == 2

/-- The port of an end (R211). -/
def portOf (h : Hw) (k : Nat) (endB : Bool) : Nat :=
  h.fld (Reg.VNK_RING_CFG k) (if endB then Fld.VNK_RING_CFG_PORT_B else Fld.VNK_RING_CFG_PORT_A)

/-- The ends on this device: `false` for A, `true` for B. -/
def endsHere (h : Hw) (k : Nat) : List Bool := [false, true].filter fun e => h.endHere k e

/-- The instance and the end that a port belongs to. -/
def endOfPort (h : Hw) (p : Nat) : Option (Nat × Bool) :=
  ((List.range 16).flatMap fun k => (h.endsHere k).map fun e => (k, e)).find? fun x => h.portOf x.1 x.2 == p

/-- A port is working: aligned, with a valid frame in each of the last two ring cycles (R246). -/
def portWorking (h : Hw) (p : Nat) : Bool := h.bit (Reg.VNK_PORT_STAT p) 5 && (h.port p).last1 && (h.port p).last2

/-- The same at the end of the ring cycle in progress. -/
def portWorks (h : Hw) (p : Nat) : Bool := h.bit (Reg.VNK_PORT_STAT p) 5 && (h.port p).now && (h.port p).last1

/-- Some port of the instance on this device works (R432). -/
def ringWorking (h : Hw) (k : Nat) : Bool := (h.endsHere k).any fun e => h.portWorking (h.portOf k e)

/-- The partner reports itself working as guard (R432, R724): a STATUS with GUARD_OK within the last 2 ms. -/
def partnerGuards (h : Hw) (k : Nat) : Bool :=
  !h.closedRing k && (match (h.ring k).partnerOk with
    | some n => decide (h.lc ≤ n + 2)
    | none => false)

/-- This device sends its CS as the ring's leader on an end (R180, R214, R229). -/
def leaderEnd (h : Hw) (k : Nat) (endB : Bool) : Bool :=
  h.leads k && (if h.closedRing k then (h.ring k).leaderA ≠ endB else true)

/-- The LC that the ring carries for a cycle of the device (R215). -/
def ringLc (h : Hw) (k n : Nat) : Nat := (n + (h.reg (Reg.VNK_RING_LCOFS k)).toNat) % 2 ^ 40

/-! ### The layout of the cycle (R191) -/

def seg (h : Hw) (k : Nat) (f : BitField) : Nat := h.fld (Reg.VNK_RING_SEG k) f
def nCell (h : Hw) (k : Nat) : Nat := h.seg k Fld.VNK_RING_SEG_NCELL
def nAux (h : Hw) (k : Nat) : Nat := h.seg k Fld.VNK_RING_SEG_NAUX
def nSpare (h : Hw) (k : Nat) : Nat := h.seg k Fld.VNK_RING_SEG_NSPARE
def nCmd (h : Hw) (k : Nat) : Nat := h.seg k Fld.VNK_RING_SEG_NCMD
def nDyn (h : Hw) (k : Nat) : Nat := h.seg k Fld.VNK_RING_SEG_NDYN

/-- P0, C0 and Y0 (R191). -/
def p0 (h : Hw) (k : Nat) : Nat := 2925 + 84 * h.nCell k + 40 * h.nAux k
def c0 (h : Hw) (k : Nat) : Nat := h.p0 k + 84 * h.nSpare k
def y0 (h : Hw) (k : Nat) : Nat := h.c0 k + 336 + 48 * h.nCmd k

/-- The first byte of a declared position's static slot (R191). -/
def slotStart (h : Hw) (k p : Nat) : Nat :=
  let before := (h.declared k).filter fun q => decide (q < p) && (decide (p < 128) || decide (128 ≤ q))
  if p < 128 then 2925 + 84 * before.length else 2925 + 84 * h.nCell k + 40 * before.length

/-- A SOF lies within the tolerance of a slot's first byte (R196). -/
def near (sof : Int) (slot : Nat) : Bool := decide ((slot : Int) ≤ sof + 2) && decide (sof ≤ (slot : Int) + 2)

/-- The D by which the slots of a received direction are placed: the last measured one, or D_DECL until there is one (R196, R216). -/
def placeD (h : Hw) (k : Nat) (ba : Bool) : Nat :=
  let d := h.fld (Reg.VNK_RING_DLY k) (if ba then Fld.VNK_RING_DLY_D_BA else Fld.VNK_RING_DLY_D_AB)
  if d ≠ 0xFFFFF then d
  else match h.ringCfg k with
    | some c => if ba then c.dBA else c.dAB
    | none => 0

/-- The stream position at which an end places a SOF (R190, R196): end B receives direction AB and end A direction BA. DESIGN CHOICE (log
entry 35): the position is rounded to the nearest byte, for which the spec gives no rule. -/
def place (h : Hw) (k : Nat) (endB : Bool) (arr : Nat) : Int := ((arr : Int) - h.placeD k endB.not + 160) / 320

/-- STATE and POS of a spare slot (R250). -/
def spareState (h : Hw) (k s : Nat) : Nat := h.fld (Reg.VNK_SPARE k s) Fld.VNK_SPARE_STATE
def sparePos (h : Hw) (k s : Nat) : Nat := h.fld (Reg.VNK_SPARE k s) Fld.VNK_SPARE_POS
def spareOf (h : Hw) (k s : Nat) : Spare := Tabs.get (fun _ => ({} : Spare)) (h.ring k).spare s
def setSpare (h : Hw) (k s : Nat) (x : Spare) : Hw :=
  h.onRing k fun r => { r with spare := Tabs.set (fun _ => ({} : Spare)) r.spare s x }

/-! ### What the RING section binds (R173, R216) -/

/-- The identity bound to a position. -/
def bound (h : Hw) (k p : Nat) : Option Bind :=
  match h.ringCfg k with
  | some c => Tabs.get (fun _ => (none : Option Bind)) c.bind p
  | none => none

/-- The hop index bound to a position. -/
def hopOf (h : Hw) (k p : Nat) : Nat := match h.bound k p with
  | some b => b.hop
  | none => 0

/-! ### Frames that the device sends (R175, R176, R180, R186 to R189) -/

/-- The POS that an end puts in its frames (R173). -/
def endPos (endB : Bool) : Nat := if endB then 0xF1 else 0xF0

/-- A frame's bytes 1 to 9 + LEN: of a type, travelling in a direction, for a cycle of the ring. -/
def frameBytes (h : Hw) (k : Nat) (type : Nat) (dirBA hop : Bool) (pos lc : Nat) (payload : List Byte) : List Byte :=
  let b := [byte (type * 16 + b2n dirBA * 8 + b2n hop * 4), byte pos, byte (lc % 256),
    byte (h.fld (Reg.VNK_RING_CFG k) Fld.VNK_RING_CFG_RINGTAG), byte payload.length] ++ payload
  b ++ leBytes 4 (crc32c b).toNat

/-- The payload of a balancing frame over 64 positions (R186). -/
def balPayload (op : Nat) (masks : Tab Nat) : List Byte :=
  byte op :: (List.range 64).flatMap fun q => beBytes 2 (Tabs.get (fun _ => 0) masks (64 * op + q))

/-- The payload of an addressed command (R187). -/
def cmdPayload (c : RingCmd) : List Byte := [byte c.op, byte c.target] ++ beBytes 2 c.seq ++ c.args

/-- The payload of an ASSIGN (R188, R223). -/
def assignPayload (h : Hw) (k p uid hop slot tag : Nat) : List Byte :=
  [byte hop, 2, byte tag] ++ beBytes 8 uid ++ [byte p] ++ beBytes 2 slot ++ beBytes 2 (h.fld (Reg.VNK_RING_CFG k) Fld.VNK_RING_CFG_SCHED_ID)

/-! ### What an end accepts (R178, R182, R188, R196, R199) -/

/-- TYPE, POS and LEN of a frame's bytes. -/
def fType (b : List Byte) : Nat := (b.getD 0 0).toNat / 16
def fPos (b : List Byte) : Nat := (b.getD 1 0).toNat
def fLen (b : List Byte) : Nat := (b.getD 4 0).toNat
def fPayload (b : List Byte) : List Byte := (b.drop 5).take (fLen b)

/-- The position whose static slot a SOF meets, or the spare slot. -/
def staticAt (h : Hw) (k : Nat) (sof : Int) : Option Nat := (h.declared k).find? fun p => near sof (h.slotStart k p)
def spareAt (h : Hw) (k : Nat) (sof : Int) : Option Nat := (List.range (h.nSpare k)).find? fun s => near sof (h.p0 k + 84 * s)

/-- The window whose response part, or whose first byte, a SOF meets. -/
def windowAt (h : Hw) (k : Nat) (sof : Int) (ofs : Nat) : Option Nat := (List.range (h.nDyn k)).find? fun w => near sof (h.y0 k + 256 * w + ofs)

/-- Some slot or window around a SOF allows a TYPE; `sub` is the first payload byte (R191, R199, R220). The accumulation phase allows an
ACC at its first byte alone (R201). -/
def slotAllows (h : Hw) (k type sub : Nat) (sof : Int) : Bool :=
  if type = 1 then near sof 0
  else if type = 3 then (h.staticAt k sof).any (· < 128) || (h.spareAt k sof).isSome
  else if type = 4 then (h.staticAt k sof).any (128 ≤ ·) || (h.spareAt k sof).isSome
  else if type = 5 then near sof (h.c0 k) || near sof (h.c0 k + 144) ||
    (List.range (h.nCmd k)).any fun m => near sof (h.c0 k + 336 + 48 * m)
  else if type = 6 then ((h.windowAt k sof 0).any (1 ≤ ·)) || ((h.windowAt k sof 68).any (1 ≤ ·))
  else if type = 7 then (h.windowAt k sof 0) == some 0
  else if type = 8 then near sof (h.c0 k + 288)
  else if type = 9 then (near sof 0 && !(h.ring k).csSeen) || (near sof (h.c0 k + 288) && h.cycling k)
  else if type = 10 then
    (if sub = 1 then near sof 23500 else if sub = 2 then decide (23500 ≤ sof) && decide (sof ≤ 23578) else near sof 23600)
  else false

/-- LEN lies in its type's range (R179); `req` for a DY request. -/
def lenOk (type len : Nat) (req : Bool) : Bool :=
  if type = 1 then len == 20 else if type = 3 then len == 68 else if type = 4 then len == 26
  else if type = 5 then len == 129 || (4 ≤ len && len ≤ 36)
  else if type = 6 then decide (3 ≤ len) && decide (len ≤ if req then 53 else 173)
  else if type = 7 then len == 12 else if type = 8 then len == 16 else if type = 9 then len == 12
  else type == 10 && len == 10

/-- The flight that a response in a window answers (R194): the request that the window carried in the cycle before. -/
def flightOf (h : Hw) (k w : Nat) (ba : Bool) : Option DyFlight :=
  (h.ring k).dy.find? fun f => f.window == w && f.ba == ba && f.lc + 1 == h.cycle

/-- The ASSIGN that a response in a window answers. -/
def assignOfWindow (h : Hw) (k w : Nat) (ba : Bool) : Option DyFlight :=
  (h.ring k).asg.find? fun f => f.window == w && f.ba == ba && f.lc + 1 == h.cycle

/-- POS is one that the slot allows (R173, R178, R188). A standby does not know the owner's grants and takes any POS in a spare
slot (R232). -/
def posOk (h : Hw) (k : Nat) (endB : Bool) (type pos : Nat) (sof : Int) : Bool :=
  if type = 3 ∨ type = 4 then
    match h.staticAt k sof with
    | some p => pos == p
    | none => match h.spareAt k sof with
      | some s => (h.spareState k s == 2 && h.sparePos k s == pos) || h.standby k
      | none => false
  else if type = 6 then
    match h.windowAt k sof 68 with
    | some w => match (h.flightOf k w endB.not).orElse fun _ => h.assignOfWindow k w endB.not with
      | some f => if f.hopAddr then pos == 0xFF || (h.bound k pos).any (fun b => b.hop == f.target) else pos == f.target
      | none => true
    | none => pos == endPos endB.not
  else if type = 7 ∨ type = 10 then true
  else pos == endPos endB.not

/-- An error counter of a port, in the sum of R246 too where `block` is set. -/
def portCount (h : Hw) (p reg n : Nat) (block : Bool) : Hw :=
  let h := h.countBy reg n
  if block then h.onPort p fun x => { x with errs := x.errs + n } else h

/-- The masks of VNK_BAL that stand at SI(n) + 60 µs count for cycle n (R209). -/
def freezeBal (h : Hw) : Hw :=
  ((List.range 16).filter fun k => h.cycling k).foldl (fun (h : Hw) k =>
    let t := (Tabs.keep h.regs (Reg.VNK_BAL k 0) (Reg.VNK_BAL k 127)).foldl
      (fun (t : Tab Nat) e => Tabs.set (fun _ => (0 : Nat)) t (e.1 - Reg.VNK_BAL k 0) (e.2.toNat % 65536)) []
    h.onRing k fun r => { r with bal := t }) h

/-- SI(n) + 60 µs of the ring cycle in progress has passed (R209). -/
def cut (h : Hw) : Hw := if h.frozen then h else { h.freezeBal with frozen := true }

/-- A write may fall before or after that instant: it is before it until SI(n), and after SI(n) the instant is free, for the command does
not say when in the cycle it comes; what has passed stays so. -/
def cutFree (h : Hw) : Hw :=
  if h.frozen || decide (h.lc < h.cycle) then h
  else if h.cycle < h.lc then h.cut
  else let d := h.draw 2; if d.1 = 1 then d.2.cut else d.2

/-- The port's receiver takes the port's own stream (R213): LOOP, while the port belongs to no cycling instance. -/
def looped (h : Hw) (p : Nat) : Bool :=
  h.bit (Reg.VNK_PORT_CFG p) 2 && (match h.endOfPort p with
    | some (k, _) => !h.cycling k && h.phase k ≠ 7
    | none => true)

/-- The end knows the LC of its ring's cycle in progress: it takes part in it, or leads it. Until then a CS brings the LC, and claims are
compared whatever theirs is (R215, R219 to R222). -/
def lcKnown (h : Hw) (k : Nat) : Bool := h.cycling k || h.phase k == 7 || h.leads k

/-- LC[7:0] matches the cycle in progress (R178). -/
def lcOk (h : Hw) (k type lc : Nat) : Bool :=
  lc == h.ringLc k h.cycle % 256 || ((type == 1 || type == 9) && !h.lcKnown k)

/-- The CRC-32C of a frame's bytes is correct (R175). -/
def crcOk (b : List Byte) : Bool :=
  let cut := b.length - 4
  decide (9 ≤ b.length) && leNat (b.drop cut) == (crc32c (b.take cut)).toNat

/-- A frame at an end is valid, or counted once and discarded (R178). -/
def judge (h : Hw) (k : Nat) (endB : Bool) (f : RxFrame) : Hw × Bool :=
  let p := h.portOf k endB
  let b := f.bytes
  let type := fType b
  let len := fLen b
  let sof := h.place k endB f.arr
  let req := (h.windowAt k sof 0).isSome
  if f.viol ≠ 0 then (h.portCount p (Reg.VNK_PORT_CNT_CODE p) f.viol true, false)
  else if !h.slotAllows k type ((b.getD 5 0).toNat) sof then (h.portCount p (Reg.VNK_PORT_CNT_SLOT p) 1 false, false)
  else if !crcOk b then (h.portCount p (Reg.VNK_PORT_CNT_CRC p) 1 true, false)
  else if b.length = len + 9 && f.eof && lenOk type len req && bitsOf (word (b.getD 0 0).toNat) 1 0 == 0 &&
      (!bitN (b.getD 0 0).toNat 2 || (type == 6 && req)) && bitN (b.getD 0 0).toNat 3 == endB.not &&
      h.posOk k endB type (fPos b) sof && (b.getD 3 0).toNat == h.fld (Reg.VNK_RING_CFG k) Fld.VNK_RING_CFG_RINGTAG &&
      h.lcOk k type (b.getD 2 0).toNat && (type ≠ 9 || (1 ≤ (b.getD 5 0).toNat && (b.getD 5 0).toNat ≤ 3)) then
    (h.onPort p fun x => { x with now := true }, true)
  else (h.portCount p (Reg.VNK_PORT_CNT_HDR p) 1 false, false)

/-- An end receives from its ring: the controller runs, the end is here, aligned and not looped (R62, R169, R213). -/
def receives (h : Hw) (k : Nat) (endB : Bool) : Bool :=
  h.vnkOn && h.endHere k endB && h.bit (Reg.VNK_PORT_STAT (h.portOf k endB)) 5 && !h.looped (h.portOf k endB)

/-- An arrival that lies 110 µs or more after the start of the ring cycle lies after SI + 60 µs (R190, R209). -/
def passes (h : Hw) (k arr : Nat) : Hw := if h.leads k && decide (880000 ≤ arr) then h.cut else h

/-- A frame arrives at an end (R178). -/
def accept (h : Hw) (k : Nat) (endB : Bool) (f : RxFrame) : Hw × Bool :=
  if h.receives k endB then (h.passes k f.arr).judge k endB f else (h, false)

/-- The same, for a row of one type: any frame is judged, but a frame of another type is no event of the row. -/
def acceptType (h : Hw) (k : Nat) (endB : Bool) (type : Nat) (f : RxFrame) : Hw × Bool :=
  let a := h.accept k endB f
  (a.1, a.2 && fType f.bytes == type)

/-! ### Sending (R175, R180, R189, R193, R213) -/

/-- A frame out of an end in ring cycle n of the device. A looped port, which belongs to no cycling instance and so sends in the CS slot
alone, hears it itself. -/
def sendFrame (h : Hw) (k : Nat) (endB : Bool) (type : Nat) (hop : Bool) (n : Nat) (payload : List Byte) : Hw :=
  let b := h.frameBytes k type endB hop (endPos endB) (h.ringLc k n) payload
  let p := h.portOf k endB
  if !h.looped p then h.send (.vanik k endB) b
  else if h.bit (Reg.VNK_PORT_STAT p) 5 then (h.judge k endB { arr := 0, bytes := b, viol := 0, eof := true }).1 else h

/-- A frame out of every end of the instance on this device (R193). -/
def sendBoth (h : Hw) (k type n : Nat) (payload : List Byte) : Hw :=
  (h.endsHere k).foldl (fun h e => h.sendFrame k e type false n payload) h

/-- A CS (R180): SI_OFS within 4 ns of 50 µs, which is free; MODE 1 DAY, 2 BURST. -/
def sendCs (h : Hw) (k : Nat) (endB : Bool) (n mode : Nat) : Hw :=
  let d := h.draw 65
  let leader := if h.leads k then h.cfg.deviceId else h.fld (Reg.VNK_RING_ROLE k) Fld.VNK_RING_ROLE_PEER_ID
  let h := d.2.sendFrame k endB 1 false n (beBytes 5 (h.ringLc k n) ++ beBytes 4 (399968 + d.1) ++
    [byte mode, byte (b2n endB * 128 + b2n (h.leaderEnd k endB) * 64)] ++ beBytes 2 leader ++
    beBytes 2 (h.fld (Reg.VNK_RING_CFG k) Fld.VNK_RING_CFG_SCHED_ID) ++ List.replicate 5 0)
  h.onRing k fun r => { r with csSeen := true, firstCs := if r.firstCs = 0 then n + 1 else r.firstCs }

/-- An SU of a SUB (R189, R220). -/
def sendSu (h : Hw) (k sub n : Nat) : Hw :=
  h.sendBoth k 9 n ([byte sub, byte (h.fld (Reg.VNK_RING_START k) Fld.VNK_RING_START_RANK)] ++ beBytes 2 h.cfg.deviceId ++
    beBytes 2 (h.fld (Reg.VNK_RING_CFG k) Fld.VNK_RING_CFG_SCHED_ID) ++ beBytes 2 (h.ring k).nonce ++ List.replicate 4 0)

end Hw

end Sys2Proof.Machine
end

