-- ==== Sys2Proof/Machine/Interrupts.lean ====
section
/-! DEFINITION. The interrupt controller: lines, pending sources, delivery and ending (R486, R522 to R525, R530). -/

namespace Sys2Proof.Machine

namespace Hw

/-- A line that follows one bit of (STAT AND EN). -/
def irqBit (h : Hw) (stat en k : Nat) : Bool := h.bit stat k && h.bit en k

/-- A line that follows the OR of (STAT AND EN) of a block. -/
def irqAny (h : Hw) (stat en : Nat) : Bool := (h.reg stat &&& h.reg en) ≠ 0

/-- The line of a level-sensitive source, VMPEND apart (R522, R552, R583, R584, R612, R681 to R683). -/
def irqWire (h : Hw) (i : Nat) : Bool :=
  if i = 0x002 then h.irqAny Reg.GRD_IRQ_STAT Reg.GRD_IRQ_EN
  else if i = 0x004 then [0, 1, 2].any fun m => (h.eccOf m).ueValid
  else if i = 0x008 then h.irqAny Reg.CRS_IRQ_STAT Reg.CRS_IRQ_EN
  else if i = 0x009 then h.irqAny Reg.SNP_IRQ_STAT Reg.SNP_IRQ_EN
  else if i = 0x00A then h.irqAny Reg.FAB_IRQ_STAT Reg.FAB_IRQ_EN
  else if i = 0x00B then h.irqAny Reg.LSI_IRQ_STAT Reg.LSI_IRQ_EN
  else if i = 0x00C then h.irqAny Reg.VNK_IRQ_STAT Reg.VNK_IRQ_EN
  else if 0x010 ≤ i ∧ i < 0x020 then h.irqBit Reg.TIME_IRQ_STAT Reg.TIME_IRQ_EN (i - 0x010)
  else if 0x040 ≤ i ∧ i < 0x0C0 then
    let n := (i - 0x040) / 2
    if i % 2 = 0 then h.bit (Reg.MBX_IE n) 1 && !(h.chan n).queue.isEmpty
    else h.bit (Reg.MBX_IE n) 0 && !(h.chan n).done.isEmpty
  else if 0x100 ≤ i ∧ i < 0x104 then h.irqBit Reg.SWC_IRQ_STAT Reg.SWC_IRQ_EN (i - 0x100)
  else if 0x108 ≤ i ∧ i < 0x128 then
    h.irqBit (Reg.MAC_IRQ_STAT ((i - 0x108) / 4)) (Reg.MAC_IRQ_EN ((i - 0x108) / 4)) ((i - 0x108) % 4)
  else if 0x128 ≤ i ∧ i < 0x12B then h.irqAny (Reg.HP_STAT (i - 0x128)) (Reg.HP_IE (i - 0x128))
  else if 0x130 ≤ i ∧ i < 0x140 then
    h.irqBit (Reg.CAN_IRQ_STAT ((i - 0x130) / 4)) (Reg.CAN_IRQ_EN ((i - 0x130) / 4)) ((i - 0x130) % 4)
  else if 0x140 ≤ i ∧ i < 0x144 then h.irqBit Reg.COL_IRQ_STAT Reg.COL_IRQ_EN (i - 0x140)
  else if 0x144 ≤ i ∧ i < 0x148 then h.irqBit Reg.GIO_IRQ_STAT Reg.GIO_IRQ_EN (i - 0x144)
  else false

/-- A field of a source's register (R530). -/
def srcOwner (h : Hw) (i : Nat) : Nat := h.fld (Reg.IRQ_SRC i) Fld.IRQ_SRC_OWNER
def srcTarget (h : Hw) (i : Nat) : Nat := h.fld (Reg.IRQ_SRC i) Fld.IRQ_SRC_TARGET
def srcPrio (h : Hw) (i : Nat) : Nat := h.fld (Reg.IRQ_SRC i) Fld.IRQ_SRC_PRIO
def srcActive (h : Hw) (i : Nat) : Bool := h.bit (Reg.IRQ_SRC i) 2
def srcEn (h : Hw) (i : Nat) : Bool := h.bit (Reg.IRQ_SRC i) 0

/-- A source but VMPEND is pending: its line, or for a software source its PENDING bit (R522). -/
def srcPendingRaw (h : Hw) (i : Nat) : Bool := if i < 0x200 then h.irqWire i else h.bit (Reg.IRQ_SRC i) 1

/-- Application core k runs VM v at L0 or L1 (R523). -/
def runsVm (h : Hw) (k v : Nat) : Bool :=
  let x := h.appCore k
  x.ns && x.level ≤ 1 && bitsOf (x.crAt 45) 3 0 == v

/-- The sources that exist, in number order (R522). -/
def irqSources : List Nat :=
  [0x002, 0x004, 0x008, 0x009, 0x00A, 0x00B, 0x00C] ++ (List.range 16).map (0x010 + ·) ++ (List.range 128).map (0x040 + ·) ++
    (List.range 72).map (0x100 + ·) ++ (List.range 8).map (0x1F8 + ·) ++ (List.range 512).map (0x200 + ·)

/-- VPEND of application core k: the VMs with a source pending and enabled that targets the core and is not deliverable
there (R523). -/
def vpend (h : Hw) (k : Nat) : Nat :=
  irqSources.foldl (fun m i =>
    if codeIsVm (h.srcOwner i) && bitN (h.srcTarget i) k && h.srcEn i && h.srcPendingRaw i &&
        !h.runsVm k (h.srcOwner i - 0x10) then setBitN m (h.srcOwner i - 0x10) else m) 0

/-- A source is pending (R522, R523). -/
def srcPending (h : Hw) (i : Nat) : Bool :=
  if 0x1F8 ≤ i ∧ i < 0x200 then h.vpend (i - 0x1F8) ≠ 0 else h.srcPendingRaw i

/-- A source is routed to a core (R486, R523). -/
def srcTargets (h : Hw) (i : Nat) : CoreId → Bool
  | .crest k =>
    h.srcOwner i == 2 && (if h.srcTarget i = 0 then bitN h.dutyMask k else bitN (h.srcTarget i) k)
  | .app k => h.srcOwner i ≠ 0 && h.srcOwner i ≠ 2 && bitN (h.srcTarget i) k
  | .engine _ => false

/-- The level at which an owner's sources are taken (R523). -/
def ownerLevel (owner : Nat) : Nat := if owner = 1 then 3 else if owner = 4 then 2 else 1

/-- A source is deliverable on a core it targets (R523). -/
def deliverable (h : Hw) (i : Nat) (c : CoreId) : Bool :=
  match c with
  | .crest _ => true
  | .app k =>
    let o := h.srcOwner i
    if o = 1 then true else if o = 4 then (h.appCore k).ns else codeIsVm o && h.runsVm k (o - 0x10)
  | .engine _ => false

/-- A source can be taken by a core now (R523). -/
def canTake (h : Hw) (i : Nat) (c : CoreId) : Bool :=
  let x := h.coreOf c
  let t := ownerLevel (h.srcOwner i)
  h.srcEn i && !h.srcActive i && h.srcTargets i c && h.deliverable i c && h.srcPending i &&
    decide (h.srcPrio i < bitsOf (x.crAt (55 + t)) 7 0) && (decide (x.level < t) || (x.level == t && x.ie))

/-- The source a core takes: the lowest PRIO, and on equal PRIO the lowest number (R523). -/
def takeNext (h : Hw) (c : CoreId) : Option Nat :=
  irqSources.foldl (fun best i =>
    if h.canTake i c then
      match best with
      | some b => if h.srcPrio i < h.srcPrio b then some i else best
      | none => some i
    else best) none

/-- An interrupt is pending for a core, whether or not it can be taken: what ends IDLE (R334). -/
def wakes (h : Hw) (c : CoreId) : Bool := irqSources.any fun i => h.srcEn i && h.srcTargets i c && h.srcPending i

/-- A write of a source number to IEOI by a core (R524). -/
def endOf (h : Hw) (who : Who) (i : Nat) : Hw :=
  if h.srcActive i && whoCode who ≠ 0 && h.srcOwner i == whoCode who then h.clearBit (Reg.IRQ_SRC i) 2
  else h.count Reg.IRQ_CNT_DENY

/-- A write of IRQ_SET: the owner, or an identity in IRQ_SEND, sets a software source pending (R524). -/
def irqSet (h : Hw) (who : Who) (i : Nat) : Hw :=
  if i < 0x200 then h
  else if (whoCode who ≠ 0 && h.srcOwner i == whoCode who) ||
      bitN (h.fld (Reg.IRQ_SEND (i - 0x200)) Fld.IRQ_SEND_SEND) (whoBit who) then h.setBit (Reg.IRQ_SRC i) 1
  else h.count Reg.IRQ_CNT_DENY

/-- A write of IRQ_CLR: the owner clears a software source (R524). -/
def irqClr (h : Hw) (who : Who) (i : Nat) : Hw :=
  if i < 0x200 then h
  else if whoCode who ≠ 0 && h.srcOwner i == whoCode who then h.clearBit (Reg.IRQ_SRC i) 1
  else h.count Reg.IRQ_CNT_DENY

end Hw

/-- IRQ_SET. -/
def execIrqSet (who : Who) (src : Fin 1024) (s : State) : Result := .next (s.onHw fun h => h.guarded who Reg.IRQ_SET fun h => h.irqSet who src)

/-- IRQ_CLR. -/
def execIrqClr (who : Who) (src : Fin 1024) (s : State) : Result := .next (s.onHw fun h => h.guarded who Reg.IRQ_CLR fun h => h.irqClr who src)

/-- IDLE_WAKE: a core that waits in IDLE resumes once an interrupt is pending (R334). -/
def execIdleWake (c : CoreId) (s : State) : Result :=
  .next (s.onHw fun h =>
    if (h.coreOf c).idle && h.wakes c then
      (h.members c).foldl (fun h m => h.setCore m { h.coreOf m with idle := false }) h
    else h)

end Sys2Proof.Machine
end

