-- ==== Sys2Proof/Machine/Worlds.lean ====
section
/-! DEFINITION. Units and lone interrupt sources: their sources, owners and the requests for a hand-over (R516 to R518, R520,
R529). -/

namespace Sys2Proof.Machine

/-- The interrupt sources of a unit (R516). -/
def unitSources (u : Nat) : List Nat :=
  if 25 ≤ u ∧ u ≤ 32 then (List.range 4).map fun k => 0x108 + 4 * (u - 25) + k
  else if 33 ≤ u ∧ u ≤ 36 then (List.range 4).map fun k => 0x130 + 4 * (u - 33) + k
  else if u = 37 then [0x140, 0x141, 0x142, 0x143]
  else if u = 38 then [0x144, 0x145, 0x146, 0x147]
  else if 40 ≤ u ∧ u ≤ 42 then [0x128 + (u - 40)]
  else []

/-- The units of R516. -/
def units : List Nat := (List.range 14).map (25 + ·) ++ [40, 41, 42]

/-- A source belongs to a unit (R516). -/
def sourceOfUnit (i : Nat) : Bool := units.any fun u => (unitSources u).contains i

namespace Hw

/-- The result of a request in WLD_HO_STAT, banked by identity (R529). -/
def setHoStat (h : Hw) (bit new kind res id : Nat) : Hw :=
  { h with hoStat := Tabs.set zeroWord h.hoStat bit (word (new * 2 ^ 32 + kind * 2 ^ 30 + res * 2 ^ 20 + id)) }

/-- A hand-over of a unit or source is in progress. -/
def inHandover (h : Hw) (source : Bool) (id : Nat) : Bool := h.handovers.any fun x => x.source == source && x.id == id

/-- The owner, default owner, GRANT and CLAIM masks of a unit or lone source (R516, R517). -/
def hoAuth (h : Hw) (source : Bool) (id : Nat) : Nat × Nat × Nat × Nat :=
  if source then (h.srcOwner id, (h.sourceAuth id).dflt, (h.sourceAuth id).grant, (h.sourceAuth id).claim)
  else (h.unitOwner id, h.fld (Reg.WLD_UNIT_OWN id) Fld.WLD_UNIT_OWN_DEFAULT, bitsOf (h.reg (Reg.WLD_UNIT_AUTH id)) 39 20,
    bitsOf (h.reg (Reg.WLD_UNIT_AUTH id)) 19 0)

/-- Step 1 of R518: the owner becomes 0 and the sources' EN is cleared. -/
def hoRelease (h : Hw) (x : Handover) : Hw :=
  let h := { h with handovers := h.handovers ++ [x] }
  if x.source then
    let a := Reg.IRQ_SRC x.id
    (h.setFld a Fld.IRQ_SRC_OWNER 0).clearBit a 0
  else
    let a := Reg.WLD_UNIT_OWN x.id
    let h := (h.setFld a Fld.WLD_UNIT_OWN_OWNER 0).setFld a Fld.WLD_UNIT_OWN_STATE 1
    (unitSources x.id).foldl (fun h i => h.clearBit (Reg.IRQ_SRC i) 0) h

/-- A request of WLD_HO_REQ (R517): the refusals, the request that changes nothing, and the accepted one. -/
def hoRequest (h : Hw) (who : Who) (op : Nat) (source : Bool) (id new : Nat) : Hw :=
  let kind := b2n source
  let bad := if source then 1024 ≤ id || (0x1F8 ≤ id && id < 0x200) || sourceOfUnit id else !isUnit id
  if bad then h.setHoStat (whoBit who) new kind 3 id
  else if h.inHandover source id then h.setHoStat (whoBit who) new kind 4 id
  else
    let (owner, dflt, grant, claim) := h.hoAuth source id
    match h.hoVerdict who op owner new dflt grant claim with
    | .refuse r => h.setHoStat (whoBit who) new kind r id
    | .same => h.setHoStat (whoBit who) owner kind 0 id
    | .go n =>
      (h.hoRelease { source := source, id := id, old := owner, new := n, op := op, who := whoBit who }).setHoStat
        (whoBit who) n kind 1 id

end Hw

/-- UNIT_RELEASE (R517, R518 step 1). -/
def execUnitRelease (who : Who) (source : Bool) (id new : Nat) (s : State) : Result :=
  .next (s.onHw fun h => h.guarded who Reg.WLD_HO_REQ fun h => h.hoRequest who 1 source (id % 1024) (new % 256))

/-- UNIT_CLAIM (R517, R518 step 1). -/
def execUnitClaim (who : Who) (source : Bool) (id : Nat) (s : State) : Result :=
  .next (s.onHw fun h => h.guarded who Reg.WLD_HO_REQ fun h => h.hoRequest who 2 source (id % 1024) (whoCode who))

/-- UNIT_RETURN (R517, R518 step 1). -/
def execUnitReturn (who : Who) (source : Bool) (id : Nat) (s : State) : Result :=
  .next (s.onHw fun h => h.guarded who Reg.WLD_HO_REQ fun h => h.hoRequest who 3 source (id % 1024) 0)

end Sys2Proof.Machine
end

