-- ==== Sys2Proof/Machine/CfgImage.lean ====
section
/-! DEFINITION. The configuration image: its section table, what its sections declare and set, and its checks (R18, R123 to R128,
R192, R216, R225, R226, R254, R259, R397, R427, R434, R513 to R516, R527, R542, R559, R572, R576, R649, R674, R678, R717, R748). -/

namespace Sys2Proof.Config

/-- What the sections of a CFG declare whose words the spec does not lay out (R125): the image from word 0. -/
opaque cfgOf : (image : List Sys2Proof.Word) → Sys2Proof.Machine.Cfg

/-- The register words that the sections loaded at a step of R118 set, where the spec does not give their layout. -/
opaque cfgRegs : (image : List Sys2Proof.Word) → (step : Nat) → List (Nat × Sys2Proof.Word)

/-- The entries of the calibration store of a CALIB section, by 8 × entry + word (R257). -/
opaque cfgCal : (image : List Sys2Proof.Word) → List (Nat × Sys2Proof.Word)

/-- The channels that a LOAD section declares, as a mask (R475). -/
opaque cfgLoads : (image : List Sys2Proof.Word) → Nat

/-- A section that fails a check 0x09 to 0x0B of R126 through words the spec does not lay out. -/
opaque cfgFault : (image : List Sys2Proof.Word) → (code : Nat) → Option Nat

end Sys2Proof.Config

namespace Sys2Proof.Machine

/-! ### The preamble, the section table and the records (R123, R124, R127, R527) -/

/-- An entry of the section table: TYPE, FMT, OFFSET, SIZE. -/
structure Sect where
  type : Nat
  fmt : Nat
  ofs : Nat
  size : Nat
  idx : Nat
  deriving DecidableEq, Repr

/-- Word i of the body, the preamble's word i. -/
def cfgBody (w : Nat → Word) (i : Nat) : Word := w (64 + i)

/-- Fields of the preamble (R123). -/
def cfgSeq (w : Nat → Word) : Word := cfgBody w 0
def cfgNsect (w : Nat → Word) : Nat := bitsOf (cfgBody w 5) 7 0
def cfgLength (w : Nat → Word) : Nat := bitsOf (cfgBody w 4) 22 0
def cfgDevice (w : Nat → Word) : Nat := bitsOf (cfgBody w 3) 15 0

/-- The section table (R124). -/
def cfgSects (w : Nat → Word) : List Sect :=
  (List.range (cfgNsect w)).map fun i =>
    let e := fun j => cfgBody w (6 + 16 * i + j)
    { type := bitsOf (e 0) 39 24, fmt := bitsOf (e 0) 23 16, ofs := bitsOf (e 1) 22 0, size := bitsOf (e 15) 22 0, idx := i }

/-- The words of a section. -/
def sectWords (w : Nat → Word) (s : Sect) : List Word := (List.range s.size).map fun i => cfgBody w (s.ofs + i)

/-- The words of the section of a TYPE; none where there is none. -/
def cfgSection (w : Nat → Word) (type : Nat) : List Word := match (cfgSects w).find? fun s => s.type == type with
  | some s => sectWords w s
  | none => []

/-- The digest that the table gives a section: words 2 to 14. -/
def sectDigest (w : Nat → Word) (s : Sect) : List Byte :=
  (wordsBytes ((List.range 13).map fun j => cfgBody w (8 + 16 * s.idx + j))).take 64

/-- The sections that a CFG must have (R125). -/
def requiredSects : List Nat := (List.range 13).map (· + 1)

/-- The records of a section in the layout of R527: RTYPE and words. -/
def records : Nat → List Word → List (Nat × List Word)
  | 0, _ => []
  | _, [] => []
  | fuel + 1, w :: l => (bitsOf w 39 32, l.take (bitsOf w 15 0)) :: records fuel (l.drop (bitsOf w 15 0))

/-- The records of the section of a TYPE. -/
def cfgRecords (w : Nat → Word) (type : Nat) : List (Nat × List Word) :=
  let l := cfgSection w type
  records l.length l

/-- Check 0x05: the preamble and the table lie within the image, reserved fields are 0 and no two sections overlap (R126, R127). DESIGN
CHOICE (log entry 38): of two sections that overlap the later one in the table fails, for which the spec gives no rule. -/
def cfgLayout (w : Nat → Word) : Option Nat :=
  let n := cfgNsect w
  if cfgLength w ≠ imgLen w ∨ n < 1 ∨ 32 < n ∨ 4194304 < cfgLength w ∨ bitsOf (cfgBody w 1) 39 24 ≠ 0 ∨
      bitsOf (cfgBody w 3) 39 16 ≠ 0 ∨ bitsOf (cfgBody w 4) 39 23 ≠ 0 ∨ bitsOf (cfgBody w 5) 39 8 ≠ 0 ∨
      cfgLength w < 6 + 16 * n then some 0
  else
    let l := cfgSects w
    let bad (s : Sect) : Bool :=
      let e := fun j => cfgBody w (6 + 16 * s.idx + j)
      bitsOf (e 0) 15 0 ≠ 0 || bitsOf (e 1) 39 23 ≠ 0 || bitsOf (e 14) 7 0 ≠ 0 || bitsOf (e 15) 39 23 ≠ 0 ||
        decide (s.ofs < 6 + 16 * n) || decide (cfgLength w < s.ofs + s.size) ||
        l.any fun t => t.idx < s.idx && decide (t.ofs < s.ofs + s.size) && decide (s.ofs < t.ofs + t.size)
    (l.find? bad).map (·.type)

/-! ### What the sections declare (R125, R173, R216, R527, R649, R674, R678, R717)

Every record of R527 starts with a header word. Where a rule gives the words of a record, they are read so. DESIGN CHOICE (log entry 37):
where a rule lists the items of a record and no words (OD, TREE, the proxies), each item takes one word in the order of the list, and
an item of bytes as many words as R8 packs it in; the ROLE record is the first word of the DEVICE section. -/

/-- The bodies of the records of an RTYPE, in order. -/
def recordsOf (l : List (Nat × List Word)) (t : Nat) : List (List Word) := (l.filter fun r => r.1 == t).map (·.2)

/-- Item i of a record; and the default where the record ends before it. -/
def item (l : List Word) (i : Nat) : Nat := (l.getD i 0).toNat
def itemOr (l : List Word) (i d : Nat) : Nat := match l[i]? with
  | some v => v.toNat
  | none => d

/-- Bytes that R8 packs from word i of a record on. -/
def itemBytes (l : List Word) (i n : Nat) : List Byte := (wordsBytes ((l.drop i).take ((n + 4) / 5))).take n

/-- The default masks of an image block (R508). -/
def fixedDefault (b : Nat) : Nat :=
  if b = 4 ∨ b = 7 ∨ b = 12 then 0b10001 else if b = 5 then 0b10011 else if b = 6 ∨ b = 11 then 0b11 else 0

/-- The DEFAULT owner that the section gives a unit. -/
def unitOwnerOf (l : List (Nat × List Word)) (u : Nat) : Nat := match (recordsOf l 2).find? fun r => item r 0 % 64 == u with
  | some r => bitsOf (r.getD 1 0) 31 24
  | none => unitDefault u

/-- The registers that the WORLDS section sets (R508, R516, R527): the defaults of the units, their sources and the fixed blocks, the
hypervisor's VMPEND sources (R522), and then the images of its records; a unit's owner is its default. -/
def worldsRegs (l : List (Nat × List Word)) : List (Nat × Word) :=
  (units.flatMap fun u => let o := unitOwnerOf l u
    (Reg.WLD_UNIT_OWN u, word (o * 2 ^ 32 + o * 2 ^ 24)) :: (unitSources u).map fun i => (Reg.IRQ_SRC i, withBits 0xFF0008 39 32 o)) ++
  ((List.range 17).map fun b => (Reg.WLD_FIXED b, word (fixedDefault b))) ++
  ((recordsOf l 1).zipIdx.flatMap fun x =>
    [(Reg.WLD_RGN_BASE x.2, x.1.getD 0 0), (Reg.WLD_RGN_LIMIT x.2, x.1.getD 1 0), (Reg.WLD_RGN_ACC x.2, x.1.getD 2 0)]) ++
  ((recordsOf l 2).flatMap fun r => let u := item r 0 % 64
    [(Reg.WLD_UNIT_OWN u, withBits (r.getD 1 0) 39 32 (bitsOf (r.getD 1 0) 31 24)), (Reg.WLD_UNIT_AUTH u, r.getD 2 0)]) ++
  ((recordsOf l 3).map fun r => (Reg.WLD_FIXED (item r 0 % 32), r.getD 1 0)) ++
  ((List.range 8).map fun k => (Reg.IRQ_SRC (0x1F8 + k), withBits 0xFF0008 39 32 4)) ++
  ((recordsOf l 4).flatMap fun r => let i := item r 0 % 1024
    (Reg.IRQ_SRC i, withBits (r.getD 1 0) 3 3 (b2n (i < 0x200))) :: if 0x200 ≤ i then [(Reg.IRQ_SEND (i - 0x200), r.getD 2 0)] else [])

/-- The slots and the lone sources of the WORLDS section (R513, R517, R527). -/
def worldsDecl (c : WorldsCfg) (l : List (Nat × List Word)) : WorldsCfg :=
  { c with
    vms := (recordsOf l 5).foldl (fun (t : Tab VmSlot) r =>
      Tabs.set (fun _ => ({} : VmSlot)) t (item r 0 % 16)
        { declared := true, poolBase := item r 1, poolSize := item r 2, coreMask := bitsOf (r.getD 3 0) 7 0,
          weight := bitsOf (r.getD 3 0) 15 8, worldChannel := item r 4 % 64 }) []
    srcs := ((recordsOf l 4).filter fun r => decide (item r 0 % 1024 < 0x200)).foldl (fun (t : Tab SourceAuth) r =>
      Tabs.set (fun _ => ({} : SourceAuth)) t (item r 0 % 1024)
        { grant := bitsOf (r.getD 2 0) 39 20, claim := bitsOf (r.getD 2 0) 19 0, dflt := bitsOf (r.getD 1 0) 39 32 }) [] }

/-- The OD section (R649). -/
def odDecl (l : List (Nat × List Word)) : OdCfg :=
  let d : OdCfg := {}
  let p := (recordsOf l 3).headD []
  let m := (recordsOf l 4).headD []
  let lim := (recordsOf l 6).headD []
  { anchors := (recordsOf l 1).map fun r => { index := item r 0, ceiling := item r 1, key := itemBytes r 2 32 }
    revoked := (recordsOf l 2).map fun r => beNat (itemBytes r 0 8)
    tenants := (recordsOf l 5).map fun r =>
      { area := item r 0, vm := item r 1, readRole := item r 2, writeRole := item r 3, channel := item r 4 }
    idle := (List.range 4).map fun i => itemOr lim i (d.idle.getD i 0)
    reqTimeout := itemOr lim 4 d.reqTimeout
    vm0Ip4 := item p 0, vm0Ip6 := beNat (itemBytes p 1 16), vm0Vlan := item p 5, vm0Ports := item p 6, rawOn := decide (item p 7 ≠ 0)
    minVlan := item m 0, minPorts := item m 1 }

/-- The registers that the CAN records set (R678). -/
def canRegs (l : List (Nat × List Word)) : List (Nat × Word) :=
  ((recordsOf l 1).flatMap fun r => let n := item r 0
    [(Reg.CAN_CTRL n, r.getD 1 0), (Reg.CAN_NBT n, r.getD 2 0), (Reg.CAN_DBT n, r.getD 3 0)]) ++
  ((recordsOf l 2).flatMap fun r => (List.range 2).map fun w => (Reg.CAN_FLT (item r 0) (item r 1) w, r.getD (2 + w) 0)) ++
  ((recordsOf l 3).flatMap fun r => (List.range 3).map fun w => (Reg.COL_ROUTE (item r 0) w, r.getD (1 + w) 0)) ++
  ((recordsOf l 4).flatMap fun r => (List.range 2).map fun w => (Reg.COL_STREAM (item r 0) w, r.getD (1 + w) 0)) ++
  ((recordsOf l 5).map fun r => (Reg.COL_EVT (item r 0), r.getD 1 0))

/-- The proxies of the CAN section (R674, R678). -/
def proxyDecl (l : List (Nat × List Word)) : Tab (Option ProxyCfg) :=
  (recordsOf l 6).foldl (fun (t : Tab (Option ProxyCfg)) r =>
    Tabs.set (fun _ => none) t (item r 0)
      (some { can := item r 1, req := r.getD 2 0, rsp := r.getD 3 0, fd := decide (item r 4 ≠ 0), obj := item r 5, type := item r 6,
              len := item r 7, maxAge := itemOr r 8 1000, timeout := itemOr r 9 100, retryMs := itemOr r 10 20, role := item r 11 })) []

/-- The registers that the GIO records set (R678). -/
def gioRegs (l : List (Nat × List Word)) : List (Nat × Word) :=
  ((recordsOf l 1).flatMap fun r => let n := item r 0
    [(Reg.CAN_SW_ID n, r.getD 1 0), (Reg.CAN_SW_MASK n, r.getD 2 0), (Reg.CAN_SW_DATA0 n, r.getD 3 0), (Reg.CAN_SW_DATA1 n, r.getD 4 0)]) ++
  ((recordsOf l 2).flatMap fun r => [(Reg.WAKE_EN, r.getD 0 0), (Reg.GIO_WAKE_CFG, r.getD 1 0)]) ++
  ((recordsOf l 3).flatMap fun r => [(Reg.GIO_DEB, r.getD 1 0), (Reg.GIO_AI_CFG, r.getD 2 0)])

/-- The TREE section (R717). -/
def treeDecl (c : SwitchCfg) (l : List (Nat × List Word)) : SwitchCfg :=
  let g := recordsOf l 3
  { c with
    neighbours := (recordsOf l 1).map fun r => { dev := item r 0, mac := beNat (itemBytes r 1 6), rel := item r 3 }
    peerVid := (recordsOf l 2).foldl (fun (t : Tab Nat) r => Tabs.set (fun _ => (0 : Nat)) (Tabs.set (fun _ => (0 : Nat)) t 0 (item r 0)) 1 (item r 1)) []
    groupMac := g.foldl (fun (t : Tab Nat) r => Tabs.set (fun _ => (0 : Nat)) t (item r 0) (beNat (itemBytes r 2 6))) []
    groupBit := g.foldl (fun (t : Tab (Option Nat)) r => Tabs.set (fun _ => (none : Option Nat)) t (item r 0) (some (item r 1))) []
    tripGroup := g.foldl (fun (t : Tab Nat) r => (r.drop 4).foldl (fun t e => Tabs.set (fun _ => (0 : Nat)) t e.toNat (item r 0)) t) []
    paths := (recordsOf l 4).foldl (fun (t : Tab Nat) r => Tabs.set (fun _ => (0 : Nat)) t (item r 0) (item r 1)) [] }

/-- The first 40 bits of a section's digest (R133). -/
def cellmapId (w : Nat → Word) : Word := match (cfgSects w).find? fun s => s.type == 0xC with
  | some s => cfgBody w (8 + 16 * s.idx)
  | none => 0

/-- What a CFG declares (R125): the image's words from word 0. -/
def cfgDecl (ws : List Word) : Cfg :=
  let w := fun i => ws.getD i 0
  let c := Config.cfgOf ws
  let role := (cfgSection w 1).getD 0 0
  let gio := cfgRecords w 0xB
  { c with
    deviceId := cfgDevice w
    fab := { c.fab with cellmap := cellmapId w }
    worlds := worldsDecl (if (cfgSects w).any (fun s => s.type == 0x10) then c.worlds else { c.worlds with insts := [] }) (cfgRecords w 7)
    od := odDecl (cfgRecords w 8)
    proxies := proxyDecl (cfgRecords w 0xE)
    sw := treeDecl c.sw (cfgRecords w 0xF)
    di := match recordsOf gio 3 with
      | r :: _ => item r 0
      | [] => 0
    ai := match recordsOf gio 3 with
      | r :: _ => bitsOf (r.getD 2 0) 31 16
      | [] => 0
    role := bitsOf role 39 38
    treeLevel := bitsOf role 37 34
    plantTag := bitsOf role 15 0 }

/-- The registers of the RING section (R211, R212, R216): the windows of the instances, and RETRY for the whole controller. -/
def ringRegs (c : Cfg) : List (Nat × Word) :=
  (Reg.VNK_CTRL, word (c.retry * 2 ^ 16)) ::
    ((List.range 16).flatMap fun k => match Tabs.get (fun _ => (none : Option RingCfg)) c.rings k with
      | some r => [(Reg.VNK_RING_CFG k, r.cfg), (Reg.VNK_RING_SEG k, r.seg), (Reg.VNK_RING_START k, r.start)] ++
          (List.range 4).map fun i => (Reg.VNK_RING_DECL k i, r.decl.getD i 0)
      | none => [])

/-- An address whose registers are set by records that the spec lays out, or by the RING section's own fields. -/
def laidOut (a : Nat) : Bool := match blockOf a with
  | .fixed b => b == 5 || b == 9 || b == 16
  | .unit u => decide (33 ≤ u) && decide (u ≤ 38)
  | _ => a == Reg.WAKE_EN

/-- The registers that the sections of a step of R118 set. -/
def sectRegs (ws : List Word) (step : Nat) : List (Nat × Word) :=
  let w := fun i => ws.getD i 0
  (Config.cfgRegs ws step).filter (fun x => !laidOut x.1) ++
    (if step = 6 then ringRegs (cfgDecl ws)
     else if step = 8 then worldsRegs (cfgRecords w 7) ++ canRegs (cfgRecords w 0xE) ++ gioRegs (cfgRecords w 0xB)
     else [])

/-- The store of calibration entries of a CALIB section. -/
def calStore (ws : List Word) : Tab Word := (Config.cfgCal ws).foldl (fun t x => Tabs.set (fun _ => (0 : Word)) t x.1 x.2) []

/-- The machine as a CFG would set it, to judge the image by. -/
def cfgLoaded (ws : List Word) : Hw :=
  let h : Hw := { cfg := cfgDecl ws, snp := { cal := calStore ws } }
  [6, 8, 9].foldl (fun (h : Hw) st => (sectRegs ws st).foldl (fun (h : Hw) x => h.setReg x.1 x.2) h) h

/-! ### Checks 0x09 to 0x0B (R18, R126)

Each answers the TYPEs of the sections that fail. -/

/-- A TYPE that fails unless a condition holds. -/
def failsUnless (ok : Bool) (type : Nat) : List Nat := if ok then [] else [type]

/-- Check 0x09: what the sections declare against the maxima of R18. -/
def limitFaults (ws : List Word) : List Nat :=
  let w := fun i => ws.getD i 0
  let h := cfgLoaded ws
  let c := h.cfg
  let rings := (List.range 16).filter fun k => h.topo k ≠ 0
  let cells := c.fab.cells.filter fun x => x.2.isSome
  let racks := (cells.filterMap fun x => x.2.map (·.rack)).eraseDups
  failsUnless (decide (cells.length ≤ 16384) && (cells.all fun x => decide (x.1 < 16384)) && decide (racks.length ≤ 64) &&
      racks.all fun r => decide (r < 64)) 0xC ++
  failsUnless (c.fab.pages.all fun x => x.2.isNone || decide (x.1 < 17729)) 0xD ++
  failsUnless (decide ((rings.flatMap h.endsHere).length ≤ 16) && (c.rings.all fun x => x.2.isNone || decide (x.1 < 16)) &&
      rings.all fun k => decide (h.nCell k ≤ 128) && decide (h.nAux k ≤ 32)) 2 ++
  failsUnless (decide (Config.cfgLoads ws < 2 ^ 64)) 5 ++
  failsUnless (c.sw.ports.all fun p => decide (p < 8)) 9 ++
  failsUnless ((recordsOf (cfgRecords w 0xE) 1).all fun r => decide (item r 0 < 4)) 0xE ++
  failsUnless (decide ((recordsOf (cfgRecords w 7) 5).length ≤ 16)) 7

/-- Two records name the same item. -/
def twice (l : List (List Word)) (key : List Word → Nat) : Bool :=
  let ks := l.map key
  ks.eraseDups.length ≠ ks.length

/-- Two ranges of words overlap. -/
def overlaps (a b : Nat × Nat) : Bool := decide (a.1 < b.1 + b.2) && decide (b.1 < a.1 + a.2)

/-- Check 0x0A: an item named twice, or an overlap (R513, R527, R542, R559, R649, R678, R717). -/
def nameFaults (ws : List Word) : List Nat :=
  let w := fun i => ws.getD i 0
  let c := cfgDecl ws
  let of := fun s t => recordsOf (cfgRecords w s) t
  let pools := (of 7 5).map fun r => (item r 1, item r 2)
  let insts := (c.worlds.insts.filter fun x => x.2.vm ≠ 0).map (·.2)
  let clash := fun (l : List (Nat × Nat)) => l.zipIdx.any fun x => l.zipIdx.any fun y => decide (x.2 < y.2) && overlaps x.1 y.1
  let keys := (c.sw.fdb.filter fun e => bitN e.2.1.toNat 39).map fun e => (bitsOf e.2.1 27 16, bitsOf e.2.1 7 0, e.2.2.1)
  failsUnless (!(twice (of 7 2) (item · 0 % 64) || twice (of 7 3) (item · 0 % 32) || twice (of 7 4) (item · 0 % 1024) ||
      twice (of 7 5) (item · 0 % 16) || decide (64 < (of 7 1).length) || clash pools)) 7 ++
  failsUnless (!(decide (16 < (of 8 1).length) || decide (256 < (of 8 2).length) || twice (of 8 1) (item · 0))) 8 ++
  failsUnless (keys.eraseDups.length == keys.length) 9 ++
  failsUnless (!(twice (of 0xE 1) (item · 0) || twice (of 0xE 2) (fun r => item r 0 * 64 + item r 1) || twice (of 0xE 3) (item · 0) ||
      twice (of 0xE 4) (item · 0) || twice (of 0xE 5) (item · 0) || twice (of 0xE 6) (item · 0))) 0xE ++
  failsUnless (!twice (of 0xB 1) (item · 0)) 0xB ++
  failsUnless (!twice (of 0xF 1) (item · 0)) 0xF ++
  failsUnless ((cfgSects w).any (fun s => s.type == 0xF) || (List.range 16).all fun k => (cfgLoaded ws).topo k < 2) 2 ++
  failsUnless (!(clash (insts.map fun x => (x.dramBase, x.dramSize)) || clash (insts.map fun x => (x.rgOfs, x.rgSize)))) 0x10

/-- The section whose values stand in a register (R125). -/
def sectOf (a : Nat) : Nat := match blockOf a with
  | .fixed 0 | .fixed 1 | .fixed 14 => 6
  | .fixed 2 => 4
  | .fixed 4 => 0xA
  | .fixed 5 => 2
  | .fixed 6 => 3
  | .fixed 7 => 0xD
  | .fixed 11 => 5
  | .fixed 12 => 9
  | .fixed _ => 7
  | .unit u => if u ≤ 32 then 9 else if u ≤ 37 then 0xE else if u = 38 then 0xB else 9
  | _ => 0

/-- A register word keeps the ranges of its card (R13). -/
def legalWord (a : Nat) (v : Word) : Bool := match cardOf a with
  | some c => c.legal.all fun f => f.2.2.ok (bitsOf v f.1 f.2.1)
  | none => true

/-- A sequence is strictly increasing. -/
def rises : List Int → Bool
  | a :: b :: l => decide (a < b) && rises (b :: l)
  | _ => true

/-- A cell's parameters keep the conditions under which a CELL section is rejected (R397, R412): the fields without a default, the
tables, and the bins' frequencies and dwells. -/
def cellOk (t : Tab Word) : Bool :=
  let v := fun o => Tabs.get (fun _ => (0 : Word)) t o
  let given := fun o => t.any fun x => x.1 == o
  let soc := (List.range 32).map fun i => (v (0x218 + 2 * i)).toInt
  (([0x200, 0x201, 0x202, 0x20A] ++ (List.range 7).map (0x20C + ·) ++ (List.range 264).map (0x218 + ·)).all given) &&
    decide (0 < (v 0x200).toInt) && decide (0 < (v 0x20A).toInt) && decide (0 < (v 0x210).toInt) &&
    rises soc && soc.head? == some 0 && soc.getLast? == some (2 ^ 32) &&
    rises ((List.range 8).map fun i => -(v (0x310 + 2 * i)).toInt) &&
    (List.range 24).all fun b =>
      let inc : Int := (v (0x2B8 + 3 * b)).toNat
      let n : Int := bitsOf (v (0x2B9 + 3 * b)) 39 20
      let one : Int := 2 ^ 40
      decide (109951163 ≤ inc) && decide (inc ≤ 439804651110) && decide (100 ≤ n) && rhe (rhe (n * inc) one * one) n == inc

/-- Every channel of the nodes that stand in an instance's declared positions, as (position, channel). -/
def declaredChans (h : Hw) (k : Nat) : List (Nat × Nat) :=
  (h.declared k).flatMap fun p => (List.range (if p < 128 then 20 else 4)).map fun j => (p, j)

/-- The calibration entries of a channel. -/
def chanEntries (k p j : Nat) : List Nat := (List.range (if p < 128 then 1 else 4)).map fun r => calEntry k p j r

/-- Check 0x0B: a value outside the range that its chapter gives. -/
def rangeFaults (ws : List Word) : List Nat :=
  let w := fun i => ws.getD i 0
  let h := cfgLoaded ws
  let c := h.cfg
  let of := fun s t => recordsOf (cfgRecords w s) t
  let rings := (List.range 16).filter fun k => h.topo k ≠ 0
  let cal := fun (e i : Nat) => Tabs.get (fun _ => (0 : Word)) h.snp.cal (8 * e + i)
  let within := fun (lo hi n : Nat) => decide (lo ≤ n) && decide (n ≤ hi)
  let path := fun k => Tabs.get (fun _ => (0 : Nat)) c.sw.paths (((h.ringCfg k).map (·.peerId)).getD 0)
  ((([6, 8, 9].flatMap (sectRegs ws)).filter fun x => !legalWord x.1 x.2).map fun x => sectOf x.1) ++
  failsUnless (within 0 15 c.retry && rings.all fun k =>
      decide (h.y0 k + 256 * h.nDyn k ≤ 23500) && decide (2 ≤ h.nDyn k) &&
      (h.topo k == 1 || decide (160000 + 1000 * path k ≤ 40 * h.c0 k)) &&
      (h.ringCfg k).all fun r => decide (r.allow.length ≤ 32) && decide (r.dAB ≤ 352000) && decide (r.dBA ≤ 352000) &&
        decide (r.peerId < 65536) && r.sparePos.all fun p => decide (p < 160)) 2 ++
  failsUnless (((Config.cfgCal ws).map (·.1 / 8)).eraseDups.all fun e => Hw.calOk e ((List.range 8).map (cal e))) 3 ++
  failsUnless (rings.all fun k => (declaredChans h k).all fun x =>
      !h.guarded_ k x.1 x.2 || (chanEntries k x.1 x.2).all fun e => decide (0 < (cal e 1).toInt)) 3 ++
  failsUnless (rings.all fun k =>
      let m := Reg.GRD_MATRIX (0x370 + k)
      h.bit m 39 && (h.bit m 37 || decide (h.fld m Fld.GRD_MATRIX_HL ≠ 0) || decide (h.fld m Fld.GRD_MATRIX_TO ≠ 0))) 4 ++
  failsUnless (bitN (bitsOf (h.reg (Reg.WLD_UNIT_AUTH 40)) 19 0) 1) 7 ++
  failsUnless (((of 8 1).all fun r => within 0 3 (item r 1) && within 0 15 (item r 0)) && (c.od.idle.all (within 10 86400)) &&
      within 100 60000 c.od.reqTimeout) 8 ++
  failsUnless ((List.range 8).all fun p => !(h.noPause p && h.bit (Reg.MAC_CTRL p) 3)) 9 ++
  failsUnless (h.fld Reg.SWC_MIRROR Fld.SWC_MIRROR_MODE = 0 || (List.range 256).all fun i =>
      !(h.bit (Reg.SWC_VLAN i) 39 && h.bit (Reg.SWC_VLAN i) (11 + h.fld Reg.SWC_MIRROR Fld.SWC_MIRROR_ANA))) 9 ++
  failsUnless (c.fab.cells.all fun x => x.2.all fun y => cellOk y.init) 0xC ++
  failsUnless (((of 0xE 2).all fun r => within 0 3 (item r 0) && within 0 63 (item r 1)) && (of 0xE 6).all fun r =>
      within 0 255 (item r 0) && within 0 3 (item r 1) && within 0 (if item r 4 = 0 then 512 else 1200) (item r 7) &&
      within 100 60000 (itemOr r 8 1000) && within 10 10000 (itemOr r 9 100) && within 1 1000 (itemOr r 10 20)) 0xE ++
  failsUnless (((of 0xF 1).all fun r => within 0 2 (item r 3)) && ((of 0xF 2).all fun r => within 1 4094 (item r 0) && within 1 4094 (item r 1)) &&
      ((of 0xF 3).all fun r => within 0 7 (item r 0) && within 0 7 (item r 1)) && (of 0xF 4).all fun r => within 1 100 (item r 1)) 0xF ++
  failsUnless (c.worlds.insts.all fun x => x.2.vm = 0 || (within 1 15 x.2.vm && decide (x.2.rgOfs + x.2.rgSize ≤ 0x7000) &&
      within 1 x.2.rgSize x.2.code && within 0 512000 x.2.rateMax && within 1000 50000 x.2.taskMax)) 0x10

/-! ### The checks of R126 -/

/-- The TYPE that is reported: the first section in table order among those that fail, and 0 where none of them stands in the table. -/
def reported (l : List Sect) (types : List Nat) : Option Nat :=
  if types.isEmpty then none else some (((l.find? fun s => types.contains s.type).map (·.type)).getD 0)

/-- The first check of R126 that a CFG fails, with the failing section. `set` is the working set of firmware beside it, `sfw` its
SFW image. -/
def cfgCheck (f : Fuse) (w : Nat → Word) (set : List (Nat → Word)) (sfw : Nat → Word) : Option (Nat × Nat) :=
  let serial := bitsOf (cfgBody w 1) 23 0 * 2 ^ 40 + (cfgBody w 2).toNat
  if !(imgPresent w && imgHeader w 5 0 configLen && imgSignature f w) then some (0x01, 0)
  else if !imgArbOk f w then some (0x02, 0)
  else if !imgAdmits w then some (0x03, 0)
  else if serial ≠ 0 ∧ serial ≠ f.serial.toNat then some (0x04, 0)
  else match cfgLayout w with
    | some t => some (0x05, t)
    | none =>
      let l := cfgSects w
      match l.find? fun s => sha64 (wordsBytes (sectWords w s)) ≠ sectDigest w s with
      | some s => some (0x06, s.type)
      | none => match l.find? fun s => l.any fun t => t.idx < s.idx && t.type == s.type with
        | some s => some (0x07, s.type)
        | none =>
          if requiredSects.any fun t => !(l.any fun s => s.type == t) then some (0x07, 0)
          else match l.find? fun s => !sfwReads sfw s.type s.fmt with
            | some s => some (0x08, s.type)
            | none =>
              if !setOk (w :: set) then some (0x08, 0)
              else
                let ws := (List.range (64 + imgLen w)).map w
                let fails := fun (known : List Nat) (code : Nat) => (reported l (known ++ (Config.cfgFault ws code).toList)).map fun t => (code, t)
                (fails (limitFaults ws) 0x09).or ((fails (nameFaults ws) 0x0A).or (fails (rangeFaults ws) 0x0B))

namespace State

/-- CONFIG_SEQ of a slot; 0 for an empty one, and whether the slot is empty (R128). -/
def slotSeq (s : State) (b : Bool) : Bool × Nat :=
  let w := s.nor.image (configBase b)
  if imgPresent w then (true, (cfgSeq w).toNat) else (false, 0)

/-- The slot that R128 checks first: true for B. -/
def firstSlot (s : State) : Bool :=
  let a := s.slotSeq false
  let b := s.slotSeq true
  b.1 && (!a.1 || decide (a.2 < b.2))

/-- The check of a slot against a set. -/
def slotCheck (s : State) (b : Bool) (region : Nat → Nat) : Option (Nat × Nat) :=
  cfgCheck s.fuse (s.nor.image (configBase b)) (fwTypes.map fun t => s.partImage (region t) t 0) (s.partImage (region 1) 1 0)

end State

end Sys2Proof.Machine
end

