-- ==== Sys2Proof/Machine/TimeRows.lean ====
section
/-! DEFINITION. The rows of the time unit (R596 to R612). -/

namespace Sys2Proof.Machine

/-- STATUS codes of R642. -/
def stOk : Nat := 0
def stBadObject : Nat := 2
def stBadType : Nat := 3
def stBadValue : Nat := 4
def stNoAccess : Nat := 5
def stBusy : Nat := 6
def stState : Nat := 7
def stStale : Nat := 8
def stTooBig : Nat := 9
def stTimeout : Nat := 10
def stBadMessage : Nat := 11

namespace Hw

/-- The STATUS of an operation on an object. -/
def answer (h : Hw) (st : Nat) : Hw := { h with status := st }

/-- A write of TIME_MEAS_LO submits the sample (R596, R612). -/
def submit (h : Hw) (lo : Word) : Hw :=
  let h := h.setReg Reg.TIME_MEAS_LO lo
  match time80Val (h.reg Reg.TIME_MEAS_HI) lo with
  | some t => h.sample t
  | none => h

/-! ### Captures (R603, R604) -/

/-- The capture configuration of an input selects an edge. -/
def capSelects (h : Hw) (i : Nat) (rise : Bool) : Bool :=
  bitN (bitsOf (h.reg Reg.TIME_CAP_CFG) (2 * i + 1) (2 * i)) (if rise then 0 else 1)

/-- An edge with its tick's device time. -/
def captureOne (h : Hw) (t i : Nat) (rise : Bool) : Hw :=
  let seq := h.tu.capSeq
  let h := h.onTu fun u => { u with capSeq := (seq + 1) % 2 ^ 32 }
  if 64 ≤ h.tu.fifo.length then (h.count Reg.TIME_CNT_CAPLOST).setBit Reg.TIME_IRQ_STAT 4
  else
    let first := h.tu.fifo.isEmpty
    let h := h.onTu fun u => { u with fifo := u.fifo ++ [({ input := i, rise := rise, seq := seq, time := t } : Capture)] }
    if first then h.setBit Reg.TIME_IRQ_STAT 3 else h

/-- The edges of one tick, lowest input first: one timestamp for all. -/
def capture (h : Hw) (edges : List (Fin 19 × Bool)) : Hw :=
  let o := h.observe
  (List.range 19).foldl (fun (h : Hw) i =>
    match edges.find? fun e => e.1.val == i with
    | some e => if h.capSelects i e.2 then h.captureOne o.1 i e.2 else h
    | none => h) o.2

/-- A read of TIME_CAP_INFO takes the oldest entry (R612). -/
def capturePop (h : Hw) : Hw × Word :=
  match h.tu.fifo with
  | [] => (h, 0)
  | c :: l =>
    let t := time80 c.time
    let h := h.onTu fun u => { u with fifo := l }
    ((h.setReg Reg.TIME_CAP_HI t.1).setReg Reg.TIME_CAP_LO t.2,
      word (2 ^ 39 + c.input * 2 ^ 34 + b2n c.rise * 2 ^ 33 + c.seq))

/-! ### The pairs of TIME80 registers (R612) -/

/-- The value of a pair: device time, network time, T_SI of the next SI. -/
def pairValue (h : Hw) (pair : Nat) : Int × Hw :=
  if pair = 0 then let o := h.observe; ((o.1 : Int), o.2)
  else if pair = 1 then let o := h.observe; ((o.2.netOf o.1).getD 0, o.2)
  else ((h.tu.tSi + h.cycleLen : Nat), h)

/-- A read of a pair's LO word latches the seconds for its HI word. -/
def readLo (h : Hw) (pair : Nat) : Hw × Word :=
  let v := h.pairValue pair
  let t := time80 v.1
  (v.2.setReg (Reg.TIME_DEV_HI + 2 * pair) t.1, t.2)

/-! ### Pulses (R605, R606) -/

/-- PPS_OUT rises at a whole second of the selected time within the cycle in course. -/
def ppsEdge (h : Hw) : Hw :=
  let mode := h.fld Reg.TIME_PPS Fld.TIME_PPS_MODE
  let base : Option Int := if mode = 2 then some h.tu.tSi else if mode = 1 then h.netOf h.tu.tSi else none
  match base with
  | none => h
  | some t =>
    if (h.secondIn t).isSome && h.tu.ppsLc ≠ h.lc + 1 then h.onTu fun u => { u with pps := true, ppsLc := h.lc + 1 } else h

/-- PPS_OUT falls WIDTH ms after its rise, as the SI that ends them passes, and is low while its mode gives no pulse. -/
def ppsFall (h : Hw) : Hw :=
  let mode := h.fld Reg.TIME_PPS Fld.TIME_PPS_MODE
  if mode = 0 || (mode = 1 && !h.timeValid) || decide (h.tu.ppsLc + h.fld Reg.TIME_PPS Fld.TIME_PPS_WIDTH ≤ h.lc + 1) then
    h.onTu fun u => { u with pps := false }
  else h

def tim (h : Hw) (k : Nat) : PulseTimer := Tabs.get (fun _ => ({} : PulseTimer)) h.tu.tims k

/-- The words of TIME_TIM keep R606. -/
def timOk (ws : List Word) : Bool :=
  let p := (ws.getD 1 0).toNat
  let hi := (ws.getD 2 0).toNat
  p % 8 == 0 && hi % 8 == 0 && 16 ≤ p && p ≤ 1000000000 && hi ≤ p && (!bitN (ws.getD 0 0).toNat 38 || decide (p ≤ 1000000))

/-- A pulse timer starts a period with the words now written, or stops with EN at 0. -/
def timStart (h : Hw) (k : Nat) : Hw :=
  let ws := (List.range 4).map fun w => h.reg (Reg.TIME_TIM k w)
  let t := h.tim k
  let on := bitN (ws.getD 0 0).toNat 39
  let put := fun (t : PulseTimer) => h.onTu fun u => { u with tims := Tabs.set (fun _ => ({} : PulseTimer)) u.tims k t }
  if on && timOk ws && (t.running || decide ((ws.getD 3 0).toNat ≤ h.lc)) then
    put { words := ws, running := true, high := (ws.getD 2 0).toNat }
  else if t.running && !on then put {}
  else h

/-! ### The calendar (R607 to R609) -/

/-- The UTC day ends in the cycle in course: at 86 400 s, or one second later or earlier where a leap second says so. -/
def dayEnds (h : Hw) (leap : Int) : Bool :=
  match h.netOf h.tu.tSi with
  | none => false
  | some t => match h.secondIn t with
    | some s => (s - h.utcOffset - leap) % 86400 == 0
    | none => false

/-- A leap second ends (R607). -/
def leapEnd (h : Hw) : Hw :=
  let l61 := h.flag Reg.TIME_UTC Fld.TIME_UTC_LEAP61
  let l59 := h.flag Reg.TIME_UTC Fld.TIME_UTC_LEAP59
  if !h.utcValid || !(l61 || l59) || !h.dayEnds (if l61 then 1 else -1) then h
  else
    let o := h.utcOffset + (if l61 then 1 else -1)
    let h := h.setFld Reg.TIME_UTC Fld.TIME_UTC_OFFSET (BitVec.ofInt 16 o).toNat
    (h.clearBit Reg.TIME_UTC (if l61 then 17 else 16)).setBit Reg.TIME_IRQ_STAT 6

/-- A write to CAL_QUERY (R608, R609). DESIGN CHOICE (log entry 46): LC_D is the low 40 bits of a later LC. -/
def calQuery (h : Hw) (d : Word) : Hw :=
  if !dateOk d then h.answer stBadValue
  else
    let r := h.dateLc d
    let t := time80 (r.1 * tSec)
    (h.onTu fun u => { u with query := d, result := (t.1, t.2, word r.2) }).answer stOk

/-- A write to CAL_WAKE at its commit LC (R609). -/
def calWake (h : Hw) (d : Word) : Hw :=
  if !dateOk d then h.answer stBadValue
  else if !h.utcValid then h.answer stState
  else
    let r := (h.dateLc d).2
    if r ≤ h.lc then h.answer stBadValue
    else ((h.setReg Reg.WAKE_TIMER (word r)).setBit Reg.WAKE_EN 11).answer stOk

end Hw

/-! ### Rows -/

/-- TIME_SAMPLE_SUBMIT (R596). -/
def execTimeSampleSubmit (who : Who) (lo : Word) (s : State) : Result :=
  .next (s.onHw fun h => h.guarded who Reg.TIME_MEAS_LO fun h => h.submit lo)

/-- EPOCH_START: at SI(START_LC) (R599). -/
def execEpochStart (s : State) : Result :=
  .next (s.onHw fun h =>
    match h.tu.epochs with
    | e :: _ => if h.sysOn && h.rephasing && decide (e.startLc ≤ h.lc) then h.startEpoch e else h
    | [] => h)

/-- SYNC_TIMEOUT (R597). -/
def execSyncTimeout (s : State) : Result :=
  .next (s.onHw fun h =>
    if (h.lockState = tAcquiring ∨ h.lockState = tLocked) ∧
        h.tu.lastSample + 100 * h.fld Reg.TIME_CFG Fld.TIME_CFG_SYNC_TO ≤ h.lc then h.setLock tHoldover
    else h)

/-- CAPTURE_EDGE: the edges of one tick (R603, R604). -/
def execCaptureEdge (edges : List (Fin 19 × Bool)) (s : State) : Result :=
  .next (s.onHw fun h => if h.sysOn && h.flag Reg.TIME_CTRL Fld.TIME_CTRL_CAP_EN then h.capture edges else h)

/-- CAPTURE_POP (R612). -/
def execCapturePop (who : Who) (s : State) : Result :=
  .next (s.onHw fun h => h.guardedRead who Reg.TIME_CAP_INFO Hw.capturePop)

/-- PPS_OUT_EDGE (R605). -/
def execPpsOutEdge (s : State) : Result := .next (s.onHw fun h => if h.sysOn then h.ppsEdge else h)

/-- TIM_PERIOD_START (R606). -/
def execTimPeriodStart (k : Fin 16) (s : State) : Result := .next (s.onHw fun h => if h.sysOn then h.timStart k else h)

/-- LEAP_SECOND_END (R607). -/
def execLeapSecondEnd (s : State) : Result := .next (s.onHw fun h => if h.sysOn then h.leapEnd else h)

/-- ANNOUNCE_TIMEOUT: a declared peer leaves the choice of master, and the time path may change with it (R270, R594). -/
def execAnnounceTimeout (peer : Fin 256) (s : State) : Result :=
  .next (s.onHw fun h =>
    if h.sysOn && decide (peer.val < h.cfg.time.peers.length) && !h.tu.gone.contains peer.val then
      (h.onTu fun u => { u with gone := peer.val :: u.gone }).setNoplant
    else h)

/-- HOLDOVER_ANNOUNCE_STOP (R594). -/
def execHoldoverAnnounceStop (s : State) : Result :=
  .next (s.onHw fun h =>
    if h.sysOn && h.lockState == tHoldover && decide (h.tu.heldSince + 1000 * h.cfg.time.holdAnn ≤ h.lc) then
      h.onTu fun u => { u with silent := true }
    else h)

/-- CAL_QUERY (R609). -/
def execCalQuery (date : Word) (s : State) : Result := .next (s.onHw fun h => if h.sysOn then h.calQuery date else h)

/-- CAL_WAKE_APPLY: Crest applies the write at its commit LC (R609). -/
def execCalWakeApply (date : Word) (s : State) : Result := .next (s.onHw fun h => if h.crestOn then h.calWake date else h)

/-- TIME80_LO_READ: pairs 0 device time, 1 network time, 2 the next SI (R612). -/
def execTime80LoRead (who : Who) (pair : Fin 3) (s : State) : Result :=
  .next (s.onHw fun h => h.guardedRead who (Reg.TIME_DEV_LO + 2 * pair) fun h => h.readLo pair)

end Sys2Proof.Machine
end

