-- ==== Sys2Proof/Machine/Units.lean ====
section
/-! DEFINITION. The end of a hand-over, and the states of the VM slots (R514, R515, R518 to R521, R549). -/

namespace Sys2Proof.Machine

namespace Hw

/-- Registers lo to hi return to their reset values. -/
def clearRegs (h : Hw) (lo hi : Nat) : Hw := { h with regs := Tabs.clear h.regs lo hi }

/-- The window of a unit: its registers, less those held in the AO domain (R516, R681, R683). -/
def unitRegs (h : Hw) (u : Nat) : Hw :=
  if 25 ≤ u ∧ u ≤ 32 then h.clearRegs (0x10810000 + 0x10000 * (u - 25)) (0x1081FFFF + 0x10000 * (u - 25))
  else if 33 ≤ u ∧ u ≤ 36 then
    let b := 0x10A00000 + 0x1000 * (u - 33)
    (h.clearRegs b (b + 0x6F)).clearRegs (b + 0x75) (b + 0xFFF)
  else if u = 37 then h.clearRegs 0x10B00000 0x10B0FFFF
  else if u = 38 then (h.clearRegs 0x10C00000 0x10C0003F).clearRegs 0x10C00054 0x10C0FFFF
  else if 40 ≤ u ∧ u ≤ 42 then h.clearRegs (0x10800400 + 0x10 * (u - 40)) (0x1080040F + 0x10 * (u - 40))
  else h

/-- Every queue, FIFO and buffer of a unit is emptied; a MAC drops its link, a CAN controller leaves the bus, a host port drops the
frames to and from it (R518, R677). -/
def unitEmpty (h : Hw) (u : Nat) : Hw :=
  if 25 ≤ u ∧ u ≤ 32 then
    let p := u - 25
    (h.linkFall p).onSw fun s => { s with mdio := s.mdio.filter fun r => r.port ≠ p, wire := Tabs.set (fun _ => none) s.wire p none }
  else if 33 ≤ u ∧ u ≤ 36 then
    let n := u - 33
    ((h.failFetches n).dropOutq n).setCtl n {}
  else if u = 37 then h.onCan fun x => { x with outq := [], seqOut := [], seqIn := [] }
  else if 40 ≤ u ∧ u ≤ 42 then
    let q := 8 + (u - 40)
    let h := ((h.sw.frames.filter fun f => f.egress.contains q).map (·.id)).foldl (fun (h : Hw) id => h.releaseRef id q) h
    let h := (h.sw.frames.filter fun f => f.ingress == q).foldl (fun (h : Hw) f => h.dropFrame f) h
    h.onSw fun s => { s with sending := Tabs.set (fun _ => none) s.sending q none }
  else h

/-- A unit returns to its reset state, ungated and powered (R518 step 3). -/
def unitReset (h : Hw) (u : Nat) : Hw :=
  let h := if u ≤ 39 then (h.clearBit Reg.PWR_CLK_GATED u).clearBit Reg.PWR_PWR_GATED u else h
  (h.unitEmpty u).unitRegs u

/-- Steps 2 to 4 of R518: outstanding accesses are abandoned, the unit is reset, the new owner is set and both owners are told. A unit
that comes to a VM whose slot has left RUNNING is returned at once (R520). -/
def handoverEnd (h : Hw) (x : Handover) (abandoned : Nat) : Hw :=
  let h := { h with handovers := h.handovers.filter fun y => !(y.source == x.source && y.id == x.id) }
  let h := if x.source then h.sourceGrant x.id x.new
    else
      let h := (h.countBy Reg.WLD_CNT_ABANDON abandoned).unitReset x.id
      let a := Reg.WLD_UNIT_OWN x.id
      let h := (h.setFld a Fld.WLD_UNIT_OWN_OWNER x.new).setFld a Fld.WLD_UNIT_OWN_STATE 0
      (unitSources x.id).foldl (fun h i => h.sourceGrant i x.new) h
  let kind := b2n x.source
  let h := ((h.hoNotice x.old x.new x.op kind x.id).setHoStat x.who x.new kind 0 x.id).count Reg.WLD_CNT_HO
  if codeIsVm x.new && (h.vmSlot (x.new - 0x10)).state ≠ .running then h.hoRequest .secure 3 x.source x.id 0 else h

/-- Every hand-over in progress ends (R520). -/
def handoversEnd (h : Hw) : Hw := h.handovers.foldl (fun h x => h.handoverEnd x 0) h

/-- Everything that an owner holds is returned by the secure world: units and lone sources (R514). -/
def returnAll (h : Hw) (owner : Nat) : Hw :=
  let h := (units.filter fun u => h.unitOwner u == owner).foldl (fun h u => h.hoRequest .secure 3 false u 0) h
  (irqSources.filter fun i => h.srcOwner i == owner && !sourceOfUnit i && !(0x1F8 ≤ i && i < 0x200)).foldl
    (fun h i => h.hoRequest .secure 3 true i 0) h

/-- An owner holds a unit or a lone source, or is the new owner of one being handed over. -/
def holdsAny (h : Hw) (owner : Nat) : Bool :=
  (units.any fun u => h.unitOwner u == owner) || (irqSources.any fun i => h.srcOwner i == owner && !sourceOfUnit i) ||
    h.handovers.any fun x => x.new == owner

/-- The instances of a VM. -/
def instancesOf (h : Hw) (v : Nat) : List Nat := (List.range 16).filter fun i => (h.inst i).state ≠ .unassigned && (h.inst i).vm == v

/-- A slot enters STOPPING (R514, R515, R549): its instances quiesce, what it owns is returned; as VM0 leaves RUNNING its sessions
are lost and Crest claims HP0 (R635, R650). -/
def vmStopping (h : Hw) (v : Nat) : Hw :=
  let h := h.setVmSlot v { h.vmSlot v with state := .stopping }
  let h := (h.instancesOf v).foldl (fun h i =>
    if (h.inst i).state = .idle ∨ (h.inst i).state = .busy then h.fiQuiesceNow i else h) h
  let h := h.returnAll (0x10 + v)
  if v = 0 then (h.pathEnds 0 false).hoRequest .crest 2 false 40 2 else h

/-- STOPPING can end: the instances are drained and everything is returned. -/
def vmStopped (h : Hw) (v : Nat) : Bool :=
  ((h.instancesOf v).all fun i => (h.inst i).state == .drained) && !h.holdsAny (0x10 + v)

/-- The end of STOPPING: the instances are removed, the pool is written with 0, and the slot is EMPTY, or STARTING for VM0. -/
def vmCleared (h : Hw) (v : Nat) : Hw :=
  let h := (h.instancesOf v).foldl (fun h i => h.fiRemoveNow i) h
  let x := h.vmSlot v
  (h.zeroRam x.poolBase x.poolSize).setVmSlot v { x with state := if v = 0 then .starting else .empty }

/-- Who may command a slot: the secure world, which executes the objects' writes, and the hypervisor (R514, R528). -/
def vmCommander : Who → Bool
  | .secure | .hypervisor => true
  | _ => false

end Hw

namespace State

/-- MARK of a STAGING image is programmed (R691). -/
def setMark (s : State) (type slot : Nat) (m : Word) : State :=
  if s.hw.norOn then { s with nor := s.nor.program (norStaging + (partOf type slot).1 + 63) m } else s

/-- An image passes every check of its own: header, signature, hardware and anti-rollback. -/
def imageGood (s : State) (w : Nat → Word) (type slot : Nat) : Bool :=
  imgPresent w && imgHeader w type slot (partOf type slot).2 && imgSignature s.fuse w && imgAdmits w && imgArbOk s.fuse w

/-- The working set of firmware in force, by its NOR bases (R692). -/
def inForce (s : State) (type : Nat) : Nat → Word :=
  s.nor.image (Tabs.get (fun _ => norActive + (partOf type 0).1 + 1) s.hw.upd.inForce type - 1)

/-- A tenant image that a START takes: it passes its checks, and HVF SLOT 0 satisfies its entry (R689, R700). -/
def tenantGood (s : State) (w : Nat → Word) (v : Nat) : Bool :=
  s.imageGood w 4 v && imgAccepts w 4 (imgVersion (s.inForce 4))

/-- START of a slot (R514, R700): the STAGING image when it is STAGED, marked ACTIVATED; else the ACTIVE one. -/
def vmStart (s : State) (v : Nat) : State :=
  let x := s.hw.vmSlot v
  let go := fun (s : State) => s.onHw fun h => (h.setVmSlot v { x with state := .starting }).answer stOk
  let from_ := fun (s : State) (region : Nat) => s.onHw fun h =>
    { h with upd := { h.upd with inForce := Tabs.set (fun _ => (0 : Nat)) h.upd.inForce (16 + v) (region + (partOf 4 v).1 + 1) } }
  if !x.declared || x.state ≠ .empty || !s.hw.sysOn then s.onHw fun h => h.answer stState
  else if v = 0 then go s
  else if s.tenantGood (s.partImage norStaging 4 v) v then
    go (from_ (if s.partImage norStaging 4 v 63 = markStaged then s.setMark 4 v markActivated else s) norStaging)
  else if s.tenantGood (s.partImage norActive 4 v) v then go (from_ s norActive)
  else s.onHw fun h => h.answer stState

end State

/-! ### Rows -/

/-- UNIT_HANDOVER_GRANT: steps 2 to 4 of a hand-over in progress (R518). -/
def execUnitHandoverGrant (source : Bool) (id abandoned : Nat) (s : State) : Result :=
  .next (s.onHw fun h =>
    match h.handovers.find? fun x => x.source == source && x.id == id with
    | some x => if h.sysOn then h.handoverEnd x abandoned else h
    | none => h)

/-- VM_START (R514). -/
def execVmStart (who : Who) (v : Fin 16) (s : State) : Result :=
  .next (if Hw.vmCommander who then s.vmStart v else s.onHw fun h => h.answer stNoAccess)

/-- VM_STOP: allowed in RUNNING (R514). -/
def execVmStop (who : Who) (v : Fin 16) (s : State) : Result :=
  .next (s.onHw fun h =>
    if !Hw.vmCommander who then h.answer stNoAccess
    else if (h.vmSlot v).state = .running then (h.vmStopping v).answer stOk
    else h.answer stState)

/-- VM_FATAL_FAULT: a fault that the hypervisor declares fatal (R514, R528). -/
def execVmFatalFault (v : Fin 16) (s : State) : Result :=
  .next (s.onHw fun h =>
    let x := h.vmSlot v
    if x.state = .running then (h.setVmSlot v { x with faults := min (x.faults + 1) (2 ^ 40 - 1) }).vmStopping v else h)

/-- VM_FIRST_CHANNEL_WRITE: a starting VM first writes its world channel (R514). -/
def execVmFirstChannelWrite (v : Fin 16) (s : State) : Result :=
  .next (s.onHw fun h => h.vmFirstWrite (.vm v) (h.vmSlot v).worldChannel)

/-- VM_START_TIMEOUT: 10 s after START the slot is FAILED, and STOPPING at once (R514). -/
def execVmStartTimeout (v : Fin 16) (s : State) : Result :=
  .next (s.onHw fun h =>
    if (h.vmSlot v).state = .starting then (h.setVmSlot v { h.vmSlot v with state := .failed }).vmStopping v else h)

/-- VM_STOPPING_DONE (R514, R549). -/
def execVmStoppingDone (v : Fin 16) (s : State) : Result :=
  .next (s.onHw fun h => if (h.vmSlot v).state = .stopping && h.vmStopped v then h.vmCleared v else h)

/-- HP0_RETURN: VM0 has been RUNNING for 1 s, and Crest returns HP0 (R515). -/
def execHp0Return (s : State) : Result :=
  .next (s.onHw fun h => if (h.vmSlot 0).state = .running then h.hoRequest .crest 3 false 40 0 else h)

end Sys2Proof.Machine
end

