-- ==== Sys2Proof/Machine/VanikRx.lean ====
section
/-! DEFINITION. What the frames that a ring end accepts do (R182 to R189, R197 to R208, R213 to R233, R240 to R243, R252). -/

namespace Sys2Proof.Machine

namespace Hw

/-! ### Addressed commands (R205 to R211) -/

/-- QFREE follows the entries held (R211). -/
def cmdFree (h : Hw) (k : Nat) : Hw := h.setFld (Reg.VNK_CMD_STAT k) Fld.VNK_CMD_STAT_QFREE (16 - (h.ring k).cmds.length)

/-- A command is refused or fails (R211). -/
def cmdFail (h : Hw) (k p code : Nat) : Hw :=
  let h := h.setFld (Reg.VNK_CMD_STAT k) Fld.VNK_CMD_STAT_FAIL_POS p
  (h.setFld (Reg.VNK_CMD_STAT k) Fld.VNK_CMD_STAT_FAIL_CODE code).setBit Reg.VNK_IRQ_STAT (16 + k)

/-- A failed THRESH of Crest waits for its retry and is counted (R428). -/
def threshFailed (h : Hw) (k : Nat) (c : RingCmd) : Hw :=
  if c.thresh then
    { h with grd := { h.grd with failed := h.grd.failed ++ [(k, c.target, c.args)] } }.count Reg.GRD_CNT_THRESH
  else h

/-- A write of VNK_CMD_GO (R205, R209, R211). -/
def cmdGo (h : Hw) (k p op len : Nat) (args : List Byte) (thresh : Bool) : Hw :=
  if op ≤ 1 ∨ 32 < len then h.cmdFail k p 5
  else if !h.cycling k then h.cmdFail k p 4
  else if !(h.declared k).contains p then h.cmdFail k p 3
  else if 16 ≤ (h.ring k).cmds.length then h.cmdFail k p 2
  else
    let h := h.cutFree
    let seq := (Tabs.get (fun _ => 0) (h.ring k).seqs p + 1) % 65536
    let ready := if h.frozen then h.cycle + 1 else h.cycle
    let c : RingCmd := { target := p, op := op, args := args.take len, seq := seq, ready := ready, thresh := thresh }
    let h := h.onRing k fun r => { r with cmds := r.cmds ++ [c], seqs := Tabs.set (fun _ => (0 : Nat)) r.seqs p seq }
    (h.setFld (Reg.VNK_CMD_STAT k) Fld.VNK_CMD_STAT_LAST_SEQ seq).cmdFree k

/-- The argument bytes in VNK_CMD_DATA (R8, R211). -/
def cmdData (h : Hw) (k : Nat) : List Byte := wordsBytes ((List.range 7).map fun i => h.reg (Reg.VNK_CMD_DATA k i))

/-- The instance leaves cycle operation: every command held fails with RING_DOWN (R211). -/
def cmdsDown (h : Hw) (k : Nat) : Hw :=
  let h := (h.ring k).cmds.foldl (fun (h : Hw) c => (h.cmdFail k c.target 4).threshFailed k c) h
  (h.onRing k fun r => { r with cmds := [] }).cmdFree k

/-- The codes of a kind become held, for the channels of a mask (R185, R187). -/
def holdCodes (h : Hw) (k p kind mask : Nat) : Hw :=
  let key := (160 * k + p) * 32 + kind
  { h with grd := { h.grd with codes := Tabs.set (fun _ => (0 : Nat)) h.grd.codes key (Tabs.get (fun _ => 0) h.grd.codes key ||| mask) } }

/-- The kinds of a position's type (R187). -/
def kindsOf (p : Nat) : List Nat := if p < 128 then [1, 2, 3, 4] else (List.range 8).map (0x10 + ·)

/-- What NSTAT says of the node's codes (R185): a restart loses them, and a clear THR_UNSET shows every one loaded. -/
def nodeCodes (h : Hw) (k p was ns : Nat) : Hw :=
  let h := if bitN ns 15 && !bitN was 15 then
      { h with grd := { h.grd with codes := Tabs.clear h.grd.codes ((160 * k + p) * 32) ((160 * k + p) * 32 + 31) } }
    else h
  if bitN ns 10 then h else (kindsOf p).foldl (fun (h : Hw) kind => h.holdCodes k p kind (kindMask kind)) h

/-- The acknowledgement of a command in flight (R207, R208). -/
def takeAck (h : Hw) (k p seq code : Nat) : Hw :=
  match (h.ring k).cmds.find? fun c => c.target == p && c.seq == seq && c.sent.any (· < h.cycle) with
  | none => h
  | some c =>
    let h := (h.onRing k fun r => { r with cmds := r.cmds.erase c }).cmdFree k
    if c.op = 0x10 ∧ code = 0 then h.holdCodes k p (field c.args 2 1) (field c.args 0 2) else h

/-! ### Positions (R224, R225, R243) -/

/-- A position's ASSIGN. -/
def assignOf (h : Hw) (k p : Nat) : Assign := Tabs.get (fun _ => ({} : Assign)) (h.ring k).assign p
def setAssign (h : Hw) (k p : Nat) (a : Assign) : Hw :=
  h.onRing k fun r => { r with assign := Tabs.set (fun _ => ({} : Assign)) r.assign p a }

/-- The spare slot that serves a position (R237). -/
def spareFor (h : Hw) (k p : Nat) : Option Nat :=
  (List.range (h.nSpare k)).find? fun s => h.spareState k s == 2 && h.sparePos k s == p

/-- The positions that may send: those declared, and those that a spare slot serves. -/
def senders (h : Hw) (k : Nat) : List Nat :=
  h.declared k ++ ((List.range 160).filter fun p => !(h.declared k).contains p && (h.spareFor k p).isSome)

/-- The position may send: it is declared, or a spare slot serves it. A standby does not know the owner's grants and takes the spare
positions of the RING section (R216, R227). -/
def expected (h : Hw) (k q : Nat) : Bool :=
  (h.senders k).contains q || (h.standby k && (h.ringCfg k).any fun c => c.sparePos.contains q)

/-- The cold start is complete when every position is assigned or absent (R225); one without an identity is absent (R212). -/
def checkComplete (h : Hw) (k : Nat) : Hw :=
  if (h.ring k).complete || h.phase k ≠ 5 then h
  else if (h.declared k).all fun p => (h.assignOf k p).done || (h.assignOf k p).absent || (h.bound k p).isNone then
    (h.onRing k fun r => { r with complete := true, completeAt := h.cycle }).setPhase k 6
  else h

/-- MISS of a position (R211, R243). -/
def miss (h : Hw) (k p : Nat) : Nat := h.fld (Reg.VNK_NODE_RX k p) Fld.VNK_NODE_RX_MISS

/-- The position is missing (R243). -/
def missing (h : Hw) (k p : Nat) : Bool := decide (h.fld (Reg.VNK_RING_START k) Fld.VNK_RING_START_MISS_LIMIT ≤ h.miss k p)

/-- A valid frame of a position: its MISS is 0, and the missing-node event ends with the last missing position (R243). -/
def found (h : Hw) (k p : Nat) : Hw :=
  if h.miss k p = 0 then h
  else
    let was := h.missing k p
    let h := h.setFld (Reg.VNK_NODE_RX k p) Fld.VNK_NODE_RX_MISS 0
    if was && !(h.senders k).any (fun q => h.missing k q) then h.dropCond (0x350 + k) else h

/-- A valid MS or AX of a position, direct at an end or relayed (R184, R208, R210, R224, R243). -/
def noteNode (h : Hw) (k p : Nat) (l : List Byte) : Hw :=
  let was := h.fld (Reg.VNK_NODE_STAT k p) Fld.VNK_NODE_STAT_NSTAT
  let h := h.setReg (Reg.VNK_NODE_STAT k p) (word (ackCodeOf p l * 2 ^ 32 + ackSeqOf p l * 2 ^ 16 + nstatOf p l))
  let h := (h.nodeCodes k p was (nstatOf p l)).takeAck k p (ackSeqOf p l) (ackCodeOf p l)
  let h := if (h.assignOf k p).done then h
    else h.setAssign k p { h.assignOf k p with done := true, absent := false, due := false }
  (h.found k p).checkComplete k

/-- Two copies differ (R197). -/
def nodeDisagree (h : Hw) (k p : Nat) : Hw := h.countFld (Reg.VNK_NODE_RX k p) Fld.VNK_NODE_RX_DISAGREE

/-- A copy of an MS or AX frame of cycle n enters the snapshot, and a difference from the first copy is counted (R197). -/
def copyIn (h : Hw) (n k p src : Nat) (bytes l : List Byte) : Hw :=
  let r := Tabs.get (fun _ => (0, [])) (h.ring k).first p
  let h := if r.2.isEmpty ∨ r.1 < n then
      h.onRing k fun x => { x with first := Tabs.set (fun _ => ((0, []) : Nat × List Byte)) x.first p (n, l) }
    else if r.1 = n ∧ r.2 ≠ l then h.nodeDisagree k p else h
  h.takeCopy n k p src bytes l

/-- A standby relays a valid frame to the owner (R227, R718). -/
def relay (h : Hw) (k : Nat) (endB : Bool) (bytes : List Byte) : Hw :=
  if h.standby k then
    h.sendPeer 0x03 (h.fld (Reg.VNK_RING_ROLE k) Fld.VNK_RING_ROLE_PEER_ID)
      ([byte (h.fld (Reg.VNK_RING_CFG k) Fld.VNK_RING_CFG_RINGTAG), byte (b2n endB.not)] ++ bytes)
  else h

/-- The hop index of a position's node: of the claim that its spare slot was granted to, or as bound; an undeclared position whose
slot was learnt has none. -/
def nodeHop (h : Hw) (k p : Nat) : Option Nat := match h.spareFor k p with
  | some s => ((h.spareOf k s).hop).orElse fun _ => (h.bound k p).map (·.hop)
  | none => (h.bound k p).map (·.hop)

/-- The hop index of a valid frame's node, at the end where it arrived (R240). -/
def heardHop (h : Hw) (k p : Nat) (endB : Bool) : Hw := match h.nodeHop k p with
  | some x => h.onRing k fun r => if endB then { r with hopsB := x :: r.hopsB } else { r with hopsA := x :: r.hopsA }
  | none => h

/-- A valid frame of a declared node, direct or relayed, a guard minislot among them (R234). -/
def heardNode (h : Hw) (k p : Nat) : Hw :=
  if (h.declared k).contains p && (h.spareFor k p).isNone then
    h.onRing k fun r => { r with lastValid := Tabs.set (fun _ => (0 : Nat)) r.lastValid p (h.cycle + 1) }
  else h

/-- A valid frame in a spare slot: a release mark goes (R232, R234, R239). -/
def heardSpare (h : Hw) (k s p : Nat) : Hw :=
  (h.setSpare k s { h.spareOf k s with lastValid := h.cycle + 1, lastPos := p, mark := none }).clearBit (Reg.VNK_SPARE k s) 37

/-- A valid MS or AX frame: of a spare slot, or of the position's own. A relayed one does not say its slot: it is the one that serves the
position. -/
def heardSlot (h : Hw) (k p : Nat) (sof : Option Int) : Hw :=
  let slot := match sof with
    | some x => if (h.staticAt k x).isSome then none else h.spareAt k x
    | none => h.spareFor k p
  match slot with
  | some s => h.heardSpare k s p
  | none => h.heardNode k p

/-- The position that a slot belongs to. -/
def slotPos (h : Hw) (k : Nat) (sof : Int) : Option Nat :=
  match h.staticAt k sof with
  | some p => some p
  | none => (h.spareAt k sof).bind fun s => if h.spareState k s = 2 then some (h.sparePos k s) else none

/-- A frame of a position that is neither declared nor served by a spare slot is counted (R131). -/
def strangerFrame (h : Hw) (k : Nat) (f : RxFrame) : Hw :=
  if f.viol = 0 && crcOk f.bytes && !h.expected k (fPos f.bytes) then h.undeclare 2 else h

/-- An MS or AX frame arrives (R252). -/
def rxMeas (h : Hw) (k : Nat) (endB : Bool) (type : Nat) (f : RxFrame) : Hw :=
  let src := if endB then 0 else 1
  let n := h.cycle
  let sof := h.place k endB f.arr
  if !h.receives k endB then h
  else
    let a := h.acceptType k endB type f
    if a.2 then
      let h := a.1
      let p := fPos f.bytes
      let l := fPayload f.bytes
      let h := (h.heardSlot k p (some sof)).heardHop k p endB
      let h := h.onRing k fun r => if endB then { r with okAB := p :: r.okAB } else { r with okBA := p :: r.okBA }
      let h := (h.copyIn n k p src f.bytes l).noteNode k p l
      h.relay k endB f.bytes
    else if fType f.bytes ≠ type then a.1
    else
      let h := a.1.strangerFrame k f
      match h.slotPos k sof with
      | some p => h.takeBadCopy n k p src f.bytes
      | none => h

/-! ### Guard minislots (R178, R182, R197) -/

/-- A GD's place in the journal's sets (R381). -/
def gdIn (h : Hw) (n k src : Nat) (q : Nat) (flags : Option Byte) : Hw :=
  if 8 ≤ k || !h.carriesInputs n then h
  else match flags with
    | some fl =>
      let old := Tabs.get (fun _ => ([] : List (Nat × Byte))) h.snp.gdset (setKey n k src)
      { h with snp := { h.snp with gdset := Tabs.set (fun _ => ([] : List (Nat × Byte))) h.snp.gdset (setKey n k src) (old ++ [(q, fl)]) } }
    | none =>
      let old := Tabs.get (fun _ => ([] : List Nat)) h.snp.gdbad (setKey n k src)
      { h with snp := { h.snp with gdbad := Tabs.set (fun _ => ([] : List Nat)) h.snp.gdbad (setKey n k src) (old ++ [q]) } }

/-- The first FLAGS of a position in a cycle; later ones that differ are counted (R197). -/
def gdFirst (h : Hw) (k q : Nat) (fl : Byte) : Hw :=
  match Tabs.get (fun _ => (none : Option Byte)) (h.ring k).gd q with
  | some x => if x = fl then h else h.nodeDisagree k q
  | none => h.onRing k fun r => { r with gd := Tabs.set (fun _ => (none : Option Byte)) r.gd q (some fl) }

/-- A guard minislot arrives: it is valid, or counted once and discarded. -/
def rxGuard (h : Hw) (k : Nat) (endB : Bool) (g : RxGd) : Hw :=
  let p := h.portOf k endB
  let src := if endB then 0 else 1
  let n := h.cycle
  let sof := h.place k endB g.arr
  let q := ((sof - 2123) / 5).toNat
  if !h.receives k endB then h
  else
    let h := h.passes k g.arr
    if g.viol ≠ 0 then h.portCount p (Reg.VNK_PORT_CNT_CODE p) g.viol true
    else if sof < 2123 ∨ 160 ≤ q then h.portCount p (Reg.VNK_PORT_CNT_SLOT p) 1 false
    else if g.crc ≠ crc8 [byte (h.fld (Reg.VNK_RING_CFG k) Fld.VNK_RING_CFG_RINGTAG), byte (h.ringLc k n % 256), g.pos, g.flags] then
      (h.portCount p (Reg.VNK_PORT_CNT_GDCRC p) 1 true).gdIn n k src q none
    else if g.pos.toNat ≠ q then (h.portCount p (Reg.VNK_PORT_CNT_HDR p) 1 false).gdIn n k src q none
    else
      let h := h.onPort p fun x => { x with now := true }
      if !h.expected k q then h.undeclare 2
      else
        let h := ((((h.heardNode k q).heardHop k q endB).gdFirst k q g.flags)).gdIn n k src q (some g.flags)
        (h.guardFlags k q g.flags.toNat).relay k endB [g.pos, g.flags, g.crc]

/-! ### CS (R180, R215, R221, R222, R233, R248) -/

/-- The end stops claiming and integrates, as no role yet (R214, R219, R221, R222). -/
def integrate (h : Hw) (k : Nat) : Hw :=
  (((h.ringStat k 21 false).ringStat k 20 false).onRing k fun r => { r with csRun := 0, next := 0 }).setPhase k 4

/-- A valid CS of the ring's schedule arrives at an end of a dual-homed ring that does not lead it: the end takes the ring's LC, and
integrates where it was starting. A take-over that was due is not. -/
def followCs (h : Hw) (k : Nat) (leader : Bool) (l : List Byte) : Hw :=
  if h.closedRing k || h.leads k then h
  else
    let h := if leader then
        ((h.setReg (Reg.VNK_RING_LCOFS k) (word ((field l 0 5 + 2 ^ 40 - h.cycle) % 2 ^ 40))).setFld
          (Reg.VNK_RING_ROLE k) Fld.VNK_RING_ROLE_PEER_ID (field l 11 2)).onRing k fun r => { r with next := if r.next = 2 then 0 else r.next }
      else h
    if 1 ≤ h.phase k ∧ h.phase k ≤ 3 then h.integrate k else h

/-- A valid CS arrives at an end. An owner that asks for its ring leads from the next cycle once the CS comes without the leader's flag
(R233). -/
def takeCs (h : Hw) (k : Nat) (endB : Bool) (l : List Byte) : Hw :=
  let p := h.portOf k endB
  let leader := bitN (field l 10 1) 6
  let sched := field l 13 2 = h.fld (Reg.VNK_RING_CFG k) Fld.VNK_RING_CFG_SCHED_ID
  let h := h.onPort p fun x => { x with csNow := true }
  let h := h.onRing k fun r => if endB then { r with csB := true, csSeen := true } else { r with csA := true, csSeen := true }
  let h := h.ringRole k 11 false
  if !sched then h
  else
    let h := if leader then h.onRing k fun r => { r with leaderCs := true } else h
    let h := h.followCs k leader l
    if !leader && h.bit (Reg.VNK_RING_ROLE k) 8 then h.onRing k fun r => { r with next := 3 } else h

/-- An SU CLAIM for this ring's schedule against this end's own claim (R221). -/
def takeClaim (h : Hw) (k : Nat) (l : List Byte) : Hw :=
  if h.phase k < 1 ∨ 3 < h.phase k ∨ field l 4 2 ≠ h.fld (Reg.VNK_RING_CFG k) Fld.VNK_RING_CFG_SCHED_ID then h
  else
    let mine := (h.fld (Reg.VNK_RING_START k) Fld.VNK_RING_START_RANK, h.cfg.deviceId, (h.ring k).nonce)
    let theirs := (field l 1 1, field l 2 2, field l 6 2)
    let key := fun (x : Nat × Nat × Nat) => x.1 * 2 ^ 32 + x.2.1 * 2 ^ 16 + x.2.2
    if key theirs < key mine then h.integrate k
    else if key theirs = key mine then
      let d := h.draw 65536
      (d.2.onRing k fun r => { r with nonce := d.1, c1 := h.cycle + 2, next := 0 }).setPhase k 1
    else h

/-! ### DM (R199 to R201) -/

/-- The measured D of a direction (R201), with D_OVER and its warning (R171, R432). -/
def setD (h : Hw) (k : Nat) (ba : Bool) (d : Nat) : Hw :=
  let h := h.setFld (Reg.VNK_RING_DLY k) (if ba then Fld.VNK_RING_DLY_D_BA else Fld.VNK_RING_DLY_D_AB) (min d 0xFFFFE)
  let long := fun f => let x := h.fld (Reg.VNK_RING_DLY k) f; x ≠ 0xFFFFF && decide (352000 < x)
  let v := long Fld.VNK_RING_DLY_D_AB || long Fld.VNK_RING_DLY_D_BA
  (h.ringStat k 18 v).follow (0x380 + k) k 0 v

/-! ### DY (R188, R213) -/

/-- The address of a word of a descriptor. -/
def dyAddr (h : Hw) (k i w : Nat) : Nat := h.fld (Reg.VNK_DY_QBASE k) Fld.VNK_DY_QBASE_BASE + 48 * i + w

/-- The identity with which VNK reaches its descriptors: the one that last wrote QBASE (R504). -/
def dyWho (h : Hw) (k : Nat) : Who := bitWho (Tabs.get (fun _ => 0) h.masters (Reg.VNK_DY_QBASE k))

/-- A word of a descriptor as VNK reads it: 0 where the firewall or the memory gives an error response (R149, R155, R504 to R506). -/
def dyRead (h : Hw) (k i w : Nat) : Word :=
  let a := h.dyAddr k i w
  if h.memAllows (h.dyWho k) false a && h.storable a then (h.ram a).word else 0

/-- A word of a descriptor is written where the firewall and the memory allow it. -/
def dyPut (h : Hw) (k i w : Nat) (v : Word) : Hw :=
  let a := h.dyAddr k i w
  if !h.memAllows (h.dyWho k) true a then h.deny (h.dyWho k) true a else if h.storable a then h.writeRam a v else h

/-- A descriptor's end is written: the words from 12 on, then OWN; HEAD moves on (R213). -/
def dyWrite (h : Hw) (k i : Nat) (ws : List Word) : Hw :=
  let h := ws.zipIdx.foldl (fun (h : Hw) x => h.dyPut k i (12 + x.2) x.1) h
  let h := h.dyPut k i 0 (word ((h.dyRead k i 0).toNat % 2 ^ 39))
  h.setFld (Reg.VNK_DY_QCTL k) Fld.VNK_DY_QCTL_HEAD ((i + 1) % 64)

/-- The descriptors that have ended complete in index order (R213). -/
def dyFlush (h : Hw) (k : Nat) : Nat → Hw
  | 0 => h
  | fuel + 1 =>
    let i := h.fld (Reg.VNK_DY_QCTL k) Fld.VNK_DY_QCTL_HEAD
    match (h.ring k).dyDone.find? fun x => x.1 == i with
    | some x => ((h.dyWrite k i x.2).onRing k fun r => { r with dyDone := r.dyDone.filter fun y => y.1 ≠ i }).dyFlush k fuel
    | none => h

/-- A descriptor ends with a RESULT and its data (R213). -/
def dyEnd (h : Hw) (k i result rstat lc : Nat) (data : List Byte) : Hw :=
  let ws := word (result * 2 ^ 32 + rstat * 2 ^ 24 + data.length * 2 ^ 16 + lc % 65536) :: packBytes data
  (h.onRing k fun r => { r with dy := r.dy.filter (fun f => f.idx ≠ i), dyDone := r.dyDone ++ [(i, ws)] }).dyFlush k 64

/-- A descriptor that cannot be issued ends at once: 2 RING_DOWN, 3 BAD_DESC (R213). -/
def dyBad (h : Hw) (k : Nat) (w0 : Nat) : Option Nat :=
  if !h.cycling k then some 2
  else if w0 / 2 ^ 39 = 0 ∨ 50 < w0 % 256 ∨ !h.endHere k (bitN w0 38) then some 3 else none

/-- The descriptors handed to an instance that is not in cycle operation end with RING_DOWN, in index order (R213). -/
def dyDown (h : Hw) (k : Nat) : Nat → Hw
  | 0 => h
  | fuel + 1 =>
    let i := (h.ring k).dyNext
    if i = h.fld (Reg.VNK_DY_QCTL k) Fld.VNK_DY_QCTL_TAIL then h
    else ((h.dyEnd k i 2 0 (h.ringLc k h.cycle) []).onRing k fun r => { r with dyNext := (i + 1) % 64 }).dyDown k fuel

/-- The instance leaves cycle operation: its commands fail, and its descriptors, in flight or not, end, with RING_DOWN (R211, R213). -/
def leaveCycles (h : Hw) (k : Nat) : Hw :=
  let h := (h.cmdsDown k).ringStat k 22 false
  ((h.ring k).dy.foldl (fun (h : Hw) f => h.dyEnd k f.idx 2 0 (h.ringLc k f.lc) []) h).dyDown k 64

/-- The MODE of the leader's CS (R180, R247): while its leader is in Night, an end that follows takes part in the burst cycles alone, and an
end that is itself in Night sleeps once its leader is in Day again. -/
def followMode (h : Hw) (k : Nat) (l : List Byte) : Hw :=
  let r := h.ring k
  if h.closedRing k || h.leads k || !bitN (field l 10 1) 6 ||
      field l 13 2 ≠ h.fld (Reg.VNK_RING_CFG k) Fld.VNK_RING_CFG_SCHED_ID then h
  else if field l 9 1 = 2 then
    if r.burstNext.isSome then h
    else
      let h := if h.cycling k then (h.leaveCycles k).setPhase k 7 else h
      h.onRing k fun r => { r with burstNext := some h.cycle }
  else if r.burstNext.isNone then h
  else
    let h := h.onRing k fun r => { r with burstNext := none }
    if h.phase k ≠ 7 then h
    else if h.bit Reg.VNK_CTRL 1 then h.integrate k else (h.ringStat k 22 true).setPhase k 6

/-- A CS arrives. -/
def rxCs (h : Hw) (k : Nat) (endB : Bool) (f : RxFrame) : Hw :=
  let a := h.acceptType k endB 1 f
  let l := fPayload f.bytes
  if a.2 then (a.1.takeCs k endB l).followMode k l else a.1

/-- The position that a request addresses: as named, or the one bound to the hop index named. -/
def dyPos (h : Hw) (k : Nat) (f : DyFlight) : Nat :=
  if f.hopAddr then ((h.declared k).find? fun p => (h.bound k p).any fun b => b.hop == f.target).getD 0xFF else f.target

/-- An IDENT answer with a UID or NTYPE other than the declared one: the position is absent (R131, R224). -/
def wrongIdent (h : Hw) (k : Nat) (f : DyFlight) (l : List Byte) : Hw :=
  let p := h.dyPos k f
  match h.bound k p with
  | some b =>
    if f.svc = 1 ∧ field l 2 1 = 0 ∧ (field l 3 8 ≠ b.uid ∨ field l 11 1 ≠ if b.aux then 2 else 1) then
      ((h.undeclare 1).setAssign k p { h.assignOf k p with done := false, absent := true, due := false }).checkComplete k
    else h
  | none => h

/-- A DY response of ring cycle n answers the flight of its window (R188, R194, R213). -/
def dyResponse (h : Hw) (k n : Nat) (f : DyFlight) (l : List Byte) : Hw :=
  (h.wrongIdent k f l).dyEnd k f.idx 0 (field l 2 1) (h.ringLc k n) (l.drop 3)

/-! ### Claims (R228, R235, R236) -/

/-- A claim arrives. -/
def takeCl (h : Hw) (k : Nat) (lc arr : Nat) (relayed ba : Bool) (l : List Byte) : Hw :=
  if h.leads k then
    let c : Claim := { uid := field l 0 8, aux := field l 8 1 == 2, hop := field l 9 1, lc := lc, relayed := relayed, ba := ba, arr := arr }
    h.onRing k fun r => { r with claims := r.claims ++ [c] }
  else h

/-! ### Peer frames (R718, R719) -/

/-- A peer frame is accepted; any other is discarded and counted, and a second copy of a SEQ is dropped. -/
def peerAccept (h : Hw) (kind : Nat) (p : PeerHdr) (neighbour : Bool) : Hw × Bool :=
  if p.declared && p.version == 1 && p.tag.toNat == h.cfg.plantTag && neighbour &&
      (p.dst.toNat == h.cfg.deviceId || p.dst.toNat == 0xFFFF) then
    let key := 8 * p.src.toNat + kind
    let seen := Tabs.get (fun _ => ([] : List Nat)) h.peerSeen key
    if seen.contains p.seq.toNat then (h, false)
    else ({ h with peerSeen := Tabs.set (fun _ => ([] : List Nat)) h.peerSeen key ((p.seq.toNat :: seen).take 16) }, true)
  else ((h.peerCountUp 2).undeclare 11, false)

/-- The source of a peer frame is the partner of a ring. -/
def isPartner (h : Hw) (k : Nat) (p : PeerHdr) : Bool :=
  !h.closedRing k && h.topo k ≠ 0 && (h.ringCfg k).any fun c => c.peerId == p.src.toNat

/-- The cycle that the low bits of a relayed frame's LC name: the latest one not after the cycle in progress. -/
def relayCycle (h : Hw) (k low : Nat) : Nat := h.cycle - (h.ringLc k h.cycle + 256 - low) % 256

/-- A relayed frame reaches the owner (R227, R228): `ba` is its direction of arrival at the standby. -/
def takeRelay (h : Hw) (k : Nat) (ba gd : Bool) (b : List Byte) : Hw :=
  if gd then
    let q := (b.getD 0 0).toNat
    if h.expected k q then ((h.heardNode k q).gdFirst k q (b.getD 1 0)).gdIn h.cycle k 2 q (some (b.getD 1 0)) else h.undeclare 2
  else
    let type := fType b
    let p := fPos b
    let l := fPayload b
    let n := h.relayCycle k (b.getD 2 0).toNat
    if type = 3 ∨ type = 4 then
      if !h.expected k p then h.undeclare 2
      else (((h.heardSlot k p none).onRing k fun r => { r with okRelay := p :: r.okRelay }).copyIn n k p 2 b l).noteNode k p l
    else if type = 7 then
      let h := if h.cycle = n + 1 then h.cutFree else h
      h.takeCl k (if h.cycle ≤ n ∨ (h.cycle = n + 1 ∧ !h.frozen) then n else n + 1) 0 true ba l
    else if type = 6 then
      match (h.ring k).dy.find? fun f => f.ba == ba && f.lc + 1 == n && f.tag == field l 1 1 with
      | some f => h.dyResponse k n f l
      | none => h
    else h

end Hw

/-! ### Rows -/

/-- ALIGNMENT_ACQUIRED (R169). The receiver of an undeclared port is ignored, and counted (R62, R131). -/
def execAlignmentAcquired (p : Fin 16) (s : State) : Result :=
  .next (s.onHw fun h =>
    if !h.vnkOn then h
    else if (h.endOfPort p).isNone then h.undeclare 0
    else (h.setBit (Reg.VNK_PORT_STAT p) 5).setBit (Reg.VNK_PORT_STAT p) 6)

/-- ALIGNMENT_LOST: four code violations within 16 bytes; SIGNAL stays only where the receiver still detects signal (R169). -/
def execAlignmentLost (p : Fin 16) (seen : AlignmentLoss) (s : State) : Result :=
  .next (s.onHw fun h =>
    if h.vnkOn && h.bit (Reg.VNK_PORT_STAT p) 5 then
      let h := ((h.clearBit (Reg.VNK_PORT_STAT p) 5).count (Reg.VNK_PORT_CNT_ALIGN p)).portCount p (Reg.VNK_PORT_CNT_CODE p) seen.viol true
      if seen.signal then h else h.clearBit (Reg.VNK_PORT_STAT p) 6
    else h)

/-- RX_CS. -/
def execRxCs (k : Fin 16) (endB : Bool) (f : RxFrame) (s : State) : Result := .next (s.onHw fun h => h.rxCs k endB f)

/-- RX_GD. -/
def execRxGd (k : Fin 16) (endB : Bool) (g : RxGd) (s : State) : Result := .next (s.onHw fun h => h.rxGuard k endB g)

/-- RX_MS. -/
def execRxMs (k : Fin 16) (endB : Bool) (f : RxFrame) (s : State) : Result := .next (s.onHw fun h => h.rxMeas k endB 3 f)

/-- RX_AX. -/
def execRxAx (k : Fin 16) (endB : Bool) (f : RxFrame) (s : State) : Result := .next (s.onHw fun h => h.rxMeas k endB 4 f)

/-- RX_DY_RESPONSE: in the response part of a window; a request of the other end passes by. -/
def execRxDyResponse (k : Fin 16) (endB : Bool) (f : RxFrame) (s : State) : Result :=
  .next (s.onHw fun h =>
    let a := h.acceptType k endB 6 f
    match h.windowAt k (h.place k endB f.arr) 68 with
    | some w =>
      if a.2 then
        let h := a.1.relay k endB f.bytes
        match h.flightOf k w endB.not with
        | some x => h.dyResponse k h.cycle x (Hw.fPayload f.bytes)
        | none => h
      else a.1
    | none => a.1)

/-- RX_CL. -/
def execRxCl (k : Fin 16) (endB : Bool) (f : RxFrame) (s : State) : Result :=
  .next (s.onHw fun h =>
    let a := h.acceptType k endB 7 f
    if a.2 then (a.1.takeCl k h.cycle f.arr false endB.not (Hw.fPayload f.bytes)).relay k endB f.bytes else a.1)

/-- RX_SU_CLAIM (R221). -/
def execRxSuClaim (k : Fin 16) (endB : Bool) (f : RxFrame) (s : State) : Result :=
  .next (s.onHw fun h =>
    let a := h.acceptType k endB 9 f
    if a.2 && field (Hw.fPayload f.bytes) 0 1 == 1 then a.1.takeClaim k (Hw.fPayload f.bytes) else a.1)

/-- RX_SU_SLEEP: the leader goes on alone (R248). -/
def execRxSuSleep (k : Fin 16) (endB : Bool) (f : RxFrame) (s : State) : Result :=
  .next (s.onHw fun h =>
    let a := h.acceptType k endB 9 f
    if a.2 && field (Hw.fPayload f.bytes) 0 1 == 2 && a.1.leads k then a.1.ringRole k 11 true else a.1)

/-- RX_SU_RECLAIM: a standby that leads by take-over returns to standby with the next cycle (R233). -/
def execRxSuReclaim (k : Fin 16) (endB : Bool) (f : RxFrame) (s : State) : Result :=
  .next (s.onHw fun h =>
    let a := h.acceptType k endB 9 f
    if a.2 && field (Hw.fPayload f.bytes) 0 1 == 3 && a.1.takenOver k then a.1.onRing k fun r => { r with next := 4 } else a.1)

/-- RX_COMMAND_MIRROR: the standby sends the frames in its own command segment, or discards a late mirror (R226). -/
def execRxCommandMirror (k : Fin 16) (hdr : PeerHdr) (late : Bool) (frames : List (List Byte)) (s : State) : Result :=
  .next (s.onHw fun h =>
    let a := h.peerAccept 2 hdr (h.isPartner k hdr)
    if !a.2 || !a.1.standby k then a.1
    else if late then a.1.peerCountUp 3
    else
      let h := a.1.onRing k fun r => { r with mirror := true, next := if r.next = 2 then 0 else r.next }
      let endB := h.topo k == 3
      let turn := fun (b : List Byte) =>
        let c := (b.take (b.length - 4)).set 0 (byte ((b.getD 0 0).toNat / 16 * 16 + b2n endB * 8 + (b.getD 0 0).toNat % 8))
        c ++ leBytes 4 (crc32c c).toNat
      frames.foldl (fun (h : Hw) b => h.send (.vanik k endB) (turn b)) h)

/-- RX_RELAY (R227). -/
def execRxRelay (k : Fin 16) (hdr : PeerHdr) (ba gd : Bool) (bytes : List Byte) (s : State) : Result :=
  .next (s.onHw fun h =>
    let a := h.peerAccept 3 hdr (h.isPartner k hdr)
    if a.2 then a.1.takeRelay k ba gd bytes else a.1)

end Sys2Proof.Machine
end

