-- ==== Sys2Proof/Machine/VanikCycle.lean ====
section
/-! DEFINITION. The ring cycle: what the device sends in it, and what ends with it (R186, R190 to R209, R213, R215 to R226,
R230 to R243, R246, R432, R724). -/

namespace Sys2Proof.Machine

namespace Hw

/-! ### What the command and dynamic segments of a cycle carry -/

/-- The balancing masks that count for a cycle: 0 in the safe state, in a take-over and in a burst (R79, R186, R232, R438). -/
def masksOf (h : Hw) (k : Nat) : Tab Nat := if h.safe || h.takenOver k || h.phase k == 7 then [] else (h.ring k).bal

/-- The addressed frames of cycle n (R205, R208, R209, R211): repeats of commands in flight, then queued commands in order, each
target once, up to NCMD slots. A take-over sends only THRESH (R232). -/
def cmdsFor (h : Hw) (k n : Nat) : List RingCmd :=
  let retry := h.fld Reg.VNK_CTRL Fld.VNK_CTRL_RETRY
  let cs := (h.ring k).cmds
  let again := cs.filter fun c => c.sent.any (· < n) && decide (c.repeats < retry)
  let busy := (cs.filter fun c => c.sent.isSome).map (·.target)
  let fresh := cs.foldl (fun (a : List RingCmd) c =>
    if c.sent.isNone && decide (c.ready ≤ n) && !busy.contains c.target && !(a.any fun x => x.target == c.target) &&
        (!h.takenOver k || c.op == 0x10) then a ++ [c] else a) []
  (again ++ fresh).take (h.nCmd k)

/-- The command is sent in cycle n. -/
def markSent (h : Hw) (k n : Nat) (c : RingCmd) : Hw :=
  h.onRing k fun r => { r with cmds := r.cmds.map fun x =>
    if x = c then { x with sent := some n, repeats := if x.sent.isSome then x.repeats + 1 else 0 } else x }

/-- The frames BAL_LO and BAL_HI of cycle n, out of every end (R186, R198). -/
def sendMasks (h : Hw) (k n : Nat) : Hw :=
  let masks := h.masksOf k
  let h := (h.sendBoth k 5 n (balPayload 0 masks)).sendBoth k 5 n (balPayload 1 masks)
  h.onRing k fun r => { r with balSent := ((n, masks) :: r.balSent).take 8 }

/-- The command mirror of cycle n to the other end of a dual-homed ring: the frames of the command segment in the order of their slots
(R226, R718). -/
def sendMirror (h : Hw) (k n : Nat) (cmds : List RingCmd) : Hw :=
  if h.closedRing k then h
  else
    let endB := h.topo k == 3
    let masks := h.masksOf k
    let pays := [(5, balPayload 0 masks), (5, balPayload 1 masks)] ++ (h.ring k).gtSent.toList ++ cmds.map fun c => (5, cmdPayload c)
    let frames := pays.map fun x => h.frameBytes k x.1 endB false (endPos endB) (h.ringLc k n) x.2
    (h.sendPeer 0x02 (h.fld (Reg.VNK_RING_ROLE k) Fld.VNK_RING_ROLE_PEER_ID)
      ([byte (h.fld (Reg.VNK_RING_CFG k) Fld.VNK_RING_CFG_RINGTAG), byte frames.length] ++ frames.flatten)).onRing k fun r =>
        { r with mirror := true }

/-- The leader's command segment of cycle n, and its mirror to the standby (R186, R187, R193, R226). -/
def commandSegment (h : Hw) (k n : Nat) : Hw :=
  if !h.leads k then h
  else
    let cs := h.cmdsFor k n
    let h := (h.sendMasks k n).sendMirror k n cs
    cs.foldl (fun (h : Hw) c => (h.sendBoth k 5 n (cmdPayload c)).markSent k n c) h

/-- The GT slot of an end that does not lead: an owner led by take-over asks for its ring back, at Control or above and in every cycle
(R233, R249), and an end that goes to sleep says so (R248). -/
def sendOwnSu (h : Hw) (k n : Nat) : Hw :=
  if h.closedRing k || h.leads k then h
  else if h.phase k = 6 && decide (k < 8) && decide (2 ≤ h.level) then (h.ringRole k 8 true).sendSu k 3 n
  else if (h.ring k).sleepDue then (h.sendSu k 2 n).onRing k fun r => { r with sleepDue := false }
  else h

/-- The positions whose ASSIGN goes out in cycle n, in increasing order: every declared one from L + 2 of a cold start on (R223), and
those whose repeat is due, three cycles after the last at the earliest (R224, R243). -/
def assignsFor (h : Hw) (k n : Nat) : List Nat :=
  let lead := (h.ring k).lead
  if !h.leads k then []
  else (h.senders k).filter fun p =>
    let a := h.assignOf k p
    (a.due && decide (a.at_ + 3 ≤ n)) ||
      (lead ≠ 0 && decide (lead + 2 ≤ n + 1) && a.sent == 0 && (h.declared k).contains p && (h.bound k p).isSome)

/-- The UID, the hop index and the slot that an ASSIGN of a position carries: of its spare slot where one serves it (R243). -/
def assignData (h : Hw) (k p : Nat) : Nat × Nat × Nat :=
  match h.spareFor k p with
  | some s => ((h.spareOf k s).uid, (h.nodeHop k p).getD 0xFF, h.p0 k + 84 * s)
  | none => match h.bound k p with
    | some b => (b.uid, b.hop, h.slotStart k p)
    | none => (0, 0, 0)

/-- The free windows of a direction in this cycle: 1 to NDYN − 1. -/
def windows (h : Hw) (k : Nat) : List Nat := (List.range (h.nDyn k)).filter (1 ≤ ·)

/-- ASSIGN requests take windows first, those of direction AB before those of BA (R223). The windows left are answered. -/
def sendAssigns (h : Hw) (k n : Nat) : Hw × List (Bool × Nat) :=
  let wins := (h.endsHere k).flatMap fun e => (h.windows k).map fun w => (e, w)
  let ps := (h.assignsFor k n).take wins.length
  let h := (ps.zip wins).foldl (fun (h : Hw) x =>
    let p := x.1
    let d := h.assignData k p
    let t := h.draw 256
    let h := t.2.sendFrame k x.2.1 6 true n (t.2.assignPayload k p d.1 d.2.1 d.2.2 t.1)
    let f : DyFlight := { idx := p, ba := x.2.1, window := x.2.2, lc := n, hopAddr := true, target := d.2.1, svc := 2, tag := t.1 }
    let h := h.onRing k fun r => { r with asg := (r.asg.filter fun g => decide (n ≤ g.lc + 1)) ++ [f] }
    h.setAssign k p { h.assignOf k p with sent := (h.assignOf k p).sent + 1, at_ := n, due := false }) h
  (h, wins.drop ps.length)

/-- Descriptors are issued in index order, each in the next free window of its direction (R213, R228). -/
def issueDy (h : Hw) (k n : Nat) (wins : List (Bool × Nat)) : Nat → Hw
  | 0 => h
  | fuel + 1 =>
    let i := (h.ring k).dyNext
    if i = h.fld (Reg.VNK_DY_QCTL k) Fld.VNK_DY_QCTL_TAIL || h.standby k || h.takenOver k then h
    else
      let h := if h.memAllows (h.dyWho k) false (h.dyAddr k i 0) then h else h.deny (h.dyWho k) false (h.dyAddr k i 0)
      let w0 := (h.dyRead k i 0).toNat
      let next := fun (h : Hw) => h.onRing k fun r => { r with dyNext := (i + 1) % 64 }
      match h.dyBad k w0 with
      | some code => (next (h.dyEnd k i code 0 (h.ringLc k n) [])).issueDy k n wins fuel
      | none =>
        let ba := bitN w0 38
        match wins.find? fun x => x.1 == ba with
        | none => h
        | some x =>
          let len := w0 % 256
          let data := (wordsBytes ((List.range 10).map fun j => h.dyRead k i (1 + j))).take len
          let t := w0 / 2 ^ 24 % 256
          let h := h.sendFrame k ba 6 (bitN w0 37) n ([byte t, byte (w0 / 2 ^ 16), byte (w0 / 2 ^ 8)] ++ data)
          let f : DyFlight := { idx := i, ba := ba, window := x.2, lc := n, hopAddr := bitN w0 37, target := t,
                                svc := w0 / 2 ^ 16 % 256, tag := w0 / 2 ^ 8 % 256 }
          (next (h.onRing k fun r => { r with dy := r.dy ++ [f] })).issueDy k n (wins.erase x) fuel

/-- The DM REQ of every end in the link phase, and its ACC in the accumulation phase (R199, R201). -/
def sendReq (h : Hw) (k n : Nat) : Hw := h.sendBoth k 10 n (byte 1 :: List.replicate 9 0)
def sendAcc (h : Hw) (k n : Nat) : Hw := h.sendBoth k 10 n (byte 3 :: List.replicate 9 0)

/-- The STATUS of a shared ring to its partner, once a ring cycle (R718, R724). -/
def sendStatus (h : Hw) (k : Nat) : Hw :=
  if h.closedRing k || !h.sysOn then h
  else
    let fl := b2n (h.ringWorking k && h.bit Reg.GRD_CTRL 0) + b2n (h.leads k) * 2 + b2n (h.broken k) * 4 + b2n (h.takenOver k) * 8
    h.sendPeer 0x04 (h.fld (Reg.VNK_RING_ROLE k) Fld.VNK_RING_ROLE_PEER_ID)
      [byte (h.fld (Reg.VNK_RING_CFG k) Fld.VNK_RING_CFG_RINGTAG), byte fl,
       byte (h.fld (Reg.VNK_RING_STAT k) Fld.VNK_RING_STAT_BREAK_A), byte (h.fld (Reg.VNK_RING_STAT k) Fld.VNK_RING_STAT_BREAK_B)]

/-- What an instance in cycle operation sends in cycle n after the CS slot up to its REQ of the link phase, once (R191). It goes out with
the first event that lies later in the cycle, at the latest with the cycle's end. -/
def segments (h : Hw) (k n : Nat) : Hw :=
  if !h.cycling k || (h.ring k).segs then h
  else
    let h := ((h.cut.onRing k fun r => { r with segs := true }).commandSegment k n).sendOwnSu k n
    let a := h.sendAssigns k n
    ((a.1.issueDy k n a.2 64).sendStatus k).sendReq k n

/-- The rest of the cycle: its ACC. -/
def sendSegments (h : Hw) (k n : Nat) : Hw := if h.cycling k then (h.segments k n).sendAcc k n else h

/-! ### DM (R199 to R201) -/

/-- A DM REQ arrives in the link phase: the end, whose own REQ has left, answers with its turnaround, which is free. -/
def rxDmReq (h : Hw) (k : Nat) (endB : Bool) (f : RxFrame) : Hw :=
  let a := h.acceptType k endB 10 f
  if a.2 && field (fPayload f.bytes) 0 1 == 1 && h.lcKnown k then
    let d := (a.1.segments k h.cycle).draw (2 ^ 32)
    d.2.sendFrame k endB 10 false h.cycle ([2, 0] ++ beBytes 4 d.1 ++ List.replicate 4 0)
  else a.1

/-- A DM RSP arrives: the link delay is half of what the round trip exceeds the turnaround by; `rtt` in units of 2^-3 ns. DESIGN CHOICE
(log entry 36): an odd difference is rounded down, and a turnaround above the round trip gives 0, for which the spec gives no rule. -/
def rxDmRsp (h : Hw) (k : Nat) (endB : Bool) (f : RxFrame) (rtt : Nat) : Hw :=
  let a := h.acceptType k endB 10 f
  let l := fPayload f.bytes
  if a.2 && field l 0 1 == 2 then a.1.onPort (h.portOf k endB) fun x => { x with link := (rtt - field l 2 4) / 2 } else a.1

/-- A DM ACC arrives: the end adds its own link delay and writes D. Only an ACC of the other end shows that the ring is whole, not one of
a head node (R240, R241). DESIGN CHOICE (log entry 36): a link delay that no RSP has given yet counts as 0. -/
def rxDmAcc (h : Hw) (k : Nat) (endB : Bool) (f : RxFrame) : Hw :=
  let a := h.acceptType k endB 10 f
  let l := fPayload f.bytes
  if a.2 && field l 0 1 == 3 then
    let h := if fPos f.bytes ≠ endPos endB.not then a.1
      else a.1.onRing k fun r => if endB then { r with accB := true } else { r with accA := true }
    h.setD k endB.not (field l 2 4 + (h.port (h.portOf k endB)).link)
  else a.1

/-! ### What ends with a cycle -/

/-- The extreme hop indexes heard at an end (R240). -/
def breakField (h : Hw) (k : Nat) (endB : Bool) : Nat :=
  if !h.broken k || !h.endHere k endB then 0xFF
  else
    let l := if endB then (h.ring k).hopsB else (h.ring k).hopsA
    match l with
    | [] => 0xFE
    | x :: xs => if endB then xs.foldl min x else xs.foldl max x

/-- BREAK_A and BREAK_B follow the cycle (R240). -/
def setBreaks (h : Hw) (k : Nat) : Hw :=
  let a := h.breakField k false
  let b := h.breakField k true
  let g := (h.setFld (Reg.VNK_RING_STAT k) Fld.VNK_RING_STAT_BREAK_A a).setFld (Reg.VNK_RING_STAT k) Fld.VNK_RING_STAT_BREAK_B b
  if g.reg (Reg.VNK_RING_STAT k) = h.reg (Reg.VNK_RING_STAT k) then h else g.setBit Reg.VNK_IRQ_STAT k

/-- Valid CS and ACC from the other end arrived at an end in this cycle. -/
def otherHeard (r : Ring) (endB : Bool) : Bool := if endB then r.csB && r.accB else r.csA && r.accA

/-- The end expects the frames of the other end in the cycle in progress (R240): not while that end sleeps (R248). On a closed ring end B
expects those of end A from L on, and end A those of end B from L + 1 on (R218); the leader of a dual-homed ring expects a follower from
L + 2 on, for it starts its CS after two of the leader's (R222). -/
def expects (h : Hw) (k : Nat) (endB : Bool) : Bool :=
  let from_ := if h.closedRing k then (if endB then 0 else 1) else 2
  (h.cycling k || h.phase k == 7) && h.endHere k endB && !h.bit (Reg.VNK_RING_ROLE k) 11 &&
    decide ((h.ring k).lead + from_ ≤ h.cycle + 1)

/-- The end takes the ring as broken where it has heard neither CS nor ACC of the other end in this cycle (R240). -/
def breakAt (h : Hw) (k : Nat) (endB : Bool) : Hw :=
  let r := h.ring k
  let heard := if endB then r.csB || r.accB else r.csA || r.accA
  if h.expects k endB && !heard then
    let h := h.onRing k fun r => { r with healed := 0 }
    let h := if h.broken k then h else h.count (Reg.VNK_RING_CNT_BREAK k)
    ((h.ringStat k 23 true).setBreaks k).raiseEvent (0x340 + k) k 0 false
  else h

/-- MISS, AB_OK and BA_OK of a position (R211, R243). -/
def closeNode (h : Hw) (k n p : Nat) : Hw :=
  let r := h.ring k
  let ab := r.okAB.contains p
  let ba := r.okBA.contains p
  let a := Reg.VNK_NODE_RX k p
  let h := if ab then h.setBit a 31 else h.clearBit a 31
  let h := if ba then h.setBit a 30 else h.clearBit a 30
  if ab || ba || r.okRelay.contains p || !r.complete || decide (n ≤ r.completeAt) then h
  else h.countFld a Fld.VNK_NODE_RX_MISS

/-- RING_LOST (R432): two cycles in a row without a working port here, and no partner on guard. -/
def ringLost (h : Hw) (k n : Nat) : Hw :=
  let r := h.ring k
  let due := (r.firstCs ≠ 0 && decide (r.firstCs + 3 ≤ n + 1)) || (r.c1 ≠ 0 && decide (r.c1 + 30 ≤ n + 1))
  h.follow (0x370 + k) k 0 (due && decide (2 ≤ r.lost) && !h.partnerGuards k)

/-- The ports of the ends here leave electrical idle, or return to it (R213, R247). -/
def setIdle (h : Hw) (k : Nat) (v : Bool) : Hw :=
  (h.endsHere k).foldl (fun (h : Hw) e =>
    if v then h.setBit (Reg.VNK_PORT_STAT (h.portOf k e)) 7 else h.clearBit (Reg.VNK_PORT_STAT (h.portOf k e)) 7) h

/-- Ring cycle n of an instance ends. A ring whose leader is in Night goes idle until the next burst instant, 100 ms on (R83, R247). -/
def closeRingCycle (h : Hw) (k n : Nat) : Hw :=
  let h := (h.senders k).foldl (fun (h : Hw) p => h.closeNode k n p) h
  let h := h.setBreaks k
  let r := h.ring k
  let ok := (h.endsHere k).all fun e => otherHeard r e
  let lost := if (h.endsHere k).any fun e => h.portWorking (h.portOf k e) then 0 else r.lost + 1
  let h := if h.closedRing k then h else h.ringRole k 9 r.mirror
  let h := if r.burstNext.isSome then h.setIdle k true else h
  let h := h.onRing k fun r => { r with
    csRun := if r.leaderCs then r.csRun + 1 else 0
    leaderless := if h.standby k && !r.leaderCs && !r.mirror then r.leaderless + 1 else 0
    healed := if h.broken k && ok then r.healed + 1 else 0
    lost := lost
    csA := false, csB := false, accA := false, accB := false, leaderCs := false, hopsA := [], hopsB := []
    okAB := [], okBA := [], okRelay := [], gd := [], mirror := false, gtSent := none, segs := false
    burstNext := r.burstNext.map fun _ => n + 100
    claims := r.claims.filter fun c => decide (n ≤ c.lc) }
  h.ringLost k n

/-- A port's ring cycle ends (R246). -/
def closePort (h : Hw) (p : Nat) : Hw :=
  let x := h.port p
  let h := if x.csNow then h.setBit (Reg.VNK_PORT_STAT p) 4 else h.clearBit (Reg.VNK_PORT_STAT p) 4
  h.setPort p { x with now := false, csNow := false, last1 := x.now, last2 := x.last1, cycles := x.cycles + 1 }

/-- Cycle n is one of the instance's ring cycles: every one, or the burst cycles alone while its leader is in Night (R247). -/
def takesPart (h : Hw) (k n : Nat) : Bool :=
  h.phase k ≠ 0 && ((h.ring k).burstNext.all (· == n) || (h.ring k).leaderCs)

/-- The ring cycle in progress ends on every instance that has started; a guard cycle ends with it (R431). -/
def closeCycles (h : Hw) : Hw :=
  let n := h.cycle
  let ks := (List.range 16).filter fun k => h.takesPart k n
  if ks.isEmpty then h
  else
    let h := ks.foldl (fun (h : Hw) k => h.sendSegments k n) h
    let ports := ks.flatMap fun k => (h.endsHere k).map fun e => h.portOf k e
    let h := ports.foldl (fun (h : Hw) p => h.closePort p) h
    let h := if ks.any fun k => h.lcKnown k then h.closeGuardCycle ks else h
    ks.foldl (fun (h : Hw) k => (h.closeRingCycle k n).slotsPass n k) h

/-! ### What begins with a cycle -/

/-- Spare slots become OWNED at the start of the cycle that the GT named (R237). -/
def ownSpares (h : Hw) (k n : Nat) : Hw :=
  (List.range (h.nSpare k)).foldl (fun (h : Hw) s =>
    if h.spareState k s = 1 && decide ((h.spareOf k s).from_ ≤ n) then h.setFld (Reg.VNK_SPARE k s) Fld.VNK_SPARE_STATE 2 else h) h

/-- The instance enters cycle operation as its ring's leader from cycle n (R218, R219): the cold start's ASSIGN phase. -/
def startLead (h : Hw) (k n : Nat) : Hw :=
  let h := ((h.ringStat k 22 true).ringStat k 21 true).setPhase k 5
  h.onRing k fun r => { r with lead := n + 1, complete := false, assign := [] }

/-- An end that has integrated starts its own CS, as a follower or a standby; in burst operation where the leader is in Night (R222,
R247). -/
def startFollow (h : Hw) (k n : Nat) : Hw :=
  let day := (h.ring k).burstNext.isNone
  let h := (((h.ringStat k 22 day).ringStat k 21 false).ringStat k 20 (decide (8 ≤ k))).setPhase k (if day then 6 else 7)
  h.onRing k fun r => { r with complete := true, completeAt := n }

/-- The standby leads by take-over, and learns the spare slots in use (R230 to R232). -/
def leadByTakeOver (h : Hw) (k : Nat) : Hw :=
  let night := h.bit Reg.VNK_CTRL 1
  let h := ((h.ringStat k 21 true).ringStat k 20 false).ringRole k 10 true
  let h := ((h.ringStat k 22 (!night)).setPhase k (if night then 7 else 6)).count (Reg.VNK_RING_CNT_LEAD k)
  let h := h.onRing k fun r => { r with lead := 0, leaderless := 0, burstNext := none }
  (List.range (h.nSpare k)).foldl (fun (h : Hw) i =>
    let x := h.spareOf k i
    let live := x.lastValid ≠ 0 && decide (h.cycle ≤ x.lastValid + 63)
    let h := h.setSpare k i { lastValid := x.lastValid, lastPos := x.lastPos }
    h.setReg (Reg.VNK_SPARE k i) (if live then word (2 ^ 39 + 2 ^ 36 + x.lastPos * 2 ^ 24 + (h.p0 k + 84 * i)) else 0)) h

/-- The owner leads again, on its own LC (R231, R233). -/
def leadAgain (h : Hw) (k : Nat) : Hw :=
  ((((h.ringRole k 8 false).ringStat k 21 true).setReg (Reg.VNK_RING_LCOFS k) 0).count (Reg.VNK_RING_CNT_LEAD k)).onRing k fun r =>
    { r with lead := 0 }

/-- A device that led by take-over is the standby again (R233). -/
def standBack (h : Hw) (k : Nat) : Hw :=
  ((((h.ringRole k 10 false).ringStat k 21 false).ringStat k 20 true).count (Reg.VNK_RING_CNT_LEAD k)).onRing k fun r =>
    { r with leaderless := 0 }

/-- The role that the end takes with cycle n (R218, R219, R222, R230, R233). -/
def takeRole (h : Hw) (k n : Nat) : Hw :=
  let r := h.ring k
  let p := h.phase k
  let h := if (p = 1 ∧ h.closedRing k) ∨ (r.next = 1 ∧ p = 3) then h.startLead k n
    else if r.next = 2 ∧ h.standby k then h.leadByTakeOver k
    else if r.next = 3 ∧ h.bit (Reg.VNK_RING_ROLE k) 8 then h.leadAgain k
    else if r.next = 4 ∧ h.takenOver k then h.standBack k
    else if p = 4 ∧ 2 ≤ r.csRun then h.startFollow k n else h
  h.onRing k fun r => { r with next := 0 }

/-- The end sends a CS in this cycle: on a closed ring end A from L and end B from L + 1 (R218, R229); in burst operation too (R198). -/
def sendsCs (h : Hw) (k : Nat) (endB : Bool) (n : Nat) : Bool :=
  (h.cycling k || h.phase k == 7) && (!h.closedRing k || !endB || decide ((h.ring k).lead < n + 1))

/-- The CS slot of cycle n: a CLAIM, or the CS of every end that sends one, with MODE 2 in burst operation (R180, R219). -/
def sendCsSlot (h : Hw) (k n : Nat) : Hw :=
  if h.phase k = 3 then h.sendSu k 1 n
  else (h.endsHere k).foldl (fun (h : Hw) e => if h.sendsCs k e n then h.sendCs k e n (if h.phase k = 7 then 2 else 1) else h) h

/-- The first ring cycle after EN counts as C1 if it begins 40 µs or more after EN; whether it does is free, for VNK_START does not say when
in the cycle it comes (R218, R219). -/
def firstCycle (h : Hw) (k n : Nat) : Hw :=
  let r := h.ring k
  if r.c1 ≠ 0 then h
  else if r.early then
    let d := h.draw 2
    d.2.onRing k fun r => { r with early := false, c1 := if d.1 = 1 then 0 else n + 1 }
  else h.onRing k fun r => { r with c1 := n + 1 }

/-- Ring cycle n begins on an instance (R190, R215, R219, R222). -/
def beginRing (h : Hw) (k n : Nat) : Hw :=
  let h := (h.setIdle k false).firstCycle k n
  if (h.ring k).c1 = 0 then h else ((h.takeRole k n).ownSpares k n).sendCsSlot k n

/-- RING_CYCLE_START: the cycle before ends, and the one of the next SI begins, while the TCXO, PLL_V and PLL_T run (R72, R73). -/
def ringCycleStart (h : Hw) : Hw :=
  let n := h.lc + 1
  if !h.vnkOn || !h.bit Reg.CLK_STAT 3 || h.cycle = n || h.bit Reg.VNK_CTRL 1 then h
  else
    let h := (h.closeCycles).setReg Reg.VNK_CYCLE (word n)
    let h := { h with frozen := false }
    ((List.range 16).filter fun k => h.takesPart k n).foldl (fun (h : Hw) k => h.beginRing k n) h

/-- A ring that starts: nothing of it is left but the place of its descriptor ring. -/
def freshRing (r : Ring) : Ring := { early := true, dyNext := r.dyNext }

/-- VNK_CTRL.EN starts every configured instance (R62, R212, R218, R219). -/
def vnkStart (h : Hw) : Hw :=
  if h.bit Reg.VNK_CTRL 0 then h
  else
    let h := h.setBit Reg.VNK_CTRL 0
    ((List.range 16).filter fun k => h.topo k ≠ 0).foldl (fun (h : Hw) k =>
      let cells := ((h.declared k).filter (· < 128)).length
      let aux := (h.declared k).length - cells
      if cells ≠ h.nCell k ∨ aux ≠ h.nAux k then h.ringStat k 19 true
      else
        let h := (h.setIdle k false).setFld (Reg.VNK_RING_ROLE k) Fld.VNK_RING_ROLE_PEER_ID (((h.ringCfg k).map (·.peerId)).getD 0)
        (h.onRing k freshRing).setPhase k 1) h

/-- Descriptors handed to an instance that is not in cycle operation end at once (R213). -/
def dyHanded (h : Hw) (k : Nat) : Hw := if h.cycling k then h else h.dyDown k 64

end Hw

/-- RING_CYCLE_START (R190). -/
def execRingCycleStart (s : State) : Result := .next (s.onHw fun h => h.ringCycleStart)

/-- VNK_START: a write of VNK_CTRL.EN (R211). -/
def execVnkStart (who : Who) (s : State) : Result :=
  .next (s.onHw fun h => h.guarded who Reg.VNK_CTRL fun h => h.vnkStart)

/-- RX_DM_REQ (R199). -/
def execRxDmReq (k : Fin 16) (endB : Bool) (f : RxFrame) (s : State) : Result := .next (s.onHw fun h => h.rxDmReq k endB f)

/-- RX_DM_RSP (R199). -/
def execRxDmRsp (k : Fin 16) (endB : Bool) (f : RxFrame) (rtt : Nat) (s : State) : Result :=
  .next (s.onHw fun h => h.rxDmRsp k endB f rtt)

/-- RX_DM_ACC (R201). -/
def execRxDmAcc (k : Fin 16) (endB : Bool) (f : RxFrame) (s : State) : Result := .next (s.onHw fun h => h.rxDmAcc k endB f)

/-- VNK_CMD_GO (R211). -/
def execVnkCmdGo (who : Who) (k : Fin 16) (v : Word) (s : State) : Result :=
  .next (s.onHw fun h => h.guarded who (Reg.VNK_CMD_GO k) fun h =>
    h.cmdGo k (bitsOf v 39 32) (bitsOf v 31 24) (bitsOf v 23 16) (h.cmdData k) false)

/-- DY_DESCRIPTOR_SUBMIT: a write of VNK_DY_QCTL.TAIL (R213). -/
def execDyDescriptorSubmit (who : Who) (k : Fin 16) (tail : Fin 64) (s : State) : Result :=
  .next (s.onHw fun h => h.guarded who (Reg.VNK_DY_QCTL k) fun h =>
    (h.setFld (Reg.VNK_DY_QCTL k) Fld.VNK_DY_QCTL_TAIL tail).dyHanded k)

/-- DY_NO_RESPONSE: descriptors without a response by SI(n + 3) end (R227). -/
def execDyNoResponse (k : Fin 16) (s : State) : Result :=
  .next (s.onHw fun h =>
    ((h.ring k).dy.filter fun f => decide (f.lc + 3 ≤ h.lc)).foldl (fun (h : Hw) f => h.dyEnd k f.idx 1 0 (h.ringLc k f.lc) []) h)

/-- COMMAND_NO_ACK: a command in flight has had its last repeat (R208). -/
def execCommandNoAck (k : Fin 16) (p : Fin 160) (s : State) : Result :=
  .next (s.onHw fun h =>
    match (h.ring k).cmds.find? fun c => c.target == p.val && c.sent.any (· < h.cycle) &&
        decide (h.fld Reg.VNK_CTRL Fld.VNK_CTRL_RETRY ≤ c.repeats) with
    | some c => (((h.onRing k fun r => { r with cmds := r.cmds.erase c }).cmdFree k).cmdFail k p 1).threshFailed k c
    | none => h)

/-- CLOSED_RING_JUDGE: at the end of cycle L + 2 (R218). -/
def execClosedRingJudge (k : Fin 16) (s : State) : Result :=
  .next (s.onHw fun h =>
    let r := h.ring k
    if h.closedRing k && h.cycling k && !r.judged && r.lead ≠ 0 && decide (r.lead + 2 = h.cycle + 1) then
      let h := h.onRing k fun r => { r with judged := true }
      if h.portWorks (h.portOf k false) && decide (1 ≤ r.csRun) && r.leaderCs then h
      else (h.onRing k fun r => { r with leaderA := false }).count (Reg.VNK_RING_CNT_LEAD k)
    else h)

/-- COLD_START_LISTEN_END (R219). -/
def execColdStartListenEnd (k : Fin 16) (s : State) : Result :=
  .next (s.onHw fun h =>
    let r := h.ring k
    if h.phase k = 1 && !h.closedRing k && r.c1 ≠ 0 && decide (r.c1 + 4 ≤ h.cycle + 1) then
      let d := h.draw 4
      (d.2.onRing k fun r => { r with backoff := h.fld (Reg.VNK_RING_START k) Fld.VNK_RING_START_RANK + d.1 }).setPhase k 2
    else h)

/-- COLD_START_BACKOFF_END (R219). -/
def execColdStartBackoffEnd (k : Fin 16) (s : State) : Result :=
  .next (s.onHw fun h =>
    let r := h.ring k
    if h.phase k = 2 && decide (r.c1 + 4 + r.backoff ≤ h.cycle + 1) then
      let d := h.draw 65536
      (d.2.onRing k fun r => { r with nonce := d.1 }).setPhase k 3
    else h)

/-- COLD_START_CLAIM_END (R219): the end leads from the next cycle. -/
def execColdStartClaimEnd (k : Fin 16) (s : State) : Result :=
  .next (s.onHw fun h =>
    let r := h.ring k
    if h.phase k = 3 && decide (r.c1 + 7 + r.backoff ≤ h.cycle + 1) then h.onRing k fun r => { r with next := 1 } else h)

/-- ASSIGN_TIMEOUT: at the end of ring cycle n + 2 (R224). R131 applies to a position that is absent after three: it is counted. -/
def execAssignTimeout (k : Fin 16) (p : Fin 160) (s : State) : Result :=
  .next (s.onHw fun h =>
    let a := h.assignOf k p
    if h.leads k && !a.done && !a.absent && !a.due && decide (1 ≤ a.sent) && decide (a.at_ + 2 ≤ h.cycle) then
      (if a.sent < 3 then h.setAssign k p { a with due := true }
       else ((h.setAssign k p { a with absent := true }).undeclare 1).checkComplete k)
    else h)

/-- LEADER_PORT_LOSS: on a closed ring the other end leads from the next cycle (R229). -/
def execLeaderPortLoss (k : Fin 16) (s : State) : Result :=
  .next (s.onHw fun h =>
    let r := h.ring k
    if h.closedRing k && h.cycling k && r.judged && !h.portWorking (h.portOf k (!r.leaderA)) then
      (h.onRing k fun r => { r with leaderA := !r.leaderA }).count (Reg.VNK_RING_CNT_LEAD k)
    else h)

/-- LEADERLESS_TAKEOVER: two leaderless ring cycles in a row have ended, or the second one is ending; the standby leads from the next
cycle (R230). -/
def execLeaderlessTakeover (k : Fin 16) (s : State) : Result :=
  .next (s.onHw fun h =>
    let r := h.ring k
    let ending := decide (h.cycle ≤ h.lc) && r.burstNext.all (· == h.cycle) && !r.leaderCs && !r.mirror
    if h.standby k && (decide (2 ≤ r.leaderless) || (r.leaderless == 1 && ending)) then h.onRing k fun r => { r with next := 2 } else h)

/-! ### Spare slots (R234 to R239) -/

/-- An allowlist entry that a claim meets: its index (R234). -/
def Hw.allowFor (h : Hw) (k : Nat) (c : Claim) : Option (Nat × Allow) :=
  match h.ringCfg k with
  | none => none
  | some cfg => (cfg.allow.zipIdx.find? fun x => x.1.uid == c.uid && x.1.aux == c.aux && (x.1.hop == 0xFF || x.1.hop == c.hop)).map
      fun x => (x.2, x.1)

/-- The GT of a spare slot to a claimant (R189, R236), counted. -/
def Hw.sendGt (h : Hw) (k s uid : Nat) : Hw :=
  let n := h.cycle
  let l := beBytes 8 uid ++ [byte s, byte (h.sparePos k s)] ++ beBytes 2 (h.p0 k + 84 * s) ++ beBytes 4 (h.ringLc k (n + 1))
  ((h.sendBoth k 8 n l).onRing k fun r => { r with gtSent := some (8, l) }).countFld (Reg.VNK_RING_CNT_CLAIM k) Fld.VNK_RING_CNT_CLAIM_GRANTED

/-- A claim is granted, granted again, or refused (R234, R238): the machine and whether a GT was sent. -/
def Hw.decideClaim (h : Hw) (k : Nat) (c : Claim) : Hw × Bool :=
  let n := h.cycle
  let slots := List.range (h.nSpare k)
  let refuse := fun (h : Hw) => h.countFld (Reg.VNK_RING_CNT_CLAIM k) Fld.VNK_RING_CNT_CLAIM_REFUSED
  match slots.find? fun s => h.spareState k s ≠ 0 && (h.spareOf k s).uid == c.uid with
  | some s => (h.sendGt k s c.uid, true)
  | none =>
    match h.allowFor k c with
    | none => (refuse (if ((h.ringCfg k).any fun cfg => cfg.allow.any fun a => a.uid == c.uid) then h else h.undeclare 3), false)
    | some (i, a) =>
      let silent := !(h.declared k).contains a.pos ||
        decide (max (Tabs.get (fun _ => 0) (h.ring k).lastValid a.pos) (max (h.ring k).lead (h.ring k).completeAt) + 2000 ≤ n + 1)
      let taken := slots.any fun s => h.spareState k s ≠ 0 && h.sparePos k s == a.pos
      let free := slots.find? fun s => h.spareState k s == 0 &&
        ((h.spareOf k s).lastValid == 0 || decide ((h.spareOf k s).lastValid + 63 < n))
      match free with
      | some s =>
        if silent && !taken then
          let h := h.setReg (Reg.VNK_SPARE k s) (word (2 ^ 38 + a.pos % 256 * 2 ^ 24 + i % 32 * 2 ^ 16 + (h.p0 k + 84 * s)))
          let h := h.setSpare k s { h.spareOf k s with uid := c.uid, hop := some c.hop, from_ := n + 1, mark := none }
          (h.sendGt k s c.uid, true)
        else (refuse h, false)
      | none => (refuse h, false)

/-- A claim stands before another (R236): a direct one before a relayed one; of two direct ones the earlier, and of two that arrived at
the same time the one of direction AB. -/
def claimBefore (x y : Claim) : Bool :=
  if x.relayed ≠ y.relayed then !x.relayed
  else !x.relayed && (decide (x.arr < y.arr) || (x.arr == y.arr && !x.ba && y.ba))

/-- A claim takes its place. -/
def claimInto (l : List Claim) (c : Claim) : List Claim :=
  (l.takeWhile fun x => !claimBefore c x) ++ c :: l.dropWhile fun x => !claimBefore c x

/-- CLAIM_DECISION: at SI(n + 1) + 60 µs the leader takes the claims of the cycle before in order, and grants at most one (R236). -/
def execClaimDecision (k : Fin 16) (s : State) : Result :=
  .next (s.onHw fun h =>
    if h.leads k && (h.ring k).gtSent.isNone && h.lc == h.cycle then
      let h := h.cut
      let cs := ((h.ring k).claims.filter fun c => decide (c.lc + 1 = h.cycle)).foldl claimInto []
      let cs := cs.foldl (fun (a : List Claim) c => if a.any fun x => x.uid == c.uid then a else a ++ [c]) []
      let h := h.onRing k fun r => { r with claims := r.claims.filter fun c => decide (h.cycle ≤ c.lc) }
      (cs.foldl (fun (a : Hw × Bool) c => if a.2 then a else a.1.decideClaim k c) (h, false)).1
    else h)

/-- SPARE_RELEASE_MARK: a write of VNK_SPARE(s).RELEASE (R239). -/
def Hw.releaseMark (h : Hw) (k s : Nat) : Hw :=
  if h.spareState k s = 2 then
    (h.setSpare k s { h.spareOf k s with mark := some h.cycle }).setBit (Reg.VNK_SPARE k s) 37
  else h

/-- SPARE_RELEASE_MARK. -/
def execSpareReleaseMark (who : Who) (k s : Fin 16) (st : State) : Result :=
  .next (st.onHw fun h => h.guarded who (Reg.VNK_SPARE k s) fun h => h.releaseMark k s)

/-- SPARE_RELEASE_EXPIRE: 2 000 ring cycles after the mark (R239). -/
def execSpareReleaseExpire (k s : Fin 16) (st : State) : Result :=
  .next (st.onHw fun h =>
    if h.spareState k s = 2 && (h.spareOf k s).mark.any (fun m => decide (m + 2000 ≤ h.cycle)) then
      (h.setSpare k s {}).setReg (Reg.VNK_SPARE k s) 0
    else h)

/-! ### Breaks and missing nodes (R240 to R243, R246) -/

/-- RING_BREAK: an end has heard neither CS nor ACC of the other end in this cycle (R240). -/
def execRingBreak (k : Fin 16) (endB : Bool) (s : State) : Result := .next (s.onHw fun h => h.breakAt k endB)

/-- RING_BREAK_CLEAR: 8 cycles in a row with CS and ACC of the other end (R242). -/
def execRingBreakClear (k : Fin 16) (s : State) : Result :=
  .next (s.onHw fun h =>
    if h.broken k && decide (8 ≤ (h.ring k).healed) then ((h.ringStat k 23 false).setBreaks k).dropCond (0x340 + k) else h)

/-- NODE_MISSING: MISS of a position has reached MISS_LIMIT (R243). -/
def execNodeMissing (k : Fin 16) (p : Fin 160) (s : State) : Result :=
  .next (s.onHw fun h =>
    if (h.senders k).contains p.val && (h.ring k).complete && h.missing k p then h.raiseEvent (0x350 + k) k p false else h)

/-- NODE_REASSIGN: the leader repeats the ASSIGN of a missing position once every 8 ring cycles (R243). -/
def execNodeReassign (k : Fin 16) (p : Fin 160) (s : State) : Result :=
  .next (s.onHw fun h =>
    let a := h.assignOf k p
    let known := match h.spareFor k p with
      | some i => (h.spareOf k i).uid ≠ 0
      | none => (h.bound k p).isSome
    if h.leads k && decide (3 ≤ h.miss k p) && known && decide (a.at_ + 8 ≤ h.cycle) then
      h.setAssign k p { a with due := true }
    else h)

/-- PORT_ERROR_BLOCK: a block of 1 000 ring cycles ends (R246). -/
def execPortErrorBlock (p : Fin 16) (s : State) : Result :=
  .next (s.onHw fun h =>
    let x := h.port p
    match h.endOfPort p with
    | some (k, _) =>
      if 1000 ≤ x.cycles then
        (h.setPort p { x with errs := 0, cycles := 0 }).follow (0x360 + p) k 0
          (decide (h.fld (Reg.VNK_RING_START k) Fld.VNK_RING_START_ERR_LIMIT < x.errs))
      else h
    | none => h)

/-! ### THRESH of Crest (R428) -/

namespace Hw

/-- v of a code through a channel's entry with dt = 0 (R260, R428). -/
def codeValue (h : Hw) (k p j : Nat) (c : Int) : Int :=
  let w := fun i => (h.calWord h.lc (calEntry k p j 0) i).toInt
  sat40 (calValue (w 0) (w 1) (w 2) (w 3) (w 4) c none)

/-- The smallest code of a range with v ≥ L, by halving; one past the range where there is none. -/
def firstCode (f : Int → Bool) : Nat → Int → Int → Int
  | 0, lo, _ => lo
  | fuel + 1, lo, hi => if hi ≤ lo then lo else
    let m := (lo + hi) / 2
    if f m then firstCode f fuel lo m else firstCode f fuel (m + 1) hi

/-- The code that a node uses for a level (R428): the disabled code where no code of the range reaches the level. -/
def levelCode (h : Hw) (k p j : Nat) (high : Bool) (l : Word) : Nat :=
  if high then
    if l = highOff ∨ !h.guarded_ k p j then 0x7FFFFF
    else
      let c := firstCode (fun c => decide (l.toInt ≤ h.codeValue k p j c)) 25 (-8388607) 8388608
      if 8388608 ≤ c then 0x7FFFFF else (c % 2 ^ 24).toNat
  else
    if l = lowOff ∨ !h.guarded_ k p j then 0x800001
    else
      let c := firstCode (fun c => decide (l.toInt < h.codeValue k p j c)) 25 (-8388607) 8388608 - 1
      if c < -8388607 then 0x800001 else (c % 2 ^ 24).toNat

/-- The channel that bit b of a kind's mask names (R187). -/
def kindChan (p kind b : Nat) : Nat := if p < 128 then (if kind ≤ 2 then b else 16 + b) else kind % 4

/-- WARN and TRIP codes of a channel for a kind (R187, R428). -/
def kindCodes (h : Hw) (k p kind b : Nat) : Nat × Nat :=
  let j := kindChan p kind b
  let high := if p < 128 then kind == 1 || kind == 3 else decide (kind < 0x14)
  let l := h.levels k p j
  let i := if high then 0 else 2
  (h.levelCode k p j high (l.getD i 0), h.levelCode k p j high (l.getD (i + 1) 0))

/-- One THRESH for a kind of a position, for every channel whose codes are those of channel b (R428). -/
def sendThresh (h : Hw) (k p kind b : Nat) : Hw :=
  if !(kindsOf p).contains kind || !bitN (kindMask kind) (if p < 128 then b else kind % 4) then h
  else
    let c := h.kindCodes k p kind b
    let mask := if p < 128 then
        (List.range 16).foldl (fun m i => if bitN (kindMask kind) i && h.kindCodes k p kind i == c then setBitN m i else m) 0
      else kindMask kind
    h.cmdGo k p 0x10 9 (beBytes 2 mask ++ [byte kind] ++ beBytes 3 c.1 ++ beBytes 3 c.2) true

end Hw

/-- THRESH_LOAD: at Control and above (R428). -/
def execThreshLoad (k : Fin 16) (p : Fin 160) (kind : Fin 256) (ch : Fin 16) (s : State) : Result :=
  .next (s.onHw fun h => if 2 ≤ h.level then h.sendThresh k p kind ch else h)

/-- THRESH_RETRY: the next failed THRESH of an instance is sent again (R428). -/
def execThreshRetry (k : Fin 16) (s : State) : Result :=
  .next (s.onHw fun h =>
    match h.grd.failed.find? fun x => x.1 == k.val with
    | some x =>
      ({ h with grd := { h.grd with failed := h.grd.failed.erase x } }).cmdGo k x.2.1 0x10 9 x.2.2 true
    | none => h)

end Sys2Proof.Machine
end

