-- ==== Sys2Proof/Machine/Levels.lean ====
section
/-! DEFINITION. What a domain loses with its power, the spans of Day, and the service levels (R19, R96, R107, R108, R110, R361). -/

namespace Sys2Proof.Machine

namespace Hw

/-! ### Rails and clocks (R70, R72) -/

/-- Rails of a mask over the bits of PWR_RAIL_PG become good, or cease to be. -/
def railsOn (h : Hw) (m : List Nat) : Hw := m.foldl (fun (h : Hw) i => h.setBit Reg.PWR_RAIL_PG i) h
def railsOff (h : Hw) (m : List Nat) : Hw := m.foldl (fun (h : Hw) i => h.clearBit Reg.PWR_RAIL_PG i) h

/-- Clocks of CLK_STAT run, or stop. -/
def clocksOn (h : Hw) (m : List Nat) : Hw := m.foldl (fun (h : Hw) i => h.setBit Reg.CLK_STAT i) h
def clocksOff (h : Hw) (m : List Nat) : Hw := m.foldl (fun (h : Hw) i => h.clearBit Reg.CLK_STAT i) h


/-! ### What is lost (R19, R96, R155) -/

/-- The fabric loses its power: its registers but the positions of the journal, which lies in DRAM, the ridge stores, the engines and
the pages. What survives is what later spans need. -/
def dropFab (h : Hw) : Hw :=
  let w := h.reg Reg.FAB_JNL_WPOS
  let x := h.reg Reg.FAB_JNL_XPOS
  let mc := h.fld Reg.FAB_STAT Fld.FAB_STAT_MC_SLOT
  let h := ((h.clearRegs 0x10300000 0x1030FFFF).setReg Reg.FAB_JNL_WPOS w).setReg Reg.FAB_JNL_XPOS x
  let h := (h.setFld Reg.FAB_STAT Fld.FAB_STAT_MC_SLOT mc).setReg Reg.PWR_ISLAND_PG 0
  let f := h.fab
  { h with
    mem := Tabs.clear h.mem 0x4000000 0x7FFFFFF, ecc := Tabs.clear h.ecc 16 63, eng := []
    fab := { spans := f.spans, spanStart := f.spanStart, spanEnd := f.spanEnd, ltCount := f.ltCount, cfgSwitch := f.cfgSwitch,
             mcSwitch := f.mcSwitch, mcSince := f.mcSince, sinceCkpt := f.sinceCkpt } }

/-- The DRAM loses its contents. -/
def dropDram (h : Hw) : Hw :=
  { h.setReg Reg.DMC_STAT 0 with mem := Tabs.clear h.mem dramBase 0x17FFFFFFF, ecc := Tabs.clear h.ecc 0 0 }

/-- A register lies in the AO domain (R19, R681, R683). -/
def aoReg (a : Nat) : Bool :=
  decide (a < 0x10040000) || (decide (0x10100000 ≤ a) && decide (a < 0x10300000)) ||
    (decide (0x10700000 ≤ a) && decide (a < 0x10800000)) ||
    (decide (0x10A00000 ≤ a) && decide (a < 0x10A04000) && decide (0x70 ≤ a % 0x1000) && decide (a % 0x1000 ≤ 0x74)) ||
    (decide (0x10C00040 ≤ a) && decide (a < 0x10C00054))

/-- SYS loses its power, and the DRAM controller with it: every register outside the AO domain but the epoch and the rate, which the
retained state carries (R601), DBG_STAT.LOCKED, which is of the fuse (R714), the secure SRAM, the cores, and what the units of SYS hold. DESIGN CHOICE (log entry 51):
the error counts of the DRAM outlast it, and those of the secure SRAM do not. -/
def dropSys (h : Hw) : Hw :=
  let h := h.linesDown h.lineFromTim
  let fab : Tab Word := Tabs.keep h.regs 0x10300000 0x1030FFFF
  let keep := h.regs.filter fun e => aoReg e.1
  let stat := h.reg Reg.TIME_STAT
  let inc := h.reg Reg.TIME_INC
  let lock := h.bit Reg.DBG_STAT 39
  let h := { h with
    regs := fab.foldl (fun (t : Tab Word) (e : Nat × Word) => Tabs.set regReset t e.1 e.2) keep
    mem := Tabs.clear h.mem 0x100000 0x17FFFF, ecc := Tabs.clear h.ecc 1 1
    crest := [], app := [], crs := {}, xlat := [], vms := [], handovers := [], hoStat := [], srcAuth := [], mbx := [], fi := [],
    mbxHoStat := [], worldChan := [], powerChan := [], norOp := none, sw := {}, tree := {}, kop := {}
    can := { h.can with ctls := [], outq := [], proxies := [], seqOut := [], seqIn := [], tags := [] }
    upd := { h.upd with stage := 0, stageType := 0, stageSlot := 0, stageFail := 0, held := none, heldCfg := none, act := none,
                        updType := 0, updResult := 0, settings := [], restart := [], install := false }
    ckpt := none, patrol := [] }
  let h := if lock then h.setBit Reg.DBG_STAT 39 else h
  ((h.setReg Reg.TIME_STAT stat).setReg Reg.TIME_INC inc).setFld Reg.TIME_STAT Fld.TIME_STAT_STATE
    (if bitsOf stat 1 0 = tFree then tFree else tHoldover)

/-! ### Day spans (R361) -/

/-- A Day span runs. -/
def spanRuns (h : Hw) : Bool := h.fab.spanStart ≠ 0 && h.fab.spanEnd == 0

/-- The last cycle up to which every input of the span is known, plus 1. -/
def completeTo (h : Hw) : Nat :=
  let ids := h.allInputs
  let start := max (h.fab.spanStart - 1) (h.lcCommit + 1)
  start + ((List.range (h.lc + 1 - start)).takeWhile fun i => ids.all fun id => (h.known (start + i) id).isSome).length

/-- The level falls below Full without a Dusk: the span ends with the last cycle whose inputs are complete. -/
def cutSpan (h : Hw) : Hw :=
  if h.spanRuns then { h with fab := { h.fab with spanEnd := max h.fab.spanStart h.completeTo } } else h

/-! ### Service levels (R107, R108, R110) -/

/-- The matrix has applied the ring-loss action of an instance. -/
def lossApplied (h : Hw) (k : Nat) : Bool := h.rowOn (0x370 + k) && (h.evActive (0x370 + k) || h.evLatched (0x370 + k))

/-- A configured ring is covered (R108): by a port from the completion of its cold start on (R225). -/
def covered (h : Hw) (k : Nat) : Bool := (h.ringWorking k && (h.ring k).complete) || h.partnerGuards k || h.lossApplied k

/-- A load die with declared channels is lost. -/
def loadLost (h : Hw) : Bool := (List.range 4).any fun d => h.lsi.declared / 2 ^ (16 * d) % 65536 ≠ 0 && h.lsiLost d

/-- What Guard needs. In burst operation, in Night and in Dawn until its step 6, the clocks of the rings stop between bursts (R74,
R84). -/
def guardOk (h : Hw) : Bool :=
  h.aoOn && h.pwr.configured && (h.ringClock || h.bit Reg.VNK_CTRL 1) && h.bit Reg.SNP_CTRL 0 &&
    ((List.range 16).all fun k => h.topo k == 0 || h.covered k) && !h.loadLost

/-- A Crest core works: powered, clocked, and its group not halted, restarting or in lapse (R72, R100, R107, R484). -/
def crestWorks (h : Hw) : Bool :=
  h.crestOn && h.coreClocked (.crest 0) && (h.duty.any fun k => !(h.crestCore k.val).inReset) && !h.dutyHalted &&
    !h.bit Reg.CRS_STAT 19 && !h.crs.lapse

/-- What Control needs beyond Guard: a Crest core, VSYS and the frame switch (R107). -/
def controlOk (h : Hw) : Bool := h.sysOn && h.crestWorks && h.pwr.reached && h.swOn

/-- A declared page is UNPLACED (R299). -/
def unplaced (h : Hw) : Bool := h.fab.pages.any fun x => x.2.state = .unplaced

/-- What Full needs beyond Control: the application cluster with VM0, the fabric's common part, the DRAM and a ridge island, with their
clocks (R72, R107). -/
def fullOk (h : Hw) : Bool :=
  h.fabOn && h.dramOn && (h.vmSlot 0).state = .running && ((List.finRange 8).any fun k => h.appOn k && h.coreClocked (.app k)) &&
    ((List.range 16).any fun r => h.islandOn r && h.engineClocked (32 * r)) && !h.unplaced && !h.pwr.lost

/-- The highest level whose units work; recovery holds the device at Guard at most (R115, R130). -/
def levelNow (h : Hw) : Nat :=
  if !h.guardOk then 0
  else if h.pwr.recovery || h.pwr.mode == 1 || !h.controlOk then 1
  else if !h.fullOk then 2 else 3

/-- The level changes: from Full the journal takes a LEVEL record and the span ends; below Control no path serves the object
dictionary, and the sessions of one that still runs are told so (R109, R110, R635). -/
def setLevel (h : Hw) (l : Nat) : Hw :=
  let old := h.level
  if old = l then h
  else
    let h := if old = 3 then (h.note 0x0D 0x04 [word h.lc, word (old * 16 + l)]).cutSpan else h
    let h := (h.setFld Reg.PWR_STATE Fld.PWR_STATE_LEVEL l).onPwr fun p => { p with top := max p.top l }
    let h := if l < 2 then (h.pathEnds 0 (h.swOn && h.fullOk)).pathEnds 1 (h.swOn && h.crestWorks) else h
    h.retEntry 0x06 (word (old * 16 + l))

/-- The level falls to what the working units hold (R110). -/
def levelFall (h : Hw) : Hw := if h.booted && h.levelNow < h.level then h.setLevel h.levelNow else h

/-! ### Losses in operation (R96) -/

/-- A ring that loses its clock or its pads, but for what outlasts its cycles: the spare slots, the partner's reports, and how long no
port has worked (R432). -/
def stoppedRing (r : Ring) : Ring :=
  { freshRing r with spare := r.spare, lastValid := r.lastValid, firstCs := r.firstCs, lost := max 2 r.lost, partnerOk := r.partnerOk
                     partner := r.partner, seqs := r.seqs }

/-- Ring cycles stop: commands in flight fail, the ports fall idle, the instances stop until they start again as at a cold start, and
their ring-loss events follow (R73, R96, R211, R213, R432). -/
def ringsDown (h : Hw) : Hw :=
  ((List.range 16).filter fun k => h.phase k ≠ 0).foldl (fun (h : Hw) k =>
    let h := ((h.leaveCycles k).onRing k stoppedRing).setPhase k 1
    let h := ((((h.ringStat k 21 false).ringStat k 20 false).ringStat k 23 false).setBreaks k).dropCond (0x340 + k)
    let h := (((h.ringRole k 8 false).ringRole k 9 false).ringRole k 10 false).ringRole k 11 false
    let h := (h.endsHere k).foldl (fun (h : Hw) e =>
      let a := Reg.VNK_PORT_STAT (h.portOf k e)
      (((h.setBit a 7).clearBit a 6).clearBit a 5).onPort (h.portOf k e) fun p => { p with now := false, last1 := false, last2 := false }) h
    h.follow (0x370 + k) k 0 (!h.partnerGuards k)) h

/-- VMs stop for want of the DRAM, of their cores or of SYS. -/
def vmsStop (h : Hw) : Hw :=
  let h := h.pathEnds 0 false
  h.vms.foldl (fun (h : Hw) e => if e.2.state = .empty then h else h.setVmSlot e.1 { e.2 with state := .empty }) h

/-- The common part of VFAB is lost. -/
def loseFab (h : Hw) : Hw := ((h.cutSpan).dropFab.onPwr fun p => { p with lost := true }).mbxDomainOff

/-- The DRAM is lost. -/
def loseDram (h : Hw) : Hw :=
  let h := if h.fabOn then h.loseFab else h
  ((h.vmsStop).dropDram.onPwr fun p => { p with lost := true }).mbxDomainOff

/-- VSYS is lost: SYS, APP, CREST, FAB and the DRAM controller stop. -/
def loseSys (h : Hw) : Hw :=
  let h := (h.pathEnds 1 false).onPwr fun p => { p with reached := false, retired := if h.sysOn then h.retiredMask else p.retired }
  (h.loseDram).dropSys

/-- A ridge island is lost: its store, its engines and the pages on it (R96, R303). -/
def dropIsland (h : Hw) (r : Nat) : Hw :=
  let a := 0x4000000 + 0x400000 * r
  let h := h.clearBit Reg.PWR_ISLAND_PG r
  { h with mem := Tabs.clear h.mem a (a + 0x3FFFFF), ecc := Tabs.clear (Tabs.clear h.ecc (16 + r) (16 + r)) (32 + r) (32 + r)
           eng := Tabs.clear h.eng (32 * r) (32 * r + 31) }

/-- An island fails: it is marked, its audits end, and its pages are placed again from their hot shadows (R96, R302, R307). -/
def failIsland (h : Hw) (r : Nat) : Hw :=
  let mine := (h.fab.pages.filter fun x => x.2.state ≠ .undeclared && x.2.state ≠ .unplaced && x.2.engine / 32 == r).map (·.1)
  let inTransit := (h.fab.pages.filter fun x => x.2.state = .transit && x.2.target.any fun t => t.1 / 32 == r).map (·.1)
  let h := (List.range 32).foldl (fun h i => h.auditDropEngine (32 * r + i)) h
  let h := ((h.dropIsland r).setBit Reg.FAB_ISLAND r).setBit Reg.FAB_IRQ_STAT 1
  let h := h.fabricRecord 5 0 (32 * r) 0 0
  ((mine ++ inTransit).eraseDups).foldl (fun h g => h.placeRebuild g (fun _ => false)) h

end Hw

end Sys2Proof.Machine
end

