-- ==== Sys2Proof/Machine/Boot.lean ====
section
/-! DEFINITION. Reset, boot and the rise of the service level (R110 to R122, R130, R135, R136, R140, R587, R589, R691 to R694, R702,
R708). -/

namespace Sys2Proof.Machine

namespace State

/-! ### What the NOR tells a boot (R138, R140, R587, R589) -/

/-- A checkpoint slot has a correct COMMIT word. -/
def ckptCommitted (s : State) (k : Nat) : Bool :=
  let n := (s.ckptWord k 5).toNat
  s.ckptWritten k && decide (n ≤ 16384) &&
    s.ckptWord k (8 + 64 * n) == commitWord ((List.range (8 + 64 * n)).map fun w => s.ckptWord k w)

/-- L, the highest LC that the device recorded in NOR (R587). -/
def highestLc (s : State) : Nat :=
  ((s.nor.entries.map fun x => (x.2.getD 3 0).toNat) ++
    (((List.range 16).filter fun k => s.ckptCommitted k).map fun k => (s.ckptWord k 2).toNat)).foldl max 0

/-- The place in the fault log, BOOT_COUNT and powered time follow the newest entry (R138, R589). -/
def readLog (s : State) : State :=
  s.onHw fun h => match s.nor.newest with
    | some (i, e) =>
      { h with log := { next := (i + 1) % logEntries, seq := (e.getD 0 0).toNat + 1, boot := min (bitsOf (e.getD 1 0) 23 0 + 1) 0xFFFFFF }
               poweredMs := (e.getD 2 0).toNat }
    | none => { h with log := { next := 0, seq := 1, boot := 1 }, poweredMs := 0 }

/-- The entries after the newest BOOT entry, as (CODE, DATA); none where there is no such entry. -/
def sinceBootEntry (s : State) : Option (List (Nat × Word)) :=
  let es := s.nor.entries.map fun x => ((x.2.getD 0 0).toNat, bitsOf (x.2.getD 1 0) 39 32, x.2.getD 6 0)
  match (es.filter fun e => e.2.1 == 1).map (·.1) with
  | [] => none
  | l => some ((es.filter fun e => decide (l.foldl max 0 < e.1)).map (·.2))

/-- The entries that a boot owes for the Day before it (R140). DESIGN CHOICE (log entry 34): the LC of the last journal record known is the
highest LC that NOR holds, of the fault log's entries and the committed checkpoints. -/
def owedEntries (s : State) (cause : Nat) : State :=
  match s.sinceBootEntry with
  | none => s
  | some l =>
    let lost := cause == 1 && !(l.any fun e => e.1 == 0x07 || e.1 == 0x0E)
    let cut := l.any fun e => e.1 == 0x07 && e.2.toNat % 2 == 1
    let last := word s.highestLc
    let s := if lost then s.logEntry 0x08 0 else s
    if lost || cut then (s.logEntry 0x09 last).onHw fun h => h.setBit Reg.TIME_STAT 7 else s

/-! ### The start of a boot (R111, R112, R114, R708) -/

/-- What fuses take effect at a reset: a lifecycle transition, with its revoke of KEY1 (R708). -/
def applyFuses (s : State) : State :=
  match s.hw.upd.lifecycleNext with
  | none => s
  | some l => { s with fuse := { s.fuse with lifecycle := max s.fuse.lifecycle l, revoked := if l = 2 then s.fuse.revoked ||| (2 : BitVec 4) else s.fuse.revoked } }

/-- A retired module keeps no configuration and no checkpoint (R708). -/
def retiredErase (s : State) : State :=
  if s.fuse.lifecycle = 3 then
    let n := (s.nor.erase norConfigA (norConfigA + configLen - 1)).erase norConfigB (norConfigB + configLen - 1)
    { s with nor := n.erase norCkpt (norLog - 1) }
  else s

/-- The hardware at t0: every SoC register at its reset value, the retention SRAM kept while VAO stayed good; the load dies are not
reset, but their hard lines read asserted until the AO domain drives them again (R112, R114, R477). -/
def resetHw (old : Hw) (cause : Nat) : Hw :=
  let keep := old.aoOn && cause ≠ 1 && cause ≠ 3
  let p := old.pwr
  let h : Hw :=
    { mem := if keep then Tabs.keep old.mem retention (retention + 0x3FFF) else []
      retLog := if keep then old.retLog else 0
      lsi := { dies := (old.linesDown old.lineFromTim).lsi.dies }, out := old.out, free := old.free, status := old.status, bus := old.bus, busErr := old.busErr
      pwr := { cause := cause, failed := p.failed + 1, lockout := p.lockout, accounted := if keep then p.accounted else 0
               unavailable := if keep then p.unavailable else 0, sinceBoot := if keep then p.sinceBoot else 0
               tj := if cause = 1 then none else p.tj } }
  (h.floatHardLines).setHardLines 0

/-- Step 1 of R118: fuses, straps and the origin of time. -/
def bootStart (s : State) (cause : Nat) (straps : BitVec 2) : State :=
  let s := s.applyFuses
  let old := s.hw
  let s := { s with hw := resetHw old cause, warm := none }
  let s := s.readLog
  let lc := s.highestLc + 1
  s.onHw fun h =>
    let since := if h.pwr.sinceBoot = 0 then h.log.boot else h.pwr.sinceBoot
    let h := { h with lc := lc, pwr := { h.pwr with straps := straps.toNat, mode := straps.toNat, sinceBoot := since } }
    h.onTu fun t => { t with tSi := lc * tMs, now := lc * tMs, epochs := [({ startLc := lc, tStart := lc * tMs } : Epoch)] }

/-- Step 2: the rails, the TCXO and the PLLs that Guard needs. -/
def bootRails (s : State) : State :=
  s.onHw fun h =>
    let h := (h.railsOn [2, 6, 7, 8]).clocksOn [7, 4, 3, 2]
    if s.fuse.dbgLock then h.setBit Reg.DBG_STAT 39 else h

/-- Step 3: the Crest cores that pass their self-test run the boot ROM (R117). Cores that the retained state names retired, after a
loss of VSYS or a cold Dawn, stay so (R491). -/
def bootCrest (s : State) (pass : BitVec 3) : State :=
  s.onHw fun h =>
    let h := { h with crs := {} }.setReg Reg.CRS_STAT (word (h.pwr.retired % 8 * 16))
    ((List.range 3).foldl (fun (h : Hw) k =>
      if pass.getLsbD k && !h.isRetired k then (h.startCore k 0).setDuty k true
      else (h.holdCore k).setBit Reg.CRS_STAT (4 + k)) h).noteMode

/-- A step fails: the entry, and the boot goes no further (R120). -/
def bootFails (s : State) (n : Nat) : State :=
  (s.logEntry 0x0F (word n)).onHw fun h => h.onPwr fun p => { p with stuck := true }

/-! ### The firmware set and the configuration image (R115, R116, R122, R126 to R130, R692 to R694) -/

/-- The STAGING partitions whose image is ACTIVATED are erased (R694). -/
def eraseActivated (s : State) : State :=
  ((fwTypes.map fun t => (t, 0)) ++ ((List.range 15).map fun v => (4, v + 1))).foldl (fun (s : State) (x : Nat × Nat) =>
    let b := norStaging + (partOf x.1 x.2).1
    if imgPresent (s.nor.image b) ∧ s.nor.image b 63 = markActivated then
      { s with nor := s.nor.erase b (b + (partOf x.1 x.2).2 - 1) }
    else s) s

/-- The images of a set are in force. -/
def takeSet (s : State) (region : Nat → Nat) (gold : Bool) : State :=
  let base := fun t => region t + (partOf t 0).1
  let img := fun t => s.partImage (region t) t 0
  s.onHw fun h =>
    { h with
      pwr := { h.pwr with gold := gold }
      upd := { h.upd with inForce := fwTypes.foldl (fun (m : Tab Nat) t => Tabs.set (fun _ => (0 : Nat)) m t (base t + 1)) h.upd.inForce }
      builds := { h.builds with sfw := imgBuild (img 1), cfw := imgBuild (img 2), fmc := imgBuild (img 3), hvf := imgBuild (img 4) } }

/-- The region that a TYPE in force was taken from. -/
def setRegion (s : State) (t : Nat) : Nat := Tabs.get (fun _ => 0) s.hw.upd.inForce t - 1 - (partOf t 0).1

/-- A slot rejected at step 5 gives its entry (R126, R139). -/
def cfgReject (s : State) (b : Bool) (f : Option (Nat × Nat)) : State := match f with
  | some (code, sect) => s.logEntry 0x04 (word (b2n b * 2 ^ 39 + code * 2 ^ 32 + sect * 2 ^ 16))
  | none => s

/-- The words of the CFG of a slot, header and body. -/
def cfgWords (s : State) (b : Bool) : List Word :=
  let w := s.nor.image (configBase b)
  (List.range (64 + imgLen w)).map w

/-- The CFG of a slot comes into force. -/
def takeCfg (s : State) (b : Bool) : State :=
  let w := s.nor.image (configBase b)
  let c := cfgDecl (s.cfgWords b)
  s.onHw fun h =>
    { h with
      cfg := c
      builds := { h.builds with cfg := imgBuild w }
      pwr := { h.pwr with slotB := b, configSeq := cfgSeq w, configured := true }
      upd := { h.upd with inForce := Tabs.set (fun _ => (0 : Nat)) h.upd.inForce 5 (configBase b + 1) } }

/-- The registers that the sections of a step set. -/
def loadRegs (s : State) (step : Nat) : State :=
  let l := sectRegs (s.cfgWords s.hw.pwr.slotB) step
  s.onHw fun h => l.foldl (fun (h : Hw) x => h.setReg x.1 x.2) h

/-- Step 4 before the BOOT entry: the retention log and the entries owed. -/
def bootLogs (s : State) (cause : Nat) : State := (s.copyRetLog).owedEntries cause

/-- Step 5, the firmware set and the configuration image, with the BOOT entry of step 4. DESIGN CHOICE (log entry 33): R118 lists that
entry at step 4, but its DATA names the slot and CONFIG_SEQ that step 5 selects (R139), so it is written after the selection and before
CFG_REJECT. -/
def bootSelect (s : State) (cause : Nat) : State :=
  let ignored := decide (2 ≤ s.fuse.lifecycle) && s.hw.pwr.straps == 0
  let s := if ignored then (s.logEntry 0x0C (word s.hw.pwr.straps)).onHw fun h => h.onPwr fun p => { p with mode := 3 } else s
  let locked := decide (4 ≤ s.hw.pwr.failed)
  let s := if locked then (s.logEntry 0x0B (word (s.hw.pwr.failed - 1))).onHw fun h => h.onPwr fun p => { p with mode := 2 } else s
  let s := s.retiredErase
  let r := s.chooseSet (if locked then some 2 else if s.hw.pwr.mode = 2 then some 1 else none)
  let s := s.takeSet r.1 r.2.isSome
  let first := s.firstSlot
  let f1 := s.slotCheck first r.1
  let f2 := if f1.isSome then s.slotCheck (!first) r.1 else none
  let none_ := f1.isSome && f2.isSome
  let b := if f1.isSome then !first else first
  let code := fun (f : Option (Nat × Nat)) => (f.map (·.1)).getD 0
  let s := s.onHw fun h => h.onPwr fun p => { p with checks := if first then (code f2, code f1) else (code f1, code f2) }
  let s := if none_ then s else s.takeCfg b
  let s := s.onHw fun h => h.onPwr fun p => { p with recovery := none_ || p.mode == 1 }
  let d := word (cause * 2 ^ 36 + s.hw.pwr.mode * 2 ^ 34 + b2n r.2.isSome * 2 ^ 33 + b2n s.hw.pwr.slotB * 2 ^ 32 +
    s.hw.pwr.configSeq.toNat % 2 ^ 32)
  let s := s.logEntry 0x01 d
  let s := (s.cfgReject first f1).cfgReject (!first) f2
  let s := match r.2 with
    | some (reason, t) => (s.logEntry 0x05 (word (reason * 2 ^ 32 + t * 2 ^ 24))).onHw fun h =>
        { h with upd := { h.upd with goldReason := reason } }
    | none => s
  if locked then s.eraseActivated else s

/-- Steps 6 and 7: the AO registers, the load dies and the rings; the guards are enabled (R114, R118, R121, R441). -/
def bootGuard (s : State) : State :=
  let ws := s.cfgWords s.hw.pwr.slotB
  let s := s.loadRegs 6
  s.onHw fun h =>
    let decl := Config.cfgLoads ws
    let h := { h with snp := { h.snp with cal := calStore ws } }.onLsi fun l =>
      { l with declared := decl, dirty := ((List.range 64).filter fun c => bitN decl c) ++ [64, 65, 66, 67] }
    let h := ((h.setBit Reg.LSI_CTRL 0).setBit Reg.LSI_STAT 0).setBit Reg.SNP_CTRL 0 |>.arm
    h.applyMatrix.vnkStart

/-- The recovery server brings up EP0 and EP1 with the MAC address of the fuses (R130): PLL_S, the frame switch and the two MACs are
enabled. -/
def startRecovery (s : State) : State :=
  if !s.hw.pwr.recovery then s
  else s.onHw fun h =>
    let h := { h with cfg := { h.cfg with sw := { h.cfg.sw with mac := s.fuse.mac.toNat } } }
    (((h.clocksOn [1]).setBit Reg.SWC_CTRL 0).setBit (Reg.MAC_CTRL 0) 0).setBit (Reg.MAC_CTRL 1) 0

/-- A boot, to the end of step 7 (R118). -/
def boot (s : State) (cause : Nat) (b : BootFacts) : State :=
  let s := s.bootStart cause b.straps
  if b.fail.val = 1 then s.bootFails 1
  else if b.fail.val = 2 then (if b.vnor then (s.onHw fun h => h.railsOn [8]) else s).bootFails 2
  else
    let s := (s.bootRails).bootCrest b.selftest
    if b.fail.val = 3 || (s.hw.duty.isEmpty) then s.bootFails 3
    else
      let s := s.bootLogs cause
      if b.fail.val = 4 then s.bootFails 4
      else
      let s := (s.bootSelect cause).startRecovery
      if !s.hw.pwr.configured then s
      else if b.fail.val = 6 then s.bootFails 6
      else
        let s := s.bootGuard
        if b.fail.val = 7 then s.bootFails 7 else s

/-! ### Starts that succeed (R691, R702) -/

/-- The STAGING image in force of a TYPE has started: it is PROVEN, and is to be copied into ACTIVE (R691, R702). -/
def proven (s : State) (type slot : Nat) : State :=
  let w := s.partImage norStaging type slot
  if imgPresent w ∧ w 63 = markActivated then
    (s.setMark type slot markProven).onHw fun h =>
      { h with upd := { h.upd with copies := (h.upd.copies ++ [16 * type + slot]).eraseDups } }
  else s

/-- A TYPE in force came from STAGING: its start counts. -/
def provenSet (s : State) (types : List Nat) : State :=
  (types.filter fun t => s.setRegion t == norStaging).foldl (fun (s : State) t => s.proven t 0) s

/-- The PROVEN image of a partition is copied into ACTIVE, word 0 last, and the STAGING partition is erased (R702). -/
def copyActive (s : State) (type slot : Nat) : State :=
  let w := s.partImage norStaging type slot
  let p := partOf type slot
  if !s.hw.norOn || !imgPresent w || w 63 ≠ markProven then s
  else
    let n := 64 + imgLen w
    let body := (List.range (n - 1)).map fun i => if i = 62 then erased else w (i + 1)
    let nor := s.nor.erase (norActive + p.1) (norActive + p.1 + p.2 - 1)
    let nor := (nor.programList (norActive + p.1 + 1) body).program (norActive + p.1) (w 0)
    let nor := nor.erase (norStaging + p.1) (norStaging + p.1 + p.2 - 1)
    let key := if type = 4 then (if slot = 0 then 4 else 16 + slot) else type
    { s with nor := nor }.onHw fun h =>
      { h with upd := { h.upd with
          copies := h.upd.copies.filter (· ≠ 16 * type + slot)
          inForce := if Tabs.get (fun _ => 0) h.upd.inForce key = norStaging + p.1 + 1 then
              Tabs.set (fun _ => (0 : Nat)) h.upd.inForce key (norActive + p.1 + 1)
            else h.upd.inForce } }

/-- PROVEN images whose copy was interrupted are copied at step 8 (R702). -/
def copyProven (s : State) : State :=
  ((fwTypes.map fun t => (t, 0)) ++ ((List.range 15).map fun v => (4, v + 1))).foldl (fun (s : State) (x : Nat × Nat) => s.copyActive x.1 x.2) s

/-! ### Step 8 (R118, R692) -/

/-- The images of the set pass at step 8, or GOLD replaces them all; `none` where GOLD fails or the CFG fails against it. -/
def proveSet (s : State) : State × Bool :=
  if s.hw.pwr.gold then (s, s.goldOk)
  else match s.setFault s.setRegion with
    | none => (s, true)
    | some (r, t) =>
      let s := (s.logEntry 0x05 (word (r * 2 ^ 32 + t * 2 ^ 24))).onHw fun h => { h with upd := { h.upd with goldReason := r } }
      if !s.goldOk then (s, false)
      else if (s.slotCheck s.hw.pwr.slotB fun _ => norGold).isSome then
        (s.onHw fun h => h.onPwr fun p => { p with recovery := true }, false)
      else (s.takeSet (fun _ => norGold) true, true)

/-- What the WORLDS section declares stands in the units of SYS; the two sources of a channel belong to its receiver and its sender
(R527, R552), and to no identity where the end is open or the fabric manager. -/
def loadWorlds (s : State) : State :=
  s.onHw fun h =>
    let w := h.cfg.worlds
    let h := h.loadFdb h.cfg.sw.fdb
    let h := { h with fi := w.insts, worldChan := w.worldChan, powerChan := w.powerChan, vms := w.vms, srcAuth := w.srcs }
    w.chans.foldl (fun (h : Hw) x =>
      let own := fun (h : Hw) (i o : Nat) => h.setReg (Reg.IRQ_SRC i) (withBits (h.reg (Reg.IRQ_SRC i)) 39 32 (o % 0x100))
      let h := own (own h (0x40 + 2 * x.1) x.2.2.1) (0x41 + 2 * x.1) x.2.1
      h.setChan x.1 { sender := x.2.1, recv := x.2.2.1, dfltSender := x.2.1, dfltRecv := x.2.2.1, grant := x.2.2.2.1, claim := x.2.2.2.2 }) h

/-- Crest takes over from the boot ROM: the duty cores run the CFW from CRS_BOOT_VEC. -/
def crestTakes (s : State) : State :=
  s.onHw fun h =>
    (h.duty.foldl (fun (h : Hw) k => h.startCore k.val (h.reg Reg.CRS_BOOT_VEC)) h).newWindow.noteMode

/-- The application cores that are on leave reset, into the secure firmware at L3 (R509). -/
def releaseApps (h : Hw) : Hw := (List.range 8).foldl (fun (h : Hw) k =>
  if h.appOn k && (h.appCore k).inReset then h.setAppCore k { Core.appInit with inReset := false } else h) h

/-- The modes that the CONTROLLER records name take effect: BUS starts error-active, SLEEP frozen (R652, R653, R678). -/
def canModes (h : Hw) : Hw := (List.range 4).foldl (fun (h : Hw) n =>
  let m := h.fld (Reg.CAN_CTRL n) Fld.CAN_CTRL_MODE
  let h := if m = 2 then h.setFld (Reg.CAN_STAT n) Fld.CAN_STAT_FROZEN 1 else h
  if m = 0 then h else h.setFld (Reg.CAN_STAT n) Fld.CAN_STAT_STATE (if m = 2 then 4 else 1)) h

/-- Step 8: SFW and CFW are checked and started, and the sections of the step are loaded; the firewall and the interrupt controller are
enabled, and then the application cores run the secure firmware (R509, R530); each declared MAC is enabled (R555). -/
def startControl (s : State) (fail : Bool) : State :=
  if (s.hw.pwr.stuck && s.hw.pwr.top < 2) || s.hw.pwr.reached || s.hw.pwr.recovery || !s.hw.pwr.configured || s.hw.level = 0 then s
  else
    let r := s.copyProven.proveSet
    let s := r.1
    if !r.2 then (if s.hw.pwr.recovery then s.startRecovery else s.bootFails 8)
    else if fail then s.bootFails 8
    else
      let s := s.onHw fun h => h.railsOn [2, 8]
      let s := if s.hw.duty.isEmpty then s.bootCrest (7#3) else s
      let s := ((s.loadRegs 8).loadWorlds).crestTakes
      s.onHw fun h =>
        let h := (((h.clocksOn [1]).setBit Reg.SWC_CTRL 0).setBit Reg.IRQ_CTRL 0).setBit Reg.WLD_CTRL 0
        let h := (h.cfg.sw.ports.filter isEp).foldl (fun (h : Hw) p => h.setBit (Reg.MAC_CTRL p) 0) (canModes h)
        ((releaseApps h).onPwr fun p => { p with reached := true, failed := 0 }).hoRequest .crest 2 false 40 2

/-! ### Step 9 and cold restarts (R118, R135, R136) -/

/-- A declared page is placed at a restart, at home where that can be (R294, R303); its steps begin with the next span. -/
def placeFresh (s : State) (g : Nat) : State :=
  match s.hw.chooseTarget g (fun _ => false) with
  | none => s.onHw fun h => h.unplace g
  | some (e, f) =>
    let at_ := s.hw.lc + 1
    let s := s.onHw fun h => h.setPage g { state := .resident, engine := e, frame := f, last := at_, certain := at_, shadowLc := at_ }
    let prm := s.initParams g
    (s.loadPage g).onHw fun h => h.setPage g { h.page g with params := prm }

/-- Every declared page, in order. -/
def declaredPages (s : State) : List Nat := (List.range 17744).filter fun g => s.hw.pageDeclared g

/-- A cold restart: the entry of the fault log, and every page from the checkpoint or its initial values (R135, R136, R369). -/
def coldRestart (s : State) : State :=
  let d := s.restartData
  let s := s.logEntry 0x0A d
  let s := s.onHw fun h =>
    let pend := h.fab.cfgSwitch.isSome || h.fab.mcSwitch.isSome
    let act := h.upd.act.isSome
    let h := (h.cancelLc false).cancelCal
    { h with
      fab := { ltCount := h.fab.ltCount, sinceCkpt := h.fab.sinceCkpt }
      pwr := { h.pwr with restart := some d, cancelled := h.pwr.cancelled || pend, lost := false }
      upd := if act then { h.upd with act := none, updResult := 6 } else h.upd }
  s.declaredPages.foldl (fun (s : State) g => s.placeFresh g) s

/-- The FMC in force stands in slot 0 of the DRAM and of every powered ridge (R118, R306). -/
def loadFmc (s : State) : State :=
  let w := s.inForce 3
  let body := (List.range (min (imgLen w) 0x4000)).map fun i => w (64 + i)
  s.onHw fun h =>
    let h := h.writeRamList (slotImage 0 0) body
    let h := (h.setFld Reg.FAB_STAT Fld.FAB_STAT_MC_SLOT 0).setReg Reg.FAB_MC_STAT 0
    ((List.range 16).filter fun r => h.islandOn r).foldl (fun (h : Hw) r => h.reloadSlot r 0) h

/-- The hypervisor starts VM0. -/
def startApps (s : State) : State :=
  s.onHw fun h =>
    let h := releaseApps h
    let x := h.vmSlot 0
    if x.declared && x.state = .empty then h.setVmSlot 0 { x with state := .starting } else h

/-- Step 9, and a rise to Full after the fabric or the DRAM was lost: the rails, the DRAM, the FMC, the pages and VM0. -/
def startFull (s : State) (fail : Bool) : State :=
  let s := s.onHw fun h => ((h.railsOn [3, 4, 5]).clocksOn [6, 5])
  if fail then s.bootFails 9
  else
    let s := (s.loadRegs 9).onHw fun h =>
      ((h.setReg Reg.DMC_STAT 1).setReg Reg.PWR_ISLAND_PG 0xFFFF).setBit Reg.FAB_CTRL 0
    (s.loadFmc.coldRestart).startApps

/-- A rise to Full needs step 9 first. -/
def needsStart (s : State) : Bool := !s.hw.fabOn || !s.hw.dramOn || s.hw.pwr.lost || s.hw.fab.pages.isEmpty

/-- Full is reached: the state is Day, and the images in force are proven (R74, R691). -/
def reachFull (s : State) : State :=
  let s := (s.onHw fun h =>
    let h := h.setLevel 3
    if h.pstate = psBoot then h.setFld Reg.PWR_STATE Fld.PWR_STATE_STATE psDay else h)
  s.provenSet [3, 4]

/-- The service level rises by one step where every unit of it works (R110, R118). `fail`: a step of the boot that the rise needs
fails. -/
def levelRise (s : State) (fail : Bool) : State :=
  let s := if s.hw.level = 1 then s.startControl fail
    else if s.hw.level = 2 && s.needsStart && (!s.hw.pwr.stuck || 3 ≤ s.hw.pwr.top) then s.startFull fail
    else if s.hw.level = 2 && (s.hw.vmSlot 0).state = .empty then s.startApps else s
  let l := s.hw.level
  if s.hw.levelNow ≤ l then s
  else if l = 0 then s.onHw fun h => (h.setLevel 1).openTripOut
  else if l = 1 then (s.onHw fun h => h.setLevel 2).provenSet [1, 2]
  else s.reachFull

end State

end Sys2Proof.Machine
end

