-- ==== Sys2Proof/Machine/GuardRows.lean ====
section
/-! DEFINITION. The rows of the guards (R431 to R441, R446). -/

namespace Sys2Proof.Machine

/-- STOP_MESSAGE_REPEAT: the second and the third transmission of the stop message (R437). -/
def execStopMessageRepeat (s : State) : Result :=
  .next (s.onHw fun h =>
    if h.grd.stops = 0 then h else { h.sendStop with grd := { h.grd with stops := h.grd.stops - 1 } })

/-- WARNING_END: a warning whose condition has been absent for WCLR guard cycles in a row ends (R433). -/
def execWarningEnd (e : Fin 928) (s : State) : Result :=
  .next (s.onHw fun h =>
    if evWarning e && h.evActive e && !h.evCond e &&
        decide (h.fld Reg.GRD_CTRL Fld.GRD_CTRL_WCLR ≤ Tabs.get (fun _ => 0) h.grd.absent e) then h.endEvent e
    else h)

/-- MEAS_TIMEOUT: a guarded channel without a compared value for MEAS_LIMIT guard cycles raises MEAS of its zone (R431). -/
def execMeasTimeout (k : Fin 16) (p : Fin 160) (j : Fin 20) (s : State) : Result :=
  .next (s.onHw fun h =>
    let c := Hw.chanKey k p j
    if h.grdOn && decide (j < Hw.chansOf p) && h.guarded_ k p j && !h.grd.measOut.contains c &&
        decide (h.fld Reg.GRD_CTRL Fld.GRD_CTRL_MEAS_LIMIT ≤ Tabs.get (fun _ => 0) h.grd.meas c) then
      ({ h with grd := { h.grd with measOut := c :: h.grd.measOut } }).raiseEvent (0x300 + h.zoneOf k p j) k p false
    else h)

/-- LATCH_CLEAR: a write of 1 to the event's bit of GRD_EVT_LATCH (R433). -/
def execLatchClear (who : Who) (e : Fin 928) (s : State) : Result :=
  .next (s.onHw fun h => h.guarded who (Reg.GRD_EVT_LATCH (e / 40)) fun h => h.clearLatch e)

/-- SAFE_ENTER: a write of ENTER (R438). -/
def execSafeEnter (who : Who) (s : State) : Result :=
  .next (s.onHw fun h => h.guarded who Reg.GRD_SAFE fun h => h.writeSafe who 1)

/-- SAFE_EXIT: a write of EXIT (R439). -/
def execSafeExit (who : Who) (s : State) : Result :=
  .next (s.onHw fun h => h.guarded who Reg.GRD_SAFE fun h => h.writeSafe who 2)

/-- TRIP_IN_CHANGE: a TRIP_IN has held its new level for its filter time. An unused one shows its level, is counted as undeclared, and
never reaches the trip matrix (R66, R131, R440). -/
def execTripInChange (i : Fin 2) (level : Bool) (s : State) : Result :=
  .next (s.onHw fun h =>
    if !h.aoOn then h
    else
      let h := if level then h.setBit Reg.GRD_TRIPIN (18 + i) else h.clearBit Reg.GRD_TRIPIN (18 + i)
      if h.bit Reg.GRD_TRIPIN (16 + i) then h.tripIn i else if level then h.undeclare 6 else h)

/-- CRS_TRIP_WRITE (R432, R450). -/
def execCrsTripWrite (who : Who) (v : Byte) (s : State) : Result :=
  .next (s.onHw fun h => h.guarded who Reg.GRD_CRS_TRIP fun h => h.writeCrsTrip who (word v.toNat))

/-- PENDING_ARM (R446). -/
def execPendingArm (who : Who) (s : State) : Result :=
  .next (s.onHw fun h => h.guarded who Reg.GRD_PEND_CTL fun h => h.writePend who 1)

/-- PENDING_DISCARD (R446). -/
def execPendingDiscard (who : Who) (s : State) : Result :=
  .next (s.onHw fun h => h.guarded who Reg.GRD_PEND_CTL fun h => h.writePend who 2)

/-- PENDING_APPLY: the SI of GRD_PEND_LC, or a later one, has come (R446). -/
def execPendingApply (s : State) : Result :=
  .next (s.onHw fun h =>
    if h.aoOn && h.bit Reg.GRD_PEND_CTL 2 && decide ((h.reg Reg.GRD_PEND_LC).toNat ≤ h.lc) then h.applyPend else h)

end Sys2Proof.Machine
end

