-- ==== Sys2Proof/Machine/Dusk.lean ====
section
/-! DEFINITION. Dusk, Night with its bursts, Dawn, and Off (R79 to R99). -/

namespace Sys2Proof.Machine

/-! ### NOR operations that power or a last gasp ends (R160) -/

/-- The words of a running operation: an erase takes whole erase blocks. -/
def NorOp.range (o : NorOp) : Nat × Nat := (o.addr, o.addr + o.len - 1)

namespace State

/-- An operation in progress ends: its words are left undefined, and NOR_STAT takes the result (R160, R166). -/
def norEnds (s : State) (result : Nat) : State :=
  match s.hw.norOp with
  | none => s
  | some o =>
    let gen := s.hw.norAborts + 1
    { s with nor := s.nor.undefine o.range.1 o.range.2 gen }.onHw fun h =>
      let h := { h with norOp := none, norAborts := gen }
      (h.setFld Reg.NOR_STAT Fld.NOR_STAT_RESULT result).clearBit Reg.NOR_STAT 0

end State

namespace Hw

/-! ### Rack currents (R76, R85) -/

/-- The inputs that carry the declared rack currents. -/
def rackInputs (h : Hw) : List Nat := (h.cfg.fab.cells.filterMap fun e => e.2.map (·.current)).eraseDups

/-- PWR_NIGHT_ITH, in I40. -/
def nightIth (h : Hw) : Int := (h.reg Reg.PWR_NIGHT_ITH).toInt

/-- A cycle in which every rack current lies below the threshold: a marker or a value that is not VALID does not. -/
def quietCycle (h : Hw) (n : Nat) : Bool :=
  h.rackInputs.all fun id => match h.known n id with
    | some (.value v st) => bitsOf st 11 10 == 0 && decide ((v.toInt.natAbs : Int) < h.nightIth)
    | _ => false

/-! ### Dusk begins (R80, R82, R312) -/

/-- A Crest group in SOLO or SPLIT holds its single cores in a last gasp, and a pending request ends ABORTED (R496). -/
def gaspCrest (h : Hw) : Hw :=
  let h := (List.range 3).foldl (fun (h : Hw) k => if h.isSingle k then h.holdCore k else h) h
  if h.crs.request.isSome then h.endRequest 5 else h

/-- The state is Dusk: its target, its cause and T0; commands not yet due are dropped. -/
def duskState (h : Hw) (target cause : Nat) : Hw :=
  let h := (h.setFld Reg.PWR_STATE Fld.PWR_STATE_STATE psDusk).setFld Reg.PWR_STATE Fld.PWR_STATE_TARGET target
  (h.setFld Reg.PWR_STATE Fld.PWR_STATE_CAUSE cause).onPwr fun p =>
    { p with duskAt := h.lc, cmds := [], reset := none, dwellAt := none, quiet := 0, wakes := 0 }

/-- T0: the state is Dusk, the span ends with the cycle of the last SI, audits are abandoned, sessions close, candidates and the wake
window are dropped. The journal ends at once where every closed cycle is committed already. -/
def duskBegin (h : Hw) (target cause : Nat) : Hw :=
  let h := h.duskState target cause
  let h := if h.spanRuns then { h with fab := { h.fab with spanEnd := h.lc + 1 } } else h
  let h := if h.fab.audit.isSome then h.auditEnd 5 else h
  ((((h.closeForDusk).cancelLc (target == 1)).cancelCal).dropCands.dropWindow).endDay

/-- Step 2 of a Dusk is done: the journal has been ended, or the fabric does not run or has no span; and, unless it is a gasp, the
exporter has sent every word up to its end, where it runs (R80). -/
def duskCommitted (h : Hw) : Bool :=
  !h.journalOn || h.fab.spanStart == 0 ||
    (h.fab.ended && (h.pwr.gasp || !h.exporterOn || (h.reg Reg.FAB_JNL_XPOS).toNat == h.wpos))

/-! ### Power-down (R94) -/

/-- Steps 1 to 5 of R94. -/
def powerDown5 (h : Hw) : Hw := (h.dropFab.dropSys.railsOff [2, 3, 8]).clocksOff [1, 2, 3, 4, 5, 6, 7]

/-- The hardware in Off: nothing is powered, and every hard line reads asserted (R74, R477). -/
def off (old : Hw) : Hw :=
  let p := old.pwr
  let h : Hw :=
    { lsi := { dies := old.lsi.dies }, out := old.out, free := old.free, status := old.status, bus := old.bus, busErr := old.busErr
      upd := { lifecycleNext := old.upd.lifecycleNext }, pwr := { failed := p.failed, lockout := p.lockout } }
  (((h.linesDown fun _ _ => true).setReg Reg.PWR_RAIL_PG (word (b2n (old.bit Reg.PWR_RAIL_PG 0)))).setReg Reg.CLK_STAT 0).floatHardLines

/-! ### Night (R83 to R87) -/

/-- The Night record is cleared (R86, R87). -/
def clearNight (h : Hw) : Hw := ((h.zeroRam (retention + 0x400) 0x2810).onPwr fun p => { p with folded := [] })

/-- The hot segment of a page is written back to its backing words (R80 step 3), with the tags of the current cycle (R145). A
poisoned word stays poisoned where it goes (log entry 27). -/
def writeBack (h : Hw) (g : Nat) : Hw :=
  let p := h.page g
  if p.state = .resident ∨ p.state = .rebuilding then
    (List.range 256).foldl (fun (h : Hw) o =>
      h.setRam (backing g o) { h.ram (frameAddr p.engine p.frame o) with tag := h.tagNow }) (h.foundIn (frameAddr p.engine p.frame 0) 256)
  else h

/-- What a burst folds of a node: its values with the channels of its lowest and highest. -/
structure Fold where
  mean : Int
  lowCh : Nat
  highCh : Nat
  deriving DecidableEq, Repr

/-- The mean of some valid values and the channels of their extremes; the lowest channel wins a tie (R86, R87). -/
def foldOf (l : List (Nat × Int)) : Option Fold := match l with
  | [] => none
  | x :: _ =>
    let low := l.foldl (fun b y => if y.2 < b.2 then y else b) x
    let high := l.foldl (fun b y => if b.2 < y.2 then y else b) x
    some { mean := rhe ((l.map (·.2)).foldl (· + ·) 0) l.length, lowCh := low.1, highCh := high.1 }

/-- The valid values of a node's channels lo to hi. -/
def validOf (recs : List SnapRec) (k p lo hi : Nat) : List (Nat × Int) :=
  (List.range (hi + 1 - lo)).filterMap fun i =>
    (recs.find? fun r => r.1 == ringInput k p (lo + i) && bitsOf r.2.2 11 10 == 0).map fun r => (i, r.2.1.toInt)

/-- One triple of a node record: minimum, maximum and average at word w, the channel fields of word 6 (R87). -/
def foldTriple (h : Hw) (node w : Nat) (first : Bool) (f : Fold) (lowHi highHi width : Nat) (chans : Bool) : Hw :=
  let a := nodeRecord node
  let h := h.foundIn a 8
  let old := fun i => (h.ram (a + w + i)).word.toInt
  let wr := fun (h : Hw) i (v : Int) => h.writeRam (a + w + i) (BitVec.ofInt 40 v)
  let setCh := fun (h : Hw) hi (c : Nat) =>
    if chans then h.writeRam (a + 6) (withBits (h.ram (a + 6)).word hi (hi + 1 - width) c) else h
  if first then setCh (setCh (wr (wr (wr h 0 f.mean) 1 f.mean) 2 f.mean) lowHi f.lowCh) highHi f.highCh
  else
    let avg := old 2 + rhe (f.mean - old 2) 64
    let h1 := if f.mean < old 0 then setCh (wr h 0 f.mean) lowHi f.lowCh else h
    let h2 := if old 1 < f.mean then setCh (wr h1 1 f.mean) highHi f.highCh else h1
    wr h2 2 avg

/-- Adds 1 to a 20-bit count that saturates, at [hi:hi - 19] of a word. -/
def nightCount (h : Hw) (a hi : Nat) : Hw :=
  let w := (h.ram a).word
  let v := bitsOf w hi (hi - 19)
  if v = 0xFFFFF then h else h.writeRam a (withBits w hi (hi - 19) (v + 1))

/-- Sets a bit of a word of the Night record. -/
def nightBit (h : Hw) (a i : Nat) (v : Bool) : Hw := if v then h.writeRam a (withBits (h.ram a).word i i 1) else h

/-- A burst is folded into a node's record (R86, R87). `warn` and `trip`: an event of the node is on; `diff`: its copies differ. -/
def foldNode (h : Hw) (k p : Nat) (recs : List SnapRec) (warn trip diff gone : Bool) : Hw :=
  let node := 160 * k + p
  let a := nodeRecord node
  let cell := decide (p < 128)
  let x := foldOf (if cell then validOf recs k p 0 15 else validOf recs k p 0 0)
  let y := foldOf (if cell then validOf recs k p 16 19 else validOf recs k p 1 1)
  let seen := Tabs.get (fun _ => 0) h.pwr.folded node
  let h := match x with
    | some f => h.foldTriple node 0 (seen % 2 == 0) f 39 35 4 cell
    | none => h
  let h := match y with
    | some f => h.foldTriple node 3 (seen / 2 % 2 == 0) f 31 29 2 cell
    | none => h
  let mask := (if x.isSome ∨ seen % 2 = 1 then 1 else 0) + (if y.isSome ∨ seen / 2 % 2 = 1 then 2 else 0)
  let h := h.onPwr fun q => { q with folded := Tabs.set (fun _ => (0 : Nat)) q.folded node mask }
  let h := if x.isSome ∨ y.isSome then h.nightCount (a + 6) 27 else h.nightCount (a + 7) 39
  (((h.nightBit (a + 6) 3 warn).nightBit (a + 6) 2 trip).nightBit (a + 6) 1 diff).nightBit (a + 6) 0 gone

/-- The events that a node and the device found at a position in this cycle. -/
def eventsAt (h : Hw) (k p : Nat) : List Nat :=
  (Tabs.get (fun _ => (none : Option (List Nat))) h.grd.nodeSide (160 * k + p)).getD [] ++
    (Tabs.get (fun _ => (none : Option (List Nat))) h.grd.devSide (160 * k + p)).getD []

/-- The header of the Night record. -/
def nightHeader (h : Hw) (n : Nat) : Hw :=
  let a := retention + 0x2C00
  let h := h.foundIn a 3
  let c := (h.ram (a + 2)).word.toNat
  let h := if c = 0 then h.writeRam a (word n) else h
  (h.writeRam (a + 1) (word n)).writeRam (a + 2) (word (c + 1))

/-- A frame of a burst. -/
def burstRx (h : Hw) (x : BurstRx) : Hw := match x with
  | .cs k endB f => h.rxCs k.val endB f
  | .gd k endB g => h.rxGuard k.val endB g
  | .ms k endB f => h.rxMeas k.val endB 3 f
  | .ax k endB f => h.rxMeas k.val endB 4 f
  | .dmReq k endB f => h.rxDmReq k.val endB f
  | .dmRsp k endB f rtt => h.rxDmRsp k.val endB f rtt
  | .dmAcc k endB f => h.rxDmAcc k.val endB f

/-- The instance that a frame of a burst arrives on. -/
def burstRing (x : BurstRx) : Nat := match x with
  | .cs k _ _ => k
  | .gd k _ _ => k
  | .ms k _ _ => k
  | .ax k _ _ => k
  | .dmReq k _ _ => k
  | .dmRsp k _ _ _ => k
  | .dmAcc k _ _ => k

/-- What the load dies sense, as the LSI's steps take it. -/
def senseOf (x : LoadFacts) (c : Nat) : Nat × Bool × Bool := match x.sense.find? fun e => e.1.val == c with
  | some e => e.2
  | none => (0, false, false)

/-- The instances that run a burst cycle at LC n: at the device's own burst instant those it leads, and at its leader's a ring that it
stands by (R247). -/
def burstRings (h : Hw) (n : Nat) (own : Bool) : List Nat :=
  (List.range 16).filter fun k => match (h.ring k).burstNext with
    | some m => h.phase k ≠ 0 && m == n
    | none => own && h.phase k == 7

/-- What the ends send in a burst cycle: CS, the balancing frames with every mask 0, REQ, and ACC at the end (R186, R198). -/
def burstSends (h : Hw) (k n : Nat) : Hw :=
  let h := ((h.setIdle k false).takeRole k n).sendCsSlot k n
  let h := if h.leads k then h.sendMasks k n else h
  if h.lcKnown k then h.sendReq k n else h

/-- The frames of a burst cycle at LC n and the end of its ring cycle on some instances (R84 steps 2 to 5, R247). -/
def burstFrames (h : Hw) (ks : List Nat) (frames : List BurstRx) : Hw :=
  (frames.filter fun f => ks.contains (burstRing f)).foldl (fun h f => h.burstRx f) h

/-- The burst cycle ends on some instances: breaks, ports, the guard cycle, and electrical idle until the next (R84 step 7, R240, R246). -/
def burstEnds (h : Hw) (n : Nat) (ks : List Nat) : Hw :=
  let h := ks.foldl (fun (h : Hw) k => (h.endsHere k).foldl (fun (h : Hw) e => h.breakAt k e) (if h.lcKnown k then h.sendAcc k n else h)) h
  let ports := ks.flatMap fun k => (h.endsHere k).map fun e => h.portOf k e
  let h := (ports.foldl (fun (h : Hw) p => h.closePort p) h).closeGuardCycle ks
  ks.foldl (fun (h : Hw) k => (h.closeRingCycle k n).setIdle k true) h

/-- The device's own part of a burst: one refresh of each die, the records, the fold, and the wake that a rack current or the timer gives
(R84 to R89). -/
def burstOwn (h : Hw) (n : Nat) (x : LoadFacts) : Hw × Nat :=
  let h := (h.supplies x.supply).lsiBurst n (senseOf x) (x.mute.map (·.val))
  let facts := (List.range 8).flatMap fun k => (h.declared k).map fun p =>
    let es := h.eventsAt k p
    let r := h.recOf n k p
    (k, p, es.any evWarning, es.any (fun e => !evWarning e), !r.diff.isEmpty, r.payload.isEmpty)
  let y := h.finishAll n
  let loads := (Tabs.keep y.1.snp.loads (64 * n) (64 * n + 63)).map fun e => (loadInput (e.1 % 64 / 16) (e.1 % 16), e.2.1, e.2.2)
  let h := facts.foldl (fun (h : Hw) f => h.foldNode f.1 f.2.1 y.2 f.2.2.1 f.2.2.2.1 f.2.2.2.2.1 f.2.2.2.2.2) (y.1.nightHeader n)
  let h := h.closeRest n y.2
  let rack := (y.2 ++ loads).any fun r => h.rackInputs.contains r.1 && bitsOf r.2.2 11 10 == 0 &&
    decide (h.nightIth ≤ (r.2.1.toInt.natAbs : Int))
  let timer := h.bit Reg.WAKE_EN 11 && decide ((h.reg Reg.WAKE_TIMER).toNat ≤ n)
  (h, b2n rack * 2 ^ 10 + b2n timer * 2 ^ 11)

/-- The burst at LC n with its clocks on (R84 to R87, R247): the ring cycle of the instances concerned, and at the device's own instant its
own part; a guard event that is on afterwards wakes. -/
def burstRun (h : Hw) (n : Nat) (own : Bool) (frames : List BurstRx) (x : LoadFacts) : Hw :=
  let ks := h.burstRings n own
  let h := { h.setReg Reg.VNK_CYCLE (word n) with frozen := true }
  let h := (ks.foldl (fun (h : Hw) k => h.burstSends k n) h).burstFrames ks frames
  let y := if own then h.burstOwn n x else (h, 0)
  let h := y.1.burstEnds n ks
  h.wake (b2n (h.eventsOn.any fun e => h.evCond e) * 2 ^ 9 + y.2)

/-- The burst at LC n: the TCXO and PLL_V start for it and stop after it (R84 steps 1, 2 and 7), but for a source that has failed
twice (R73); a clock that runs already goes on. -/
def burst (h : Hw) (n : Nat) (own : Bool) (frames : List BurstRx) (x : LoadFacts) : Hw :=
  let start := [7, 2].filter fun c => !h.bit Reg.CLK_STAT c && !bitN h.pwr.unclocked c
  let h := (h.clocksOn start).burstRun n own frames x
  (h.clocksOff start).onPwr fun p => { p with restarted := 0, unclocked := 0 }

/-- An instance goes into the device's Night: one that this device leads changes to burst operation; at the other end of a ring that
itself runs bursts it goes on with them; otherwise the end sleeps, or waits for its cold start again (R84, R247, R248). -/
def ringToNight (h : Hw) (k : Nat) : Hw :=
  let h := if (h.ring k).burstNext.isSome then h
    else if h.cycling k && (h.closedRing k || h.leads k) then (h.leaveCycles k).setPhase k 7
    else if h.cycling k then (h.leaveCycles k).integrate k
    else if h.phase k = 4 then h.integrate k
    else (h.onRing k fun r => { r with early := true, c1 := 0, next := 0 }).setPhase k 1
  h.setIdle k true

/-- An instance comes out of it: burst operation becomes cycle operation, and an end that slept integrates (R90, R222, R248). -/
def ringToDay (h : Hw) (k : Nat) : Hw :=
  if (h.ring k).burstNext.isSome then h
  else
    let h := h.setIdle k false
    if h.phase k = 7 then (h.ringStat k 22 true).setPhase k (if (h.ring k).complete then 6 else 5) else h

/-- The rings change to burst operation, or back to cycle operation (R84, R90, R247). -/
def ringsNight (h : Hw) (night : Bool) : Hw :=
  let ks := (List.range 16).filter fun k => h.phase k ≠ 0
  if night then ks.foldl (fun (h : Hw) k => h.ringToNight k) (h.setBit Reg.VNK_CTRL 1)
  else ks.foldl (fun (h : Hw) k => h.ringToDay k) (h.clearBit Reg.VNK_CTRL 1)

/-- CFG_DIE with the Night or the Day window goes with the last refresh (R472). -/
def dieWindows (h : Hw) (night : Bool) : Hw :=
  if h.lsiOn then (List.range 4).foldl (fun (h : Hw) d => h.sendCfgDie d night) h else h

/-- The words of the power controller's retained state follow DRAM_WARM and CLK_SLOW_TRIM (R86). -/
def writeRetained (h : Hw) : Hw :=
  h.writeRamList retention ((List.range 256).map (Config.retained (h.bit Reg.PWR_STATE 7) (h.reg Reg.CLK_SLOW_TRIM) h.lc))

/-- Night begins: steps 1 to 5 of R94, the DRAM kept where it could enter self-refresh, and the level is Guard (R80, R91, R95). -/
def enterNight (h : Hw) : Hw :=
  let warm := h.sysOn && h.dramOn
  let old := h.level
  let h := ((h.ringsNight true).dieWindows true).onPwr fun p =>
    { p with burstAt := (p.duskAt + 149) / 100 * 100, night := true, retired := if h.sysOn then h.retiredMask else p.retired }
  let h := h.powerDown5
  let h := (if warm then h.setBit Reg.PWR_STATE 7 else h.dropDram.clearBit Reg.PWR_STATE 7).writeRetained
  let h := (h.setFld Reg.PWR_STATE Fld.PWR_STATE_STATE psNight).setFld Reg.PWR_STATE Fld.PWR_STATE_TARGET 0
  let h := if old = 0 then h else h.setFld Reg.PWR_STATE Fld.PWR_STATE_LEVEL 1
  if old ≤ 1 then h else h.retEntry 0x06 (word (old * 16 + 1))

/-! ### Dawn (R90 to R93) -/

/-- Crest resumes with every core that is not retired in the duty group (R90). -/
def crestResumes (h : Hw) : Hw :=
  let lead := h.crestCore ((h.duty.head?.map (·.val)).getD 0)
  let h := { h with crs := { h.crs with testing := none, held := none, request := none, validated := false } }.clearBit Reg.CRS_STAT 18
  ((List.range 3).foldl (fun (h : Hw) k =>
    if h.isRetired k then h else (h.setCrestCore k { lead with inReset := false }).setDuty k true) h).newWindow.noteMode

/-- The hot segment of every page and both microcode slots return to the ridge stores (R90 step 4), with the tags of the current
cycle (R145). -/
def reloadRidges (h : Hw) : Hw :=
  let h := h.fab.pages.foldl (fun (h : Hw) x =>
    if x.2.state = .resident ∨ x.2.state = .rebuilding then
      (List.range 256).foldl (fun (h : Hw) o =>
        h.setRam (frameAddr x.2.engine x.2.frame o) { h.ram (backing x.1 o) with tag := h.tagNow }) (h.foundIn (backing x.1 0) 256)
    else h) h
  ((List.range 16).filter fun r => h.islandOn r).foldl (fun (h : Hw) r => (h.reloadSlot r 0).reloadSlot r 1) h

/-- What resumes from the warm state: the registers of SYS and FAB, the cores, the VMs, the fabric's tables and the settings; the AO
domain, the retention SRAM and the DRAM stand as they are, and no queue, session or frame outlives the Night. -/
def resumed (cur w : Hw) : Hw :=
  let ao := cur.regs.filter fun e => aoReg e.1
  let rest := w.regs.filter fun e => !aoReg e.1
  let ctls : Tab CanCtl := w.can.ctls.foldl (fun (t : Tab CanCtl) e => Tabs.set (fun _ => ({} : CanCtl)) t e.1 { busOff := e.2.busOff }) []
  let mbx : Tab Channel := w.mbx.foldl (fun (t : Tab Channel) e =>
    Tabs.set (fun _ => ({} : Channel)) t e.1 { e.2 with credits := 16, queue := [], done := [], history := [] }) []
  let sec := Tabs.keep w.mem 0x100000 0x17FFFF
  { cur with
    regs := rest.foldl (fun (t : Tab Word) e => Tabs.set regReset t e.1 e.2) ao
    mem := sec.foldl (fun (t : Tab Container) e => Tabs.set blankRam t e.1 e.2) cur.mem
    crest := w.crest, app := w.app, crs := w.crs, eng := [], fab := w.fab, cfg := w.cfg, builds := w.builds, vms := w.vms
    hoStat := w.hoStat, srcAuth := w.srcAuth, mbx := mbx, fi := w.fi, mbxHoStat := w.mbxHoStat, worldChan := w.worldChan
    powerChan := w.powerChan, gateStat := w.gateStat, sw := { fdb := w.sw.fdb, seqs := w.sw.seqs }
    can := { cur.can with ctls := ctls, seqOut := w.can.seqOut, seqIn := w.can.seqIn, proxies := w.can.proxies, tags := w.can.tags }
    kop := { w.kop with sessions := [], hands := [], pend := w.kop.pend, hellos := [] }, tree := w.tree, upd := w.upd }

/-- Steps 1 to 3 of Dawn: the rails, the clocks and the DRAM. -/
def dawnRails (h : Hw) : Hw :=
  (h.railsOn [2, 3, 8]).clocksOn [1, 2, 3, 4, 5, 6, 7]

/-- The wake window opens and the first Day cycle is the next (R90, R664). -/
def enterDay (h : Hw) : Hw :=
  ({ h with fab := { h.fab with ended := false } }.setFld Reg.PWR_STATE Fld.PWR_STATE_STATE psDay).openWindow

/-- A warm Dawn: the state resumes and the device is in Day at Full (R90 steps 4 to 6). -/
def dawnWarm (cur w : Hw) : Hw :=
  let h := (resumed cur w).setReg Reg.DMC_STAT 1
  let h := (h.setReg Reg.PWR_ISLAND_PG (w.reg Reg.PWR_ISLAND_PG)).reloadRidges.crestResumes
  let h := (h.setLevel 2).ringsNight false
  (h.setLevel (max 2 h.levelNow)).enterDay

end Hw

namespace State

/-! ### The ends of a Dusk (R80, R97 to R99) -/

/-- The device is in Off. -/
def toOff (s : State) : State := { s with hw := s.hw.off, warm := none }

/-- Step 3 of a Dusk with target Night: write-back, CLK_SLOW_TRIM, the warm state, and the Night record cleared. -/
def nightStep3 (s : State) : State :=
  let s := s.onHw fun h =>
    let h := h.fab.pages.foldl (fun (h : Hw) x => h.writeBack x.1) (h.onPwr fun p => { p with nightFrom := h.lc })
    let d := h.drawWord
    let h := (d.2.setReg Reg.TIME_SLOW_EST d.1).setReg Reg.CLK_SLOW_TRIM d.1
    let h := if h.lockState = tFree then h else h.setLock tHoldover
    h.clearNight
  { s with warm := some s.hw }

/-- A Dusk with target Night ends (R80, R91, R93). -/
def duskNight (s : State) : State :=
  let s := (s.norEnds 6).nightStep3.onHw fun h => h.enterNight
  s.onHw fun h =>
    let l := (List.range 12).filter fun i => bitN h.pwr.wakes i
    if l.isEmpty then h else h.startDawn l

/-- A commanded Dusk ends in Off, or in a reset with cause COMMAND (R75, R113). -/
def duskOff (s : State) (b : BootFacts) : State :=
  let s := s.norEnds 6
  let s := s.logEntry 0x0E (word s.hw.pwr.duskAt)
  if s.hw.pwr.thenReset then s.boot 4 b else s.toOff

/-- A last gasp ends: the retention log and the last-gasp record in NOR, then Off; where VIN has returned, the device boots (R80, R97,
R98). -/
def duskGasp (s : State) (b : BootFacts) : State :=
  let s := (s.norEnds 6).onHw fun h => h.railsOn [8]
  let cut := s.hw.journalOn && s.hw.pwr.short && s.hw.fab.spanStart ≠ 0 && !s.hw.fab.ended
  let s := (s.copyRetLog).logEntry 0x07 (word (b2n cut))
  let back := s.hw.pwr.vinBack
  let s := s.toOff
  if back then s.boot 1 b else s

end State

end Sys2Proof.Machine
end

