-- ==== Sys2Proof/Machine/PowerRows.lean ====
section
/-! DEFINITION. The commands of power, clocks, boot, Dusk, Night, Dawn, gating, checkpoints, scrubbing and the NOR controller
(spec/03 to spec/05). -/

namespace Sys2Proof.Machine

namespace State

/-- VIN is lost: a last gasp over the domains that are on (R69, R80, R93, R98). -/
def vinLost (s : State) : State :=
  s.onHw fun h =>
    let h := h.clearBit Reg.PWR_RAIL_PG 0
    if !h.booted then h
    else
      let short := !h.bit Reg.PWR_VHOLD 16
      let h := h.onPwr fun p => { p with gasp := true, short := short, vinBack := false, thenReset := false }
      let h := if h.inState psDusk then h.setFld Reg.PWR_STATE Fld.PWR_STATE_TARGET 2
        else if short then (h.duskState 2 4).dropWindow else h.duskBegin 2 4
      (h.setFld Reg.PWR_STATE Fld.PWR_STATE_CAUSE 4).gaspCrest

/-- A rail is good, and in Dawn one that is meant to come on: VSYS, VFAB, VNOR and the islands of the warm state (R71, R90). -/
def railMeant (s : State) (r : Nat) : Bool :=
  let h := s.hw
  (if r < 9 then r ≠ 0 && h.bit Reg.PWR_RAIL_PG r else h.islandOn (r - 9)) ||
    (h.inState psDawn && !h.pwr.stuck && (r == 2 || r == 3 || r == 8 || (decide (9 ≤ r) && s.warm.any fun w => w.islandOn (r - 9))))

/-- A rail fails while it is meant to be on (R71, R91, R95, R96). One that was not good yet, in Dawn, has nothing to lose. -/
def railFails (s : State) (r : Nat) : State :=
  let h := s.hw
  let good := if r < 9 then h.bit Reg.PWR_RAIL_PG r else h.islandOn (r - 9)
  if !h.aoOn || !s.railMeant r then s
  else
    let s := s.onHw fun h =>
      let h := h.setBit Reg.PWR_RAIL_FAIL r
      h.retEntry 0x02 (h.reg Reg.PWR_RAIL_FAIL)
    if !good then s
    else if r = 1 then
      let s := (s.norEnds 6).toOff
      s.onHw fun h => h.setBit Reg.PWR_RAIL_FAIL 1
    else if r = 2 then (s.norEnds 6).onHw fun h => ((h.loseSys.clearBit Reg.PWR_RAIL_PG 2).levelFall)
    else if r = 8 then (s.norEnds 6).onHw fun h => h.clearBit Reg.PWR_RAIL_PG 8
    else s.onHw fun h =>
      let h := if r = 3 then (h.loseFab).clearBit Reg.PWR_RAIL_PG 3
        else if r = 4 ∨ r = 5 then
          (let h := ((h.loseDram).clearBit Reg.PWR_RAIL_PG r).clearBit Reg.PWR_STATE 7
           if h.inState psNight then h.writeRetained else h)
        else if r = 6 ∨ r = 7 then h.ringsDown.clearBit Reg.PWR_RAIL_PG r
        else h.failIsland (r - 9)
      h.levelFall

/-- A failed rail is good again (R96); the rails that Night keeps off come on with Dawn (R90). -/
def railBack (s : State) (r : Nat) : State :=
  s.onHw fun h =>
    let waits := h.inState psNight || (h.inState psDawn && !h.pwr.stuck)
    if !h.booted || r ≤ 1 || !h.bit Reg.PWR_RAIL_FAIL r || (waits && (r == 2 || r == 3 || r == 8 || decide (9 ≤ r))) then h
    else if r < 9 then h.setBit Reg.PWR_RAIL_PG r
    else (h.setBit Reg.PWR_ISLAND_PG (r - 9)).clearBit Reg.FAB_ISLAND (r - 9)

end State

namespace Hw

/-- A clock source stops, with what it clocks (R20, R72, R73). -/
def clockDown (h : Hw) (c : Nat) : Hw :=
  let h := if c = 7 then (h.clocksOff [1, 2, 3, 4, 5, 6, 7]).clearBit Reg.LSI_STAT 0 else h.clocksOff [c]
  let h := if c = 7 ∨ c = 2 ∨ c = 3 then h.ringsDown else h
  let h := if c = 7 ∨ c = 1 then (List.range 8).foldl (fun (h : Hw) p => h.linkFall p) h else h
  h.levelFall

/-- A source starts again. -/
def clockUp (h : Hw) (c : Nat) : Hw :=
  let h := h.clocksOn [c]
  if c = 7 && h.lsiOn then h.setBit Reg.LSI_STAT 0 else h

/-- A source has not started in time: restarted once, then left unclocked and logged (R73). In Night only the sources of a burst
start, and the next burst runs without one that failed twice. -/
def clockTimeout (h : Hw) (c : Nat) : Hw :=
  let night := h.inState psNight
  if !h.booted || c = 0 || (night && c ≠ 7 && c ≠ 2) then h
  else if !bitN h.pwr.restarted c then
    (if night then h else h.clockUp c).onPwr fun p => { p with restarted := setBitN p.restarted c }
  else if night then
    (h.retEntry 0x03 (h.reg Reg.CLK_STAT)).onPwr fun p => { p with unclocked := setBitN p.unclocked c }
  else
    let h := h.clocksOff [c]
    (h.retEntry 0x03 (h.reg Reg.CLK_STAT)).clockDown c

/-! ### Commands (R77, R78, R105, R496, R704) -/

/-- Who may command the power controller. -/
def pwrWriter : Who → Bool
  | .secure | .crest => true
  | _ => false

/-- A command is refused with BUSY. -/
def pwrBusy (h : Hw) : Bool :=
  h.pstate == psDawn || h.pstate == psDusk || h.upd.act.isSome || h.crs.request.isSome ||
    (h.sysOn && (h.modeOf == 3 || h.modeOf == 4))

/-- A Night or shutdown command for an LC is accepted beside those accepted before it (R77). -/
def pwrAccept (h : Hw) (cmd lc : Nat) : Hw :=
  (h.setReg Reg.PWR_CMD_STAT 0).onPwr fun p => { p with cmds := (p.cmds ++ [(cmd, max lc (h.lc + 1))]).eraseDups }

/-- A write of PWR_CMD. DESIGN CHOICE (log entry 29): outside Day, Dawn and Dusk, where the rule gives no answer and R75 no way into
Dusk, a command is refused with STATE. -/
def pwrCommand (h : Hw) (who : Who) (cmd : Nat) : Hw :=
  if !pwrWriter who then h.setReg Reg.PWR_CMD_STAT 3
  else if h.pwrBusy then h.setReg Reg.PWR_CMD_STAT 2
  else if !h.inState psDay then h.setReg Reg.PWR_CMD_STAT 1
  else h.pwrAccept cmd (h.reg Reg.PWR_CMD_LC).toNat

/-- A pending write of 1 to an object whose commit LC has come. -/
def lcDue (oid lc : Nat) (w : LcWrite) : Bool := w.oid == oid && decide (w.lc ≤ lc) && w.value == [1#8]

/-- A Night (1) or shutdown (2) command is due, from PWR_CMD or as a write with commit LC (R77, R622). -/
def cmdDue (h : Hw) (c oid : Nat) : Bool :=
  h.pwr.cmds.any (fun x => x.1 == c && decide (x.2 ≤ h.lc)) || h.kop.pend.any (lcDue oid h.lc)

/-- The dwell of R76 is complete. -/
def dwelled (h : Hw) : Bool := decide (h.fld Reg.PWR_NIGHT_CFG Fld.PWR_NIGHT_CFG_DWELL ≤ h.pwr.quiet) && h.pwr.quiet ≠ 0

/-- POLICY: 0 NEVER, 1 COMMAND, 2 AUTO. -/
def policy (h : Hw) : Nat := h.fld Reg.PWR_NIGHT_CFG Fld.PWR_NIGHT_CFG_POLICY

/-! ### Gates (R100 to R104) -/

/-- The owner of a block. -/
def gateOwner (h : Hw) (b : Nat) : Nat :=
  if b < 24 then 4 else if b = 24 then 2 else if b ≤ 37 then h.unitOwner b else if b = 38 then h.unitOwner 38 else 1

/-- A world holds a block. -/
def holdsSec (h : Hw) (b : Nat) : Bool := h.bit Reg.PWR_HOLD_SEC b
def holdsCrs (h : Hw) (b : Nat) : Bool := h.bit Reg.PWR_HOLD_CRS b

/-- The block is held against a requester: by the other holder for a holder, by any for the rest. -/
def heldAgainst (h : Hw) (who : Who) (b : Nat) : Bool := match who with
  | .secure => h.holdsCrs b
  | .crest => h.holdsSec b
  | _ => h.holdsSec b || h.holdsCrs b

/-- A requester's own hold makes it a holder. -/
def isHolder (h : Hw) (who : Who) (b : Nat) : Bool := match who with
  | .secure => h.holdsSec b
  | .crest => h.holdsCrs b
  | _ => false

/-- The notice of a refusal with HELD goes to every holder's power channel (R102, R536). -/
def heldNotices (h : Hw) (who : Who) (b op : Nat) : Hw :=
  let inl := whoCode who * 2 ^ 26 + op * 2 ^ 24 + b
  let tell := fun (h : Hw) (code : Nat) => match Tabs.get (fun _ => 0) h.powerChan code with
    | 0 => h
    | n + 1 => h.postNotice n 0x01 inl
  let h := if h.holdsSec b then tell h 1 else h
  if h.holdsCrs b then tell h 2 else h

/-- An island goes off by request: pages still on it are placed elsewhere (R302). -/
def islandOff (h : Hw) (r : Nat) : Hw :=
  let mine := (h.fab.pages.filter fun x => owned x.2 && x.2.engine / 32 == r).map (·.1)
  let h := ((h.dropIsland r).setBit Reg.FAB_IRQ_STAT 1).fabricRecord 5 0 (32 * r) 0 0
  let h := { h with fab := { h.fab with islandAt := h.lc + 1 } }
  mine.foldl (fun h g => h.placeRebuild g (fun _ => false)) h

/-- An island is powered on: both microcode slots and the kernel of every loaded instance (R544) are loaded, pages without a place get one, and its pages return home (R302, R314,
R699). -/
def islandOn_ (h : Hw) (r : Nat) : Hw :=
  if h.islandOn r || !h.fabOn then h
  else
    let h := (h.setBit Reg.PWR_ISLAND_PG r).setBit Reg.FAB_IRQ_STAT 1
    let h := (((h.reloadSlot r 0).reloadSlot r 1).slotHeld r).fabricRecord 5 0 (32 * r) 0 0
    let h := (List.range 16).foldl (fun (h : Hw) i => if (h.inst i).loaded then h.kernelTo i r (h.inst i).kernel else h) h
    let h := { h with fab := { h.fab with islandAt := h.lc + 1 } }
    let lostPages := (h.fab.pages.filter fun x => x.2.state = .unplaced).map (·.1)
    let h := lostPages.foldl (fun h g => h.placeRebuild g (fun _ => false)) h
    let away := (h.fab.pages.filter fun x =>
      x.2.state = .resident && (h.homeOf x.1).1 / 32 == r && !(x.2.engine == (h.homeOf x.1).1 && x.2.frame == (h.homeOf x.1).2)).map (·.1)
    { h with fab := { h.fab with homing := (h.fab.homing ++ away).eraseDups } }.sendHome

/-- A block loses its power. -/
def blockOff (h : Hw) (b : Nat) : Hw :=
  let h := h.setBit Reg.PWR_PWR_GATED b
  if b < 16 then h.islandOff b
  else if b < 24 then h.setAppCore (b - 16) Core.appInit
  else if b = 24 then
    (({ h with crest := [], crs := {} }.clearRegs 0x10400000 0x1040FFFF).onPwr fun p =>
      { p with reached := false, retired := h.retiredMask })
  else if b ≤ 38 then (h.unitEmpty b).unitRegs b
  else h.clearRegs 0x10F00000 0x10F0FFFF

/-- A block has its power again. -/
def blockOn_ (h : Hw) (b : Nat) : Hw :=
  let was := h.bit Reg.PWR_PWR_GATED b
  let h := h.clearBit Reg.PWR_PWR_GATED b
  if b < 16 then h.islandOn_ b
  else if b < 24 && was then h.setAppCore (b - 16) { Core.appInit with inReset := false }
  else h

/-- A write of PWR_GATE_REQ: OP 0 clock-gate, 1 ungate, 2 power off, 3 power on. -/
def gate (h : Hw) (who : Who) (b op : Nat) : Hw :=
  let stat := fun (h : Hw) (res : Nat) =>
    { h with gateStat := Tabs.set (fun _ => (0 : Word)) h.gateStat (whoBit who) (word (b * 2 ^ 8 + res)) }
  if 39 < b then stat h 2
  else if !(whoCode who ≠ 0 && h.gateOwner b == whoCode who) && !h.isHolder who b then stat h 4
  else if (op == 0 || op == 2) && h.heldAgainst who b then stat ((h.count Reg.PWR_HELD_CNT).heldNotices who b op) 1
  else
    let h := if op = 0 then
        (let h := h.setBit Reg.PWR_CLK_GATED b; if 25 ≤ b ∧ b ≤ 32 then h.linkFall (b - 25) else h)
      else if op = 1 then h.clearBit Reg.PWR_CLK_GATED b
      else if op = 2 then ((h.blockOff b).mbxDomainOff).levelFall
      else h.blockOn_ b
    stat h 0

/-! ### The patrol scrubber (R151, R284) -/

/-- A memory's number among the patrols, its first container, its length, and whether it is scrubbed now. -/
def scrubbed (h : Hw) : Scrubbed → Nat × Nat × Nat × Bool
  | .dram => (0, dramBase, 0x80000000, h.inState psDay && h.bit Reg.DMC_SCRUB 39 && h.dramOn)
  | .secureSram => (1, 0x100000, 0x80000, h.sysOn)
  | .retentionSram => (2, retention, 0x4000, h.aoOn)
  | .ridgeStore r => (16 + r.val, 0x4000000 + 0x400000 * r.val, 0x80000, h.inState psDay && h.fabOn && h.islandOn r)
  | .localMem e => (64 + e.val, 0, 0x1000, h.inState psDay && h.fabOn && h.islandOn (e.val / 32))

/-- The scrubber reads the next container of a memory and moves on. An uncorrectable error of a local memory abandons the engine's
step, and the engine is quarantined (R308). -/
def patrolStep (h : Hw) (m : Scrubbed) (f : Flaw) : Hw :=
  let x := h.scrubbed m
  if !x.2.2.2 then h
  else
    let i := Tabs.get (fun _ => 0) h.patrol x.1
    let h := { h with patrol := Tabs.set (fun _ => (0 : Nat)) h.patrol x.1 ((i + 1) % x.2.2.1) }
    match m with
    | .localMem e =>
      (match h.localRead e i f with
      | (h, true) => h.quarantine e.val 3
      | (h, false) => h)
    | _ => h.meetFlaw (x.2.1 + i) f

end Hw

/-! ### The NOR controller (R158 to R160, R166) -/

namespace State

/-- Who may operate the NOR controller, as NOR_STAT.WHO. -/
def norWho : Who → Nat
  | .secure => 1
  | .crest => 2
  | _ => 0

/-- An erase or a program is refused at once with its result, or begins. DESIGN CHOICE (log entry 30): of several grounds PROTECTED comes
before BAD_ALIGN and that before DENIED, and a refused start writes WHO and RESULT as well. -/
def norBegin (s : State) (who : Who) (erase : Bool) : State :=
  let h := s.hw
  let a := h.fld Reg.NOR_ADDR Fld.NOR_ADDR_WADDR
  let n := h.fld Reg.NOR_LEN Fld.NOR_LEN_WORDS
  let src := h.fld Reg.NOR_SRC Fld.NOR_SRC_SRC
  let inMem := (0x100000 ≤ src && src + n ≤ 0x180000) || (dramBase ≤ src && src + n ≤ 0x180000000)
  let bad := n == 0 || decide (4194304 < n) || decide (norLast + 1 < a + n) || (erase && (a % 0x10000 ≠ 0 || n % 0x10000 ≠ 0))
  let res := if decide (2 ≤ s.fuse.lifecycle) && decide (a < norActive) then 3 else if bad then 4
    else if !erase && !(inMem && h.memAllows (if h.masters.any (fun x => x.1 == Reg.NOR_SRC) then bitWho (Tabs.get (fun _ => 0) h.masters Reg.NOR_SRC) else who) false src) then 2 else 0
  s.onHw fun h =>
    let h := h.setFld Reg.NOR_STAT Fld.NOR_STAT_WHO (norWho who)
    if res ≠ 0 then h.setFld Reg.NOR_STAT Fld.NOR_STAT_RESULT res
    else { h.setBit Reg.NOR_STAT 0 with norOp := some { erase := erase, addr := a, len := n, src := src, who := norWho who } }

/-- A write of NOR_CMD by the secure world or Crest: nothing while an operation runs, but an abort. -/
def norCommand (s : State) (who : Who) (op : Nat) : State :=
  let g := s.hw.guarded who Reg.NOR_CMD fun h => h
  if g.busErr || norWho who = 0 || !s.hw.norOn then s.onHw fun h => h.guarded who Reg.NOR_CMD fun h => h
  else
    let s := if op = 3 then s.norEnds 6 else if s.hw.norOp.isSome then s else s.norBegin who (op == 1)
    s.onHw fun h => h.busOk 0

/-- Programs words from memory until a poisoned container stops it; programming only clears bits, and a word that does not read back
as its source fails the verification. Answers the result. -/
def norWords (s : State) (a src : Nat) : Nat → Nat → State × Nat
  | 0, res => (s, res)
  | n + 1, res =>
    match s.memLoad src with
    | (s, .ok w) =>
      let old := s.nor.word a
      let s := { s with nor := s.nor.program a (old &&& w) }
      norWords s (a + 1) (src + 1) n (if old &&& w = w then res else 5)
    | (s, _) => (s, 7)

/-- The operation ends. DESIGN CHOICE (log entry 31): a program reads all its source words at this instant. A verification that fails leaves its words undefined. -/
def norDone (s : State) (ok : Bool) : State :=
  match s.hw.norOp with
  | none => s
  | some o =>
    if !s.hw.norOn then s
    else if !ok then s.norEnds 5
    else
      let r := if o.erase then ({ s with nor := s.nor.erase o.range.1 o.range.2 }, 0) else s.norWords o.addr o.src o.len 0
      r.1.onHw fun h => { (h.setFld Reg.NOR_STAT Fld.NOR_STAT_RESULT r.2).clearBit Reg.NOR_STAT 0 with norOp := none }

/-- A commanded Dusk begins: step 0 ends a checkpoint that waits for its COMMIT word, and writes one of the last committed cycle (R80,
R132). -/
def commandedDusk (s : State) (thenReset : Bool) : State :=
  let s := if s.hw.level = 3 then (s.commitCheckpoint.writeCheckpoint).commitCheckpoint else s
  s.onHw fun h => (h.duskBegin 2 2).onPwr fun p => { p with thenReset := thenReset }

/-- A cold Dawn, as far as the units allow: the AO domain's rings return to cycle operation, and the levels rise as at a boot (R91). -/
def dawnCold (s : State) : State :=
  let s := s.onHw fun h =>
    if h.pwr.lost && h.sysOn then h
    else ((h.dawnRails.dieWindows false).ringsNight false).onPwr fun p => { p with reached := false, lost := true }
  let s := { s with warm := none }
  let s := (s.levelRise false).levelRise false
  if s.hw.level = 3 then s.onHw fun h => if h.pstate = psDawn then h.enterDay else h else s

/-- A step of Dawn fails: what the steps before it did stands, and the device stays at the level reached (R90, R92, R165). -/
def dawnFails (s : State) (n : Nat) : State :=
  s.onHw fun h =>
    let warm := h.bit Reg.PWR_STATE 7
    let rails := h.railsOn [2, 3, 8]
    let up := h.dawnRails
    let trained := up.setReg Reg.DMC_STAT 1
    let h :=
      if n = 1 then h
      else if n = 2 then (if warm then (rails.clocksOn [7]).setBit Reg.DMC_STAT 1 else rails.clocksOn [7])
      else if n = 3 then (if warm then up.setBit Reg.DMC_STAT 1 else up)
      else match s.warm with
        | some w =>
          if !warm then up
          else if n = 4 then trained
          else if n = 5 then { trained.setReg Reg.PWR_ISLAND_PG (w.reg Reg.PWR_ISLAND_PG) with fab := w.fab }.reloadRidges
          else (((Hw.resumed up w).setReg Reg.DMC_STAT 1).crestResumes).setLevel 2
        | none => up
    (h.retEntry 0x0F (word n)).onPwr fun p => { p with stepFail := n, stuck := true }

end State

/-! ### Rows -/

/-- VIN_START: VIN is applied: boot from Off or from the reset state, but not where VIN was never removed, so that it reads good while
VAO is off; within a last gasp, VIN has returned (R69, R75, R98). -/
def execVinStart (b : BootFacts) (s : State) : Result :=
  .next (if !s.hw.booted then (if s.hw.bit Reg.PWR_RAIL_PG 0 && !s.hw.aoOn then s else s.boot 1 b)
    else if s.hw.pwr.gasp then s.onHw fun h => (h.setBit Reg.PWR_RAIL_PG 0).onPwr fun p => { p with vinBack := true }
    else s)

/-- VIN_LOSS (R69, R80). -/
def execVinLoss (s : State) : Result := .next s.vinLost

/-- VHOLD_EXHAUSTED: every rail is removed at once (R99); a VIN that has returned in the gasp starts the device as a VIN_START. -/
def execVholdExhausted (s : State) : Result :=
  .next (if s.hw.pwr.gasp then (s.norEnds 6).toOff.onHw fun h => h.clearBit Reg.PWR_RAIL_PG 0 else s)

/-- RAIL_FAILURE: bits of PWR_RAIL_FAIL (R71, R96). -/
def execRailFailure (r : Fin 25) (s : State) : Result := .next (s.railFails r)

/-- CLOCK_SOURCE_TIMEOUT: bits of CLK_STAT (R73). -/
def execClockSourceTimeout (c : Fin 8) (s : State) : Result := .next (s.onHw fun h => h.clockTimeout c)

/-- CLOCK_SOURCE_LOST (R20, R73). -/
def execClockSourceLost (c : Fin 8) (s : State) : Result :=
  .next (s.onHw fun h => if h.booted && c.val ≠ 0 && h.bit Reg.CLK_STAT c then h.clockDown c else h)

/-- RAIL_RECOVERY (R96). -/
def execRailRecovery (r : Fin 25) (s : State) : Result := .next (s.railBack r)

/-- RESET_N_PULSE (R75, R111). -/
def execResetNPulse (b : BootFacts) (s : State) : Result :=
  .next (if s.hw.bit Reg.PWR_RAIL_PG 0 then (s.norEnds 6).boot 2 b else s)

/-- VAO_RECOVERY (R111). -/
def execVaoRecovery (b : BootFacts) (s : State) : Result :=
  .next (if !s.hw.aoOn && s.hw.bit Reg.PWR_RAIL_FAIL 1 && s.hw.bit Reg.PWR_RAIL_PG 0 then s.boot 3 b else s)

/-- LOCKOUT_RESET: GOLD after a lockout has not reached Control; at most once in 60 s of powered time (R122). -/
def execLockoutReset (b : BootFacts) (s : State) : Result :=
  .next (
    let p := s.hw.pwr
    if s.hw.booted && p.gold && decide (4 ≤ p.failed) && decide (s.hw.level < 2) &&
        (p.lockout == 0 || decide (p.lockout + 60000 ≤ s.hw.poweredMs + 1)) then
      (s.onHw fun h => h.onPwr fun p => { p with lockout := h.poweredMs + 1 }).boot 5 b
    else s)

/-- DEBUG_RESET: with SEC_INV, and the port not locked (R111, R526, R710). -/
def execDebugReset (b : BootFacts) (s : State) : Result :=
  .next (
    if s.hw.booted && s.hw.sysOn then
      (if s.debugPort && bitN s.wldDbg.toNat 3 then (s.norEnds 6).boot 6 b
        else s.onHw fun h => h.count Reg.DBG_CNT_REFUSED)
    else s)

/-- SERVICE_LEVEL_FALL (R110). -/
def execServiceLevelFall (s : State) : Result := .next (s.onHw fun h => h.levelFall)

/-- SERVICE_LEVEL_RISE: the boot and Dawn go no further after a failed step, but a level once reached returns with its units (R92, R110,
R118, R120). -/
def execServiceLevelRise (fail : Bool) (s : State) : Result :=
  .next (
    let h := s.hw
    if h.booted && (!h.pwr.stuck || decide (h.level < h.pwr.top)) && (h.inState psBoot || h.inState psDay || h.inState psDawn || (h.inState psNight && h.level == 0)) then
      let s := s.levelRise fail
      if s.hw.level = 3 ∧ s.hw.pstate = psDawn then s.onHw fun h => h.enterDay else s
    else s)

/-- PWR_CMD_ENTER_NIGHT (R77, R105). -/
def execPwrCmdEnterNight (who : Who) (s : State) : Result :=
  .next (s.onHw fun h => h.guarded who Reg.PWR_CMD fun h => h.pwrCommand who 1)

/-- PWR_CMD_SHUTDOWN (R77, R105). -/
def execPwrCmdShutdown (who : Who) (s : State) : Result :=
  .next (s.onHw fun h => h.guarded who Reg.PWR_CMD fun h => h.pwrCommand who 2)

/-- POWER_COMMAND_COMMIT: at its LC a Night command needs the condition of R76; a shutdown begins Dusk (R76, R77, R80). DESIGN CHOICE (log
entry 29): a command that falls due in the boot state, from which R75 leads to no Dusk, is refused with STATE. -/
def execPowerCommandCommit (s : State) : Result :=
  .next (
    let h := s.hw
    if h.inState psBoot then
      s.onHw fun h =>
        if !h.cmdDue 2 0x03000100 && !h.cmdDue 1 0x03000000 then h
        else
          let h := (h.settleLc (Hw.lcDue 0x03000100 h.lc) 2 stState).settleLc (Hw.lcDue 0x03000000 h.lc) 2 stState
          (h.setReg Reg.PWR_CMD_STAT 1).onPwr fun p => { p with cmds := p.cmds.filter fun x => !decide (x.2 ≤ h.lc) }
    else if !h.inState psDay then s
    else if h.cmdDue 2 0x03000100 then
      (s.onHw fun h => (h.settleLc (Hw.lcDue 0x03000100 h.lc) 1 0).settleLc (Hw.lcDue 0x03000000 h.lc) 2 stState).commandedDusk false
    else if h.cmdDue 1 0x03000000 then
      (if h.dwelled && h.policy ≠ 0 then s.onHw fun h => (h.settleLc (Hw.lcDue 0x03000000 h.lc) 1 0).duskBegin 1 2
       else s.onHw fun h => ((h.settleLc (Hw.lcDue 0x03000000 h.lc) 2 stState).setReg Reg.PWR_CMD_STAT 1).onPwr fun p =>
         { p with cmds := p.cmds.filter fun x => !(x.1 == 1 && decide (x.2 ≤ h.lc)) })
    else s)

/-- DUSK_START: entry under AUTO at SI(D + 16), where the condition of R76 still holds; it waits while an activation is in progress (R78, R704). -/
def execDuskStart (s : State) : Result :=
  .next (s.onHw fun h => match h.pwr.dwellAt with
    | some d =>
      if h.inState psDay && h.policy == 2 && h.dwelled && decide (d + 16 ≤ h.lc) && h.upd.act.isNone then h.duskBegin 1 1 else h
    | none => h)

/-- DUSK_COMPLETE (R80, R97, R98, R113); after an INSTALL on the minimal or recovery path, the power-down that R703 runs in its
place. -/
def execDuskComplete (b : BootFacts) (s : State) : Result :=
  .next (
    let h := s.hw
    if h.upd.install && h.booted then (s.norEnds 6).boot 4 b
    else if !h.inState psDusk then s
    else if h.pwr.gasp && h.pwr.short then s.duskGasp b
    else if !h.duskCommitted then s
    else
      let s := s.onHw fun h => h.handoversEnd
      if h.pwr.gasp then s.duskGasp b
      else if h.duskTarget = 1 then s.duskNight
      else s.duskOff b)

/-- NIGHT_BURST: at the device's own burst instant, and at that of a leader whose ring it stands by (R83 to R87, R93, R247). -/
def execNightBurst (frames : List BurstRx) (x : LoadFacts) (s : State) : Result :=
  .next (s.onHw fun h =>
    let own := h.lc % 100 == 0 && decide (h.pwr.burstAt ≤ h.lc)
    let other := (List.range 16).any fun k => (h.ring k).burstNext == some h.lc
    if (h.inState psNight || h.inState psDawn) && h.bit Reg.VNK_CTRL 1 && (own || other) && h.cycle ≠ h.lc then h.burst h.lc own frames x
    else h)

/-- WAKE_SOURCE_ACTIVE: the Night timer is active only at its LC (R89, R93, R106). -/
def execWakeSourceActive (src : BitVec 12) (s : State) : Result :=
  .next (s.onHw fun h =>
    h.wake (if (h.reg Reg.WAKE_TIMER).toNat = h.lc then src.toNat else src.toNat % 2 ^ 11))

/-- DAWN_COMPLETE: a step fails, a warm Dawn ends in Day, a cold one goes on as a boot does (R90 to R92). -/
def execDawnComplete (fail : Fin 7) (s : State) : Result :=
  .next (
    if !s.hw.inState psDawn || s.hw.pwr.stuck then s
    else if fail.val ≠ 0 then s.dawnFails fail
    else match s.warm with
      | some w =>
        if s.hw.bit Reg.PWR_STATE 7 then
          { s with warm := none, hw := Hw.dawnWarm (s.hw.dawnRails.dieWindows false) w }
        else s.dawnCold
      | none => s.dawnCold)

/-- GATE_CLOCK. -/
def execGateClock (who : Who) (block : Byte) (s : State) : Result :=
  .next (s.onHw fun h => h.guarded who Reg.PWR_GATE_REQ fun h => h.gate who block.toNat 0)

/-- GATE_UNGATE. -/
def execGateUngate (who : Who) (block : Byte) (s : State) : Result :=
  .next (s.onHw fun h => h.guarded who Reg.PWR_GATE_REQ fun h => h.gate who block.toNat 1)

/-- GATE_POWER_OFF. -/
def execGatePowerOff (who : Who) (block : Byte) (s : State) : Result :=
  .next (s.onHw fun h => h.guarded who Reg.PWR_GATE_REQ fun h => h.gate who block.toNat 2)

/-- GATE_POWER_ON. -/
def execGatePowerOn (who : Who) (block : Byte) (s : State) : Result :=
  .next (s.onHw fun h => h.guarded who Reg.PWR_GATE_REQ fun h => h.gate who block.toNat 3)

/-- RESET_COMMAND_COMMIT (R113). -/
def execResetCommandCommit (s : State) : Result :=
  .next (
    let h := s.hw
    let due := h.pwr.reset.any (fun n => decide (n ≤ h.lc)) || h.kop.pend.any (Hw.lcDue 0x03030000 h.lc)
    if due && h.booted && (h.pstate == psDay || h.pstate == psBoot) then
      (s.onHw fun h => h.settleLc (Hw.lcDue 0x03030000 h.lc) 1 0).commandedDusk true
    else s)

/-- CHECKPOINT_DUE (R132). -/
def execCheckpointDue (s : State) : Result :=
  .next (if s.hw.inState psDay && s.hw.level == 3 && decide (3600000 ≤ s.hw.fab.sinceCkpt) then s.writeCheckpoint else s)

/-- CHECKPOINT_COMMIT (R133, R161). -/
def execCheckpointCommit (s : State) : Result := .next s.commitCheckpoint

/-- PATROL_SCRUB (R147, R148, R151, R284). -/
def execPatrolScrub (m : Scrubbed) (flaw : Flaw) (s : State) : Result := .next (s.onHw fun h => h.patrolStep m flaw)

/-- NOR_ERASE. -/
def execNorErase (who : Who) (s : State) : Result := .next (s.norCommand who 1)

/-- NOR_PROGRAM. -/
def execNorProgram (who : Who) (s : State) : Result := .next (s.norCommand who 2)

/-- NOR_ABORT. -/
def execNorAbort (who : Who) (s : State) : Result := .next (s.norCommand who 3)

/-- NOR_OPERATION_DONE: `ok`: every word erased or programmed reads back (R166). -/
def execNorOperationDone (ok : Bool) (s : State) : Result := .next (s.norDone ok)

/-- LG_READY_CHANGE: VHOLD as measured, in mV (R97, R105). -/
def execLgReadyChange (mv : BitVec 16) (s : State) : Result :=
  .next (s.onHw fun h =>
    if !h.aoOn then h
    else
      let ok := decide (17000 ≤ mv.toNat)
      let h := h.setReg Reg.PWR_VHOLD (word (b2n ok * 2 ^ 16 + mv.toNat))
      if ok then h.setBit Reg.PWR_STATE 6 else h.clearBit Reg.PWR_STATE 6)

end Sys2Proof.Machine
end

