-- ==== Sys2Proof/Machine/Update.lean ====
section
/-! DEFINITION. Firmware update, versions, lifecycle and fuses (R369, R691 to R715). -/

namespace Sys2Proof.Machine

namespace Hw

/-! ### Writes with a commit LC (R644 to R646) -/

/-- The commit LC of a write: 0 means acceptance LC + LEAD; none where the named LC is out of range (R644). -/
def commitLc (h : Hw) (lc : Nat) : Option Nat :=
  if lc = 0 then some (h.lc + h.lead_)
  else if lc < h.lc + h.lead_ ∨ h.lc + 3600000 < lc then none else some lc

/-- Areas whose writes with commit LC are accepted at Control (R645). -/
def controlArea (oid : Nat) : Bool := [0x03, 0x28, 0x30, 0x50].contains (oid / 2 ^ 24)

/-- The general refusal of a write with commit LC, in the order of R644's table; 0 for none. -/
def lcRefusal (h : Hw) (oid lc sess : Nat) : Nat :=
  if (h.commitLc lc).isNone then stBadValue
  else if 1024 ≤ h.kop.pend.length ∨ 64 ≤ (h.kop.pend.filter fun w => w.session == sess).length then stBusy
  else if h.level = 3 ∨ (h.level = 2 ∧ controlArea oid) then 0 else stState

/-- A write is accepted: its TICKET, its entry of the command log, its COMMAND record where the journal runs (R644 to R646). -/
def acceptLc (h : Hw) (oid n type : Nat) (value : List Byte) (sess : Nat) : Hw :=
  let t := h.kop.ticket + 1
  let h := h.onKop fun k =>
    { k with
      ticket := t
      pend := k.pend ++ [{ oid := oid, acc := h.lc, lc := n, type := type, value := value, ticket := t, session := sess }]
      log := Tabs.set (fun _ => ({} : CmdLog)) k.log (t % 256) { ticket := t, oid := oid, acc := h.lc, lc := n } }
  if h.journalOn then h.journalCommand n oid value else h

/-! ### Switches of the configuration and the microcode (R369, R699, R701, R715) -/

/-- SPARE of FAB_MC_STAT. -/
def mcSpare (h : Hw) : Nat := h.fld Reg.FAB_MC_STAT Fld.FAB_MC_STAT_SPARE

/-- RESULT of FAB_MC_STAT. -/
def mcResult (h : Hw) (r : Nat) : Hw := h.setFld Reg.FAB_MC_STAT Fld.FAB_MC_STAT_RESULT r

/-- The powered ridges. -/
def poweredRidges (h : Hw) : List Nat := (List.range 16).filter fun r => h.islandOn r

/-- Every powered ridge holds the spare slot. -/
def spareLoaded (h : Hw) : Bool :=
  (h.mcSpare == 2 || h.mcSpare == 3) && h.poweredRidges.all fun r => h.bit Reg.FAB_MC_STAT (16 + r)

/-- SPARE follows the loading: loaded, or switch pending, once every powered ridge has the slot. -/
def mcProgress (h : Hw) : Hw :=
  if (h.mcSpare = 1 ∨ h.mcSpare = 2) ∧ h.poweredRidges.all fun r => h.bit Reg.FAB_MC_STAT (16 + r) then
    h.setFld Reg.FAB_MC_STAT Fld.FAB_MC_STAT_SPARE (if h.fab.mcSwitch.isSome then 3 else 2)
  else h

/-- LOAD of the slot not in force from its DRAM image: ridges load it one by one. -/
def mcLoad (h : Hw) (build : Word) : Hw :=
  if h.mcSpare = 1 ∨ h.mcSpare = 3 ∨ h.mcSpare = 4 ∨ h.fab.mcSwitch.isSome then h.mcResult 1
  else
    let w := word (1 * 2 ^ 37 + h.mcSlot * 2 ^ 36)
    ((h.setReg Reg.FAB_MC_STAT w).setReg Reg.FAB_MC_BUILD build).mcResult 0

/-- A SWITCH record (R381). -/
def switchRecord (h : Hw) (cancel : Bool) (kind : Nat) (x : Switch) : Hw :=
  (h.note 0x0C (b2n cancel) [word x.lc, word (kind * 2 ^ 36), x.build, word x.acc]).ltCountBy (if cancel then 4 else 3) 1

/-- A switch of the microcode is declared for X. -/
def declareMc (h : Hw) (x acc : Nat) : Hw :=
  let s : Switch := { lc := x, build := h.reg Reg.FAB_MC_BUILD, acc := acc, slot := 1 - h.mcSlot }
  ({ h with fab := { h.fab with mcSwitch := some s } }.switchRecord false 2 s).mcProgress

/-- DECLARE (R715): at X = FAB_MC_LC, at least a + LEAD, with the spare slot loading or loaded (R369, R699). -/
def mcDeclare (h : Hw) : Hw :=
  let x := (h.reg Reg.FAB_MC_LC).toNat
  if h.fab.mcSwitch.isSome then h.mcResult 1
  else if h.mcSpare ≠ 1 ∧ h.mcSpare ≠ 2 then h.mcResult 3
  else if x < h.lc + h.lead_ then h.mcResult 2
  else (h.declareMc x h.lc).mcResult 0

/-- An activation ends with a result (R712). -/
def endActivation (h : Hw) (result : Nat) : Hw := match h.upd.act with
  | some a => { h with upd := { h.upd with act := none, updType := a.type, updResult := result } }
  | none => h

/-- A pending switch of the microcode is cancelled; nothing changes (R369). -/
def cancelMc (h : Hw) : Hw := match h.fab.mcSwitch with
  | some x =>
    let h := { h with fab := { h.fab with mcSwitch := none } }.switchRecord true 2 x
    let h := if h.mcSpare = 3 then h.setFld Reg.FAB_MC_STAT Fld.FAB_MC_STAT_SPARE 2 else h
    let h := if h.upd.act.any fun a => a.type == 3 then h.endActivation 6 else h
    h.mcResult 4
  | none => h

/-- A pending switch of the configuration is cancelled; its slot can be declared again (R369, R701). -/
def cancelCfg (h : Hw) : Hw := match h.fab.cfgSwitch with
  | some x =>
    let h := { h with fab := { h.fab with cfgSwitch := none } }.switchRecord true 1 x
    if h.upd.act.any fun a => a.type == 5 then h.endActivation 6 else h
  | none => h

/-- The switch of the microcode at SI(X): steps of cycle X and later run from the new slot, the old one is retained (R369, R699). -/
def switchMc (h : Hw) (x : Switch) : Hw :=
  let old := h.builds.fmc
  let slot := 1 - h.mcSlot
  let h := { h with fab := { h.fab with mcSwitch := none, mcSince := x.lc }, builds := { h.builds with fmc := x.build } }
  let h := (h.setFld Reg.FAB_STAT Fld.FAB_STAT_MC_SLOT slot).setFld Reg.FAB_MC_STAT Fld.FAB_MC_STAT_IN_FORCE slot
  (h.setFld Reg.FAB_MC_STAT Fld.FAB_MC_STAT_SPARE 4).setReg Reg.FAB_MC_BUILD old

/-- The old slot is released once LC_commit and every S_g have reached X (R369, R699). -/
def mcRelease (h : Hw) : Hw :=
  if h.mcSpare = 4 ∧ h.fab.mcSince ≤ h.lcCommit ∧ h.fab.pages.all fun p => h.fab.mcSince + 1 ≤ p.2.shadowLc then
    ((h.setFld Reg.FAB_MC_STAT Fld.FAB_MC_STAT_SPARE 0).setFld Reg.FAB_MC_STAT Fld.FAB_MC_STAT_LOADED 0).setReg Reg.FAB_MC_BUILD 0
  else h

/-! ### The update unit -/

/-- A change of the update unit. -/
def onUpd (h : Hw) (f : Update → Update) : Hw := { h with upd := f h.upd }

/-- STAGE_STATE of R712. -/
def stageState (h : Hw) : Word :=
  let u := h.upd
  word (u.stage * 2 ^ 36 + u.stageType * 2 ^ 28 + u.stageSlot * 2 ^ 24 + u.stageFail * 2 ^ 16)

/-- UPDATE_STATE of R712. -/
def updateState (h : Hw) : Word :=
  let u := h.upd
  let st := if u.act.isSome then 1 else if u.copies.isEmpty then 0 else 2
  word (st * 2 ^ 36 + u.updType * 2 ^ 28 + u.updResult * 2 ^ 20)

/-- The sessions that a new OD section revokes close (R635). -/
def revokeSessions (h : Hw) : Hw :=
  let od := h.cfg.od
  h.closeWhere (fun x => decide (x.path ≠ 3) &&
    (od.revoked.contains x.serial || match od.anchors.find? fun a => a.index == x.anchor with
      | some a => decide (a.ceiling < x.role)
      | none => true)) 5 true

end Hw

/-- The settings format entries of an image (R705). -/
def imgSettings (w : Nat → Word) : List (Word × Word) :=
  (List.range (bitsOf (w 61) 39 32)).map fun i => (w (bitsOf (w 61) 31 0 + 2 * i), w (bitsOf (w 61) 31 0 + 2 * i + 1))

/-- The settings table of an image is well formed (R686, R705). -/
def imgSettingsOk (w : Nat → Word) : Bool :=
  decide (bitsOf (w 61) 31 0 + 2 * bitsOf (w 61) 39 32 ≤ 64 + imgLen w) && (imgSettings w).all fun e => bitsOf e.2 7 0 == 0

/-- An OID belongs to a family of a settings entry. -/
def inFamily (e : Word × Word) (oid : Nat) : Bool :=
  let m := bitsOf e.2 39 8
  BitVec.ofNat 32 oid &&& ~~~BitVec.ofNat 32 m == BitVec.ofNat 32 (bitsOf e.1 39 8) &&& ~~~BitVec.ofNat 32 m

/-- An image takes over state: families whose format its predecessor did not list return to their defaults (R705). -/
def Hw.takeOver (h : Hw) (old new : Nat → Word) : Hw :=
  let l := ((imgSettings new).filter fun e => !((imgSettings old).any fun o => o.1 == e.1)).take 64
  let h := h.onUpd fun u => { u with settings := l }
  h.onKop fun k => { k with held := k.held.filter fun x => !(l.any fun e => inFamily e x.1) }

namespace State

/-- The CONFIG slot that a staged CFG goes to: true for B (R695). -/
def cfgTarget (s : State) : Bool :=
  if s.hw.pwr.configured && s.hw.pwr.mode ≠ 1 then !s.hw.pwr.slotB else !s.firstSlot

/-- The NOR base and the length of the staging target of a TYPE and SLOT. -/
def stageTarget (s : State) (type slot : Nat) : Nat × Nat :=
  if type = 5 then (configBase s.cfgTarget, configLen) else (norStaging + (partOf type slot).1, (partOf type slot).2)

/-- The image in a staging target, with the word 0 that is held back in its place. -/
def stagedImage (s : State) (type slot : Nat) (held : Option Word) : Nat → Word :=
  let w := s.nor.image (s.stageTarget type slot).1
  fun i => if i = 0 then held.getD (w 0) else w i

/-- A TYPE and SLOT that can be staged. -/
def stageable (type slot : Nat) : Bool := decide (1 ≤ type) && decide (type ≤ 5) && (slot == 0 || type == 4)

/-- An object of area 0x70 answers with a status. -/
def reply (s : State) (st : Nat) : State := s.onHw fun h => h.answer st

/-- What refuses a write of area 0x70 before its own rules: a path that does not serve, or the role. -/
def updGate (s : State) (role need : Nat) (f : State → State) : State :=
  if s.hw.servedPath.isNone then s.reply stState else if role < need then s.reply stNoAccess else f s

/-- STAGE_OPEN (R695, R708, R711). -/
def stageOpen (s : State) (v : Nat) : State :=
  let type := v / 256
  let slot := v % 16
  let u := s.hw.upd
  if s.fuse.lifecycle = 3 then s.reply stState
  else if !stageable type slot ∨ v / 16 % 16 ≠ 0 then s.reply stBadValue
  else if u.stage = 2 ∨ u.copies.contains (16 * type + slot) ∨ u.act.any (fun a => a.type == type && slot == 0) then s.reply stBusy
  else if !s.hw.norOn then s.reply stState
  else
    let t := s.stageTarget type slot
    { s with nor := s.nor.erase t.1 (t.1 + t.2 - 1) }.onHw fun h =>
      (h.onUpd fun u => { u with stage := 2, stageType := type, stageSlot := slot, stageFail := 0, held := none,
                                 heldCfg := if type = 5 then none else u.heldCfg }).answer stOk

/-- STAGE_DATA: a chunk, in any order, word 0 held back; words past the image are discarded, and none may differ from a word already
programmed (R695). -/
def stageData (s : State) (ofs : Nat) (ws : List Word) : State :=
  let u := s.hw.upd
  let t := s.stageTarget u.stageType u.stageSlot
  let img := s.stagedImage u.stageType u.stageSlot u.held
  let chunk := fun i => if ofs ≤ i ∧ i < ofs + ws.length then ws.getD (i - ofs) 0 else img i
  let top := if chunk 4 = erased then t.2 else min t.2 (64 + imgLen chunk)
  let l := (ws.zipIdx.map fun x => (ofs + x.2, x.1)).filter fun x => decide (x.1 < top)
  if ws.length ≠ 240 then s.reply stBadType
  else if u.stage ≠ 2 ∨ !s.hw.norOn then s.reply stState
  else if l.any fun x => !(img x.1 == erased || img x.1 == x.2) then s.reply stBadValue
  else
    let nor := (l.filter fun x => x.1 ≠ 0).foldl (fun (n : Nor) x => n.program (t.1 + x.1) x.2) s.nor
    let held := ((l.find? fun x => x.1 == 0).map (·.2)).or u.held
    { s with nor := nor }.onHw fun h => (h.onUpd fun u => { u with held := held }).answer stOk

/-- The lowest failing code of a staged image; 0 where every check passes (R686 to R688, R695, R705, R707, R712). DESIGN CHOICE (log entry
48): a settings table that does not fit gives 0x05; a CFG gives the code that its boot would give, so 0x20 and 0x21 are of firmware. -/
def stageCheck (s : State) (type slot : Nat) (w : Nat → Word) : Nat :=
  let size := (s.stageTarget type slot).2
  let long := decide (size < 64 + imgLen w)
  let key := keyAllowed (imgKey w) type slot
  if type = 5 then
    let c := ((cfgCheck s.fuse w (fwTypes.map s.inForce) (s.inForce 1)).map (·.1)).getD 0x100
    let c := if !imgSettingsOk w then min c 0x05 else c
    if c = 0x100 then 0 else c
  else if !imgPresent w || !imgHeader w type slot (2 ^ 40) then 0x01
  else if !long && key && !imgSignature s.fuse w then 0x01
  else if !imgArbOk s.fuse w then 0x02
  else if !imgAdmits w then 0x03
  else if !long && !imgSettingsOk w then 0x05
  else if !key then 0x20
  else if long then 0x21
  else 0

/-- STAGE_CLOSE: the image is STAGED, or the lowest failing code is reported (R695). -/
def stageClose (s : State) : State :=
  let u := s.hw.upd
  let t := s.stageTarget u.stageType u.stageSlot
  if u.stage ≠ 2 ∨ !s.hw.norOn then s.reply stState
  else
    let code := s.stageCheck u.stageType u.stageSlot (s.stagedImage u.stageType u.stageSlot u.held)
    if code ≠ 0 then s.onHw fun h => (h.onUpd fun u => { u with stage := 5, stageFail := code, held := none }).answer stOk
    else if u.stageType = 5 then
      s.onHw fun h => (h.onUpd fun u => { u with stage := 4, heldCfg := u.held, held := none }).answer stOk
    else
      { s with nor := s.nor.program t.1 (u.held.getD erased) }.onHw fun h =>
        (h.onUpd fun u => { u with stage := 4, held := none }).answer stOk

/-- The image of a TYPE (SLOT 0) that is STAGED. -/
def isStaged (s : State) (type : Nat) : Bool :=
  if type = 5 then s.hw.upd.heldCfg.isSome
  else
    let w := s.partImage norStaging type 0
    imgPresent w && w 63 == markStaged && !(s.hw.upd.stage == 2 && s.hw.upd.stageType == type && s.hw.upd.stageSlot == 0)

/-- The STAGED image of a TYPE. -/
def stagedOf (s : State) (type : Nat) : Nat → Word := s.stagedImage type 0 (if type = 5 then s.hw.upd.heldCfg else none)

/-- The working set with some images replaced by their STAGED ones: firmware, and the CFG where one is in force or named (R689). -/
def setWith (s : State) (types : List Nat) : List (Nat → Word) :=
  (fwTypes.map fun t => if types.contains t then s.stagedOf t else s.inForce t) ++
    (if types.contains 5 then [s.stagedOf 5] else if s.hw.pwr.configured then [s.inForce 5] else [])

/-- Check 0x08 of R126 for the working set with some images replaced by their STAGED ones: its SFW reads every section of its CFG
(R748). -/
def sectsRead (s : State) (types : List Nat) : Bool :=
  let sfw := if types.contains 1 then s.stagedOf 1 else s.inForce 1
  let reads := fun (w : Nat → Word) => (cfgSects w).all fun x => sfwReads sfw x.type x.fmt
  if types.contains 5 then reads (s.stagedOf 5) else !s.hw.pwr.configured || reads (s.inForce 5)

/-! ### Activation (R696 to R701) -/

/-- ACTIVATE: accepted with a commit LC, and refused with BUSY while an activation is in progress (R696, R699). -/
def activate (s : State) (v lc sess : Nat) : State :=
  let type := v / 256
  let refuse := fun (s : State) (res st : Nat) => s.onHw fun h => (h.onUpd fun u => { u with updResult := res }).answer st
  let st := s.hw.lcRefusal 0x70020400 lc sess
  if !stageable type 0 ∨ v % 256 ≠ 0 then s.reply stBadValue
  else if s.hw.upd.act.isSome then refuse s 1 stBusy
  else if !s.isStaged type then refuse s 2 stState
  else if st ≠ 0 then s.reply st
  else match s.hw.commitLc lc with
    | none => s.reply stBadValue
    | some n =>
      if type = 3 ∧ n < s.hw.lc + 20 then s.reply stBadValue
      else s.onHw fun h =>
        ((h.acceptLc 0x70020400 n 0x03 (beBytes 2 v) sess).onUpd fun u =>
          { u with act := some { type := type, lc := n, acc := h.lc }, updType := type, updResult := 0 }).answer stOk

/-- Sections that no CFG switch may change (R701): DEVICE, RING, WORLDS, TREE. -/
def fixedSections : List Nat := [0x1, 0x2, 0x7, 0xF]

/-- What the check of an activation finds: a result of UPDATE_STATE, 0 where the activation goes on (R696, R701, R703). DESIGN CHOICE (log
entry 48): anti-rollback, a Crest mode other than TRIPLE and a CONFIG_SEQ that is not above the old give DENIED. -/
def activationFault (s : State) (type : Nat) : Nat :=
  let w := s.stagedOf type
  let old := s.inForce type
  if !setOk (s.setWith [type]) || !s.sectsRead [type] then 3
  else if type = 1 ∨ !imgAccepts w type (imgVersion old) then 4
  else if type = 5 ∧ (fixedSections.any fun t => cfgSection w t ≠ cfgSection old t) then 4
  else if !imgArbOk s.fuse w then 7
  else if type = 2 ∧ s.hw.mode ≠ 1 then 7
  else if type = 5 ∧ cfgSeq w ≤ cfgSeq old then 7
  else 0

/-- Step 1 of R698: CRS_BOOT_VEC names the standby half, and the highest-numbered duty core detaches. Where the half lies is left
open. -/
def startCrestUpdate (s : State) : State :=
  s.onHw fun h =>
    let d := h.drawWord
    let k := (h.duty.map (·.val)).foldl max 0
    (d.2.setReg Reg.CRS_BOOT_VEC d.1).modeRequest .secure opDetach k

/-- Step 1 of R699: the image goes to the DRAM image of the slot not in force, LOAD, and the switch is declared for X. -/
def startMicrocode (s : State) (a : Activation) : State :=
  let w := s.stagedOf 3
  let body := (List.range (min (imgLen w) 0x4000)).map fun i => w (64 + i)
  s.onHw fun h =>
    let h := (h.writeRamList (slotImage (1 - h.mcSlot) 0) body).mcLoad (imgBuild w)
    h.declareMc a.lc a.acc

/-- A CFG switch is declared for X (R369, R701). -/
def startCfg (s : State) (a : Activation) : State :=
  let x : Switch := { lc := a.lc, build := imgBuild (s.stagedOf 5), acc := a.acc, slot := b2n s.cfgTarget }
  s.onHw fun h => { h with fab := { h.fab with cfgSwitch := some x } }.switchRecord false 1 x

/-- The running tenants, in increasing slot order. -/
def tenants (s : State) : List Nat := ((List.range 16).drop 1).filter fun v => (s.hw.vmSlot v).state == .running

/-- Step 3 of R700: the normal world restarts, under the new hypervisor or, where that overruns, the old one. -/
def restartNormal (s : State) : State :=
  s.onHw fun h => (List.range 8).foldl (fun (h : Hw) k =>
    if h.appOn k then h.setAppCore k { Core.appInit with inReset := false } else h) h

/-- Steps 1 to 4 of R700: tenants stop one after another; VM0 halts, and its new image has 200 ms, or the old one restarts and the update
ends ABORTED; then the tenants start again one after another. -/
def hvfStep (s : State) : State :=
  let any := fun (st : VmState) => ((List.range 16).drop 1).any fun v => (s.hw.vmSlot v).state == st
  if s.hw.upd.act.any fun a => a.type == 4 && a.started then
    (if any .stopping then s else match s.tenants with
      | v :: _ => s.onHw fun h => h.vmStopping v
      | [] => match s.hw.upd.act.bind (·.halted) with
        | none => s.onHw fun h => h.onUpd fun u => { u with act := u.act.map fun a => { a with halted := some h.lc } }
        | some n => if n + 200 ≤ s.hw.lc then s.restartNormal.onHw fun h => h.endActivation 5 else s)
  else match s.hw.upd.restart with
    | [] => s
    | v :: rest =>
      if any .starting then s
      else (s.vmStart v).onHw fun h => h.onUpd fun u => { u with restart := rest }

/-- The slot of the microcode that is not in force can take an image: nothing loads it, no switch to it is pending, and it is not retained
from the last (R369, R715). -/
def spareFree (h : Hw) : Bool := (h.mcSpare == 0 || h.mcSpare == 2) && h.fab.mcSwitch.isNone

/-- ACTIVATE_CHECK: the check, and the start of the TYPE's procedure (R696 to R701). DESIGN CHOICE (log entry 48): a switch is declared
ahead of X, so FMC and CFG are checked once accepted, the others at their commit LC; FMC waits for a slot that is not free, and is
CANCELLED where that is not so by SI(X − 1). -/
def activateCheck (s : State) : State :=
  match s.hw.upd.act with
  | none => s
  | some a =>
    if a.started ∨ (a.type ≠ 3 ∧ a.type ≠ 5 ∧ s.hw.lc < a.lc) ∨ s.hw.level ≠ 3 then s
    else
      let f := if s.isStaged a.type then s.activationFault a.type else 2
      if a.type = 3 ∧ !spareFree s.hw then (if a.lc ≤ s.hw.lc + 1 then s.onHw fun h => h.endActivation 6 else s)
      else if f ≠ 0 then s.onHw fun h => h.endActivation f
      else
        let s := s.onHw fun h => h.onUpd fun u => { u with act := some { a with started := true } }
        if a.type = 2 then s.startCrestUpdate
        else if a.type = 3 then s.startMicrocode a
        else if a.type = 5 then s.startCfg a
        else (s.onHw fun h => h.onUpd fun u => { u with restart := s.tenants }).hvfStep

/-- The registers that a step's sections set differently from before (R369, R701). -/
def changedRegs (s : State) (old new : List Word) : State :=
  [6, 8, 9].foldl (fun (s : State) st =>
    let o := sectRegs old st
    let l := (sectRegs new st).filter fun x => !(o.contains x)
    s.onHw fun h => l.foldl (fun (h : Hw) x => h.setReg x.1 x.2) h) s

/-- CONFIG_SWITCH at SI(X): word 0 is programmed, and the new sections govern the cycles from X on (R369, R701). -/
def configSwitch (s : State) : State :=
  match s.hw.fab.cfgSwitch, s.hw.upd.heldCfg with
  | some x, some w0 =>
    if s.hw.lc < x.lc ∨ !s.hw.norOn then s
    else
      let b := decide (x.slot = 1)
      let old := s.cfgWords s.hw.pwr.slotB
      let was := s.hw.cfg
      let s := { s with nor := s.nor.program (configBase b) w0 }
      let s := s.takeCfg b
      let new := s.cfgWords b
      let s := s.changedRegs old new
      s.onHw fun (h : Hw) =>
        let cal := (Config.cfgCal new).filter fun e => !((Config.cfgCal old).contains e)
        let h : Hw := { h with
          snp := { h.snp with cal := cal.foldl (fun (t : Tab Word) (e : Nat × Word) => Tabs.set (fun _ => (0 : Word)) t e.1 e.2) h.snp.cal }
          lsi := { h.lsi with declared := Config.cfgLoads new }
          cfg := { h.cfg with rings := was.rings, worlds := was.worlds }
          fab := { h.fab with cfgSwitch := none } }
        let h : Hw := h.onUpd fun u => { u with heldCfg := none }
        (if h.upd.act.any fun (a : Activation) => a.type == 5 then h.endActivation 0 else h).revokeSessions
  | _, _ => s

/-! ### Success, copies, INSTALL (R691, R698 to R703, R707) -/

/-- MARK := PROVEN at the end of a hitless update: the image is in force, and is to be copied into ACTIVE. -/
def provenNow (s : State) (type : Nat) : State :=
  let old := s.inForce type
  let w := s.partImage norStaging type 0
  (s.setMark type 0 markProven).onHw fun h =>
    let h := h.takeOver old w
    let h := { h with builds :=
      if type = 2 then { h.builds with cfw := imgBuild w } else if type = 4 then { h.builds with hvf := imgBuild w } else h.builds }
    (h.onUpd fun u =>
      { u with copies := (u.copies ++ [16 * type]).eraseDups
               inForce := Tabs.set (fun _ => (0 : Nat)) u.inForce type (norStaging + (partOf type 0).1 + 1) }).endActivation 0

/-- IMAGE_PROVEN: the start of an ACTIVATED image, or a hitless update, has succeeded (R691, R698 to R700). -/
def imageProven (s : State) (type slot : Nat) : State :=
  let h := s.hw
  let act := h.upd.act.filter fun a => a.started && a.type == type && slot == 0
  let tenantRuns := (h.vmSlot slot).state == .running
  match act with
  | some a =>
    if type = 2 then (if a.handed then s.provenNow 2 else s)
    else if type = 3 then
      (if h.fab.mcSwitch.isNone ∧ h.fab.mcSince = a.lc ∧ a.lc ≤ h.lcCommit then s.provenNow 3 else s)
    else if type = 4 then
      (if ((List.range 16).drop 1).all fun v => (h.vmSlot v).state == .empty then (s.provenNow 4).restartNormal.hvfStep else s)
    else s
  | none =>
    if type = 1 ∨ type = 2 then (if 2 ≤ h.level ∧ slot = 0 then s.provenSet [type] else s)
    else if type = 3 ∨ (type = 4 ∧ slot = 0) then (if h.level = 3 ∧ slot = 0 then s.provenSet [type] else s)
    else if type = 4 ∧ tenantRuns ∧ Tabs.get (fun _ => 0) h.upd.inForce (16 + slot) = norStaging + (partOf 4 slot).1 + 1 then
      s.proven 4 slot
    else s

/-- ARB_RAISE: at Full in PRODUCT or RETIRED, the field of each proven image in force rises to its ARB (R706, R707, R709). -/
def arbRaise (s : State) : State :=
  if s.hw.level ≠ 3 ∨ s.fuse.lifecycle < 2 ∨ !s.hw.bit Reg.PWR_VHOLD 16 then s
  else
    let arb := fun t =>
      let w := s.inForce t
      let base := Tabs.get (fun _ => 0) s.hw.upd.inForce t
      if t = 5 then (if s.hw.pwr.configured then imgArb w else 0)
      else if base = 0 ∨ base - 1 < norActive ∨ (norStaging ≤ base - 1 ∧ w 63 ≠ markProven) then 0 else imgArb w
    let f := s.fuse
    { s with fuse := { f with arb0 := max f.arb0 (max (arb 1) (arb 2)), arb1 := max f.arb1 (arb 3), arb2 := max f.arb2 (arb 4),
                              arb3 := max f.arb3 (arb 5) } }

/-- INSTALL: the set is checked, its images are activated, and the device resets (R703, R708, R711). -/
def install (s : State) (mask : Nat) : State :=
  let types := (List.range 6).filter fun t => decide (1 ≤ t) && bitN mask (t - 1)
  let refuse := fun (s : State) (res st : Nat) => s.onHw fun h => (h.onUpd fun u => { u with updResult := res }).answer st
  let good := fun t =>
    let w := s.stagedOf t
    imgAdmits w && imgArbOk s.fuse w
  if s.fuse.lifecycle = 3 then s.reply stState
  else if mask = 0 ∨ 32 ≤ mask then s.reply stBadValue
  else if s.hw.upd.act.isSome then refuse s 1 stBusy
  else if !(types.all fun t => s.isStaged t) then refuse s 2 stState
  else if !(setOk (s.setWith types) && s.sectsRead types && types.all good) then refuse s 3 stState
  else
    let s := (types.filter fun t => t ≠ 5).foldl (fun (s : State) t => s.setMark t 0 markActivated) s
    let s := match types.contains 5, s.hw.upd.heldCfg with
      | true, some w0 =>
        { s with nor := s.nor.program (configBase s.cfgTarget) w0 }.onHw fun h => h.onUpd fun u => { u with heldCfg := none }
      | _, _ => s
    let s : State := s.onHw fun h => (h.onUpd fun u => { u with updResult := 0 }).answer stOk
    if s.hw.servedPath = some 0 then s.onHw fun h =>
      let n := h.lc + h.lead_
      (h.journalCommand n 0x03030000 [1]).onPwr fun p => { p with reset := some n }
    else (s.logEntry 0x0E 0).onHw fun h => h.onUpd fun u => { u with install := true }

/-! ### Fuses (R697, R706 to R710, R713) -/

/-- RESULT of FUSE_STAT. -/
def fuseResult (s : State) (r : Nat) : State := s.onHw fun h => h.setFld Reg.FUSE_STAT Fld.FUSE_STAT_RESULT r

/-- The words of FUSE_PROG_DATA. -/
def progData (s : State) : List Word := (List.range 7).map fun w => s.hw.reg (Reg.FUSE_PROG_DATA w)

/-- A fuse operation starts, unless one is in progress or LG_READY is clear (R709). -/
def fuseStart (s : State) (op sel refusal : Nat) : State :=
  if s.hw.upd.fuseOp.isSome then s.fuseResult 3
  else if !s.hw.bit Reg.PWR_VHOLD 16 then s.fuseResult 1
  else if refusal ≠ 0 then s.fuseResult refusal
  else (s.fuseResult 0).onHw fun h => h.onUpd fun u => { u with fuseOp := some { op := op, sel := sel, data := s.progData } }

/-- GOLD and ACTIVE hold a valid set (R708). -/
def setsValid (s : State) : Bool :=
  s.goldOk && fwTypes.all fun t => s.imageGood (s.partImage norActive t 0) t 0

/-- The condition of a lifecycle transition (R708): 0, or STATE. -/
def lifecycleRefusal (s : State) (sel : Nat) : Nat :=
  let f := s.fuse
  let ok :=
    if sel = 1 then f.lifecycle == 0 && s.hw.pwr.mode == 0 && f.keyValid.getLsbD 0 && f.keyValid.getLsbD 1 && f.serial ≠ 0 && f.mac ≠ 0
    else if sel = 2 then f.lifecycle == 1 && f.keyValid.getLsbD 2 && s.setsValid
    else sel == 3 && f.lifecycle == 2
  if ok && s.hw.upd.lifecycleNext.isNone then 0 else 5

/-- The condition of a revoke: KEY0 never, and one unrevoked owner key stays (R697). -/
def revokeRefusal (s : State) (sel : Nat) : Nat :=
  let left := [1, 2, 3].any fun k => decide (k ≠ sel) && s.fuse.keyGood k
  if sel = 0 then 1 else if left then 0 else 5

/-- The value of an anti-rollback field. -/
def arbField (f : Fuse) (i : Nat) : Nat := if i = 0 then f.arb0 else if i = 1 then f.arb1 else if i = 2 then f.arb2 else f.arb3

/-- The condition of a raise: a higher value, at most 64 (R706, R709). -/
def raiseRefusal (s : State) (sel : Nat) : Nat :=
  let v := bitsOf (s.hw.reg (Reg.FUSE_PROG_DATA 0)) 6 0
  if v ≤ arbField s.fuse sel ∨ 64 < v then 2 else 0

/-- An operation of FUSE_PROG. -/
def fuseOpStart (s : State) (op sel : Nat) : State :=
  if op = 1 then s.fuseStart 1 sel (s.lifecycleRefusal sel)
  else if op = 2 then s.fuseStart 2 sel (if s.fuse.keyValid.getLsbD sel then 2 else 0)
  else if op = 3 then s.fuseStart 3 sel (s.revokeRefusal sel)
  else if op = 4 then s.fuseStart 4 sel (s.raiseRefusal sel)
  else if op = 5 then s.fuseStart 5 sel 0
  else s

/-- A write of FUSE_PROG by the secure world (R508, R713). -/
def fuseProg (s : State) (who : Who) (op sel : Nat) : State :=
  let a := Reg.FUSE_PROG
  if s.hw.blockOn (blockOf a) ∧ s.hw.blockAllows who true (blockOf a) then
    (s.onHw fun h => h.busOk 0).fuseOpStart op sel
  else s.onHw fun h => h.guarded who a id

/-- A field of the fuses counts up to a value (R706). -/
def setArb (f : Fuse) (i v : Nat) : Fuse :=
  if i = 0 then { f with arb0 := max f.arb0 v } else if i = 1 then { f with arb1 := max f.arb1 v }
  else if i = 2 then { f with arb2 := max f.arb2 v } else { f with arb3 := max f.arb3 v }

/-- The hash of a key slot takes seven words. -/
def setHash (f : Fuse) (k : Nat) (l : List Word) : Fuse :=
  { f with key := l.zipIdx.foldl (fun (t : Tab Word) x => Tabs.set (fun _ => (0 : Word)) t (7 * k + x.2) x.1) f.key }

/-- Seven free words: what a programming operation that failed has left. -/
def sevenWords (h : Hw) : List Word × Hw :=
  (List.range 7).foldl (fun (x : List Word × Hw) _ => (x.1 ++ [x.2.drawWord.1], x.2.drawWord.2)) ([], h)

/-- The fuses of an operation are blown. -/
def fuseBlow (s : State) (x : FuseOp) : State :=
  let f := s.fuse
  if x.op = 1 then s.onHw fun h => h.onUpd fun u => { u with lifecycleNext := some x.sel }
  else if x.op = 2 then
    let f := setHash f x.sel (x.data.zipIdx.map fun d => if d.2 = 6 then withBits d.1 23 0 0 else d.1)
    { s with fuse := { f with keyValid := f.keyValid ||| BitVec.twoPow 4 x.sel } }
  else if x.op = 3 then { s with fuse := { f with revoked := f.revoked ||| BitVec.twoPow 4 x.sel } }
  else if x.op = 4 then { s with fuse := setArb f x.sel (bitsOf (x.data.getD 0 0) 6 0) }
  else { s with fuse := { f with dbgLock := true } }

/-- What an operation that fails its read-back leaves: the hash, or how far a field has risen, is open; nothing else is blown. -/
def fuseFail (s : State) (x : FuseOp) : State :=
  if x.op = 2 then
    let d := sevenWords s.hw
    { s with fuse := setHash s.fuse x.sel d.1, hw := d.2 }
  else if x.op = 4 then
    let old := arbField s.fuse x.sel
    let d := s.hw.draw (bitsOf (x.data.getD 0 0) 6 0 - old)
    { s with fuse := setArb s.fuse x.sel (old + d.1), hw := d.2 }
  else s

/-- FUSE_PROG_DONE: the read-back gives OK or VERIFY_FAIL (R709). -/
def fuseDone (s : State) (ok : Bool) : State :=
  match s.hw.upd.fuseOp with
  | none => s
  | some x =>
    let s := if ok then s.fuseBlow x else s.fuseFail x
    (s.fuseResult (if ok then 0 else 4)).onHw fun h => h.onUpd fun u => { u with fuseOp := none }

end State

/-! ### Rows -/

/-- STAGE_OPEN. -/
def execStageOpen (role : Fin 5) (v : BitVec 16) (s : State) : Result := .next (s.updGate role 3 fun s => s.stageOpen v.toNat)

/-- STAGE_DATA. -/
def execStageData (role : Fin 5) (ofs : Word) (ws : List Word) (s : State) : Result :=
  .next (s.updGate role 3 fun s => s.stageData ofs.toNat ws)

/-- STAGE_CLOSE. -/
def execStageClose (role : Fin 5) (s : State) : Result := .next (s.updGate role 3 fun s => s.stageClose)

/-- ACTIVATE. -/
def execActivate (role : Fin 5) (v : BitVec 16) (lc : Word) (s : State) : Result :=
  .next (s.updGate role 3 fun s => s.activate v.toNat lc.toNat 0)

/-- ACTIVATE_CHECK. -/
def execActivateCheck (s : State) : Result := .next s.activateCheck

/-- MC_LOAD: writes from anything but the secure world are ignored (R715). The DRAM image that it loads is the STAGED one's: its BUILD_ID
goes to FAB_MC_BUILD (log entry 48). -/
def execMcLoad (who : Who) (s : State) : Result :=
  .next (let b := imgBuild (s.partImage norStaging 3 0)
    s.onHw fun h => h.guarded who Reg.FAB_MC_CTRL fun h => if who = .secure then h.mcLoad b else h)

/-- MC_DECLARE. -/
def execMcDeclare (who : Who) (s : State) : Result :=
  .next (s.onHw fun h => h.guarded who Reg.FAB_MC_CTRL fun h => if who = .secure then h.mcDeclare else h)

/-- MC_CANCEL. -/
def execMcCancel (who : Who) (s : State) : Result :=
  .next (s.onHw fun h => h.guarded who Reg.FAB_MC_CTRL fun h => if who = .secure then h.cancelMc else h)

/-- MICROCODE_SLOT_LOADED: a powered ridge has loaded the slot not in force (R699, R715). -/
def execMicrocodeSlotLoaded (r : Fin 16) (s : State) : Result :=
  .next (s.onHw fun h =>
    if h.islandOn r && h.mcSpare == 1 then ((h.reloadSlot r (1 - h.mcSlot)).slotHeld r).mcProgress else h)

/-- SWITCH_CANCEL: a pending switch that cannot take effect is cancelled before SI(X): the microcode is not in every powered ridge by
SI(X − 1), or the CFG's held word 0 is gone (R369, R695). -/
def execSwitchCancel (fmc : Bool) (s : State) : Result :=
  .next (s.onHw fun h =>
    if fmc then (if (h.fab.mcSwitch.any fun x => decide (x.lc ≤ h.lc + 1)) && !h.spareLoaded then h.cancelMc else h)
    else if h.fab.cfgSwitch.isSome && h.upd.heldCfg.isNone then h.cancelCfg else h)

/-- MICROCODE_SWITCH: at SI(X) (R369, R699). -/
def execMicrocodeSwitch (s : State) : Result :=
  .next (s.onHw fun h => match h.fab.mcSwitch with
    | some x => if x.lc ≤ h.lc ∧ h.spareLoaded then h.switchMc x else h
    | none => h)

/-- CONFIG_SWITCH. -/
def execConfigSwitch (s : State) : Result := .next s.configSwitch

/-- INSTALL. -/
def execInstall (role : Fin 5) (mask : BitVec 16) (s : State) : Result := .next (s.updGate role 3 fun s => s.install mask.toNat)

/-- IMAGE_PROVEN. -/
def execImageProven (type : Fin 8) (slot : Fin 16) (s : State) : Result := .next (s.imageProven type slot)

/-- ACTIVE_COPY (R702). -/
def execActiveCopy (type : Fin 8) (slot : Fin 16) (s : State) : Result := .next (s.copyActive type slot)

/-- ARB_RAISE. -/
def execArbRaise (s : State) : Result := .next s.arbRaise

/-- FUSE_LIFECYCLE. -/
def execFuseLifecycle (who : Who) (sel : Fin 4) (s : State) : Result := .next (s.fuseProg who 1 sel)

/-- FUSE_KEY_PROGRAM. -/
def execFuseKeyProgram (who : Who) (sel : Fin 4) (s : State) : Result := .next (s.fuseProg who 2 sel)

/-- FUSE_KEY_REVOKE. -/
def execFuseKeyRevoke (who : Who) (sel : Fin 4) (s : State) : Result := .next (s.fuseProg who 3 sel)

/-- FUSE_RAISE_FIELD. -/
def execFuseRaiseField (who : Who) (sel : Fin 4) (s : State) : Result := .next (s.fuseProg who 4 sel)

/-- FUSE_DBG_LOCK. -/
def execFuseDbgLock (who : Who) (s : State) : Result := .next (s.fuseProg who 5 0)

/-- FUSE_PROG_DONE. -/
def execFuseProgDone (ok : Bool) (s : State) : Result := .next (s.fuseDone ok)

end Sys2Proof.Machine
end

