-- ==== Sys2Proof/Machine/RegView.lean ====
section
/-! DEFINITION. What a register reads as (R9, R12): the words that hardware computes from its state at the read, and the reads that
clear, latch or take. -/

namespace Sys2Proof.Config

/-- What the device measures of itself by cycle (R272, R746): 0 VIN in mV, 2 the SoC junction, 3 the junction of the power-management
die. Nothing constrains it. -/
opaque measured : (what at_ : Nat) → Sys2Proof.Word

end Sys2Proof.Config

namespace Sys2Proof.Machine

namespace Hw

/-! ### The fabric (R317, R390) -/

/-- The declared load of a page in MAC a step, as the standard FMC declares it (R315). -/
def pageMac (g : Nat) : Nat :=
  if g < 16384 then 21700 else if g < 17664 then 500 else if g < 17728 then 40000 else 80000

/-- The MAC a step of the pages an engine owns (R313). -/
def engineMac (h : Hw) (e : Nat) : Nat :=
  ((h.fab.pages.filter fun x => owned x.2 && x.2.engine == e).map fun x => pageMac x.1).foldl (· + ·) 0

/-- The declared load of an engine in units of 0.1 %: of 2 000 000 MAC a cycle (R313). -/
def engineLoad (h : Hw) (e : Nat) : Nat := h.engineMac e / 2000

def fabStat (h : Hw) : Word :=
  let has := fun (st : PageState) => b2n (h.fab.pages.any fun x => x.2.state == st)
  let fixed := (h.reg Reg.FAB_STAT).toNat &&& 0b1100
  word (has .unplaced * 2 ^ 7 + has .rebuilding * 2 ^ 6 + has .transit * 2 ^ 5 + b2n h.fab.audit.isSome * 2 ^ 4 + fixed +
    b2n (h.bit Reg.FAB_CTRL 0 && h.inState psDay && h.level == 3))

def pageStat (h : Hw) : Word :=
  let g := h.fld Reg.FAB_PAGE_SEL Fld.FAB_PAGE_SEL_PAGE
  let p := h.page g
  let st := match p.state with
    | .undeclared => 0
    | .resident => 1
    | .transit => 2
    | .rebuilding => 3
    | .unplaced => 4
  let t := if p.state = .transit then p.target.getD (p.engine, p.frame) else (p.engine, p.frame)
  let home := b2n (owned p && (p.engine, p.frame) == h.homeOf g)
  if st = 0 then 0
  else word (st * 2 ^ 37 + t.1 % 512 * 2 ^ 28 + t.2 % 2048 * 2 ^ 17 + home * 2 ^ 16 + (p.certain - 1) % 65536)

def ridgeStat (h : Hw) (r : Nat) : Word :=
  let es := (List.range 32).map (32 * r + ·)
  let quar := (es.filter fun e => h.quarOf e ≠ 0).length
  let act := es.filter fun e => h.engineActive e && h.pagesOn e ≠ 0
  let load := if act.isEmpty then 0 else (act.map fun e => h.engineLoad e).foldl (· + ·) 0 / act.length
  let st := if h.islandFailed r then 2 else if h.islandOn r then 0 else 1
  word (st * 2 ^ 38 + quar * 2 ^ 32 + (if st = 0 then (1664 - (h.usedFrames r).length) * 2 ^ 21 + h.pagesIn r * 2 ^ 10 + min load 1023 else 0))

def engStat (h : Hw) (e : Nat) : Word :=
  let st := if !h.islandOn (e / 32) then 3 else if h.quarOf e ≠ 0 then 2 else if h.pagesOn e = 0 then 1 else 0
  word (st * 2 ^ 38 + h.quarOf e % 16 * 2 ^ 34 + h.pagesOn e % 256 * 2 ^ 16 + (h.engine e).undo.length)

def ltStat (h : Hw) : Word :=
  let spec := h.fab.pages.foldl (fun m x => x.2.spec.foldl max m) 0
  word (min (h.lc - h.lcCommit) 0xFFF * 2 ^ 28 + min (spec - h.lcCommit) 255 * 2 ^ 20 + h.fld Reg.FAB_LT_STAT Fld.FAB_LT_STAT_ABSENT)

/-- The memory that FAB_ECC_SEL selects; and DMC_ECC_SEL. -/
def fabEcc (h : Hw) : Nat :=
  let w := (h.reg Reg.FAB_ECC_SEL).toNat
  (if bitN w 4 then 32 else 16) + w % 16
def dmcEcc (h : Hw) : Nat := (h.reg Reg.DMC_ECC_SEL).toNat % 4

def eccWord (h : Hw) (m k : Nat) : Word :=
  let e := h.eccOf m
  if k = 0 then word (e.ue * 2 ^ 20 + e.ce)
  else if k = 1 then word (b2n e.ceValid * 2 ^ 39 + e.ceAddr)
  else word (b2n e.ueValid * 2 ^ 39 + e.ueAddr)

/-! ### Mailboxes and instances (R552) -/

def txStat (h : Hw) (n : Nat) : Word :=
  let c := h.chan n
  word (c.credits * 2 ^ 35 + b2n (!c.done.isEmpty) * 2 ^ 32 + c.last.getD 0 * 2 ^ 16 + c.txResult)

def rxWord (h : Hw) (n : Nat) (desc : Bool) : Word := match (h.chan n).queue with
  | [] => 0
  | m :: _ => if desc then word (m.seq * 2 ^ 24 + m.tag * 2 ^ 16 + m.len) else word (2 ^ 39 + m.ptr)

def fiStat (h : Hw) (i : Nat) : Word :=
  let f := h.inst i
  let st := match f.state with
    | .unassigned => 0
    | .idle => 1
    | .busy => 2
    | .quiescing => 3
    | .drained => 4
  let tasks := (f.item.map fun x => x.given - x.ended).getD 0
  word (st * 2 ^ 37 + f.lastResult % 8 * 2 ^ 34 + tasks % 4096 * 2 ^ 22 + f.fcode % 256 * 2 ^ 12 + f.ftask % 4096)

/-! ### The other blocks -/

/-- A word of a window: 0 its source, then its registers in the order of offset (R273 to R275, R278). -/
def winOf (x : Win) (k : Nat) : Word :=
  let sum : BitVec 80 := BitVec.ofInt 80 x.sum
  if k = 0 then x.src
  else if k = 1 then word (x.result * 16 + x.state)
  else if k = 2 then word x.nValid
  else if k = 3 then word x.nOther
  else if k = 4 then wrap x.min
  else if k = 5 then word x.minCh
  else if k = 6 then wrap x.max
  else if k = 7 then word x.maxCh
  else if k = 8 then (if x.nValid = 0 then 0 else wrap (rheQ x.sum x.nValid))
  else if k = 9 then word (sum.toNat / 2 ^ 40)
  else word sum.toNat

/-- A word of the window that SNP_WIN_SEL selects. -/
def winWord (h : Hw) (k : Nat) : Word := winOf (h.win (h.fld Reg.SNP_WIN_SEL Fld.SNP_WIN_SEL_WIN)) k

/-- PMD_TJ has stayed within ±10 °C of its value at step 3 of the Dusk, in every millisecond since (R272). -/
def pmdSteady (h : Hw) : Bool :=
  let t := fun (n : Nat) => (Config.measured 3 n).toInt
  (List.range (h.lc + 1 - h.pwr.nightFrom)).all fun i => decide ((t (h.pwr.nightFrom + i) - t h.pwr.nightFrom).natAbs ≤ 10000000)

/-- SNP_NIGHT_BOUND in ns (R272). -/
def nightBound (h : Hw) : Word :=
  if !h.inState psNight then 0
  else word (2000 + (if h.pmdSteady then 3 else 20) * (h.lc - h.pwr.nightFrom))

/-- A word of the head of a CAN receive queue: 0 HDR, 1 INFO, 2 LC, 3 OFS, 4 + i data (R681). -/
def rxHead (h : Hw) (n q k : Nat) : Word :=
  let c := h.ctl n
  match (if q = 0 then c.q0 else c.q1) with
  | [] => 0
  | r :: _ =>
    if k = 0 then r.frame.hdr else if k = 1 then r.info else if k = 2 then word r.lc else if k = 3 then word r.ofs
    else word (beNat (((r.frame.data ++ List.replicate 65 0).drop (5 * (k - 4))).take 5))

def rxCount (h : Hw) (n q : Nat) : Nat := if q = 0 then (h.ctl n).q0.length else (h.ctl n).q1.length

/-- IRQ_SRC with its pending bit (R530): 0 for an identity that is neither its owner nor the secure world. -/
def srcSeen (h : Hw) (who : Who) (i : Nat) : Bool := who == .secure || (whoCode who ≠ 0 && h.srcOwner i == whoCode who)
def srcWord (h : Hw) (i : Nat) : Word := withBits (h.reg (Reg.IRQ_SRC i)) 1 1 (b2n (h.srcPending i))

/-- The address is one of the GIO registers, or of a CAN decoder's, held in the AO domain (R681, R683). -/
def gioAo (a : Nat) : Bool := 0x10C00040 ≤ a && a ≤ 0x10C00053
def canAo (a : Nat) : Bool := 0x10A00000 ≤ a && a < 0x10A04000 && decide (0x70 ≤ a % 0x1000) && decide (a % 0x1000 ≤ 0x74)

/-- A block's registers at an address are powered. -/
def regOn (h : Hw) (a : Nat) : Bool := if gioAo a || canAo a then h.aoOn else h.blockOn (blockOf a)

/-- An identity may access a register (R506, R508, R509, R516, R683). -/
def regAllows (h : Hw) (who : Who) (write : Bool) (a : Nat) : Bool :=
  if gioAo a && aoWriter who then true else if gioAo a && write then false else h.blockAllows who write (blockOf a)

end Hw

/-! ### What a register reads as -/

namespace State

/-- The FUSE registers (R713). -/
def fuseView (s : State) (a : Nat) : Word :=
  let f := s.fuse
  let o := a - Reg.FUSE_STAT
  if o = 0 then
    word (f.lifecycle * 2 ^ 38 + b2n f.dbgLock * 2 ^ 37 + f.keyValid.toNat * 2 ^ 33 + f.revoked.toNat * 2 ^ 29 +
      b2n s.hw.upd.fuseOp.isSome * 2 ^ 28 + s.hw.fld Reg.FUSE_STAT Fld.FUSE_STAT_RESULT * 2 ^ 24)
  else if o = 1 then word (f.arb3 * 2 ^ 21 + f.arb2 * 2 ^ 14 + f.arb1 * 2 ^ 7 + f.arb0)
  else if o = 2 then word (f.serial.toNat / 2 ^ 40)
  else if o = 3 then word f.serial.toNat
  else if o = 4 then word (f.mac.toNat / 2 ^ 8)
  else if o = 5 then word (f.mac.toNat % 256 * 2 ^ 32)
  else if 0x10 ≤ o ∧ o < 0x30 ∧ o % 8 < 7 then Tabs.get (fun _ => 0) f.key (7 * ((o - 0x10) / 8) + o % 8)
  else s.hw.reg a

/-- The TIME registers (R591, R612). -/
def timeView (s : State) (a : Nat) : Word :=
  let h := s.hw
  if a = Reg.TIME_POWERED then word h.poweredMs
  else if a = Reg.TIME_MEAS_HI ∨ a = Reg.TIME_MEAS_LO then 0
  else if Reg.TIME_EPOCH 0 ≤ a ∧ a < Reg.TIME_EPOCH 8 then
    match h.tu.epochs[h.fld Reg.TIME_EPOCH_SEL Fld.TIME_EPOCH_SEL_IDX]? with
    | some e => (epochWords e).getD (a - Reg.TIME_EPOCH 0) 0
    | none => 0
  else if Reg.TIME_PORT 0 0 ≤ a ∧ a < Reg.TIME_PORT 8 0 ∧ a % 4 = 0 then (h.reg a)
  else h.reg a

/-- The FAB registers. -/
def fabView (s : State) (a : Nat) : Word :=
  let h := s.hw
  if a = Reg.FAB_STAT then h.fabStat
  else if a = Reg.FAB_LT_STAT then h.ltStat
  else if a = Reg.FAB_PAGE_STAT then h.pageStat
  else if a = Reg.FAB_MIG_STAT then withBits (h.reg a) 23 16 h.migrations
  else if a = Reg.FAB_ECC_CNT then h.eccWord h.fabEcc 0
  else if a = Reg.FAB_ECC_CE_ADDR then h.eccWord h.fabEcc 1
  else if a = Reg.FAB_ECC_UE_ADDR then h.eccWord h.fabEcc 2
  else if Reg.FAB_RIDGE_STAT 0 ≤ a ∧ a < Reg.FAB_RIDGE_STAT 16 then h.ridgeStat (a - Reg.FAB_RIDGE_STAT 0)
  else if Reg.FAB_ENG_STAT 0 ≤ a ∧ a < Reg.FAB_ENG_STAT 512 then h.engStat (a - Reg.FAB_ENG_STAT 0)
  else h.reg a

/-- The MBX registers. -/
def mbxView (s : State) (who : Who) (a : Nat) : Word :=
  let h := s.hw
  if a = Reg.MBX_HO_STAT then Tabs.get Hw.zeroWord h.mbxHoStat (whoBit who)
  else if Reg.MBX_PTR 0 ≤ a ∧ a < Reg.MBX_PTR 64 then
    let n := (a - Reg.MBX_PTR 0) / 16
    let k := (a - Reg.MBX_PTR 0) % 16
    if k = 2 then h.txStat n
    else if k = 3 then (if h.isSender who n then (h.chan n).doneWord else 0)
    else if k = 4 then h.rxWord n false
    else if k = 5 then h.rxWord n true
    else if k = 7 then word ((h.chan n).queue.length * 2 ^ 35 + (h.chan n).rxResult)
    else h.reg a
  else if Reg.MBX_FI_CFG 0 ≤ a ∧ a < Reg.MBX_FI_CFG 16 then
    let i := (a - Reg.MBX_FI_CFG 0) / 8
    let k := (a - Reg.MBX_FI_CFG 0) % 8
    if k = 2 then h.fiStat i
    else if k = 3 then word (min ((h.inst i).used / 1000) (2 ^ 40 - 1))
    else if k = 4 then (h.inst i).tinfo
    else h.reg a
  else h.reg a

/-- The SNP registers. -/
def snpView (s : State) (a : Nat) : Word :=
  let h := s.hw
  if a = Reg.SNP_STAT then
    withBits (withBits (h.reg a) 0 0 (b2n (h.bit Reg.SNP_CTRL 0))) 1 1 (b2n (h.bit Reg.SNP_CTRL 0 && h.inState psNight))
  else if a = Reg.SNP_CAL_DATA then h.readCalData
  else if a = Reg.SNP_NIGHT_BOUND then h.nightBound
  else if a = Reg.SNP_WIN_SRC then h.winWord 0
  else if Reg.SNP_WIN_STATE ≤ a ∧ a ≤ Reg.SNP_WIN_SUMLO then h.winWord (1 + (a - Reg.SNP_WIN_STATE))
  else h.reg a

/-- The CAN registers. -/
def canView (s : State) (a : Nat) : Word :=
  let h := s.hw
  let n := (a - Reg.CAN_CTRL 0) / 0x1000
  let o := (a - Reg.CAN_CTRL 0) % 0x1000
  if o = 0x1F then
    withBits (h.reg a) 39 34 (h.fld (Reg.CAN_CTRL n) Fld.CAN_CTRL_TX_LIMIT - (h.ctl n).tx.length)
  else if 0x20 ≤ o ∧ o < 0x60 then
    let q := (o - 0x20) / 0x20
    let k := (o - 0x20) % 0x20
    if k < 0x11 then h.rxHead n q k else if k = 0x11 then word (h.rxCount n q * 2 ^ 32) else 0
  else h.reg a

/-- The word that a register holds for a reader, before the read's own effect. -/
def regView (s : State) (who : Who) (a : Nat) : Word :=
  let h := s.hw
  let b := a / 0x10000
  if b = 0x1000 then
    (if a = Reg.PWR_GATE_STAT then Tabs.get (fun _ => 0) h.gateStat (whoBit who)
     else if a = Reg.PWR_STATE then withBits (h.reg a) 6 6 (b2n (h.bit Reg.PWR_VHOLD 16))
     else h.reg a)
  else if b = 0x1003 then s.fuseView a
  else if b = 0x1004 then s.timeView a
  else if b = 0x1020 then s.snpView a
  else if b = 0x1030 then s.fabView a
  else if b = 0x1050 then
    (if Reg.IRQ_SRC 0 ≤ a ∧ a < Reg.IRQ_SRC 1024 then
      (if h.srcSeen who (a - Reg.IRQ_SRC 0) then h.srcWord (a - Reg.IRQ_SRC 0) else 0)
     else h.reg a)
  else if b = 0x1060 then s.mbxView who a
  else if b = 0x10A0 then s.canView a
  else if 0x1081 ≤ b ∧ b < 0x1089 then
    (let n := b - 0x1081
     if a = Reg.MAC_MGMT_STAT n then withBits (h.reg a) 20 16 (if n < 2 then 0 else Tabs.get (fun _ => 0) h.cfg.sw.phyAd n)
     else h.reg a)
  else if b = 0x10C0 then
    (if Reg.GIO_WAKE_FW 0 ≤ a ∧ a < Reg.GIO_WAKE_FW 9 then h.wakeFwWord (a - Reg.GIO_WAKE_FW 0) else h.reg a)
  else if b = 0x10E0 then
    (if a = Reg.DMC_ECC_CNT then h.eccWord h.dmcEcc 0
     else if a = Reg.DMC_ECC_CE_ADDR then h.eccWord h.dmcEcc 1
     else if a = Reg.DMC_ECC_UE_ADDR then h.eccWord h.dmcEcc 2
     else h.reg a)
  else if b = 0x1100 then
    (if a = Reg.WLD_HO_STAT then Tabs.get Hw.zeroWord h.hoStat (whoBit who)
     else if a = Reg.WLD_DBG then s.wldDbg
     else if Reg.WLD_FIXED 0 ≤ a ∧ a < Reg.WLD_FIXED 17 then
       (match wiredMask (a - Reg.WLD_FIXED 0) with
        | some m => withBits (h.reg a) 19 0 m
        | none => h.reg a)
     else h.reg a)
  else h.reg a

end State

/-! ### Reads -/

namespace Hw

/-- The readers that keep the running totals of the objects (R620). -/
def keepsTotals : Who → Bool
  | .vm v => v == 0
  | .crest => true
  | _ => false

/-- A read clears the RC fields of a register (R9); the server of the object dictionary adds what it reads to a total (R620). -/
def clearRc (h : Hw) (who : Who) (a rc : Nat) : Hw :=
  let v := (h.reg a).toNat &&& rc
  if rc = 0 then h
  else (h.setReg a (h.reg a &&& ~~~(word rc))).onKop fun k => if !keepsTotals who then k else
    { k with totals := Tabs.set (fun _ => (0 : Nat)) k.totals a (Tabs.get (fun _ => 0) k.totals a + v) }

/-- Both counts of a memory are cleared by their read. -/
def clearEcc (h : Hw) (who : Who) (m : Nat) : Hw :=
  let e := h.eccOf m
  let add := fun (t : Tab Nat) (i n : Nat) => Tabs.set (fun _ => (0 : Nat)) t i (Tabs.get (fun _ => 0) t i + n)
  (h.setEcc m { e with ce := 0, ue := 0 }).onKop fun k => if !keepsTotals who then k else
    { k with totals := add (add k.totals (2 * m) e.ce) (2 * m + 1) e.ue }

/-- What a read of a register does besides returning its word. -/
def readEffect (h : Hw) (who : Who) (a : Nat) : Hw :=
  if a = Reg.TIME_CAP_INFO then h.capturePop.1
  else if a = Reg.FAB_ECC_CNT then h.clearEcc who h.fabEcc
  else if a = Reg.DMC_ECC_CNT then h.clearEcc who h.dmcEcc
  else if Reg.MBX_PTR 0 ≤ a ∧ a < Reg.MBX_PTR 64 ∧ a % 16 = 3 then (h.doneRead who ((a - Reg.MBX_PTR 0) / 16)).1
  else if Reg.MBX_FI_CFG 0 ≤ a ∧ a < Reg.MBX_FI_CFG 16 ∧ a % 8 = 3 then
    let i := (a - Reg.MBX_FI_CFG 0) / 8
    let add := fun (k : Kop) => { k with totals := Tabs.set (fun _ => (0 : Nat)) k.totals a (Tabs.get (fun _ => 0) k.totals a + (h.inst i).used / 1000) }
    (h.setInst i { h.inst i with used := (h.inst i).used % 1000 }).onKop fun k => if keepsTotals who then add k else k
  else if Reg.IRQ_SRC 0 ≤ a ∧ a < Reg.IRQ_SRC 1024 ∧ !h.srcSeen who (a - Reg.IRQ_SRC 0) then h.count Reg.IRQ_CNT_DENY
  else match cardOf a with
    | some c => h.clearRc who a c.rc
    | none => h

/-- The LO word of a TIME80 pair: its pair number. -/
def loPair (a : Nat) : Option Nat :=
  if a = Reg.TIME_DEV_LO then some 0 else if a = Reg.TIME_NET_LO then some 1 else if a = Reg.TIME_SI_LO then some 2 else none

end Hw

namespace State

/-- A read of a register by an identity (R9, R155, R506, R612). -/
def readReg (s : State) (who : Who) (a : Nat) : State :=
  let h := s.hw
  if !h.regOn a then s.onHw fun h => h.busError
  else if !h.regAllows who false a then s.onHw fun h => (h.deny who false a).busError
  else match Hw.loPair a with
    | some p => let r := h.readLo p; { s with hw := r.1.busOk r.2 }
    | none =>
      let v := if a = Reg.TIME_CAP_INFO then h.capturePop.2 else s.regView who a
      s.onHw fun h => (h.readEffect who a).busOk v

/-- A read of memory by an identity: the word, or the error response (R149, R155, R505, R506). -/
def readMem (s : State) (who : Who) (a : Nat) : State :=
  let r := s.dmaRead who a
  r.1.onHw fun h => match r.2 with
    | some w => h.busOk w
    | none => h.busError

end State

/-- READ_CLEAR_COUNTER: a read of a register (R9); an address outside the peripheral windows is one of memory, or of nothing (R155). -/
def execReadClearCounter (who : Who) (a : BitVec 34) (s : State) : Result :=
  .next (if regionOf a.toNat = .peripheral then s.readReg who a.toNat else s.readMem who a.toNat)

end Sys2Proof.Machine
end

