-- ==== Sys2Proof/Machine/RegWrite.lean ====
section
/-! DEFINITION. What a write of a register does (R9 to R13): its card alone for most, and for the rest the act that its rule
names. -/

namespace Sys2Proof.Machine

namespace Hw

/-- The world that controls the device's settings. -/
def isSecure : Who → Bool
  | .secure => true
  | _ => false

/-- The register remembers the identity that wrote it (R504). -/
def setMaster (h : Hw) (who : Who) (a : Nat) : Hw :=
  { h with masters := Tabs.set (fun _ => (0 : Nat)) h.masters a (whoBit who + 1) }

/-- A write of a PWR, CLK or WAKE register (R105, R106). -/
def writePwr (h : Hw) (who : Who) (a : Nat) (v : Word) : Hw :=
  if a = Reg.PWR_CMD then
    (let cmd := bitsOf v 3 0
     if cmd = 1 ∨ cmd = 2 ∨ !pwrWriter who then h.pwrCommand who cmd else h)
  else if a = Reg.PWR_CMD_LC ∨ a = Reg.PWR_NIGHT_CFG ∨ a = Reg.PWR_NIGHT_ITH then
    (if pwrWriter who then h.plain a v else h.setReg Reg.PWR_CMD_STAT 3)
  else if a = Reg.PWR_HOLD_SEC then (if isSecure who then h.plain a v else h)
  else if a = Reg.PWR_HOLD_CRS then (if who = .crest then h.plain a v else h)
  else if a = Reg.PWR_GATE_REQ then h.gate who (bitsOf v 15 8) (bitsOf v 1 0)
  else h.plain a v

/-- A write of a GRD register (R433, R438, R439, R446). -/
def writeGrd (h : Hw) (who : Who) (a : Nat) (v : Word) : Hw :=
  if a = Reg.GRD_SAFE then h.writeSafe who v
  else if a = Reg.GRD_CTRL then (let g := h.plain a v; if g.bit a 0 && !h.bit a 0 then g.arm else g)
  else if a = Reg.GRD_TRIPIN then ((h.plain a v).tripIn 0).tripIn 1
  else if a = Reg.GRD_CRS_TRIP then h.writeCrsTrip who v
  else if a = Reg.GRD_PEND_LC then (if grdOwner who then h.plain a v else h)
  else if a = Reg.GRD_PEND_CTL then h.writePend who v
  else if Reg.GRD_EVT_LATCH 0 ≤ a ∧ a < Reg.GRD_EVT_LATCH 24 then
    h.forEach ((List.range 40).filter fun i => bitN v.toNat i) fun h i => h.clearLatch (40 * (a - Reg.GRD_EVT_LATCH 0) + i)
  else if 0x10020100 ≤ a then
    match cardOf a with
    | some c =>
      let old := (Tabs.get (fun _ => (none : Option Word)) h.grd.pend a).getD (h.reg a)
      h.writeGuard a (c.merge (if h.bit Reg.GRD_CTRL 0 then old else h.reg a) v)
    | none => h
  else h.plain a v

/-- A word of a pulse timer after a write; a value that breaks R606 is a reserved encoding. -/
def timWrite (h : Hw) (k w : Nat) (v : Word) : Hw :=
  let x := fun (w : Nat) => (h.reg (Reg.TIME_TIM k w)).toNat
  let n := v.toNat
  if w = 0 then
    let align := if 1000000 < x 1 then bitN (x 0) 38 else bitN n 38
    h.setReg (Reg.TIME_TIM k 0) (word (b2n (bitN n 39) * 2 ^ 39 + b2n align * 2 ^ 38))
  else if w = 1 then
    (if n % 8 = 0 ∧ 16 ≤ n ∧ n ≤ 1000000000 ∧ x 2 ≤ n ∧ (!bitN (x 0) 38 ∨ n ≤ 1000000) then h.setReg (Reg.TIME_TIM k 1) v else h)
  else if w = 2 then (if n % 8 = 0 ∧ n ≤ x 1 then h.setReg (Reg.TIME_TIM k 2) v else h)
  else h.setReg (Reg.TIME_TIM k 3) v

/-- A write of a TIME register (R591, R596, R606, R607, R612). -/
def writeTime (h : Hw) (a : Nat) (v : Word) : Hw :=
  if a = Reg.TIME_MEAS_HI then h.setReg a v
  else if a = Reg.TIME_MEAS_LO then h.submit v
  else if a = Reg.TIME_UTC then
    let g := h.plain a v
    if bitsOf (g.reg a) 17 0 = bitsOf (h.reg a) 17 0 then g else g.setBit Reg.TIME_IRQ_STAT 6
  else if Reg.TIME_PORT 0 0 ≤ a ∧ a < Reg.TIME_PORT 8 0 then (if a % 4 = 0 then (h.plain a v).setNoplant else h.plain a v)
  else if Reg.TIME_TIM 0 0 ≤ a ∧ a < Reg.TIME_TIM 16 0 then h.timWrite ((a - Reg.TIME_TIM 0 0) / 4) (a % 4) v
  else h.plain a v

/-- A write of a VNK register (R192, R211, R212, R213, R250). -/
def writeVnk (h : Hw) (who : Who) (a : Nat) (v : Word) : Hw :=
  let k := (a - 0x10100000) / 0x1000
  let o := a % 0x1000
  if a = Reg.VNK_CTRL then
    let h := h.plain a (v &&& ~~~1#40)
    if bitN v.toNat 0 then h.vnkStart else h
  else if o = 0x100 ∨ (0x104 ≤ o ∧ o ≤ 0x107) then (if h.cycling k then h else h.plain a v)
  else if o = 0x101 then
    let g := h.plain a v
    if h.cycling k ∨ 23500 < g.y0 k + 256 * g.nDyn k then h else g
  else if o = 0x108 then (if h.cycling k then h.plainFor a v (maskOf 31 29) else h.plain a v)
  else if o = 0x118 then h.cmdGo k (bitsOf v 39 32) (bitsOf v 31 24) (bitsOf v 23 16) (h.cmdData k) false
  else if o = 0x120 then (h.plain a v).setMaster who a
  else if o = 0x121 then (h.plain a v).dyHanded k
  else if 0x130 ≤ o ∧ o < 0x140 then (if bitN v.toNat 37 then h.releaseMark k (o - 0x130) else h)
  else if 0x400 ≤ o ∧ o < 0x480 then h.cutFree.plain a v
  else h.plain a v

/-- A write of an SNP register (R262, R275, R278). -/
def writeSnp (h : Hw) (a : Nat) (v : Word) : Hw :=
  if a = Reg.SNP_CTRL then (if h.bit Reg.SNP_CTRL 0 then h.plainFor a v (maskOf 31 16) else h.plain a v)
  else if a = Reg.SNP_CAL_DATA then h.writeCalData v
  else if a = Reg.SNP_CALQ_GO then h.calqGo (bitsOf v 15 0)
  else if a = Reg.SNP_WIN_SRC then
    let w := h.fld Reg.SNP_WIN_SEL Fld.SNP_WIN_SEL_WIN
    let x := h.win w
    let kind := if 1 ≤ bitsOf v 39 36 ∧ bitsOf v 39 36 ≤ 4 then bitsOf v 39 36 else bitsOf x.src 39 36
    if winIdle x then h.setWin w { x with src := word (kind * 2 ^ 36 + bitsOf v 35 8 * 2 ^ 8) } else h
  else if a = Reg.SNP_WIN_CMD then h.winCmd (bitsOf v 1 0)
  else h.plain a v

/-- A write of the VALID bit of an address register of an ECC memory. -/
def clearEccValid (h : Hw) (m : Nat) (ue : Bool) (v : Word) : Hw :=
  let e := h.eccOf m
  if !bitN v.toNat 39 then h else h.setEcc m (if ue then { e with ueValid := false } else { e with ceValid := false })

/-- A write of a FAB register (R302, R317, R390, R715). -/
def writeFab (h : Hw) (who : Who) (a : Nat) (v : Word) : Hw :=
  if a = Reg.FAB_LT_CFG then h.setLtCfg v
  else if a = Reg.FAB_MIG_REQ then h.migRequest v
  else if a = Reg.FAB_MC_LC then (if isSecure who then h.plain a v else h)
  else if a = Reg.FAB_ECC_CE_ADDR then h.clearEccValid h.fabEcc false v
  else if a = Reg.FAB_ECC_UE_ADDR then h.clearEccValid h.fabEcc true v
  else h.plain a v

/-- A write of a CRS register (R493 to R497, R502). -/
def writeCrs (h : Hw) (who : Who) (a : Nat) (v : Word) : Hw :=
  if a = Reg.CRS_READY then
    (if !bitN v.toNat 0 then h
     else
       let again := h.bit Reg.CRS_READY 0 && h.crs.request.any fun r => r.1 == opHandover
       let h := h.setBit Reg.CRS_READY 0
       if again then { h with crs := { h.crs with validated := true } } else h)
  else if who = .crestStandby then h
  else if a = Reg.CRS_MODE_REQ then
    (let op := bitsOf v 3 0
     if 1 ≤ op ∧ op ≤ 5 then h.modeRequest who op (bitsOf v 5 4) else h)
  else if a = Reg.CRS_ALIVE then h.aliveWrite who
  else h.plain a v

/-- A write of an IRQ register (R522, R524, R530). -/
def writeIrq (h : Hw) (who : Who) (a : Nat) (v : Word) : Hw :=
  if a = Reg.IRQ_SET then h.irqSet who (bitsOf v 9 0)
  else if a = Reg.IRQ_CLR then h.irqClr who (bitsOf v 9 0)
  else if Reg.IRQ_SRC 0 ≤ a ∧ a < Reg.IRQ_SRC 1024 then
    (if h.srcSeen who (a - Reg.IRQ_SRC 0) then h.plain a v else h.count Reg.IRQ_CNT_DENY)
  else if Reg.IRQ_SEND 0 ≤ a ∧ a < Reg.IRQ_SEND 512 then
    (if whoCode who ≠ 0 && h.srcOwner (0x200 + (a - Reg.IRQ_SEND 0)) == whoCode who then h.plain a v else h.count Reg.IRQ_CNT_DENY)
  else h.plain a v

/-- A write of an MBX register (R531, R533, R541, R545, R548, R552). -/
def writeMbx (h : Hw) (who : Who) (a : Nat) (v : Word) : Hw :=
  if a = Reg.MBX_CTRL then (if isSecure who then h.plain a v else h)
  else if a = Reg.MBX_HO_REQ then
    (let op := bitsOf v 13 12
     if op = 0 then h else h.channelRequest who op (bitsOf v 31 30) (bitsOf v 5 0) (if op = 2 then whoCode who else bitsOf v 39 32))
  else if Reg.MBX_PTR 0 ≤ a ∧ a < Reg.MBX_PTR 64 then
    let n := (a - Reg.MBX_PTR 0) / 16
    let o := (a - Reg.MBX_PTR 0) % 16
    if o = 0 then (if h.isSender who n then h.plain a v else h.count Reg.MBX_CNT_DENY)
    else if o = 1 then h.doorbellWrite who n (bitsOf v 39 24) (bitsOf v 23 16) (bitsOf v 15 0)
    else if o = 6 then h.ackWrite who n (bitsOf v 39 24) (bitsOf v 15 0)
    else if o = 8 then
      (let keep := (if h.isReceiver who n then 0 else 2) + (if h.isSender who n then 0 else 1)
       if keep = 3 then h.count Reg.MBX_CNT_DENY
       else h.setReg a (word (((v.toNat % 4) &&& (3 - keep)) + ((h.reg a).toNat &&& keep))))
    else h
  else if Reg.MBX_FI_CFG 0 ≤ a ∧ a < Reg.MBX_FI_CFG 16 then
    let i := (a - Reg.MBX_FI_CFG 0) / 8
    let o := (a - Reg.MBX_FI_CFG 0) % 8
    if o = 0 then
      (if who ≠ .hypervisor then h
       else if (h.inst i).rateMax < bitsOf v 28 0 then h.plainFor a v (maskOf 28 0) else h.plain a v)
    else if o = 1 then
      (match bitsOf v 2 0 with
       | 1 => h.fiQuiesceCmd who i
       | 2 => h.fiResetCmd who i
       | 3 => h.fiResumeCmd who i
       | 4 => h.fiRemoveCmd who i
       | _ => h)
    else h
  else h.plain a v

/-- A write of an LSI register (R456, R482). -/
def writeLsi (h : Hw) (a : Nat) (v : Word) : Hw :=
  let dirty := fun (h : Hw) (l : List Nat) =>
    if h.bit Reg.LSI_CTRL 0 then h.onLsi fun x => { x with dirty := x.dirty ++ l.filter fun i => !x.dirty.contains i } else h
  if a = Reg.LSI_CTRL then (let h := h.plain a v; if h.bit a 0 then h.setBit Reg.LSI_STAT 0 else h)
  else if a = Reg.LSI_CMD then h.lsiCommand (bitsOf v 39 34) (bitsOf v 1 0) (bitsOf v 6 4)
  else if a = Reg.LSI_WD then dirty (h.plain a v) [64, 65, 66, 67]
  else if Reg.LSI_CH_CFG 0 ≤ a ∧ a < Reg.LSI_CH_CFG 64 then dirty (h.plain a v) [a - Reg.LSI_CH_CFG 0]
  else if Reg.LSI_DIL 0 ≤ a ∧ a < Reg.LSI_DIL 4 then dirty (h.plain a v) [64 + (a - Reg.LSI_DIL 0)]
  else h.plain a v

/-- A write of SIZE and TAIL of a descriptor ring: a TAIL that is not below SIZE is ignored (R577). -/
def ringCtl (h : Hw) (a : Nat) (v : Word) : Hw :=
  let size := if bitsOf v 38 26 = 0 ∨ (4 ≤ bitsOf v 38 26 ∧ bitsOf v 38 26 ≤ 4096) then bitsOf v 38 26 else bitsOf (h.reg a) 38 26
  let h := h.setReg a (withBits (h.reg a) 38 26 size)
  if bitsOf v 25 13 < size then h.setReg a (withBits (h.reg a) 25 13 (bitsOf v 25 13)) else h

/-- A write of a switch-core, host-port or MAC register (R559, R577, R579, R583, R584). -/
def writeSw (h : Hw) (a : Nat) (v : Word) : Hw :=
  if a = Reg.SWC_FDB_CMD then h.fdbCmd (bitsOf v 39 38) (bitsOf v 13 0)
  else if a < 0x10810000 then
    (if Reg.HP_TX_BASE 0 ≤ a ∧ a < Reg.HP_TX_BASE 3 ∧ (a % 16 = 1 ∨ a % 16 = 3) then h.ringCtl a v else h.plain a v)
  else
    let n := (a - 0x10810000) / 0x10000
    if a = Reg.MAC_CTRL n then h.writeMacCtrl n v
    else if a = Reg.MAC_MGMT_CMD n then
      (if n < 2 ∧ 2 ≤ bitsOf v 39 38 then h
       else h.mgmtCmd n (bitsOf v 39 38) (bitsOf v 37 33) (bitsOf v 31 16) (bitsOf v 15 0))
    else h.plain a v

/-- A bit-timing register after a write: a field outside R651 stays as it was (R13). The rate depends on BRP, TSEG1 and TSEG2
together: a write whose rate lies outside R651 leaves those three as they were (log entry 32). -/
def canTiming (dbt : Bool) (old v : Word) : Word :=
  let pick := fun (hi lo : Nat) (ok : Bool) (w : Word) => if ok then withBits w hi lo (bitsOf v hi lo) else w
  let tq := fun (w : Word) => (bitsOf w 29 22 + 1) * (3 + bitsOf w 21 14 + bitsOf w 13 7)
  let w := pick 29 22 true (pick 21 14 (!dbt || decide (bitsOf v 21 14 ≤ 31)) (pick 13 7 (!dbt || decide (bitsOf v 13 7 ≤ 15)) old))
  let w := if (if dbt then decide (16 ≤ tq w) else decide (80 ≤ tq w) && decide (tq w ≤ 640)) then w else old
  let w := pick 6 0 (decide (bitsOf v 6 0 ≤ bitsOf w 13 7)) w
  if dbt then pick 39 32 (decide (80 ≤ tq w) || bitsOf v 39 32 ≠ 0) w else w

/-- A write of a CAN controller's register (R651 to R655, R658, R681). -/
def writeCan (h : Hw) (a : Nat) (v : Word) : Hw :=
  let n := (a - Reg.CAN_CTRL 0) / 0x1000
  let o := (a - Reg.CAN_CTRL 0) % 0x1000
  if 4 ≤ n then h
  else if o = 0 then let d := h.draw 2; d.2.writeCanCtrl n v (d.1 == 1)
  else if o = 1 ∨ o = 2 then (if h.canMode n = 0 then h.setReg a (canTiming (o == 2) (h.reg a) v) else h)
  else if o = 0x1E then h.txPush n (bitsOf v 39 32)
  else if o = 0x31 ∨ o = 0x51 then (if bitN v.toNat 0 then h.rxPop n (if o = 0x31 then 0 else 1) else h)
  else h.plain a v

/-- A write of a COL register (R672, R682). -/
def writeCol (h : Hw) (a : Nat) (v : Word) : Hw :=
  if a = Reg.COL_CTRL then
    let g := h.plain a v
    if h.bit a 0 && !g.bit a 0 then g.forEach (g.can.outq.map (·.1)) fun h p => h.dropOutq p else g
  else if a = Reg.COL_ORING_CTL ∨ a = Reg.COL_IRING_CTL then h.ringCtl a v
  else h.plain a v

/-- A write of a GIO register (R666, R683). -/
def writeGio (h : Hw) (a : Nat) (v : Word) : Hw :=
  if Reg.GIO_WAKE_FW 0 ≤ a ∧ a < Reg.GIO_WAKE_FW 9 then
    (if bitN v.toNat 30 then h.wakeClear (a - Reg.GIO_WAKE_FW 0) else h)
  else h.plain a v

/-- A write of a WLD register (R505, R508, R509, R516, R517, R529). -/
def writeWld (h : Hw) (who : Who) (a : Nat) (v : Word) : Hw :=
  let armed := h.bit Reg.WLD_CTRL 0
  if a = Reg.WLD_HO_REQ then
    (let op := bitsOf v 13 12
     if op = 0 ∨ 2 ≤ bitsOf v 31 30 then h
     else h.hoRequest who op (bitsOf v 31 30 == 1) (bitsOf v 9 0) (if op = 2 then whoCode who else bitsOf v 39 32))
  else if !isSecure who then h
  else if Reg.WLD_FIXED 0 ≤ a ∧ a < Reg.WLD_FIXED 17 then
    (if armed then h else if (wiredMask (a - Reg.WLD_FIXED 0)).isSome then h.plainFor a v (maskOf 19 0) else h.plain a v)
  else if Reg.WLD_UNIT_OWN 0 ≤ a ∧ a < Reg.WLD_UNIT_OWN 64 then (if armed then h.plainFor a v (maskOf 31 24) else h.plain a v)
  else if Reg.WLD_UNIT_AUTH 0 ≤ a ∧ a < Reg.WLD_UNIT_AUTH 64 then (if armed then h else h.plain a v)
  else h.plain a v

/-- A write of a register, its access rights apart. -/
def writeIn (h : Hw) (who : Who) (a : Nat) (v : Word) : Hw :=
  let b := a / 0x10000
  if b = 0x1000 then h.writePwr who a v
  else if a = Reg.CLK_SLOW_TRIM then (h.plain a v).writeRetained
  else if b = 0x1002 then h.writeGrd who a v
  else if b = 0x1004 then h.writeTime a v
  else if b = 0x1010 then h.writeVnk who a v
  else if b = 0x1020 then h.writeSnp a v
  else if b = 0x1030 then h.writeFab who a v
  else if b = 0x1040 then h.writeCrs who a v
  else if b = 0x1050 then h.writeIrq who a v
  else if b = 0x1060 then h.writeMbx who a v
  else if b = 0x1070 then h.writeLsi a v
  else if 0x1080 ≤ b ∧ b < 0x1089 then h.writeSw a v
  else if b = 0x10A0 then h.writeCan a v
  else if b = 0x10B0 then h.writeCol a v
  else if b = 0x10C0 then h.writeGio a v
  else if b = 0x10D0 then (if a = Reg.NOR_SRC then (h.plain a v).setMaster who a else h.plain a v)
  else if b = 0x10E0 then
    (if a = Reg.DMC_ECC_CE_ADDR then h.clearEccValid h.dmcEcc false v
     else if a = Reg.DMC_ECC_UE_ADDR then h.clearEccValid h.dmcEcc true v
     else h.plain a v)
  else if b = 0x1100 then h.writeWld who a v
  else h.plain a v

end Hw

namespace State

/-- A write of FAB_MC_CTRL, from the secure world only (R715). -/
def writeMcCtrl (s : State) (who : Who) (op : Nat) : State :=
  let b := imgBuild (s.partImage norStaging 3 0)
  s.onHw fun h => (if !Hw.isSecure who then h else if op = 1 then h.mcLoad b else if op = 2 then h.mcDeclare else if op = 3 then h.cancelMc else h).busOk 0

/-- A write of a register by an identity (R9, R155, R506): the registers that reach beyond the AO and SYS domains, and the others. -/
def writeReg (s : State) (who : Who) (a : Nat) (v : Word) : State :=
  let h := s.hw
  if !h.regOn a then s.onHw fun h => h.busError
  else if !h.regAllows who true a then s.onHw fun h => (h.deny who true a).busError
  else if a = Reg.NOR_CMD then
    (let op := bitsOf v 3 0
     if 1 ≤ op ∧ op ≤ 3 then s.norCommand who op else s.onHw fun h => h.busOk 0)
  else if a = Reg.FUSE_PROG then s.fuseProg who (bitsOf v 39 36) (bitsOf v 35 34)
  else if a = Reg.FAB_MC_CTRL then s.writeMcCtrl who (bitsOf v 39 38)
  else
    let s := s.onHw fun h => (h.writeIn who a v).busOk 0
    if a = Reg.HP_TX_CTL 0 then s.hpSend 0 4096
    else if a = Reg.HP_TX_CTL 1 then s.hpSend 1 4096
    else if a = Reg.HP_TX_CTL 2 then s.hpSend 2 4096
    else s

/-- A write of memory by an identity: the error response where the firewall or the map closes it (R155, R505, R506). -/
def writeMem (s : State) (who : Who) (a : Nat) (v : Word) : State :=
  let r := s.dmaWrites who a [v]
  r.1.onHw fun h => if r.2 then h.busOk 0 else h.busError

end State

/-- REGISTER_WRITE: a write of a register (R9); an address outside the peripheral windows is one of memory, or of nothing (R155). -/
def execRegisterWrite (who : Who) (a : BitVec 34) (v : Word) (s : State) : Result :=
  .next (if regionOf a.toNat = .peripheral then s.writeReg who a.toNat v else s.writeMem who a.toNat v)

end Sys2Proof.Machine
end

