-- ==== Sys2Proof/Machine/ObjCore.lean ====
section
/-! DEFINITION. Objects: types, access classes, roles, and what reading and writing one does (R613 to R620). -/

namespace Sys2Proof.Machine

/-- What a READ of an object gives: its value, with an LC of its own for a point; a refusal; a proxy's retry delay; or the point
whose step it waits for (R300, R639, R648). -/
inductive ObjRead where
  | value (v : List Byte) (lc : Option Nat)
  | refused (status : Nat)
  | retry (ms : Nat)
  | wait (page ofs : Nat)
  deriving DecidableEq, Repr

/-- Who asks: the path that serves it, its role, and its session's identifier and entry. -/
structure Asker where
  path : Nat
  role : Nat
  id : Nat := 0
  entry : Nat := 0
  deriving DecidableEq, Repr

/-- The state after a write, and its STATUS. -/
abbrev Written := State × Nat

/-- An object as its definition gives it. A write acts at once; a write with commit LC is judged at acceptance and acts at its LC, by
a command of its own where `own` says so; a guard register with the others of its LC, and a load command before the dies sample. -/
structure Obj where
  type : Nat
  len : Nat
  access : Nat := 1
  rd : Nat := 0
  wr : Nat := 2
  dflt : List Byte := []
  legal : Nat → Bool := fun _ => true
  read : State → State × ObjRead := fun s => (s, .refused stNoAccess)
  write : State → List Byte → Written := fun s _ => (s, stNoAccess)
  accept : State → List Byte → Nat → Written := fun s _ _ => (s, stOk)
  apply : State → List Byte → Nat → Written := fun s _ _ => (s, stOk)
  own : Bool := false
  guard : Option Nat := none
  load : Option Nat := none

namespace Obj

/-- A read-only object whose value is a function of the state. -/
def get (type len : Nat) (f : State → List Byte) : Obj := { type := type, len := len, read := fun s => (s, .value (f s) none) }

/-- Read-only objects of the types of R615. -/
def bool (f : State → Bool) : Obj := get 0x01 1 fun s => [byte (b2n (f s))]
def u8 (f : State → Nat) : Obj := get 0x02 1 fun s => beBytes 1 (f s)
def u16 (f : State → Nat) : Obj := get 0x03 2 fun s => beBytes 2 (f s)
def enum (f : State → Nat) : Obj := get 0x0F 1 fun s => beBytes 1 (f s)
def u40 (f : State → Word) : Obj := get 0x04 5 fun s => wordBytes (f s)
def bytes (n : Nat) (f : State → List Byte) : Obj := get 0x11 n fun s => ((f s) ++ List.replicate n 0).take n
def words (n : Nat) (f : State → List Word) : Obj := bytes (5 * n) fun s => (f s).flatMap wordBytes

/-- A text, padded with 0x00. -/
def str (n : Nat) (t : String) : Obj :=
  let v := ((t.toList.map fun (c : Char) => byte c.toNat) ++ List.replicate n 0).take n
  { get 0x10 n fun _ => v with dflt := v }

/-- The object with another type code, default, or read role. -/
def typed (o : Obj) (type : Nat) : Obj := { o with type := type }
def dfl (o : Obj) (v : Nat) : Obj := { o with dflt := beBytes o.len v }
def reader (o : Obj) (role : Nat) : Obj := { o with rd := role }

/-- A read-write object: its writing role, its legal values, and its write. -/
def rw (o : Obj) (role : Nat) (legal : Nat → Bool) (f : State → Nat → Written) : Obj :=
  { o with access := 2, wr := role, legal := legal, write := fun s v => f s (beNat v) }

/-- A write-only object. -/
def cmd (type len role : Nat) (f : State → List Byte → Written) (legal : Nat → Bool := fun _ => true) : Obj :=
  { type := type, len := len, access := 3, wr := role, legal := legal, write := f }

/-- An object written with a commit LC. -/
def lc (o : Obj) (role : Nat) (legal : Nat → Bool) (accept : State → List Byte → Nat → Written)
    (apply : State → List Byte → Nat → Written) : Obj :=
  { o with access := 5, wr := role, legal := legal, accept := accept, apply := apply }

/-- The value of a write with commit LC that nothing but the general rules refuses. -/
def takes : State → List Byte → Nat → Written := fun s _ _ => (s, stOk)

end Obj

/-! ### Objects that mirror registers (R620) -/

/-- A register's word as an object shows it: 0 while its block is off. -/
def State.mirror (s : State) (a : Nat) : Word := if s.hw.regOn a then s.regView .secure a else 0

/-- A field of a register as an object shows it. -/
def State.mirrorFld (s : State) (a : Nat) (f : BitField) : Nat := bitsOf (s.mirror a) f.hi f.lo

/-- A running total of reads, by key. -/
def Hw.total (h : Hw) (k : Nat) : Word := word (min (Tabs.get (fun _ => (0 : Nat)) h.kop.totals k) (2 ^ 40 - 1))

/-- The server reads a register with RC fields and adds what it read to the running total, which the object returns. -/
def Obj.rc (a : Nat) : Obj :=
  let f := fun (s : State) => s.onHw fun h => if h.regOn a then h.readEffect (.vm 0) a else h
  { type := 0x04, len := 5, read := fun s => let t := f s; (t, .value (wordBytes (t.hw.total a)) none) }

/-- The mirror of a register, under R620. -/
def Obj.reg (a : Nat) : Obj := if (cardOf a).any fun c => c.rc ≠ 0 then Obj.rc a else Obj.u40 fun s => s.mirror a

/-- A write of a register by the server of the object dictionary. -/
def State.putReg (s : State) (a : Nat) (v : Word) : Written :=
  if s.hw.regOn a then (s.onHw fun h => h.writeIn .secure a v, stOk) else (s, stState)

/-- A write of a field. -/
def State.putFld (s : State) (a : Nat) (f : BitField) (v : Nat) : Written := s.putReg a (withBits (s.hw.reg a) f.hi f.lo v)

/-- The value of a field is no reserved encoding (R13, R616). -/
def fldLegal (a : Nat) (f : BitField) (v : Nat) : Bool :=
  decide (v < 2 ^ (f.hi + 1 - f.lo)) && (match cardOf a with
    | some c => c.legal.all fun e => e.1 ≠ f.hi || e.2.1 ≠ f.lo || e.2.2.ok v
    | none => true)

/-- A word holds no reserved encoding. -/
def wordLegal (a : Nat) (v : Nat) : Bool := match cardOf a with
  | some c => c.legal.all fun e => e.2.2.ok (bitsOf (word v) e.1 e.2.1)
  | none => true

/-- A read-write object over a field, of a type and length. -/
def Obj.rwFld (type len role : Nat) (a : Nat) (f : BitField) : Obj :=
  (Obj.get type len fun s => beBytes len (s.mirrorFld a f)).rw role (fldLegal a f) fun s v => s.putFld a f v

/-- A read-write object over a register. -/
def Obj.rwReg (role : Nat) (a : Nat) : Obj :=
  (Obj.u40 fun s => s.mirror a).rw role (wordLegal a) fun s v => s.putReg a (word v)

/-! ### STATUS (R643) -/

/-- STATUS of a result code: by lists of the codes that mean BUSY, NO_ACCESS, BAD_VALUE and STATE; any other code plus 0x0100. -/
def statusOf (busy denied bad st : List Nat) (r : Nat) : Nat :=
  if r = 0 then stOk
  else if busy.contains r then stBusy
  else if denied.contains r then stNoAccess
  else if bad.contains r then stBadValue
  else if st.contains r then stState
  else 0x0100 + r

end Sys2Proof.Machine
end

