-- ==== Sys2Proof/Machine/Tree.lean ====
section
/-! DEFINITION. Plants built from many devices: trips, ring partners and summaries (R716 to R729). -/

namespace Sys2Proof.Machine

namespace Hw

/-- GRD_CRS_TRIP takes a value: the conditions of CRS_TRIP0 to 7 follow it (R432). -/
def setCrsTrip (h : Hw) (v : Nat) : Hw :=
  let h := h.setReg Reg.GRD_CRS_TRIP (word (v % 256))
  (List.range 8).foldl (fun (h : Hw) i => h.follow (0x398 + i) 0 0 (bitN v i)) h

/-- The bit of GRD_CRS_TRIP that a trip group sets (R717). -/
def groupBit (h : Hw) (g : Nat) : Option Nat := Tabs.get (fun _ => (none : Option Nat)) h.cfg.sw.groupBit g

/-- An accepted TRIP frame of a group sets the group's bit (R721). -/
def takeTrip (h : Hw) (g : Nat) : Hw :=
  let h := { h with tripAt := Tabs.set (fun _ => (0 : Nat)) h.tripAt g (h.lc + 1) }.peerCountUp 0
  match h.groupBit g with
  | some b => h.setCrsTrip (setBitN (h.reg Reg.GRD_CRS_TRIP).toNat b)
  | none => h

/-- A TRIP frame of the group has come within the last 3 ms (R721). -/
def tripRecent (h : Hw) (g : Nat) : Bool :=
  let t := Tabs.get (fun _ => 0) h.tripAt g
  t ≠ 0 && decide (h.lc + 1 ≤ t + 3)

/-- The groups of a mask. -/
def groupsOf (mask : Nat) : List Nat := (List.range 8).filter fun g => bitN mask g

/-- PLANT_TRIP: the groups whose bit is set (R729). -/
def plantTrip (h : Hw) : Nat :=
  (List.range 8).foldl (fun n g => match h.groupBit g with
    | some b => if h.bit Reg.GRD_CRS_TRIP b then setBitN n g else n
    | none => n) 0

/-- A write of PLANT_TRIP_CLEAR, carried out by Crest (R721). -/
def tripClear (h : Hw) (mask : Nat) : Hw :=
  let gs := groupsOf mask
  if gs.any h.tripRecent then h.answer stState
  else (h.setCrsTrip (gs.foldl (fun n g => match h.groupBit g with
    | some b => clearBitN n b
    | none => n) (h.reg Reg.GRD_CRS_TRIP).toNat)).answer stOk

/-! ### Summaries (R725) -/

/-- DISPATCH as it governs cycle n (R663). -/
def dispatchOf (h : Hw) (n : Nat) : Bool := if n < h.pwr.dispatchAt then !h.pwr.dispatch else h.pwr.dispatch

/-- DISPATCH takes a value, from the cycle in progress on. -/
def setDispatch (h : Hw) (v : Bool) : Hw :=
  { h with pwr := { h.pwr with dispatch := v, dispatchAt := if v = h.pwr.dispatch then h.pwr.dispatchAt else h.lc } }

/-- The five figures of a summary: the sums of outputs 0x0C0 to 0x0C3, the limits, over the racks, and the rack SoC reduction of device
page 0. Without dispatch every limit is published as 0 (R663); the SERVICE mark has no field in the frame (log entry 49). -/
def ownFigures (h : Hw) (n : Nat) : List Int :=
  let racks := (List.range 64).filter fun k => h.pageDeclared (17664 + k)
  let sum := fun o => racks.foldl (fun t k => t + h.sourceAt (17664 + k) n o) (0 : Int)
  let soc := match h.pageCfg 17728, h.reductionsOf 17728 n with
    | some c, some ws => (((c.reductions.zip ws).find? fun x => x.1.source == 0xC4).map (·.2.toInt)).getD 0
    | _, _ => 0
  (if h.dispatchOf n then [sum 0xC0, sum 0xC1, sum 0xC2, sum 0xC3] else [0, 0, 0, 0]) ++ [soc]

/-- The operation of the rack SoC reduction. -/
def socOp (h : Hw) : RedOp :=
  (((h.pageCfg 17728).bind fun c => c.reductions.find? fun r => r.source == 0xC4).map (·.op)).getD .min

/-- The five figures of two parts together: sums, and for the SoC the reduction's own operation. -/
def addFigures (op : RedOp) (a b : List Int) : List Int :=
  ((List.range 4).map fun i => a.getD i 0 + b.getD i 0) ++ [match op with
    | .max | .argmax => max (a.getD 4 0) (b.getD 4 0)
    | .sum => a.getD 4 0 + b.getD 4 0
    | _ => min (a.getD 4 0) (b.getD 4 0)]

/-- A figure as a word. -/
def figBytes (x : Int) : List Byte := wordBytes (wrap (satVal x))

/-- Word i of a summary's body. -/
def bodyWord (b : List Byte) (i : Nat) : Int := (BitVec.ofNat 40 (beNat ((b.drop (5 * i)).take 5))).toInt

/-- A child's own figures and those of its subtree, together; and its missing count. -/
def childFigures (op : RedOp) (b : List Byte) : List Int × Nat :=
  let own := (List.range 5).map fun i => bodyWord b (1 + i)
  let sub := (List.range 5).map fun i => bodyWord b (6 + i)
  let none_ := sub.all fun x => x == 0
  (if none_ then own else addFigures op own sub, beNat ((b.drop 55).take 5))

/-- The children that the TREE section declares. -/
def children (h : Hw) : List Nat := (h.cfg.sw.neighbours.filter fun n => n.rel == 1).map (·.dev)

/-- The key of a child's summary of a cycle. -/
def subKey (n dev : Nat) : Nat := n * 65536 + dev

/-- The body of the summary of cycle n: n, the device's figures, its subtree's, and the children missing (R725). -/
def summaryBody (h : Hw) (n : Nat) : List Byte :=
  let op := h.socOp
  let subs := h.children.map fun d => Tabs.get (fun _ => ([] : List Byte)) h.tree.subs (subKey n d)
  let came := (subs.filter fun b => !b.isEmpty).map (childFigures op)
  let sub := match came with
    | [] => [0, 0, 0, 0, 0]
    | x :: l => l.foldl (fun a (y : List Int × Nat) => addFigures op a y.1) x.1
  let missing := (subs.filter fun b => b.isEmpty).length + came.foldl (fun t (x : List Int × Nat) => t + x.2) 0
  beBytes 5 n ++ (h.ownFigures n).flatMap figBytes ++ sub.flatMap figBytes ++ beBytes 5 missing

/-- A SUMMARY frame leaves for the parent, on both uplinks (R716, R718, R725). -/
def sendSummary (h : Hw) (body : List Byte) : Hw :=
  match h.cfg.sw.neighbours.find? fun n => n.rel == 0 with
  | none => h
  | some x =>
    let seq := (Tabs.get (fun _ => 0) h.peerSeq 5 + 1) % 2 ^ 32
    let p := [5, 1] ++ beBytes 2 h.cfg.plantTag ++ beBytes 2 h.cfg.deviceId ++ beBytes 2 x.dev ++ h.lcBytes ++ beBytes 4 seq ++ body
    let h := { h with peerSeq := Tabs.set (fun _ => (0 : Nat)) h.peerSeq 5 seq }
    [0, 1].foldl (fun (h : Hw) lan =>
      h.send (.eth lan) (beBytes 6 x.mac ++ beBytes 6 h.cfg.sw.mac ++ [0x81, 0x00] ++
        beBytes 2 (5 * 8192 + Tabs.get (fun _ => 0) h.cfg.sw.peerVid lan % 4096) ++ [0x88, 0xB6] ++ p)) h

/-- The cycle whose summary is the next to be made. -/
def summaryNext (h : Hw) : Nat := h.nextCycle (max h.tree.sent h.firstOwed)

/-- VM0 can make the summary of a cycle: it is committed. -/
def summaryCan (h : Hw) (n : Nat) : Bool :=
  h.sysOn && h.inTree && (h.vmSlot 0).state == .running && h.carriesInputs n && decide (n ≤ h.lcCommit)

/-- The summary of cycle n is made: to the parent, or published by the summit (R725). -/
def makeSummary (h : Hw) (n : Nat) : Hw :=
  let b := h.summaryBody n
  let h := { h with tree := { h.tree with total := b, sent := n + 1 } }
  if h.cfg.role = 0 then h else h.sendSummary b

/-- Every child's totals of cycle n have arrived. -/
def childrenCame (h : Hw) (n : Nat) : Bool :=
  h.children.all fun d => !(Tabs.get (fun _ => ([] : List Byte)) h.tree.subs (subKey n d)).isEmpty

/-- The summaries that wait for no child. -/
def summariesTo (h : Hw) : Nat → Hw
  | 0 => h
  | fuel + 1 => if h.summaryCan h.summaryNext && h.childrenCame h.summaryNext then (h.makeSummary h.summaryNext).summariesTo fuel else h

/-- The summaries that can be made go out in order. DESIGN CHOICE (log entry 49): a device without children sends before SI(n + 3), but one
that may still include a child until SI(n + 5) cannot; each summary goes out as soon as it is complete, and at SI(n + 5) otherwise. -/
def summaries (h : Hw) : Hw := h.summariesTo 16

end Hw

/-! ### Rows -/

/-- TREE_TRIP_REPEAT: the oldest trip frame still to be repeated is sent again (R720). -/
def execTreeTripRepeat (s : State) : Result :=
  .next (s.onHw fun h => match h.grd.trips with
    | [] => h
    | (e, r) :: rest =>
      let h := h.sendTrip e r
      { h with grd := { h.grd with trips := if r < 2 then rest ++ [(e, r + 1)] else rest } })

/-- PEER_TRIP_RECEIVE: the switch forwards the frame itself as it receives it (R719 to R721, R723). -/
def execPeerTripReceive (hdr : PeerHdr) (group : Byte) (s : State) : Result :=
  .next (s.onHw fun h =>
    if !h.sysOn || !h.inTree then h
    else
      let a := h.peerAccept 1 hdr true
      if a.2 then a.1.takeTrip group.toNat else a.1)

/-- PLANT_TRIP_CLEAR (R721, R729). -/
def execPlantTripClear (role : Fin 5) (mask : Byte) (s : State) : Result :=
  .next (s.onHw fun h =>
    if h.servedPath.isNone || !h.inTree then h.answer stBadObject
    else if role.val < 1 then h.answer stNoAccess
    else if !h.crestOn then h.answer stState
    else h.tripClear mask.toNat)

/-- PEER_STATUS_RECEIVE: the partner's report for a shared ring (R718, R724, R729). -/
def execPeerStatusReceive (k : Fin 16) (hdr : PeerHdr) (flags breakA breakB : Byte) (s : State) : Result :=
  .next (s.onHw fun h =>
    if !h.sysOn then h
    else
      let a := h.peerAccept 4 hdr (h.isPartner k hdr)
      if !a.2 then a.1
      else a.1.onRing k fun r =>
        { r with partner := word (flags.toNat * 2 ^ 32 + breakA.toNat * 2 ^ 24 + breakB.toNat * 2 ^ 16)
                 partnerOk := if flags.getLsbD 0 then some h.lc else r.partnerOk })

/-- PARTNER_STATUS_LAPSE (R724, R729). -/
def execPartnerStatusLapse (k : Fin 16) (s : State) : Result :=
  .next (s.onHw fun h => match (h.ring k).partnerOk with
    | some n => if n + 2 ≤ h.lc then (h.onRing k fun r => { r with partnerOk := none }).peerCountUp 4 else h
    | none => h)

/-- PEER_SUMMARY_RECEIVE: a child's totals are held for their cycle if they arrive by SI(n + 5) (R725, R728). -/
def execPeerSummaryReceive (hdr : PeerHdr) (body : List Byte) (s : State) : Result :=
  .next (s.onHw fun h =>
    if !h.sysOn || !h.inTree then h
    else
      let a := h.peerAccept 5 hdr (h.children.contains hdr.src.toNat)
      let n := beNat (body.take 5)
      if !a.2 || body.length < 60 || decide (n + 5 < h.lc) then a.1
      else
        let h := a.1
        let subs := h.tree.subs.filter fun x => decide (h.lc ≤ x.1 / 65536 + 64)
        let subs := Tabs.set (fun _ => ([] : List Byte)) subs (Hw.subKey n hdr.src.toNat) (body.take 60)
        { h with tree := { h.tree with subs := subs } }.summaries)

/-- SUMMARY_DEADLINE: at SI(n + 5) the summary of the next committed cycle n is made with the children that have come (R725). -/
def execSummaryDeadline (s : State) : Result :=
  .next (s.onHw fun h =>
    let n := h.summaryNext
    if h.summaryCan n && decide (n + 5 ≤ h.lc) then h.makeSummary n else h)

end Sys2Proof.Machine
end

