-- ==== Sys2Proof/Machine/ObjIdentity.lean ====
section
/-! DEFINITION. The objects of areas 0x00 identity, 0x01 communication, 0x02 time and 0x03 power (R141, R582, R611, R621, R622,
R649, R729). -/

namespace Sys2Proof.Config

/-- The device certificate of R631, as fused: its first 120 bytes. Nothing constrains it. -/
opaque deviceCert : List Sys2Proof.Byte

/-- The idle timeout of a SECURE session, in s: R649 gives those of roles 0 to 3. Nothing constrains it. -/
opaque secureIdle : Nat

end Sys2Proof.Config

namespace Sys2Proof.Machine

/-- DEVICE_CERT. -/
def deviceCert : List Byte := (Config.deviceCert ++ List.replicate 120 0).take 120

namespace Objects

/-- Area 0x00 (R621). -/
def identity (i b : Nat) : Option Obj :=
  if i = 5 then (if b < 4 then some ((Obj.u8 fun s => if s.hw.lsiLost b then 0 else 0xC0).dfl 0xC0) else none)
  else if b ≠ 0 then none
  else if i = 0 then some (Obj.str 32 "Novqua Microsystems")
  else if i = 1 then some (Obj.str 16 "KZ512-AT")
  else if i = 2 then some (Obj.str 4 "M2")
  else if i = 3 then some ((Obj.u8 fun _ => 0xB1).dfl 0xB1)
  else if i = 4 then some ((Obj.u8 fun _ => 0xA2).dfl 0xA2)
  else if i = 6 then some (Obj.bytes 10 fun s => beBytes 5 (s.fuse.serial.toNat / 2 ^ 40) ++ beBytes 5 (s.fuse.serial.toNat % 2 ^ 40))
  else if i = 7 then some (Obj.u16 fun s => s.hw.cfg.deviceId)
  else if i = 8 then some (Obj.bytes 120 fun _ => deviceCert)
  else if i = 9 then some (Obj.bytes 6 fun s => beBytes 6 s.fuse.mac.toNat)
  else if i = 10 then some (Obj.enum fun s => s.hw.cfg.role)
  else none

end Objects

/-! ### Area 0x01 -/

namespace Hw

/-- IDLE_TIMEOUT of a role, in s (R649). -/
def idleTimeout (h : Hw) (r : Nat) : Nat :=
  let d := Tabs.get (fun _ => (0 : Nat)) h.kop.idle r
  if 4 ≤ r then Config.secureIdle else if d ≠ 0 then d else h.cfg.od.idle.getD r 60

/-- REQ_TIMEOUT in ms (R649). -/
def reqTimeout (h : Hw) : Nat := h.kop.reqTimeout.getD h.cfg.od.reqTimeout

/-- The sessions of a path's table. -/
def pathSessions (h : Hw) (path : Nat) : List Session := h.kop.sessions.filter fun x => x.path == path

/-- The size of a path's table (R634, R637). -/
def sessionMax (path : Nat) : Nat := if path = 0 then 256 else if path = 1 then 8 else if path = 2 then 1 else 4

/-- Word n of SESSION for a table entry (R649). -/
def sessionWord (h : Hw) (path ss n : Nat) : Word :=
  match (h.pathSessions path).find? fun x => x.entry == ss with
  | none => 0
  | some x =>
    if n = 0 then word (b2n x.unchecked * 256 + 1)
    else if n = 1 then word x.role
    else if n = 2 then word x.id
    else if n = 3 then word (h.poweredMs - x.seen)
    else if n = 4 then word (x.last.getD 0)
    else if n = 5 then word x.serial
    else if n = 6 then word x.transport
    else word x.anchor

/-- Word n of COMMAND_LOG (R649). -/
def logWord (h : Hw) (tt n : Nat) : Word :=
  let e := Tabs.get (fun _ => ({} : CmdLog)) h.kop.log tt
  word (if n = 0 then e.ticket else if n = 1 then e.oid else if n = 2 then e.acc else if n = 3 then e.lc
    else if n = 4 then e.outcome else e.status)

/-- A ring instance is declared; an end of one of this device is at a port. -/
def ringDeclared (h : Hw) (k : Nat) : Bool := decide (k < 16) && (h.ringCfg k).isSome
def portDeclared (h : Hw) (q : Nat) : Bool :=
  (List.range 16).any fun k => h.ringDeclared k && (h.endsHere k).any fun e => h.portOf k e == q

/-- A position of an instance is declared. -/
def nodeDeclared (h : Hw) (k p : Nat) : Bool := h.ringDeclared k && (h.declared k).contains p

end Hw

namespace Objects

/-- The KOP objects (R649), as the session that asks sees them. -/
def kop (who : Asker) (i b : Nat) : Option Obj :=
  if i = 0x0000 then
    (if b = 0 then some (Obj.u16 fun s => (s.hw.pathSessions who.path).length)
     else if b = 1 then some ((Obj.u16 fun _ => Hw.sessionMax who.path).dfl 256)
     else if b = 2 then some (if who.path < 3 then Obj.enum fun _ => who.path else
       { type := 0x0F, len := 1, read := fun s => let d := s.hw.draw 256; ({ s with hw := d.2 }, .value [byte d.1] none) })
     else if b = 3 then some (Obj.u8 fun _ => who.entry)
     else if 0x10 ≤ b ∧ b < 0x14 then
       some (((Obj.u16 fun s => s.hw.idleTimeout (b - 0x10)).dfl ([60, 300, 300, 900].getD (b - 0x10) 0)).rw 3 (fun v => decide (10 ≤ v) && decide (v ≤ 86400)) fun s v =>
         (s.onHw fun h => h.onKop fun k => { k with idle := Tabs.set (fun _ => (0 : Nat)) k.idle (b - 0x10) v }, stOk))
     else if b = 0x20 then
       some (((Obj.u16 fun s => s.hw.reqTimeout).dfl 5000).rw 3 (fun v => decide (100 ≤ v) && decide (v ≤ 60000)) fun s v =>
         (s.onHw fun h => h.onKop fun k => { k with reqTimeout := some v }, stOk))
     else none)
  else if i = 0x0001 then
    (if b ≤ 8 then some ((Obj.u40 fun s => word (Tabs.get (fun _ => 0) s.hw.kop.counts b)).dfl 0) else none)
  else none

/-- The switch objects (R582). -/
def switch (s : State) (i b : Nat) : Option Obj :=
  if i = 0x1200 then (if b = 0 then some (Obj.reg Reg.SWC_BUF) else none)
  else if i = 0x1201 then (if b < 5 then some (Obj.reg (Reg.SWC_CNT_PUSHOUT + b)) else none)
  else if 0x1000 ≤ i ∧ i < 0x1008 then
    (if b = 0 ∧ s.hw.cfg.sw.ports.contains (i - 0x1000) then some (Obj.reg (Reg.MAC_STAT (i - 0x1000))) else none)
  else if 0x1100 ≤ i ∧ i < 0x1108 then
    (if b < 32 ∧ s.hw.cfg.sw.ports.contains (i - 0x1100) then some (Obj.reg (Reg.MAC_CNT (i - 0x1100) b)) else none)
  else if i = 0x1400 then (if b = 0 then some (Obj.rwReg 2 Reg.SWC_MIRROR) else none)
  else if i = 0x1401 then (if b = 0 then some (Obj.rwReg 2 Reg.SWC_MIRROR_FLOW) else none)
  else if b ≠ 0 then none
  else if 0x4000 ≤ i ∧ i < 0x8000 then some (Obj.words 3 fun s =>
    let e := Tabs.get (fun _ => ((0, 0, 0) : Word × Word × Word)) s.hw.sw.fdb (i - 0x4000)
    [e.1, e.2.1, e.2.2])
  else if 0x8000 ≤ i ∧ i < 0x8100 then some (Obj.words 1 fun s => [s.mirror (Reg.SWC_VLAN (i - 0x8000))])
  else none

/-- The tree objects (R729). -/
def tree (s : State) (i b : Nat) : Option Obj :=
  let h := s.hw
  if !h.inTree then none
  else if i = 0x2200 then (if b < 5 then some ((Obj.u40 fun s => word (Tabs.get (fun _ => 0) s.hw.peerCount b)).dfl 0) else none)
  else if b ≠ 0 then none
  else if i = 0x2000 then some (Obj.u16 fun s => match s.hw.cfg.sw.neighbours.find? fun n => n.rel == 0 with
    | some n => n.dev
    | none => 0xFFFF)
  else if i = 0x2001 then some (Obj.u8 fun s => s.hw.cfg.treeLevel)
  else if i = 0x2002 then some (Obj.u16 fun s => s.hw.cfg.plantTag)
  else if i = 0x2100 then some ((Obj.u8 fun s => s.hw.plantTrip).dfl 0)
  else if i = 0x2101 then
    some (Obj.cmd 0x02 1 1 fun s v => if s.hw.crestOn then let t := s.onHw fun h => h.tripClear (beNat v); (t, t.hw.status) else (s, stState))
  else if 0x2300 ≤ i ∧ i < 0x2310 then
    (if h.ringDeclared (i - 0x2300) then some (Obj.u40 fun s => (s.hw.ring (i - 0x2300)).partner) else none)
  else if i = 0x2400 ∧ h.cfg.role = 0 then some (Obj.bytes 60 fun s => s.hw.tree.total)
  else none

/-- Area 0x01. -/
def communication (s : State) (who : Asker) (i b : Nat) : Option Obj :=
  if 0x0100 ≤ i ∧ i < 0x0102 then kop who (i - 0x0100) b
  else if 0x0200 ≤ i ∧ i < 0x0300 then
    (if b < 8 then some ((Obj.u40 fun s => s.hw.sessionWord who.path (i - 0x0200) b).reader 2) else none)
  else if 0x0300 ≤ i ∧ i < 0x0400 then (if b < 6 then some ((Obj.u40 fun s => s.hw.logWord (i - 0x0300) b).reader 1) else none)
  else if 0x2000 ≤ i ∧ i < 0x2500 then tree s i b
  else switch s i b

end Objects

/-! ### Area 0x02 -/

/-- The date of a count of UTC seconds, inside R608's years; second 60 in an inserted leap second. -/
def dateOf (secs : Nat) (leap : Bool) : Option Word :=
  let inLeap := leap && secs % 86400 == 0
  let t := if inLeap then secs - 1 else secs
  let days := t / 86400 + yearDays 1970
  match (List.range 512).find? fun k => decide (yearDays (2000 + k) ≤ days) && decide (days < yearDays (2001 + k)) with
  | none => none
  | some k =>
    let y := 2000 + k
    let doy := days - yearDays y
    let before := fun (m : Nat) => ((List.range m).map fun i => monthDays y (i + 1)).foldl (· + ·) 0
    let m := ((List.range 12).reverse.find? fun m => decide (before m ≤ doy)).getD 0
    some (word (k * 2 ^ 31 + (m + 1) * 2 ^ 27 + (doy - before m + 1) * 2 ^ 22 + t % 86400 / 3600 * 2 ^ 17 + t % 3600 / 60 * 2 ^ 11 +
      (if inLeap then 60 else t % 60) * 2 ^ 5))

namespace Objects

/-- A TIME80 object over an observed time (R585). -/
def time80Obj (pair : Nat) : Obj :=
  { type := 0x0E, len := 10, read := fun s =>
      let v := s.hw.pairValue pair
      let t := time80 v.1
      ({ s with hw := v.2 }, .value (wordBytes t.1 ++ wordBytes t.2) none) }

/-- UTC_NOW: a year outside R608 reads as a free word. -/
def utcNow : Obj :=
  { type := 0x04, len := 5, read := fun s =>
      if !s.hw.utcValid then (s, .refused stState)
      else
        let v := s.hw.pairValue 1
        let secs := v.1 / (tSec : Int) - s.hw.utcOffset
        match dateOf secs.toNat (s.hw.flag Reg.TIME_UTC Fld.TIME_UTC_LEAP61) with
        | some w => ({ s with hw := v.2 }, .value (wordBytes w) none)
        | none => let d := v.2.drawWord; ({ s with hw := d.2 }, .value (wordBytes d.1) none) }

/-- CAPTURE: each read removes the oldest capture. -/
def capture : Obj :=
  { type := 0x11, len := 15, read := fun s =>
      let r := s.hw.capturePop
      ({ s with hw := r.1 }, .value (wordBytes r.2 ++ wordBytes (r.1.reg Reg.TIME_CAP_HI) ++ wordBytes (r.1.reg Reg.TIME_CAP_LO)) none) }

/-- TIM: what R606 refuses whatever the other words hold is refused at acceptance, the rest at the commit LC. -/
def tim (k w : Nat) : Obj :=
  let own := fun (v : Nat) => if w = 1 then v % 8 == 0 && decide (16 ≤ v) && decide (v ≤ 1000000000) else w ≠ 2 || v % 8 == 0
  (Obj.u40 fun s => s.mirror (Reg.TIME_TIM k w)).lc 2 own Obj.takes fun s v _ =>
    let t := s.onHw fun h => h.timWrite k w (word (beNat v))
    (t, if (w = 1 ∨ w = 2) ∧ (t.hw.reg (Reg.TIME_TIM k w)).toNat ≠ beNat v then stBadValue else stOk)

/-- Area 0x02 (R611). -/
def time (i b : Nat) : Option Obj :=
  if i = 0x0100 then (if b < 16 then some (Obj.words 8 fun s => match s.hw.tu.epochs[b]? with
    | some e => epochWords e
    | none => []) else none)
  else if i = 0x0500 then (if b < 5 then some (Obj.reg (Reg.TIME_CNT_REJECT + b)) else none)
  else if 0x0600 ≤ i ∧ i < 0x0610 then (if b < 4 then some (tim (i - 0x0600) b) else none)
  else if b ≠ 0 then none
  else if i = 0 then some (Obj.enum fun s => s.mirrorFld Reg.TIME_STAT Fld.TIME_STAT_STATE)
  else if i = 1 then some (time80Obj 1)
  else if i = 2 then some (time80Obj 0)
  else if i = 3 then some (Obj.u40 fun s => word s.hw.poweredMs)
  else if i = 4 then some (Obj.u40 fun s => word s.hw.log.boot)
  else if i = 5 then some (Obj.bool fun s => s.hw.flag Reg.TIME_STAT Fld.TIME_STAT_POWERED_GAP)
  else if i = 0x0200 then some ((Obj.rwFld 0x03 2 2 Reg.TIME_CFG Fld.TIME_CFG_STEP_THR).dfl 125)
  else if i = 0x0201 then some ((Obj.rwFld 0x03 2 2 Reg.TIME_CFG Fld.TIME_CFG_LOCK_NS).dfl 100)
  else if i = 0x0300 then some capture
  else if i = 0x0301 then some (Obj.rwReg 2 Reg.TIME_CAP_CFG)
  else if i = 0x0400 then some utcNow
  else if i = 0x0401 then some ((Obj.u40 fun s => wrap s.hw.utcOffset).typed 0x05)
  else if i = 0x0402 then
    some (((Obj.u40 fun s => s.hw.tu.query).dfl 0).rw 1 (fun v => dateOk (word v)) fun s v =>
      let t := s.onHw fun h => h.calQuery (word v)
      (t, t.hw.status))
  else if i = 0x0403 then some ((Obj.words 3 fun s => [s.hw.tu.result.1, s.hw.tu.result.2.1, s.hw.tu.result.2.2]).dfl 0)
  else if i = 0x0404 then
    some ((Obj.u40 fun s => s.mirror Reg.WAKE_TIMER).lc 2 (fun v => dateOk (word v)) Obj.takes fun s v _ =>
      let t := s.onHw fun h => h.calWake (word (beNat v))
      (t, t.hw.status))
  else none

end Objects

/-! ### Area 0x03 -/

/-- LEVEL_MISSING: by block ID of R103, what R107 requires and does not work: every island while none works, the cores of VM0 without
power or clock, Crest while no core of it works. -/
def Hw.levelMissing (h : Hw) : Word :=
  let islands := if (List.range 16).any fun r => h.islandOn r && h.engineClocked (32 * r) then 0 else 0xFFFF
  let cores := (List.finRange 8).foldl (fun (m : Nat) (k : Fin 8) =>
    if bitN (h.vmSlot 0).coreMask k && !(h.appOn k && h.coreClocked (.app k)) then m + 2 ^ (16 + k.val) else m) 0
  word (islands + cores + if h.crestWorks then 0 else 2 ^ 24)

namespace Objects

/-- NIGHT and SHUTDOWN: refused with BUSY at acceptance as R77 states. -/
def powerCmd (role : Nat) : Obj :=
  { (((Obj.bool fun _ => false).dfl 0).lc role (fun _ => true) (fun s v _ =>
      if v ≠ [1#8] then (s, stOk)
      else if s.hw.pwrBusy then (s.onHw fun h => h.setReg Reg.PWR_CMD_STAT 2, stBusy)
      else if !s.hw.inState psDay then (s.onHw fun h => h.setReg Reg.PWR_CMD_STAT 1, stState)
      else (s.onHw fun h => h.setReg Reg.PWR_CMD_STAT 0, stOk)) fun s _ _ => (s, stOk)) with own := true }

/-- RESET (R113). -/
def resetCmd : Obj := { (((Obj.bool fun _ => false).dfl 0).lc 3 (fun _ => true) Obj.takes fun s _ _ => (s, stOk)) with own := true }

/-- Area 0x03 (R141, R622). -/
def power (i b : Nat) : Option Obj :=
  if i = 0x0206 then (if b < 2 then some (Obj.u16 fun s => if b = 0 then s.hw.pwr.checks.1 else s.hw.pwr.checks.2) else none)
  else if i = 0x0400 then
    (if b < 16 then some (Obj.bytes 41 fun s =>
      (List.range 8).flatMap (fun w => wordBytes (s.ckptWord b w)) ++ [byte (b2n (s.ckptUsable b))]) else none)
  else if b ≠ 0 then none
  else if i = 0 then some (powerCmd 1)
  else if i = 1 then some (powerCmd 3)
  else if i = 2 then some (Obj.rwFld 0x0F 1 2 Reg.PWR_NIGHT_CFG Fld.PWR_NIGHT_CFG_POLICY)
  else if i = 3 then some ((Obj.rwFld 0x04 5 2 Reg.PWR_NIGHT_CFG Fld.PWR_NIGHT_CFG_DWELL).dfl 600000)
  else if i = 4 then some (((Obj.rwReg 2 Reg.PWR_NIGHT_ITH).typed 0x08).dfl 2000000)
  else if i = 5 then some (Obj.reg Reg.PWR_STATE)
  else if i = 6 then some (Obj.reg Reg.WAKE_SRC)
  else if i = 7 then some (Obj.rwReg 2 Reg.WAKE_EN)
  else if i = 8 then some (Obj.u8 fun s => s.mirrorFld Reg.PWR_CMD_STAT Fld.PWR_CMD_STAT_RESULT)
  else if i = 9 then some ((Obj.u8 fun s => s.hw.pwr.stepFail).dfl 0)
  else if i = 0xA then some (Obj.words 2 fun s => [s.mirror Reg.PWR_HOLD_SEC, s.mirror Reg.PWR_HOLD_CRS])
  else if i = 0xB then some (Obj.reg Reg.PWR_HELD_CNT)
  else if i = 0x0100 then some (Obj.enum fun s => s.hw.fld Reg.PWR_STATE Fld.PWR_STATE_LEVEL)
  else if i = 0x0101 then some (Obj.u40 fun s => s.hw.levelMissing)
  else if i = 0x0200 then some (Obj.enum fun s => s.hw.pwr.cause)
  else if i = 0x0201 then some (Obj.u40 fun s => word s.hw.log.boot)
  else if i = 0x0202 then some (Obj.enum fun s => s.hw.pwr.mode)
  else if i = 0x0203 then some (Obj.enum fun s => b2n s.hw.pwr.gold)
  else if i = 0x0204 then some (Obj.enum fun s => b2n s.hw.pwr.slotB)
  else if i = 0x0205 then some (Obj.u40 fun s => s.hw.pwr.configSeq)
  else if i = 0x0300 then some resetCmd
  else none

end Objects

end Sys2Proof.Machine
end

