-- ==== Sys2Proof/Machine/ObjFabric.lean ====
section
/-! DEFINITION. The objects of areas 0x10 Vanik, 0x18 snapshot, 0x20 fabric, 0x28 protection, 0x30 load switches and of the point
space (R277, R316, R391, R449, R481, R551, R623, R626). -/

namespace Sys2Proof.Machine

namespace Objects

/-! ### Area 0x10 (R623) -/

/-- ALLOW: UID, NTYPE, POS and hop index of an allowlist entry. -/
def allowBytes (x : Allow) : List Byte := beBytes 8 x.uid ++ [byte (if x.aux then 2 else 1), byte x.pos, byte x.hop]

/-- The objects of a ring's position. -/
def node (s : State) (k p b : Nat) : Option Obj :=
  if !s.hw.nodeDeclared k p then none
  else if b = 0 then some (Obj.reg (Reg.VNK_NODE_STAT k p))
  else if b = 1 then some (Obj.reg (Reg.VNK_NODE_RX k p))
  else if b = 2 ∧ k < 8 then some (Obj.reg (Reg.VNK_BAL k p))
  else none

/-- Area 0x10. -/
def vanik (s : State) (i b : Nat) : Option Obj :=
  let h := s.hw
  if i < 0x0100 then
    (if !h.ringDeclared i then none
     else if b = 0 then some (Obj.reg (Reg.VNK_RING_STAT i))
     else if b = 1 then some (Obj.reg (Reg.VNK_RING_DLY i))
     else if b = 2 then some (Obj.reg (Reg.VNK_RING_ROLE i))
     else if b = 3 then some (Obj.reg (Reg.VNK_RING_LCOFS i))
     else if b = 4 then some (Obj.reg (Reg.VNK_RING_CNT_BREAK i))
     else if b = 5 then some (Obj.reg (Reg.VNK_RING_CNT_LEAD i))
     else if b = 6 then some (Obj.reg (Reg.VNK_RING_CNT_CLAIM i))
     else none)
  else if 0x1000 ≤ i ∧ i < 0x1A00 then node s ((i - 0x1000) / 160) ((i - 0x1000) % 160) b
  else if 0x2000 ≤ i ∧ i < 0x2100 then
    let k := (i - 0x2000) / 16
    let n := i % 16
    (if !h.ringDeclared k || decide (h.nSpare k ≤ n) then none
     else if b = 0 then some (Obj.reg (Reg.VNK_SPARE k n))
     else if b = 1 then
       some (Obj.cmd 0x01 1 3 fun s v => (if v = [1#8] then s.onHw fun h => h.releaseMark k n else s, stOk))
     else none)
  else if 0x4000 ≤ i ∧ i < 0x4010 then
    let q := i - 0x4000
    (if !h.portDeclared q then none
     else if b = 0 then some (Obj.reg (Reg.VNK_PORT_STAT q))
     else if 0x10 ≤ b ∧ b < 0x16 then some (Obj.reg (Reg.VNK_PORT_CNT_CODE q + (b - 0x10)))
     else none)
  else if b ≠ 0 then none
  else if 0x3000 ≤ i ∧ i < 0x3200 then
    let k := (i - 0x3000) / 32
    (match h.ringCfg k with
     | some _ => some (Obj.bytes 15 fun s => match s.hw.ringCfg k with
       | some c => (match c.allow[i % 32]? with
         | some x => allowBytes x
         | none => [])
       | none => [])
     | none => none)
  else if 0x3200 ≤ i ∧ i < 0x3210 then
    (match h.ringCfg (i - 0x3200) with
     | some _ => some (Obj.bytes 20 fun s => match s.hw.ringCfg (i - 0x3200) with
       | some c => (List.range 20).map fun j => byte ((List.range 8).foldl (fun n x => if c.sparePos.contains (8 * j + x) then n + 2 ^ x else n) 0)
       | none => [])
     | none => none)
  else none

/-! ### Area 0x18 (R262, R275 to R277) -/

/-- STATUS of a calibration change, and of a window request. -/
def calStatus (r : Nat) : Nat := statusOf [1] [] [2, 3, 4] [] r
def winStatus (r : Nat) : Nat := statusOf [1] [] [2] [] r

/-- The words of a value. -/
def wordsOf (v : List Byte) (n : Nat) : List Word := (List.range n).map fun i => word (beNat ((v.drop (5 * i)).take 5))

/-- CAL_ENTRY: the change is pending from its acceptance (R262). -/
def calEntryObj (e : Nat) : Obj :=
  (Obj.words 8 fun s => (List.range 8).map fun w => s.hw.calWord s.hw.lc e w).lc 2 (fun _ => true)
    (fun s v n => let r := s.hw.calChange true n e (wordsOf v 8); ({ s with hw := r.1 }, calStatus r.2)) fun s _ _ => (s, stOk)

/-- The objects of a window. -/
def window (w b : Nat) : Option Obj :=
  let req := fun (f : Hw → Nat → Hw × Nat) (s : State) (v : Nat) => let r := f s.hw v; (({ s with hw := r.1 }, winStatus r.2) : Written)
  if b = 0 then
    some (((Obj.u40 fun s => (s.hw.win w).src).dfl 0).rw 2
      (fun v => Hw.srcOk (word v)) fun s v =>
        if Hw.winIdle (s.hw.win w) then
          (s.onHw fun h => h.setWin w { h.win w with src := word (v / 256 * 256) }, stOk)
        else (s, stBusy))
  else if b = 1 then some (((Obj.u40 fun s => word (s.hw.win w).start).dfl 0).rw 1 (fun _ => true) (req fun h v => h.winStart w v))
  else if b = 2 then
    some (((Obj.u40 fun s => word ((s.hw.win w).stop.getD 0)).dfl 0).rw 1 (fun _ => true) (req fun h v => h.winStop w v))
  else if b = 3 then
    some ((Obj.cmd 0x01 1 1 fun s v => (if v = [1#8] then s.onHw fun h => h.winClear w else s, stOk)).dfl 0)
  else if b = 4 then some ((Obj.enum fun s => (s.hw.win w).state).dfl 0)
  else if b ≤ 0xD then
    some (((Obj.u40 fun s => Hw.winOf (s.hw.win w) (b - 3)).typed (if b = 7 ∨ b = 9 ∨ b = 0xB ∨ b = 0xC then 0x05 else 0x04)).dfl 0)
  else none

/-- Area 0x18. -/
def snapshot (i b : Nat) : Option Obj :=
  if i < 0xC000 then
    (if b < 8 then some ((Obj.u40 fun s => s.hw.calWord s.hw.lc i b).reader 2)
     else if b = 8 then some ((calEntryObj i).reader 2) else none)
  else if i < 0xC020 then window (i - 0xC000) b
  else if i = 0xD100 then (if b < 6 then some (Obj.reg (Reg.SNP_CNT_DISAGREE + b)) else none)
  else if b ≠ 0 then none
  else if i = 0xD000 then some ((Obj.u40 fun s => word (s.mirrorFld Reg.SNP_CTRL Fld.SNP_CTRL_CLOSE)).dfl 900)
  else if i = 0xD001 then some ((Obj.u40 fun s => s.mirror Reg.SNP_NIGHT_BOUND).typed 0x0C)
  else none

/-! ### Area 0x20 (R316, R391, R551) -/

/-- The objects of a page. -/
def page (s : State) (g b : Nat) : Option Obj :=
  if !s.hw.pageDeclared g then none
  else if b = 0 then some (Obj.enum fun s => match (s.hw.page g).state with
    | .undeclared => 0
    | .resident => 1
    | .transit => 2
    | .rebuilding => 3
    | .unplaced => 4)
  else if b = 1 then some (Obj.u16 fun s => if Hw.owned (s.hw.page g) then (s.hw.page g).engine else 0xFFFF)
  else if b = 2 then some (Obj.u40 fun s => word ((s.hw.page g).shadowLc - 1))
  else none

/-- FAB_LT_CFG as the next SI takes it (R367, R390). -/
def ltWord (s : State) : Word := s.hw.fab.ltCfg.getD (s.hw.reg Reg.FAB_LT_CFG)

/-- HORIZON, LEAD and DEPTH: a READ in the same request returns what was written (R640). -/
def ltField (type len : Nat) (f : BitField) : Obj :=
  { Obj.get type len fun s => beBytes len (bitsOf (ltWord s) f.hi f.lo) with
    access := 2, wr := 3
    write := fun s v =>
      let w := withBits (ltWord s) f.hi f.lo (beNat v)
      if 2 ^ (f.hi + 1 - f.lo) ≤ beNat v ∨ bitsOf (ltCfgMerge (ltWord s) w) f.hi f.lo ≠ beNat v then (s, stBadValue)
      else if !s.hw.fabOn then (s, stState)
      else (s.onHw fun h => h.setLtCfg w, stOk) }

/-- SWITCH_PENDING: X, build identifier, acceptance LC. The fourth word of a pending switch is left open. -/
def switchPending (get : Fab → Option Switch) : Obj :=
  { type := 0x11, len := 20, read := fun s => match get s.hw.fab with
      | none => (s, .value (List.replicate 20 0) none)
      | some x =>
        let d := s.hw.drawWord
        ({ s with hw := d.2 }, .value ([word x.lc, x.build, word x.acc, d.1].flatMap wordBytes) none) }

/-- EXT_IN (R363). -/
def extIn (c role : Nat) : Obj :=
  Obj.cmd 0x11 15 (max 1 role) fun s v =>
    let r := s.hw.extArrive c (beNat (v.take 5)) (word (beNat ((v.drop 5).take 5))) (word (beNat (v.drop 10)))
    ({ s with hw := r.1 }, if r.2 = 0 then stOk else if r.2 = 1 then stBadValue else if r.2 = 2 then stStale else stBadObject)

/-- MIGRATE: the status follows FAB_MIG_STAT. -/
def migrate : Obj :=
  Obj.cmd 0x04 5 3 fun s v =>
    if !s.hw.fabOn then (s, stState)
    else
      let t := s.onHw fun h => h.migRequest (word (beNat v))
      (t, if beNat v % 4 = 0 then stOk else statusOf [1] [4] [2, 3] [] (t.hw.fld Reg.FAB_MIG_STAT Fld.FAB_MIG_STAT_RESULT))

/-- FI_CMD, carried out by the secure world. -/
def fiCmd (i role : Nat) : Obj :=
  Obj.cmd 0x02 1 (max 1 role) (legal := fun v => decide (1 ≤ v) && decide (v ≤ 4)) fun s v =>
    let t := s.onHw fun h => match beNat v with
      | 1 => h.fiQuiesceCmd .secure i
      | 2 => h.fiResetCmd .secure i
      | 3 => h.fiResumeCmd .secure i
      | _ => h.fiRemoveCmd .secure i
    (t, statusOf [1] [2] [] [] (t.hw.inst i).lastResult)

/-- The objects of an instance. -/
def instance_ (s : State) (i b : Nat) : Option Obj :=
  if b = 0 then some (Obj.enum fun s => bitsOf (s.hw.fiStat i) 39 37)
  else if b = 1 then some (fiCmd i (s.hw.inst i).cmdRole)
  else if b = 2 then some (Obj.rc (Reg.MBX_FI_USED i))
  else if b = 3 then some (Obj.u40 fun s => word (s.mirrorFld (Reg.MBX_FI_CFG i) Fld.MBX_FI_CFG_RATE))
  else none

/-- Index 0xA000 to 0xA2FF of area 0x20. -/
def fabricOne (s : State) (i b : Nat) : Option Obj :=
  if i = 0xA004 then (if b < 7 then some (Obj.reg (Reg.FAB_CNT_AUDIT + b)) else none)
  else if i = 0xA104 then (if b < 6 then some (Obj.u40 fun s => word (Tabs.get (fun _ => 0) s.hw.fab.ltCount b)) else none)
  else if i = 0xA107 then
    (if b < 2 ∧ b < s.hw.cfg.fab.collectors.length then some (Obj.bytes 20 fun s => beBytes 20 (s.hw.cfg.fab.collectors.getD b 0)) else none)
  else if i = 0xA109 then
    (if b = 0 then some (switchPending fun f => f.cfgSwitch) else if b = 1 then some (switchPending fun f => f.mcSwitch) else none)
  else if i = 0xA200 then (match s.hw.extCfg b with
    | some e => some (extIn b e.role)
    | none => none)
  else if b ≠ 0 then none
  else if i = 0xA000 then some (Obj.reg Reg.FAB_LC_COMMIT)
  else if i = 0xA001 then some (Obj.rwFld 0x03 2 3 Reg.FAB_ISLAND Fld.FAB_ISLAND_ALLOW_OFF)
  else if i = 0xA002 then some ((Obj.rwFld 0x04 5 3 Reg.FAB_AUDIT_CFG Fld.FAB_AUDIT_CFG_PERIOD).dfl 10000)
  else if i = 0xA003 then some migrate
  else if i = 0xA100 then some ((ltField 0x03 2 Fld.FAB_LT_CFG_HORIZON).dfl 200)
  else if i = 0xA101 then some ((ltField 0x03 2 Fld.FAB_LT_CFG_LEAD).dfl 10)
  else if i = 0xA102 then some ((ltField 0x02 1 Fld.FAB_LT_CFG_DEPTH).dfl 64)
  else if i = 0xA103 then some (Obj.u16 fun s => s.mirrorFld Reg.FAB_LT_STAT Fld.FAB_LT_STAT_LAG)
  else if i = 0xA105 then some (Obj.reg Reg.FAB_JNL_WPOS)
  else if i = 0xA106 then some (Obj.reg Reg.FAB_JNL_XPOS)
  else if i = 0xA108 then some ((Obj.u40 fun s => word s.hw.cfg.fab.statePeriod).dfl 3600000)
  else none

/-- Area 0x20. -/
def fabric (s : State) (i b : Nat) : Option Obj :=
  if i < 0x8000 then page s i b
  else if i < 0x8200 then (if b = 0 then some (Obj.reg (Reg.FAB_ENG_STAT (i - 0x8000))) else none)
  else if 0x9000 ≤ i ∧ i < 0x9010 then (if b = 0 then some (Obj.reg (Reg.FAB_RIDGE_STAT (i - 0x9000))) else none)
  else if 0xA000 ≤ i ∧ i < 0xB000 then fabricOne s i b
  else if 0xB000 ≤ i ∧ i < 0xB010 then instance_ s (i - 0xB000) b
  else none

/-! ### Area 0x28 (R446, R447, R449) -/

/-- A guard register written with a commit LC: its value at the LC replaces the copy in force with the other writes of that LC. -/
def guardObj (type a : Nat) : Obj :=
  { (((Obj.u40 fun s => s.mirror a).typed type).lc 2 (wordLegal a) Obj.takes fun s _ _ => (s, stOk)) with guard := some a }

/-- LATCHED: writing 0 clears under R433. -/
def latched (e : Nat) : Obj :=
  ((Obj.bool fun s => s.hw.evLatched e).dfl 0).rw 1 (fun _ => true) fun s v =>
    if v = 0 then (s.onHw fun h => h.clearLatch e, if s.hw.evLatched e ∧ s.hw.evCond e then stState else stOk) else (s, stOk)

/-- Area 0x28. -/
def protection (s : State) (i b : Nat) : Option Obj :=
  let h := s.hw
  if i < 0x0040 then (if b < 8 then some (guardObj 0x05 (Reg.GRD_SET i b)) else none)
  else if 0x1000 ≤ i ∧ i < 0x1000 + 928 then
    let e := i - 0x1000
    (if b = 0 then some (guardObj 0x04 (Reg.GRD_MATRIX e))
     else if b = 1 then some (Obj.bool fun s => s.hw.evActive e)
     else if b = 2 then some (latched e)
     else none)
  else if 0x2000 ≤ i ∧ i < 0x2A00 then
    let k := (i - 0x2000) / 160
    let p := (i - 0x2000) % 160
    (if b < 5 ∧ h.nodeDeclared k p then some (guardObj 0x04 (Reg.GRD_NODE k p b)) else none)
  else if 0x3000 ≤ i ∧ i < 0x3800 then
    let a := i - 0x3000
    (if b < 4 ∧ h.nodeDeclared (a / 128) (128 + a % 128 / 4) then some (guardObj 0x05 (Reg.GRD_AUX a b)) else none)
  else if i = 0x4100 then (if b < 6 then some (Obj.reg (Reg.GRD_CNT_TRIP + b)) else none)
  else if b ≠ 0 then none
  else if i = 0x4000 then some (Obj.reg Reg.GRD_STAT)
  else if i = 0x4001 then some (Obj.words 3 fun s => [s.mirror Reg.GRD_FIRST_EVT, s.mirror Reg.GRD_FIRST_LC, s.mirror Reg.GRD_FIRST_OFS])
  else if i = 0x4002 then
    some ((Obj.cmd 0x02 1 1 fun s v =>
      if s.hw.crestOn then (s.onHw fun h => h.writeCrsTrip .crest (word (beNat v)), stOk) else (s, stState)).dfl 0)
  else if i = 0x4003 then
    some ((Obj.cmd 0x01 1 3 fun s v =>
      if v ≠ [1#8] then (s, stOk)
      else (s.onHw fun h => h.writeSafe .secure 2, if s.hw.tripOn then stState else stOk)).dfl 0)
  else none

/-! ### Area 0x30 (R459, R460, R481) -/

/-- STATUS of a result of LSI_CMD_STAT. -/
def lsiStatus (r : Nat) : Nat := statusOf [1] [] [8] [2, 3, 4, 5] r

/-- CMD: the cases of R460 that acceptance can see are refused there; the command reaches the LSI for its commit LC. -/
def loadCmd (c : Nat) : Obj :=
  (Obj.u8 fun s => let x := (s.hw.die (c / 16)).chan (c % 16); x.mode + 16 * x.line).lc 1 (fun _ => true)
    (fun s _ _ =>
      if s.hw.bit Reg.GRD_STAT 0 ∨ s.hw.lsiLost (c / 16) then (s, stState)
      else if 32 ≤ s.hw.lsi.queue.length then (s, stBusy) else (s, stOk))
    fun s v n => (s.onHw fun h => h.lsiCommandAt c (beNat v % 4) (beNat v / 16 % 8) n, stOk)

/-- A load-switch register written with a commit LC. -/
def lsiReg (a : Nat) : Obj := (Obj.u40 fun s => s.mirror a).lc 2 (wordLegal a) Obj.takes fun s v _ => s.putReg a (word (beNat v))

/-- Area 0x30. -/
def loads (s : State) (i b : Nat) : Option Obj :=
  if i < 0x4000 then
    let c := i / 256
    (if b ≠ 0 ∨ !bitN s.hw.lsi.declared c then none
     else if i % 256 = 0 then some { loadCmd c with load := some c }
     else if i % 256 = 1 then some (lsiReg (Reg.LSI_CH_CFG c))
     else if i % 256 = 2 then some (Obj.reg (Reg.LSI_CH_SAMPLE c))
     else if i % 256 = 3 then some ((Obj.u40 fun s => wrap (sampleCurrent (c % 16) (s.mirror (Reg.LSI_CH_SAMPLE c)))).typed 0x08)
     else if i % 256 = 4 then some (Obj.bytes 6 fun s =>
       let r := Tabs.get (fun _ => (0, 0)) s.hw.lsi.results c
       beBytes 1 r.1 ++ beBytes 5 r.2)
     else none)
  else if i = 0x4000 then (if b < 4 then some (Obj.reg (Reg.LSI_DIE_STAT b)) else none)
  else if i = 0x4001 then (if b < 4 then some (lsiReg (Reg.LSI_DIL b)) else none)
  else if i = 0x4100 then (if b < 7 then some (Obj.reg (Reg.LSI_CNT_OC + b)) else none)
  else none

end Objects

/-! ### The point space (R285, R300, R301, R376, R626) -/

/-- The points that can be written (R301). -/
def pointWritable (g o : Nat) : Bool :=
  (decide (0x200 ≤ o) && decide (o < 0x400) && (decide (g < 16384) || decide (17664 ≤ g))) ||
    (decide (0x160 ≤ o) && decide (o < 0x190) && decide (g < 16384))

namespace Objects

/-- A point of a declared page. A write is placed before the page's step of its commit LC. -/
def point (s : State) (p : Nat) : Option Obj :=
  let g := (pointOf p).1
  let o := (pointOf p).2
  if 0x20A0000 ≤ p ∨ !s.hw.pageDeclared g then none
  else
    let x : Obj := { type := 0x04, len := 5, read := fun s =>
      if !s.hw.fabOn then (s, .refused stState)
      else if 0xF0 ≤ o ∧ o < 0x100 then (s, .value (wordBytes (s.hw.point g o)) (some (s.hw.point g 0xF0).toNat))
      else (s, .wait g o) }
    if pointWritable g o then
      some (x.lc 2 (fun _ => true)
        (fun s v n => (s.onHw fun h => { h with fab := { h.fab with writes := h.fab.writes ++ [(n, g, o, word (beNat v))] } }, stOk))
        fun s _ _ => (s, stOk))
    else some x

end Objects

end Sys2Proof.Machine
end

