-- ==== Sys2Proof/Machine/ObjSystem.lean ====
section
/-! DEFINITION. The objects of areas 0x38 CAN and gateway, 0x50 Crest, 0x60 worlds, 0x70 update and 0x7F diagnostics (R141, R501, R528,
R551, R624, R674, R675, R680, R712, R746). -/

namespace Sys2Proof.Machine

namespace Objects

/-! ### Area 0x38 -/

/-- A READ of proxy i, by its state at acceptance (R675). -/
def proxyRead (i : Nat) (c : ProxyCfg) (s : State) : State × ObjRead :=
  let h := s.hw
  let p := h.proxy i
  let age := h.lc - p.at_
  if p.state = 2 ∧ h.lc - p.lc < c.maxAge then (s, .value ((p.value ++ List.replicate c.len 0).take c.len) (some p.lc))
  else if p.state = 1 then (s, .retry (max 1 (c.timeout - age)))
  else if p.state = 3 ∧ age < c.maxAge then (s, .refused p.kind)
  else if 8 ≤ (h.fetches c.can).length then (s, .refused stBusy)
  else (s.onHw fun h => h.startFetch i c, .retry c.retryMs)

/-- PROXY_STATE (R680): the age is that of the state. -/
def proxyWord (h : Hw) (i : Nat) : Word :=
  let p := h.proxy i
  word (p.state * 2 ^ 37 + (if p.state = 3 then p.kind % 16 else 0) * 2 ^ 33 + (if p.state = 0 then 0 else min (h.lc - p.at_) (2 ^ 32 - 1)))

/-- Area 0x38. -/
def canArea (s : State) (i b : Nat) : Option Obj :=
  if i < 4 then (if b = 0 then some (Obj.reg (Reg.CAN_STAT i)) else none)
  else if 0x0100 ≤ i ∧ i < 0x0104 then (if b < 6 then some ((Obj.reg (Reg.CAN_CNT_RXDROP (i - 0x0100) + b)).dfl 0) else none)
  else if i = 0x1000 then (if b < 6 then some ((Obj.reg (Reg.COL_CNT_NOROUTE + b)).dfl 0) else none)
  else if 0xA000 ≤ i ∧ i < 0xA100 then
    (match s.hw.proxyCfg (i - 0xA000) with
     | some c =>
       if b = 0 then some { type := c.type, len := c.len, rd := c.role, read := proxyRead (i - 0xA000) c }
       else if b = 1 then some (Obj.u40 fun s => proxyWord s.hw (i - 0xA000)) else none
     | none => none)
  else if i = 0xC000 then
    (if b = 0 then some (((Obj.bool fun s => s.hw.pwr.dispatch).dfl 1).lc 1 (fun _ => true) Obj.takes fun s v _ =>
       (s.onHw fun h => h.setDispatch (v == [1#8]), stOk)) else none)
  else if i = 0xC001 then (if b < 9 then some (Obj.reg (Reg.GIO_WAKE_FW b)) else none)
  else if i = 0xC002 then
    (if b < 9 then some (Obj.cmd 0x01 1 3 fun s v => (if v = [1#8] then s.onHw fun h => h.wakeClear b else s, stOk)) else none)
  else if i = 0xC003 then (if b < 4 then some (Obj.reg (Reg.GIO_WAKE_CAN b)) else none)
  else none

/-! ### Area 0x50 -/

/-- MODE_REQ: the status follows CRS_MODE_STAT. -/
def modeReq : Obj :=
  Obj.cmd 0x02 1 3 (legal := fun v => decide (v < 64) && decide (1 ≤ v % 16) && decide (v % 16 ≤ 5)) fun s v =>
    if !s.hw.crestOn then (s, stState)
    else
      let t := s.onHw fun h => h.modeRequest .secure (beNat v % 16) (beNat v / 16)
      (t, statusOf [1, 2] [6] [3] [4] (t.hw.fld Reg.CRS_MODE_STAT Fld.CRS_MODE_STAT_RESULT))

/-- The balancing settings and their defaults (R420), in the order of their OIDs. -/
def balDefault (i : Nat) : Nat :=
  if i = 0 then 1000 else if i = 1 then 0x28F5C29 else if i = 2 then 0xC49BA6 else if i = 3 then 45000000 else 8

end Objects

/-- A balancing setting in force, held by Crest (R420). -/
def Hw.balSetting (h : Hw) (i : Nat) : Int :=
  match Tabs.get (fun _ => ([] : List Byte)) h.kop.held (0x50100000 + 256 * i) with
  | [] => Objects.balDefault i
  | v => if v.length = 5 then (BitVec.ofNat 40 (beNat v)).toInt else beNat v

namespace Objects

/-- A balancing setting as an object. -/
def balObj (i type len : Nat) (legal : Nat → Bool) : Obj :=
  ((Obj.get type len fun s => beBytes len (BitVec.ofInt 40 (s.hw.balSetting i)).toNat).dfl (balDefault i)).lc 2 legal Obj.takes fun s v _ =>
    (s.onHw fun h => h.onKop fun k => { k with held := Tabs.set (fun _ => ([] : List Byte)) k.held (0x50100000 + 256 * i) v }, stOk)

/-- Area 0x50. -/
def crest (i b : Nat) : Option Obj :=
  if i = 0x0100 then (if b < 6 then some (Obj.reg (Reg.CRS_CNT_MISMATCH + b)) else none)
  else if b ≠ 0 then none
  else if i = 0 then some (Obj.reg Reg.CRS_STAT)
  else if i = 1 then some ((Obj.rwFld 0x04 5 2 Reg.CRS_WIN Fld.CRS_WIN_WIN).dfl 1024)
  else if i = 2 then some ((Obj.rwFld 0x04 5 2 Reg.CRS_CFG Fld.CRS_CFG_RETIRE_MS).dfl 600000)
  else if i = 3 then some modeReq
  else if i = 4 then some (Obj.reg Reg.CRS_LAST_MIS)
  else if i = 0x1000 then some (balObj 0 0x04 5 fun v => v ≠ 0)
  else if i = 0x1001 then some (balObj 1 0x0D 5 fun _ => true)
  else if i = 0x1002 then some (balObj 2 0x0D 5 fun _ => true)
  else if i = 0x1003 then some (balObj 3 0x0A 5 fun _ => true)
  else if i = 0x1004 then some (balObj 4 0x02 1 fun v => decide (1 ≤ v) && decide (v ≤ 16))
  else none

/-! ### Area 0x60 -/

/-- VM_CMD: 1 START, 2 STOP (R514), carried out by the secure world. -/
def vmCmd (v : Nat) : Obj :=
  Obj.cmd 0x02 1 3 (legal := fun n => n == 1 || n == 2) fun s x =>
    if beNat x = 1 then (let t := s.vmStart v; (t, t.hw.status))
    else if (s.hw.vmSlot v).state = .running then (s.onHw fun h => h.vmStopping v, stOk)
    else (s, stState)

/-- UNIT_HANDOVER: the status follows WLD_HO_STAT. -/
def unitHandover (u : Nat) : Obj :=
  Obj.cmd 0x04 5 3 fun s x =>
    let w := word (beNat x)
    let op := bitsOf w 13 12
    if op = 0 ∨ 2 ≤ bitsOf w 31 30 then (s, stBadValue)
    else
      let t := s.onHw fun h => h.hoRequest .secure op (bitsOf w 31 30 == 1) u (if op = 2 then whoCode .secure else bitsOf w 39 32)
      (t, statusOf [1, 4] [2] [3, 5] [] (bitsOf (Tabs.get Hw.zeroWord t.hw.hoStat (whoBit .secure)) 23 20))

/-- Area 0x60. -/
def worlds (i b : Nat) : Option Obj :=
  if i < 16 then
    (if b = 0 then some (Obj.enum fun s => match (s.hw.vmSlot i).state with
       | .empty => 0
       | .starting => 1
       | .running => 2
       | .stopping => 3
       | .failed => 4)
     else if b = 1 then some (vmCmd i)
     else if b = 2 then some ((Obj.u40 fun s => word (s.hw.vmSlot i).faults).dfl 0)
     else none)
  else if 0x1000 ≤ i ∧ i < 0x1040 then
    (if !isUnit (i - 0x1000) then none
     else if b = 0 then some (Obj.u8 fun s => s.hw.unitOwner (i - 0x1000))
     else if b = 1 then some (unitHandover (i - 0x1000))
     else none)
  else if i = 0x2000 then (if b = 0 then some (Obj.reg Reg.WLD_DBG) else none)
  else if i = 0x3000 then
    (if b < 4 then some (Obj.reg (Reg.WLD_CNT_DENY + b)) else if b = 4 then some (Obj.reg Reg.IRQ_CNT_DENY) else none)
  else none

/-! ### Area 0x70 -/

/-- STATUS of a result of FUSE_STAT. -/
def fuseStatus (s : State) : Nat := statusOf [3] [1] [2] [5] (s.hw.fld Reg.FUSE_STAT Fld.FUSE_STAT_RESULT)

/-- A fuse operation started by an object. -/
def fuseRun (s : State) (op sel : Nat) : Written := let t := s.fuseOpStart op sel; (t, fuseStatus t)

/-- The first 32 bytes of a key slot's hash. -/
def keyHash (f : Fuse) (k : Nat) : List Byte :=
  ((List.range 7).flatMap fun w => wordBytes (Tabs.get (fun _ => 0) f.key (7 * k + w))).take 32

/-- KEY_PROG: the hash goes to FUSE_PROG_DATA, and the slot is programmed (R697, R709). -/
def keyProg : Obj :=
  Obj.cmd 0x11 33 4 fun s v =>
    let k := beNat (v.take 1)
    let d := v.drop 1 ++ List.replicate 3 0
    if k ≠ 2 ∧ k ≠ 3 then (s, stBadValue)
    else if s.hw.upd.fuseOp.isSome then fuseRun s 2 k
    else fuseRun (s.onHw fun h => (List.range 7).foldl (fun (h : Hw) w =>
      h.setReg (Reg.FUSE_PROG_DATA w) (word (beNat ((d.drop (5 * w)).take 5)))) h) 2 k

/-- Header words 1 to 3 of an image. -/
def headerWords (w : Nat → Word) : List Word := [w 1, w 2, w 3]

/-- IN_FORCE: tt is a TYPE, or 0x10 + v for tenant slot v. -/
def inForceWords (s : State) (tt : Nat) : List Word :=
  if tt < 16 then (if tt = 5 ∧ !s.hw.pwr.configured then [] else headerWords (s.inForce tt))
  else match Tabs.get (fun _ => 0) s.hw.upd.inForce tt with
    | 0 => []
    | b + 1 => headerWords (s.nor.image b)

/-- STAGED: header words 1 to 3 and MARK. -/
def stagedWords (s : State) (tt : Nat) : List Word :=
  let w := if tt = 5 then s.stagedOf 5 else if tt < 16 then s.partImage norStaging tt 0 else s.partImage norStaging 4 (tt - 16)
  if tt = 5 ∧ !s.isStaged 5 ∨ !imgPresent w then [] else headerWords w ++ [w 63]

/-- The index tt names an image. -/
def imageIndex (tt : Nat) : Bool := (decide (1 ≤ tt) && decide (tt ≤ 5)) || (decide (0x10 ≤ tt) && decide (tt < 0x20))

/-- An object whose write acts and leaves its STATUS. -/
def acts (type len role : Nat) (f : State → List Byte → State) : Obj := Obj.cmd type len role fun s v => let t := f s v; (t, t.hw.status)

/-- Area 0x70. -/
def update (i b : Nat) : Option Obj :=
  if i = 3 then
    (if b < 4 then some (Obj.bytes 34 fun s =>
      keyHash s.fuse b ++ [byte (b2n (s.fuse.keyValid.getLsbD b)), byte (b2n (s.fuse.revoked.getLsbD b))]) else none)
  else if i = 6 then (if b < 4 then some (Obj.u8 fun s => State.arbField s.fuse b) else none)
  else if i = 0x0100 then (if imageIndex b then some (Obj.words 3 fun s => inForceWords s b) else none)
  else if i = 0x0101 then (if imageIndex b then some (Obj.words 4 fun s => stagedWords s b) else none)
  else if i = 0x0300 then
    (if b < 64 then some (Obj.words 2 fun s => match s.hw.upd.settings[b]? with
      | some e => [e.1, e.2]
      | none => []) else none)
  else if b ≠ 0 then none
  else if i = 0 then some (Obj.enum fun s => s.fuse.lifecycle)
  else if i = 1 then some (Obj.cmd 0x02 1 4 (legal := fun v => v == 2 || v == 3) fun s v => fuseRun s 1 (beNat v))
  else if i = 2 then some (Obj.cmd 0x01 1 4 fun s v => if v = [1#8] then fuseRun s 5 0 else (s, stOk))
  else if i = 4 then some keyProg
  else if i = 5 then some (Obj.cmd 0x02 1 4 (legal := fun v => decide (1 ≤ v) && decide (v ≤ 3)) fun s v => fuseRun s 3 (beNat v))
  else if i = 0x0102 then some ((Obj.u8 fun s => s.hw.upd.goldReason).dfl 0)
  else if i = 0x0200 then some (acts 0x03 2 3 fun s v => s.stageOpen (beNat v))
  else if i = 0x0201 then some (acts 0x11 1205 3 fun s v => s.stageData (beNat (v.take 5)) (wordsOf (v.drop 5) 240))
  else if i = 0x0202 then some (acts 0x01 1 3 fun s v => if v = [1#8] then s.stageClose else s.reply stOk)
  else if i = 0x0203 then some ((Obj.u40 fun s => s.hw.stageState).dfl 0)
  else if i = 0x0204 then some ((Obj.u16 fun s => match s.hw.upd.act with
    | some a => a.type * 256
    | none => 0).lc 3 (fun _ => true) Obj.takes fun s _ _ => (s, stOk))
  else if i = 0x0205 then some (acts 0x03 2 3 fun s v => s.install (beNat v))
  else if i = 0x0206 then some ((Obj.u40 fun s => s.hw.updateState).dfl 0)
  else none

/-! ### Area 0x7F -/

/-- The entry of the fault log that LOG_SELECT names; the newest where nothing has been written (R141). -/
def logEntry (s : State) : Option (List Word) :=
  match s.hw.kop.logSel with
  | some q => (s.nor.entries.find? fun e => (e.2.getD 0 0).toNat == q).map (·.2)
  | none => s.nor.newest.map (·.2)

/-- SEQ of the newest entry. -/
def logNewest (s : State) : Nat := ((s.nor.newest.map fun e => (e.2.getD 0 0).toNat)).getD 0

/-- LOG_SELECT and LOG_WORD. -/
def logSelect : Obj :=
  ((Obj.u40 fun s => word (s.hw.kop.logSel.getD (logNewest s))).reader 2).rw 2 (fun _ => true) fun s v =>
    if s.nor.entries.any fun e => (e.2.getD 0 0).toNat == v then (s.onHw fun h => h.onKop fun k => { k with logSel := some v }, stOk)
    else (s, stStale)

def logWordObj (n : Nat) : Obj :=
  { type := 0x04, len := 5, rd := 2, read := fun s => match logEntry s with
      | some e => (s, .value (wordBytes (e.getD n 0)) none)
      | none => (s, .refused stStale) }

/-- ECC_COUNT: from DMC_ECC_CNT under R620. -/
def eccCount (m k : Nat) : Obj :=
  { type := 0x04, len := 5, dflt := List.replicate 5 0, read := fun s =>
      let t := s.onHw fun h => h.clearEcc (.vm 0) m
      (t, .value (wordBytes (t.hw.total (2 * m + k))) none) }

/-- SOC_TJ and SOC_TJ_MAX: the SoC measures its junction in Day; before the first Day since a power-on both read what the present cycle
would give, which is open (R746). -/
def socTj (h : Hw) : Word × Word := h.pwr.tj.getD (Config.measured 2 h.lc, Config.measured 2 h.lc)

/-- A value of a load die's last STATUS, 0 while the die is lost. -/
def dieValue (d : Nat) (f : Word → Word) (s : State) : Word := if s.hw.lsiLost d then 0 else f (s.mirror (Reg.LSI_DIE_STAT d))

/-- Area 0x7F. -/
def diagnostics (i b : Nat) : Option Obj :=
  if i = 0x0100 then (if b < 13 then some ((Obj.u40 fun s => word (Tabs.get (fun _ => 0) s.hw.undeclared b)).dfl 0) else none)
  else if i = 0x1002 then (if b < 8 then some (logWordObj b) else none)
  else if i = 0x2000 then (if b < 6 then some (Obj.reg (Reg.MBX_CNT_DENY + b)) else none)
  else if 0x4000 ≤ i ∧ i < 0x4003 then
    let m := i - 0x4000
    (if b < 2 then some (eccCount m b)
     else if b < 4 then some (Obj.u40 fun s => s.hw.eccWord m (b - 1)) else none)
  else if i = 0x5004 then
    (if b < 4 then some ((Obj.u40 (dieValue b fun w => wrap ((BitVec.ofNat 8 (bitsOf w 39 32)).toInt * 1000000))).typed 0x0A) else none)
  else if i = 0x5005 then (if b < 4 then some (Obj.u40 (dieValue b fun w => word (bitsOf w 31 16))) else none)
  else if b ≠ 0 then none
  else if i = 0 then some ((Obj.u40 fun s => word (s.hw.pwr.accounted / 1000)).dfl 0)
  else if i = 1 then some ((Obj.u40 fun s => word (s.hw.pwr.unavailable / 1000)).dfl 0)
  else if i = 2 then some (Obj.u40 fun s => word s.hw.pwr.sinceBoot)
  else if i = 0x1000 then some ((Obj.u40 fun s => word (logNewest s)).reader 2)
  else if i = 0x1001 then some logSelect
  else if i = 0x5000 then some (Obj.u40 fun s => Config.measured 0 s.hw.lc)
  else if i = 0x5001 then some (Obj.u40 fun s => word (s.mirrorFld Reg.PWR_VHOLD Fld.PWR_VHOLD_MV))
  else if i = 0x5002 then some ((Obj.u40 fun s => (socTj s.hw).1).typed 0x0A)
  else if i = 0x5003 then some ((Obj.u40 fun s => Config.measured 3 s.hw.lc).typed 0x0A)
  else if i = 0x5006 then some ((Obj.u40 fun s => (socTj s.hw).2).typed 0x0A)
  else none

end Objects

end Sys2Proof.Machine
end

