-- ==== Sys2Proof/Machine/KopSession.lean ====
section
/-! DEFINITION. The opening and closing of Kollos sessions (R627 to R637). -/

namespace Sys2Proof.Config

/-- The n-th ephemeral X25519 secret and NONCE_D that the device draws (R632). Nothing constrains them. -/
opaque ephemeral : (n : Nat) → List Sys2Proof.Byte
opaque nonceD : (n : Nat) → List Sys2Proof.Byte

/-- The device's Ed25519 signature over a message (R632). -/
opaque deviceSign : (msg : List Sys2Proof.Byte) → List Sys2Proof.Byte

/-- The root key of a slot, of which the fuses hold the hash, verifies a signature (R637, R697). -/
opaque rootVerify : (slot : Nat) → (msg sig : List Sys2Proof.Byte) → Bool

end Sys2Proof.Config

namespace Sys2Proof.Machine

/-! ### Keys (R633) -/

/-- Exactly n bytes. -/
def padTo (n : Nat) (l : List Byte) : List Byte := (l ++ List.replicate n 0).take n

/-- HMAC-SHA-512 of RFC 2104. -/
def hmac512 (key msg : List Byte) : List Byte :=
  let k := padTo 128 (if 128 < key.length then sha64 key else key)
  sha64 (k.map (· ^^^ 0x5C#8) ++ sha64 (k.map (· ^^^ 0x36#8) ++ msg))

/-- The ASCII bytes of a text. -/
def ascii (t : String) : List Byte := t.toList.map fun (c : Char) => byte c.toNat

/-- k_cd and k_dc from the nonces, Z and TH: HKDF of RFC 5869 with HMAC-SHA-512, 32 bytes. -/
def sessionKeys (nonces z th : List Byte) : KopKeys :=
  let okm := (hmac512 (hmac512 nonces z) (ascii "KOP1" ++ th ++ [1])).take 32
  { cd := beNat (okm.take 16), dc := beNat (okm.drop 16) }

/-! ### Certificates (R631) -/

/-- A field of a certificate, as a number. -/
def certNum (c : List Byte) (ofs n : Nat) : Nat := beNat ((c.drop ofs).take n)

/-- The role ceiling of the anchor that signed a certificate, where the certificate is accepted: the OD section's anchors; the root
keys in the key slots for the secure firmware, and for a recovery server without a CFG. -/
def State.certCeiling (s : State) (path : Nat) (c : List Byte) : Option Nat :=
  let h := s.hw
  let od := h.cfg.od
  let issuer := certNum c 54 2
  let msg := c.take 56
  let sig := c.drop 56
  let now : Int := (match h.netTime with
    | some t => (t.1.toNat : Int)
    | none => 0)
  let ok := c.length == 120 && certNum c 0 1 == 1 && decide (certNum c 1 1 ≤ 4) &&
    (certNum c 2 2 == 0xFFFF || certNum c 2 2 == h.cfg.deviceId) && !od.revoked.contains (certNum c 4 8) &&
    (!h.timeValid || (decide ((certNum c 12 5 : Int) ≤ now) && decide (now ≤ (certNum c 17 5 : Int))))
  let root := issuer < 4 && s.fuse.keyGood issuer && Config.rootVerify issuer msg sig
  if !ok then none
  else if path = 3 then (if root then some 4 else none)
  else if path = 2 ∧ !h.pwr.configured then (if root then some 3 else none)
  else match od.anchors.find? fun a => a.index == issuer with
    | some a => if Config.ed25519 a.key msg sig then some a.ceiling else none
    | none => none

namespace State

/-- The path is offered to a message that came so (R109, R130, R627): on the VLAN and the ports that the OD section names for it, UDP to
the addresses declared for VM0 alone, and the raw EtherType where it is enabled. The recovery server is at EP0 and EP1, raw and
untagged. -/
def pathOffered (s : State) (path : Nat) (via : Via) : Bool :=
  let c := s.hw.cfg.od
  if path = 0 then
    bitN c.vm0Ports via.port && via.vlan.val == c.vm0Vlan &&
      (if via.transport.val = 0 then c.vm0Ip4 ≠ 0 else if via.transport.val = 1 then c.vm0Ip6 ≠ 0 else c.rawOn)
  else if path = 1 then bitN c.minPorts via.port && via.vlan.val == c.minVlan && via.transport.val == 2
  else decide (via.port.val < 2) && via.vlan.val == 0 && via.transport.val == 2

/-- The path that serves a HELLO: the secure firmware for a request of SECURE under a root key, else the server of the object
dictionary, where its path is offered (R109, R130, R627, R637). -/
def helloPath (s : State) (req : Nat) (via : Via) (cert : List Byte) : Option Nat :=
  let issuer := certNum cert 54 2
  if s.hw.sysOn ∧ !s.hw.inState psDusk ∧ req = 4 ∧ issuer < 4 ∧ s.fuse.keyGood issuer then some 3
  else match s.hw.servedPath with
    | some p => if s.pathOffered p via then some p else none
    | none => none

/-- The anchor's ceiling, the certificate's role and the role requested give the role granted; the recovery server grants SERVICE
alone (R130, R632). -/
def grantRole (s : State) (path req : Nat) (cert : List Byte) : Option Nat :=
  match s.certCeiling path cert with
  | none => none
  | some c =>
    let r := min req (min (certNum cert 1 1) c)
    if path = 2 ∧ r ≠ 3 then none else some r

end State

namespace Hw

/-- A handshake ends with an ERROR (R629, R632). -/
def refuseHand (h : Hw) (src id status reason : Nat) : Hw := (h.kopError src id status reason).kopCount 1

/-- The handshakes without those that a condition selects. -/
def dropHands (h : Hw) (p : Handshake → Bool) : Hw := h.onKop fun k => { k with hands := k.hands.filter fun x => !p x }

/-- A session number, not 0 and in no use: the first free one from a free value on (R632). -/
def freeId (h : Hw) : Nat × Hw :=
  let d := h.draw (2 ^ 32 - 1)
  let used := h.kop.sessions.map (·.id) ++ h.kop.hands.map (·.id)
  let at_ := fun i => (d.1 + i) % (2 ^ 32 - 1) + 1
  (at_ (((List.range (used.length + 1)).find? fun i => !used.contains (at_ i)).getD 0), d.2)

/-- HELLO_REPLY, and the handshake that waits for its FINISH (R632, R633). -/
def openHand (h : Hw) (path src transport role : Nat) (body : List Byte) : Hw :=
  let r := h.freeId
  let h := r.2
  let secret := padTo 32 (Config.ephemeral h.free)
  let nonce := padTo 16 (Config.nonceD h.free)
  let h := { h with free := h.free + 1 }
  let base := padTo 32 [9]
  let first := padTo 32 (Config.x25519 secret base) ++ nonce ++ deviceCert ++ [byte role, 0]
  let th := sha64 (body ++ first)
  let z := padTo 32 (Config.x25519 secret (body.take 32))
  let keys := sessionKeys ((body.drop 32).take 16 ++ nonce) z th
  let reply := first ++ padTo 64 (Config.deviceSign (ascii "KOP1 device" ++ th))
  let x : Handshake := { path := path, src := src, id := r.1, role := role, cert := (body.drop 50).take 120, transport := transport,
                         keys := keys, th := beNat th, at_ := h.poweredMs }
  (h.onKop fun k => { k with hands := k.hands ++ [x] }).send (.client src) (kopHeader mtReply r.1 0 234 ++ reply)

/-- The HELLOs of the last second that one server has accepted. -/
def recentHellos (h : Hw) (secure : Bool) : Nat :=
  (h.kop.hellos.filter fun x => x.1 == secure && decide (h.poweredMs < x.2 + 1000)).length

end Hw

namespace State

/-- A HELLO (R632, R637). -/
def hello (s : State) (src : Nat) (via : Via) (m : KopMsg) : State :=
  let b := m.body
  let req := beNat ((b.drop 48).take 1)
  let cert := (b.drop 50).take 120
  if b.length ≠ 170 then s.onHw fun h => h.kopCount 5
  else match s.helloPath req via cert with
    | none => s
    | some path =>
      let sec := path == 3
      let mine := fun (x : Handshake) => x.src == src && (x.path == 3) == sec
      let others := (s.hw.kop.hands.filter fun x => (x.path == 3) == sec && !mine x).length
      if 50 ≤ s.hw.recentHellos sec ∨ 16 ≤ others then s.onHw fun h => h.refuseHand src 0 stBusy 4
      else
        let s := s.onHw fun h => (h.dropHands mine).onKop fun k =>
          { k with hellos := (sec, h.poweredMs) :: k.hellos.filter fun x => decide (h.poweredMs < x.2 + 1000) }
        match s.grantRole path req cert with
        | none => s.onHw fun h => h.refuseHand src 0 stNoAccess 2
        | some role => s.onHw fun h => h.openHand path src via.transport role b

end State

/-! ### Admission (R634) -/

namespace Hw

/-- The lowest free entry of a path's table. -/
def freeEntry (h : Hw) (path : Nat) : Option Nat :=
  (List.range (sessionMax path)).find? fun e => !((h.pathSessions path).any fun x => x.entry == e)

/-- The OBSERVER session with the longest idle time; the lower entry of equal ones. -/
def victim (h : Hw) (path : Nat) : Option Session :=
  ((h.pathSessions path).filter fun x => x.role == 0).foldl (fun (b : Option Session) x => match b with
    | none => some x
    | some y => if x.seen < y.seen ∨ (x.seen = y.seen ∧ x.entry < y.entry) then some x else some y) none

/-- The entry that a new session takes, and the table without the session that it evicts. -/
def takeEntry (h : Hw) (path : Nat) : Option Nat × Hw := match h.freeEntry path with
  | some e => (some e, h)
  | none => match h.victim path with
    | some x => (some x.entry, (h.closeSession x 2 true).kopCount 2)
    | none => (none, h)

/-- The session of a verified handshake, and its ACCEPT (R632, R634). The path byte of the secure firmware's table is left open. -/
def admitHand (h : Hw) (x : Handshake) (role : Nat) : Hw :=
  let t := h.takeEntry x.path
  match t.1 with
  | none => h.refuseHand x.src x.id stBusy 3
  | some e =>
    let h := t.2
    let d := if x.path < 3 then (x.path, h) else h.draw 256
    let h := d.2
    let y : Session := { path := x.path, entry := e, id := x.id, role := role, src := x.src, keys := x.keys,
                         serial := certNum x.cert 4 8, anchor := certNum x.cert 54 2, transport := x.transport, unchecked := !h.timeValid,
                         seen := h.poweredMs }
    let body := [byte role, byte d.1] ++ beBytes 2 (h.idleTimeout role) ++ beBytes 5 h.lc ++ beBytes 2 h.lead_ ++ [byte (b2n h.timeValid)]
    let h := (h.onKop fun k => { k with sessions := k.sessions ++ [y] }).kopCount 0
    (h.onPwr fun p => { p with kopSeen := true }).send (.client x.src) (kopSeal x.keys.dc 2 mtAccept x.id 0 body)

/-- A session number that names nothing active (R629, R635). -/
def unknownSession (h : Hw) (src id : Nat) : Hw := h.kopError src id stState 1

end Hw

namespace State

/-- A FINISH (R632, R634, R650): the certificate is judged against the OD section in force now. -/
def finish (s : State) (src : Nat) (m : KopMsg) : State :=
  match s.hw.kop.hands.find? fun x => x.id == m.id with
  | none => s.onHw fun h => h.unknownSession src m.id
  | some x =>
    if x.at_ + 2000 < s.hw.poweredMs then s.onHw fun h => (h.dropHands fun y => y.id == x.id).unknownSession src m.id
    else match kopOpen x.keys.cd m with
      | none => s.onHw fun h => h.kopCount 4
      | some plain =>
        let s := s.onHw fun h => h.dropHands fun y => y.id == x.id
        let key := (x.cert.drop 22).take 32
        let good := plain.length == 64 && Config.ed25519 key (ascii "KOP1 client" ++ beBytes 64 x.th ++ beBytes 4 x.id) plain
        match (if good then s.grantRole x.path x.role x.cert else none) with
        | none => s.onHw fun h => h.refuseHand src x.id stNoAccess 2
        | some role => s.onHw fun h => h.admitHand { x with src := src } role

/-- A protected message that its session's key opens: the session has been heard, and answers go to the message's source. -/
def heard (s : State) (src : Nat) (m : KopMsg) (f : Session → List Byte → State → State) : State :=
  match s.hw.session m.id with
  | none => s.onHw fun h => h.unknownSession src m.id
  | some x => match kopOpen x.keys.cd m with
    | none => s.onHw fun h => h.kopCount 4
    | some plain =>
      let y := { x with seen := s.hw.poweredMs, src := src }
      f y plain (s.onHw fun h => h.setSession y)

/-- A message of a type arrives while its server can answer; any other message is no such event. -/
def onMessage (s : State) (msg : List Byte) (type : Nat) (f : KopMsg → State) : State :=
  if !s.hw.sysOn then s
  else match kopRead msg with
    | none => s.onHw fun h => h.kopCount 5
    | some m => if m.type = type then f m else s

end State

/-! ### Rows -/

/-- HELLO. -/
def execHello (src : Nat) (via : Via) (msg : List Byte) (s : State) : Result :=
  .next (s.onMessage msg mtHello fun m => s.hello src via m)

/-- FINISH. -/
def execFinish (src : Nat) (msg : List Byte) (s : State) : Result := .next (s.onMessage msg mtFinish fun m => s.finish src m)

/-- HANDSHAKE_TIMEOUT: dropped without any message (R632). -/
def execHandshakeTimeout (id : BitVec 32) (s : State) : Result :=
  .next (s.onHw fun h => h.dropHands fun x => x.id == id.toNat && decide (x.at_ + 2000 ≤ h.poweredMs))

/-- KOP_CLOSE (R635). -/
def execKopClose (src : Nat) (msg : List Byte) (s : State) : Result :=
  .next (s.onMessage msg mtClose fun m => s.heard src m fun x _ s => s.onHw fun h => h.closeSession x 6 true)

/-- SESSION_IDLE_TIMEOUT (R635). -/
def execSessionIdleTimeout (id : BitVec 32) (s : State) : Result :=
  .next (s.onHw fun h => match h.session id.toNat with
    | some x => if x.seen + 1000 * h.idleTimeout x.role ≤ h.poweredMs then (h.closeSession x 3 true).kopCount 3 else h
    | none => h)

end Sys2Proof.Machine
end

