-- ==== Sys2Proof/Machine/KopRows.lean ====
section
/-! DEFINITION. The object dictionary as sessions reach it: items, requests and responses (R613, R614, R616 to R619, R625, R638 to
R648). -/

namespace Sys2Proof.Config

/-- What a tenant VM answers to an item of its area: a STATUS, a type code and a value; and which objects its area has (R625). Nothing
constrains it. -/
opaque tenantAnswer : (n op oid : Nat) → Nat × Nat × List Sys2Proof.Byte
opaque tenantHas : (oid : Nat) → Bool

end Sys2Proof.Config

namespace Sys2Proof.Machine

/-! ### The dictionary (R613, R614) -/

/-- The areas that a path serves. -/
def pathServes (path area : Nat) : Bool :=
  if path = 1 then [0x00, 0x03, 0x28, 0x30, 0x50, 0x70, 0x7F].contains area
  else if path = 2 then [0x00, 0x70, 0x7F].contains area else true

namespace State

/-- The object of an OID, as one session sees the dictionary; tenant areas apart. -/
def objAt (s : State) (who : Asker) (oid : Nat) : Option Obj :=
  let area := oid / 2 ^ 24
  let i := oid / 256 % 65536
  let b := oid % 256
  if !pathServes who.path area then none
  else if area = 0x00 then Objects.identity i b
  else if area = 0x01 then Objects.communication s who i b
  else if area = 0x02 then Objects.time i b
  else if area = 0x03 then Objects.power i b
  else if area = 0x10 then Objects.vanik s i b
  else if area = 0x18 then Objects.snapshot i b
  else if area = 0x20 then Objects.fabric s i b
  else if area = 0x28 then Objects.protection s i b
  else if area = 0x30 then Objects.loads s i b
  else if area = 0x38 then Objects.canArea s i b
  else if 0x40 ≤ area ∧ area < 0x44 then Objects.point s (oid - 0x40000000)
  else if area = 0x50 then Objects.crest i b
  else if area = 0x60 then Objects.worlds i b
  else if area = 0x70 then Objects.update i b
  else if area = 0x7F then Objects.diagnostics i b
  else none

/-- The tenant area of an OID that the OD section declares (R625). -/
def tenantOf (s : State) (who : Asker) (oid : Nat) : Option TenantArea :=
  if pathServes who.path (oid / 2 ^ 24) ∧ 0xF0 ≤ oid / 2 ^ 24 then s.hw.cfg.od.tenants.find? fun t => t.area == oid / 2 ^ 24 else none

/-- An OID names an object on a path. -/
def named (s : State) (who : Asker) (oid : Nat) : Bool :=
  (s.objAt who oid).isSome || ((s.tenantOf who oid).isSome && Config.tenantHas oid)

/-- The lowest OID that names an object, from one on, within a number of OIDs. -/
def nextFrom (s : State) (who : Asker) : (count oid : Nat) → Option Nat
  | 0, _ => none
  | n + 1, oid => if s.named who oid then some oid else nextFrom s who n (oid + 1)

end State

/-! ### Items (R638, R639) -/

/-- A request item. -/
structure KopItem where
  op : Nat
  oid : Nat
  lc : Nat := 0
  type : Nat := 0
  value : List Byte := []
  deriving DecidableEq, Repr

def opRead : Nat := 1
def opWrite : Nat := 2
def opWriteLc : Nat := 3
def opDescribe : Nat := 4
def opNext : Nat := 5

/-- A response item's first bytes: all of an item whose STATUS is not OK. -/
def itemHead (op oid st : Nat) : List Byte := [byte op] ++ beBytes 4 oid ++ beBytes 2 st

/-- The items of a body; none where they do not fill it exactly (R638). -/
def parseItems : (n : Nat) → List Byte → Option (List KopItem)
  | 0, [] => some []
  | 0, _ :: _ => none
  | n + 1, l =>
    let op := beNat (l.take 1)
    let oid := beNat ((l.drop 1).take 4)
    if l.length < 5 then none
    else if op = opRead ∨ op = opDescribe ∨ op = opNext then
      (parseItems n (l.drop 5)).map fun r => ({ op := op, oid := oid } : KopItem) :: r
    else
      let fixed := if op = opWriteLc then 10 else 5
      let v := l.drop fixed
      let len := beNat ((v.drop 1).take 2)
      if (op ≠ opWrite ∧ op ≠ opWriteLc) ∨ v.length < 3 + len then none
      else
        (parseItems n (v.drop (3 + len))).map fun r =>
          ({ op := op, oid := oid, lc := if op = opWriteLc then beNat ((l.drop 5).take 5) else 0, type := beNat (v.take 1),
             value := (v.drop 3).take len } : KopItem) :: r

/-- The items of a REQUEST body. -/
def bodyItems (b : List Byte) : Option (List KopItem) :=
  let n := beNat (b.take 1)
  if b.isEmpty ∨ 32 < n then none else parseItems n (b.drop 1)

/-- A value is of the object's type and length, and is legal (R616): BAD_TYPE, BAD_VALUE, or 0. -/
def Obj.judge (o : Obj) (type : Nat) (v : List Byte) : Nat :=
  if type ≠ o.type ∨ v.length ≠ o.len then stBadType
  else if o.type = 0x01 ∧ 1 < beNat v then stBadValue
  else if !o.legal (beNat v) then stBadValue
  else stOk

namespace State

/-- The session that asks. -/
def asker (x : Session) : Asker := { path := x.path, role := x.role, id := x.id, entry := x.entry }

/-- The device is in the safe state, or below Full: what class 0x4 needs (R619). -/
def guardOrSafe (s : State) : Bool := s.hw.bit Reg.GRD_STAT 0 || decide (s.hw.level < 3)

/-- A READ item: its response item, empty while it waits for a step (R300, R639). -/
def itemRead (s : State) (who : Asker) (tag oid : Nat) : State × List Byte :=
  match s.objAt who oid with
  | none => (s, itemHead opRead oid stBadObject)
  | some o =>
    if o.access = 3 ∨ who.role < o.rd then (s, itemHead opRead oid stNoAccess)
    else
      let r := o.read s
      match r.2 with
      | .value v lc =>
        (r.1, itemHead opRead oid stOk ++ [byte o.type] ++ beBytes 2 v.length ++ beBytes 5 (lc.getD s.hw.lc) ++ v)
      | .refused st => (r.1, itemHead opRead oid st)
      | .retry ms => (r.1, itemHead opRead oid 1 ++ beBytes 2 ms)
      | .wait g ofs =>
        (r.1.onHw fun h =>
          let x : PointRead := { session := who.id, tag := tag, page := g, ofs := ofs }
          { h with fab := { h.fab with reads := h.fab.reads ++ [x] } }, [])

/-- A WRITE item (R616, R618, R619). -/
def itemWrite (s : State) (who : Asker) (oid type : Nat) (v : List Byte) : State × Nat :=
  match s.objAt who oid with
  | none => (s, stBadObject)
  | some o =>
    if !([2, 3, 4].contains o.access) ∨ who.role < o.wr then (s, stNoAccess)
    else if o.access = 4 ∧ !s.guardOrSafe then (s, stState)
    else if o.judge type v ≠ 0 then (s, o.judge type v)
    else o.write s v

/-- A WRITE_LC item: its STATUS and its commit LC (R644, R645). -/
def itemWriteLc (s : State) (who : Asker) (oid lc type : Nat) (v : List Byte) : State × Nat × Nat :=
  match s.objAt who oid with
  | none => (s, stBadObject, 0)
  | some o =>
    if o.access ≠ 5 ∨ who.role < o.wr then (s, stNoAccess, 0)
    else if o.judge type v ≠ 0 then (s, o.judge type v, 0)
    else if oid = 0x70020400 then
      let n := (s.hw.commitLc lc).getD 0
      let t := s.activate (beNat v) lc who.id
      (t, t.hw.status, n)
    else match s.hw.commitLc lc with
      | none => (s, stBadValue, 0)
      | some n =>
        if s.hw.lcRefusal oid lc who.id ≠ 0 then (s, s.hw.lcRefusal oid lc who.id, 0)
        else
          let r := o.accept s v n
          if r.2 ≠ 0 then (r.1, r.2, 0) else (r.1.onHw fun h => h.acceptLc oid n type v who.id, stOk, n)

/-- An item of a tenant area: the VM's answer, within what still fits (R625). -/
def itemTenant (s : State) (who : Asker) (t : TenantArea) (x : KopItem) : State × List Byte :=
  let need := if x.op = opWrite then t.writeRole else t.readRole
  if x.op = opWriteLc ∨ who.role < need then (s, itemHead x.op x.oid stNoAccess)
  else if (s.hw.vmSlot t.vm).state ≠ .running then (s, itemHead x.op x.oid stState)
  else
    let a := Config.tenantAnswer s.hw.free x.op x.oid
    let s := s.onHw fun h => { h with free := h.free + 1 }
    let v := a.2.2.take 1200
    if a.1 % 65536 ≠ 0 ∨ x.op ≠ opRead then (s, itemHead x.op x.oid a.1)
    else (s, itemHead opRead x.oid stOk ++ [byte a.2.1] ++ beBytes 2 v.length ++ beBytes 5 s.hw.lc ++ v)

/-- A DESCRIBE item. -/
def itemDescribe (s : State) (who : Asker) (oid : Nat) : List Byte :=
  match s.objAt who oid with
  | none => itemHead opDescribe oid stBadObject
  | some o => itemHead opDescribe oid stOk ++ [byte o.type] ++ beBytes 2 o.len ++ [byte o.access, byte o.rd, byte o.wr] ++
      beBytes 2 o.dflt.length ++ o.dflt

/-- A NEXT item. -/
def itemNext (s : State) (who : Asker) (oid : Nat) : List Byte :=
  match s.nextFrom who (2 ^ 32 - 1 - oid) (oid + 1) with
  | some n => itemHead opNext oid stOk ++ beBytes 4 n
  | none => itemHead opNext oid stBadObject

/-- An item executed: its response item, empty while it waits. -/
def runItem (s : State) (who : Asker) (tag : Nat) (x : KopItem) : State × List Byte :=
  match (if x.op = opNext then none else s.tenantOf who x.oid) with
  | some t => s.itemTenant who t x
  | none =>
    if x.op = opRead then s.itemRead who tag x.oid
    else if x.op = opWrite then (let r := s.itemWrite who x.oid x.type x.value; (r.1, itemHead opWrite x.oid r.2))
    else if x.op = opWriteLc then
      (let r := s.itemWriteLc who x.oid x.lc x.type x.value
       (r.1, itemHead opWriteLc x.oid r.2.1 ++
         if r.2.1 = stOk then beBytes 5 s.hw.lc ++ beBytes 5 r.2.2 ++ beBytes 5 r.1.hw.kop.ticket else []))
    else if x.op = opDescribe then (s, s.itemDescribe who x.oid)
    else (s, s.itemNext who x.oid)

/-- The bytes of an item's response where its STATUS is OK (R627, R640). -/
def okSize (s : State) (who : Asker) (x : KopItem) : Nat :=
  let len := match s.objAt who x.oid with
    | some o => if x.op = opRead then o.len else o.dflt.length
    | none => 0
  if x.op = opRead then 15 + len
  else if x.op = opWrite then 7
  else if x.op = opWriteLc then 22
  else if x.op = opDescribe then 15 + len else 11

/-- The items of a request in order: the first that would not fit and all after it are TOO_BIG; none is executed once the session
is closed (R636, R640). -/
def runItems (who : Asker) (seq : Nat) : State → (idx used : Nat) → (big : Bool) → List KopItem → State × List (List Byte)
  | s, _, _, _, [] => (s, [])
  | s, idx, used, big, x :: rest =>
    let big := big || decide (1362 < used + s.okSize who x + 7 * rest.length)
    if big || (s.hw.session who.id).isNone then
      let r := runItems who seq s (idx + 1) (used + 7) big rest
      (r.1, itemHead x.op x.oid stTooBig :: r.2)
    else
      let a := s.runItem who (64 * seq + idx) x
      let size := if a.2.isEmpty then s.okSize who x else a.2.length
      let fits := decide (used + size + 7 * rest.length ≤ 1362)
      let item := if fits then a.2 else itemHead x.op x.oid stTooBig
      let r := runItems who seq a.1 (idx + 1) (used + (if fits then size else 7)) (!fits) rest
      (r.1, item :: r.2)

end State

/-! ### Responses (R639 to R641) -/

namespace Hw

/-- The RESPONSE to a request of a session. -/
def response (h : Hw) (x : Session) (seq : Nat) (items : List (List Byte)) : List Byte :=
  kopSeal x.keys.dc 2 mtResponse x.id seq (beBytes 5 h.lc ++ [byte items.length] ++ items.flatten)

/-- A response enters the cache, in place of the lowest of 32 SEQs (R641). -/
def cacheIn (x : Session) (seq : Nat) (msg : List Byte) : Session :=
  let behind := fun (q : Nat) => (x.last.getD 0 + 2 ^ 32 - q) % 2 ^ 32
  let l := x.cache ++ [(seq, msg)]
  if l.length ≤ 32 then { x with cache := l }
  else
    let far := (l.map fun e => behind e.1).foldl max 0
    { x with cache := l.filter fun e => behind e.1 < far }

/-- A request is answered: its response is sent, and kept where it was accepted as new. The item of a command of its own, SEQ 0,
is no message. -/
def respond (h : Hw) (x : Session) (seq : Nat) (items : List (List Byte)) (keep : Bool) : Hw :=
  let msg := h.response x seq items
  let h := h.send (.client x.src) msg
  if keep then h.setSession (cacheIn x seq msg) else h

/-- What a request in execution has become: answered when no item waits. -/
def settleWait (h : Hw) (x : Session) (w : KopWait) : Hw :=
  if w.items.any fun i => i.isEmpty then
    h.setSession { x with waits := x.waits.map fun y => if y.seq = w.seq then w else y }
  else
    let x := { x with waits := x.waits.filter fun y => y.seq ≠ w.seq }
    let h := h.setSession x
    if w.seq = 0 then h.onKop fun k => { k with item := w.items.flatten } else h.respond x w.seq w.items true

/-- The OP and OID of an item that waits, answered with a STATUS alone. -/
def timedOut (head : List Byte) : List Byte := head ++ beBytes 2 stTimeout

/-- REQ_TIMEOUT passes for a request: every item that waits is answered TIMEOUT (R640). -/
def timeoutWait (h : Hw) (x : Session) (w : KopWait) : Hw :=
  let h := { h with fab := { h.fab with reads := h.fab.reads.filter fun r => !(r.session == x.id && r.tag / 64 == w.seq) } }
  h.settleWait x { w with items := (w.items.zip w.heads).map fun i => if i.1.isEmpty then timedOut i.2 else i.1 }

/-- A point read has its answer (R300, R639). -/
def answerRead (h : Hw) (r : PointRead) (m : Nat) (v : Word) : Hw :=
  match h.session r.session with
  | none => h
  | some x => match x.waits.find? fun w => w.seq == r.tag / 64 with
    | none => h
    | some w =>
      let head := w.heads.getD (r.tag % 64) []
      let item := head ++ beBytes 2 stOk ++ [0x04#8] ++ beBytes 2 5 ++ beBytes 5 m ++ wordBytes v
      h.settleWait x { w with items := w.items.set (r.tag % 64) item }

/-- Point reads whose cycle is committed are answered (R300). -/
def releaseReads (h : Hw) : Hw :=
  let ready := fun (r : PointRead) => match r.value with
    | some (m, _) => decide (m ≤ h.lcCommit)
    | none => false
  let l := h.fab.reads.filter ready
  let h := { h with fab := { h.fab with reads := h.fab.reads.filter fun r => !ready r } }
  l.foldl (fun (h : Hw) r => match r.value with
    | some (m, v) => h.answerRead r m v
    | none => h) h

end Hw

namespace State

/-- The items of a request accepted as new are executed, and answered once none waits. -/
def execute (s : State) (x : Session) (seq : Nat) (items : List KopItem) : State :=
  let r := runItems (asker x) seq s 0 0 false items
  r.1.onHw fun h => match h.session x.id with
    | none => h
    | some y =>
      let w : KopWait := { seq := seq, items := r.2, heads := items.map fun i => [byte i.op] ++ beBytes 4 i.oid, at_ := h.poweredMs }
      let y := { y with waits := y.waits ++ [w] }
      (h.setSession y).settleWait y w

/-- A REQUEST that passed its tag (R641). -/
def request (s : State) (x : Session) (seq : Nat) (body : List Byte) : State :=
  let parsed := bodyItems body
  let bad := [itemHead 0 0 stBadMessage]
  let all := fun (st : Nat) => match parsed with
    | some l => l.map fun i => itemHead i.op i.oid st
    | none => bad
  let dlt := match x.last with
    | some l => (seq + 2 ^ 32 - l) % 2 ^ 32
    | none => 1
  let isNew := x.last.isNone
  if seq = 0 then s.onHw fun h => h.respond x 0 bad false
  else if !isNew ∧ x.waits.any (fun w => w.seq == seq) then s
  else match (if isNew then none else x.cache.find? fun e => e.1 == seq) with
    | some e => s.onHw fun h => (h.send (.client x.src) e.2).kopCount 6
    | none =>
      if isNew ∨ (1 ≤ dlt ∧ dlt ≤ 2 ^ 31 - 1) then
        let y := { x with last := some seq }
        let s := s.onHw fun h => h.setSession y
        if 8 ≤ (x.waits.filter fun w => w.seq ≠ 0).length then s.onHw fun h => (h.respond y seq (all stBusy) true).kopCount 8
        else match parsed with
          | none => s.onHw fun h => h.respond y seq bad true
          | some items => s.execute y seq items
      else s.onHw fun h => (h.respond x seq (all stStale) false).kopCount 7

/-- One item of a session, as a command of its own: what it answers is kept beside its STATUS. -/
def oneItem (s : State) (id : Nat) (i : KopItem) : State :=
  match s.hw.session id with
  | none => s
  | some x =>
    let s := s.onHw fun h =>
      ({ h with fab := { h.fab with reads := h.fab.reads.filter fun r => !(r.session == id && r.tag / 64 == 0) } }.setSession
        { x with waits := x.waits.filter fun w => w.seq ≠ 0 })
    let r := s.runItem (asker x) 0 i
    let t := r.1.onHw fun h => (h.onKop fun k => { k with item := r.2 }).answer (beNat ((r.2.drop 5).take 2))
    if r.2.isEmpty then t.onHw fun h => match h.session id with
      | none => h
      | some y => h.setSession { y with waits := y.waits ++
          [{ seq := 0, items := [[]], heads := [[byte i.op] ++ beBytes 4 i.oid], at_ := h.poweredMs }] }
    else t

end State

/-! ### Rows -/

/-- KOP_REQUEST. -/
def execKopRequest (src : Nat) (msg : List Byte) (s : State) : Result :=
  .next (s.onMessage msg mtRequest fun m => s.heard src m fun x plain s => s.request x m.seq plain)

/-- KOP_READ. -/
def execKopRead (id oid : BitVec 32) (s : State) : Result := .next (s.oneItem id.toNat { op := opRead, oid := oid.toNat })

/-- KOP_WRITE. -/
def execKopWrite (id oid : BitVec 32) (type : Byte) (value : List Byte) (s : State) : Result :=
  .next (s.oneItem id.toNat { op := opWrite, oid := oid.toNat, type := type.toNat, value := value })

/-- KOP_WRITE_LC. -/
def execKopWriteLc (id oid : BitVec 32) (lc : Word) (type : Byte) (value : List Byte) (s : State) : Result :=
  .next (s.oneItem id.toNat { op := opWriteLc, oid := oid.toNat, lc := lc.toNat, type := type.toNat, value := value })

/-- KOP_DESCRIBE. -/
def execKopDescribe (id oid : BitVec 32) (s : State) : Result := .next (s.oneItem id.toNat { op := opDescribe, oid := oid.toNat })

/-- KOP_NEXT. -/
def execKopNext (id oid : BitVec 32) (s : State) : Result := .next (s.oneItem id.toNat { op := opNext, oid := oid.toNat })

/-- REQUEST_TIMEOUT (R640): every request of the session that has waited for REQ_TIMEOUT. -/
def execRequestTimeout (id : BitVec 32) (s : State) : Result :=
  .next (s.onHw fun h => match h.session id.toNat with
    | none => h
    | some x => (x.waits.filter fun w => decide (w.at_ + h.reqTimeout ≤ h.poweredMs)).foldl (fun (h : Hw) w =>
        match h.session id.toNat with
        | some y => h.timeoutWait y w
        | none => h) h)

end Sys2Proof.Machine
end

