-- ==== Sys2Proof/Machine/CycleRows.lean ====
section
/-! DEFINITION. The sample instant of a cycle, the commit of a cycle, island power, and the balancing decision (R22 to R27, R299,
R313, R314, R361, R420, R421). -/

namespace Sys2Proof.Machine

namespace Hw

/-! ### The start of a Day span (R361, R381, R645, R662, R663) -/

/-- A CYCLE record is written for a cycle that carries inputs (R381). -/
def cycleRecord (h : Hw) (n : Nat) : Hw :=
  if !h.carriesInputs n then h
  else
    let t := h.netTime.getD (0, 0)
    let h := h.note 0x01 (b2n (n + 1 == h.fab.spanStart)) [word n, t.1, t.2]
    { h with fab := { h.fab with cycleRec := n } }

/-- The NIGHTREC record of a ring (R381). -/
def nightRecord (h : Hw) (n k : Nat) : Hw :=
  match h.declared k with
  | [] => h
  | ps =>
    let h := h.foundIn (nodeRecord (160 * k)) 0x2810
    let cells := ps.flatMap fun p => (List.range 8).map fun i => (h.ram (nodeRecord (160 * k + p) + i)).word
    h.record 0x0E k 0 0 0 0 ([word n] ++ ((List.range 3).map fun i => (h.ram (retention + 0x2C00 + i)).word) ++ cells)

/-- A write accepted at Control that is still pending is journaled as a command in the first cycle of the span (R645). -/
def journalPending (h : Hw) (w : LcWrite) : Hw :=
  if [0x03, 0x28, 0x30, 0x50].contains (w.oid / 2 ^ 24) && !h.carriesInputs w.acc then
    (h.note 0x0B 0 ([word w.lc, word w.acc, word (w.value.length * 2 ^ 32 + w.oid)] ++ packBytes w.value)).ltCountBy 2 1
  else h

/-- A Day span begins with cycle n: DAY_START, the Night record after a Dawn, the epoch in force (R592), the commands that Control
accepted, and DISPATCH. -/
def startSpan (h : Hw) (n : Nat) : Hw :=
  let f := h.fab
  let p := h.pwr
  let spans := if f.spanStart = 0 then f.spans else (f.spanStart - 1, f.spanEnd - 1) :: f.spans
  let late := h.kop.pend.filter fun w => [0x03, 0x28, 0x30, 0x50].contains (w.oid / 2 ^ 24) && !h.carriesInputs w.acc
  let h := { h with
    fab := { f with spans := spans, spanStart := n + 1, spanEnd := 0, ended := false, wake := b2n p.night }
    snp := { h.snp with refs := [] } }
  let b := h.builds
  let h := h.note 0x0D (if p.restart.isSome then 2 else 1)
    [word n, p.restart.getD 0, b.cfg, b.fmc, b.hvf, b.cfw, b.sfw, word (b2n p.cancelled), word p.wakeClass]
  let h := if p.night then (List.range 8).foldl (fun (h : Hw) k => h.nightRecord n k) h else h
  let h := h.cycleRecord n
  let h := h.epochRecord h.epochNow
  let h := late.foldl (fun (h : Hw) w => h.journalPending w) h
  h.onPwr fun p => { p with restart := none, cancelled := false, night := false, wakeClass := 0, dispatch := p.wakeClass ≠ 2, dispatchAt := 0 }

/-- Where a span runs cycle n is one of its cycles; where none does and the device is in Day at Full, one begins (R361). -/
def spanAt (h : Hw) (n : Nat) : Hw :=
  if !h.inState psDay || h.level ≠ 3 || !h.journalOn then h
  else if h.spanRuns then h.cycleRecord n
  else h.startSpan n

/-! ### The edge -/

/-- In the last Day cycle before a Dusk with target Night, S - 1, Crest commands every balancing switch off in its command segment (R79), and
an end that does not lead its ring sends SLEEP in its GT slot (R220, R248). -/
def stopBalancing (h : Hw) (n : Nat) : Hw :=
  let auto := h.policy == 2 && h.upd.act.isNone && h.pwr.dwellAt.any fun d => decide (d + 15 ≤ n)
  let next : Hw := { h with lc := n + 1 }
  if h.inState psDay && (auto || next.cmdDue 1 0x03000000) then
    (List.range 16).foldl (fun (h : Hw) k =>
      (h.clearRegs (Reg.VNK_BAL k 0) (Reg.VNK_BAL k 127)).onRing k fun r => { r with sleepDue := !h.leads k && !h.closedRing k }) h
  else h

/-- Time and accounting (R33, R589, R624, R746): LC, powered time, the checkpoint's age, the availability sums, and the highest
junction temperature. -/
def timeAt (h : Hw) (n : Nat) : Hw :=
  let h := { h.gridTo n with cycled := true, poweredMs := h.poweredMs + 1 }
  if !h.inState psDay then h
  else
    let down := decide (h.level < 2)
    let h := { h with fab := { h.fab with sinceCkpt := h.fab.sinceCkpt + 1 } }
    let tj := Config.measured 2 n
    h.onPwr fun p =>
      { p with
        accounted := p.accounted + 1, unavailable := if down then p.unavailable + 1 else p.unavailable
        tj := match p.tj with
          | some (_, m) => some (tj, if m.toInt < tj.toInt then tj else m)
          | none => some (tj, tj) }

/-- A written FAB_LT_CFG takes effect (R367), STALL of the cycle before clears (R317), PPS_OUT may fall, and NOPLANT follows the
time (R605). -/
def settingsAt (h : Hw) : Hw :=
  let h := match h.fab.ltCfg with
    | some w => { h.setReg Reg.FAB_LT_CFG w with fab := { h.fab with ltCfg := none } }
    | none => h
  ((h.setFld Reg.FAB_STAT Fld.FAB_STAT_STALL 0).ppsFall).setNoplant

/-- The latest value of an EVENT channel stands for the cycle that has ended: steps that ran on a prediction of it run again
(R363, R372). -/
def eventsKnown (h : Hw) (n : Nat) : Hw :=
  if n = 0 || !h.carriesInputs (n - 1) then h
  else
    let h := h.cfg.fab.ext.foldl (fun (h : Hw) (x : Nat × Option ExtCfg) => match x.2 with
      | some e => if e.sampled then h else h.rollbackFor (n - 1) (extInput x.1)
      | none => h) h
    h.settleAll

/-- An analogue value lies outside the range of its mode (R679). -/
def aiOut (current : Bool) (v : Int) : Bool :=
  if current then decide (v < 3600) || decide (21000 < v) else decide (v < -100000000) || decide (10500000000 < v)

/-- The analogue inputs report, and DIN reads (R679). -/
def inputsAt (h : Hw) (x : SiFacts) : Hw :=
  if !h.inState psDay || !h.unitRuns 38 then h
  else
    let h := h.setReg Reg.GIO_DIN (word x.din.toNat)
    x.ai.foldl (fun (h : Hw) (e : Fin 16 × Word) =>
      let i := e.1.val
      if !bitN h.cfg.ai i || !h.bit Reg.GIO_AI_CFG (16 + i) then h
      else
        let h := h.setReg (Reg.GIO_AI i) e.2
        if aiOut (h.bit Reg.GIO_AI_CFG i) e.2.toInt then (h.setBit Reg.GIO_AI_OOR i).setBit Reg.GIO_IRQ_STAT 1 else h) h

/-- The Night timer wakes at the device-time instant of its LC (R89, R106). -/
def timerAt (h : Hw) (n : Nat) : Hw :=
  if h.bit Reg.WAKE_EN 11 && (h.reg Reg.WAKE_TIMER).toNat == n then h.wake (2 ^ 11) else h

end Hw

namespace State

/-! ### Writes with a commit LC (R368, R446, R459, R644 to R646) -/

/-- The object of a pending write, as the unit concerned sees it. -/
def pendObj (s : State) (w : LcWrite) : Option Obj := s.objAt { path := 3, role := 4 } w.oid

/-- A pending write ends with a STATUS: APPLIED or REFUSED. -/
def settled (s : State) (w : LcWrite) (st : Nat) : State :=
  s.onHw fun h => h.settleLc (fun y => y == w) (if st = stOk then 1 else 2) st

/-- The pending writes that cycle n applies, in the order of acceptance; a power or reset command of value 1 has its own effect. -/
def dueWrites (s : State) (n : Nat) : List LcWrite :=
  s.hw.kop.pend.filter fun w => decide (w.lc ≤ n) && !(w.value == [1#8] && (s.pendObj w).any fun o => o.own)

/-- A pending write is applied. -/
def applyWrite (s : State) (w : LcWrite) (n : Nat) : State :=
  match s.pendObj w with
  | none => s.settled w stBadObject
  | some o =>
    let r := o.apply s w.value n
    r.1.settled w r.2

/-- The guard writes of one commit LC replace the copy in force in one clock; a row that is withheld is refused, and a copy that was
pending through the registers stays so (R446). -/
def applyGuards (s : State) (l : List (LcWrite × Nat)) : State :=
  if l.isEmpty then s
  else
    let old := s.hw.grd.pend
    let armed := s.hw.bit Reg.GRD_PEND_CTL 2
    let put := fun (h : Hw) (a : Nat) (v : Word) => h.writeIn .secure a v
    let s := s.onHw fun h =>
      let h := l.foldl (fun (h : Hw) (x : LcWrite × Nat) => put h x.2 (word (beNat x.1.value))) { h with grd := { h.grd with pend := [] } }
      let h := h.applyPend
      let h := old.foldl (fun (h : Hw) (x : Nat × Option Word) => match x.2 with
        | some v => h.writeGuard x.1 v
        | none => h) h
      if armed then h.setBit Reg.GRD_PEND_CTL 2 else h
    l.foldl (fun (s : State) (x : LcWrite × Nat) =>
      let later := l.any fun (y : LcWrite × Nat) => y.2 == x.2 && y.1 ≠ x.1
      s.settled x.1 (if s.hw.reg x.2 == word (beNat x.1.value) || later then stOk else stState)) s

/-- Every write due at SI(n) but those of the load channels. -/
def applyDue (s : State) (n : Nat) : State :=
  let due := s.dueWrites n
  let plain := due.filter fun w => (s.pendObj w).all fun o => o.guard.isNone && o.load.isNone
  let guards := due.filterMap fun w => (s.pendObj w).bind fun o => o.guard.map fun a => (w, a)
  (plain.foldl (fun (s : State) w => s.applyWrite w n) s).applyGuards guards

/-- The load commands due at SI(n), with their channels. -/
def dueLoads (s : State) (n : Nat) : List (LcWrite × Nat) :=
  (s.dueWrites n).filterMap fun w => (s.pendObj w).bind fun o => o.load.map fun c => (w, c)

/-- The load dies at SI(n): commands with the commit LC reach the LSI, the dies sample and apply, and the commands end (R268, R457 to
R460). In Night the bursts take this place. -/
def loadsAt (s : State) (n : Nat) (x : LoadFacts) : State :=
  if s.hw.bit Reg.VNK_CTRL 1 || s.hw.inState psNight then s
  else
    let due := if s.hw.sysOn && s.hw.crestOn then s.dueLoads n else []
    let s := due.foldl (fun (s : State) (w : LcWrite × Nat) => match s.pendObj w.1 with
      | some o => (o.apply s w.1.value n).1
      | none => s) s
    let s := s.onHw fun h => (h.supplies x.supply).lsiCycle n (Hw.senseOf x) (x.mute.map (·.val))
    due.foldl (fun (s : State) (w : LcWrite × Nat) =>
      let r := (Tabs.get (fun _ => (0, 0)) s.hw.lsi.results w.2).1
      s.settled w.1 (if r = 6 then stOk else Objects.lsiStatus r)) s

/-- SI(n) (R22, R25, R26). -/
def sampleInstant (s : State) (x : SiFacts) : State :=
  if !s.hw.booted || !s.hw.bit Reg.PWR_RAIL_PG 0 then s
  else
    let n := s.hw.lc + 1
    let s := s.onHw fun h =>
      let h := x.hits.foldl (fun (h : Hw) a => h.strike a.toNat) h
      x.localHits.foldl (fun (h : Hw) a => h.strikeLocal a.1.val a.2.toNat) h
    let s := s.onHw fun h => (((h.timeAt n).stopBalancing n).settingsAt.spanAt n).calEffect n
    let s := if s.hw.sysOn && s.hw.crestOn && (s.hw.inState psDay || s.hw.inState psBoot) then s.applyDue n else s
    let s := s.loadsAt n x.loads
    (s.onHw fun h => ((h.inputsAt x).eventsKnown n).timerAt n).hvfStep

end State

namespace Hw

/-! ### The commit (R27, R299, R300, R366) -/

/-- The cycle that the fabric manager commits next. -/
def commitNext (h : Hw) : Nat := h.nextCycle (max (h.lcCommit + 1) h.firstOwed)

/-- Every input of the cycle is known and every placed page has completed its certain step of it; no page is UNPLACED. -/
def committable (h : Hw) (n : Nat) : Bool :=
  h.journalOn && h.carriesInputs n && !h.unplaced && (h.allInputs.all fun id => (h.known n id).isSome) &&
    h.fab.pages.all fun x => x.2.state == .undeclared || decide (n + 1 ≤ x.2.certain)

/-- The dwell of R76 over the committed cycles: D, and the cancellation of the entry where the condition fails for a committed cycle
after D, by a current, by DWELL or by POLICY (R78). -/
def dwellStep (h : Hw) (n : Nat) : Hw :=
  let quiet := h.quietCycle n
  let h := h.onPwr fun p => { p with quiet := if quiet then p.quiet + 1 else 0 }
  let holds := h.dwelled && h.policy == 2
  if h.pwr.dwellAt.isSome && !holds then (h.onPwr fun p => { p with dwellAt := none }).setReg Reg.PWR_CMD_STAT 4
  else if h.pwr.dwellAt.isNone && holds && h.inState psDay then h.onPwr fun p => { p with dwellAt := some n }
  else h

/-- Cycle n is committed: its outputs become readable; the last one of a Dusk ends the journal (R80). -/
def commit (h : Hw) (n : Nat) : Hw :=
  (((((h.setReg Reg.FAB_LC_COMMIT (word n)).winCommitted).dwellStep n).mcRelease).releaseReads).endDay

/-! ### Islands (R302, R313, R314) -/

/-- The engines that can own pages. -/
def activeEngines (h : Hw) : List Nat := (List.range 512).filter fun e => h.engineActive e

/-- An active engine's declared load exceeds LOAD_MAX; engineLoad counts 0.1 %. -/
def overloaded (h : Hw) : Bool :=
  h.activeEngines.any fun e => decide (10 * h.fld Reg.FAB_CTRL Fld.FAB_CTRL_LOAD_MAX < h.engineLoad e)

/-- The pages that an island owns or receives. -/
def islandPages (h : Hw) (r : Nat) : List Nat :=
  (h.fab.pages.filter fun x => (owned x.2 || x.2.state == .transit) && x.2.engine / 32 == r ||
    x.2.target.any fun t => t.1 / 32 == r).map (·.1)

/-- The fabric as it would stand with the pages placed away from an island, where every one has a pool frame. -/
def placedAway (h : Hw) (r : Nat) : List Nat → Option Hw
  | [] => some h
  | g :: gs =>
    match h.chooseTarget g fun e => e / 32 == r with
    | some (e, f) => (h.setPage g { h.page g with engine := e, frame := f }).placedAway r gs
    | none => none

/-- No island has changed its power in the last 60 000 cycles, and none has been refused with HELD. -/
def islandsRest (h : Hw) (r : Nat) : Bool :=
  let held := Tabs.get (fun _ => 0) h.fab.heldAt r
  (h.fab.islandAt = 0 || decide (h.fab.islandAt + 60000 ≤ h.lc + 1)) && (held = 0 || decide (held + 60000 ≤ h.lc + 1))

/-- An island may be powered off (R313). -/
def mayPowerOff (h : Hw) (r : Nat) : Bool :=
  h.bit Reg.FAB_ISLAND (16 + r) && h.islandOn r && h.islandsRest r &&
    match h.placedAway r (h.islandPages r) with
    | some y => ((List.range 512).filter fun e => y.engineActive e && e / 32 != r).all fun e =>
        decide (y.engineLoad e ≤ 10 * h.fld Reg.FAB_CTRL Fld.FAB_CTRL_LOAD_MAX)
    | none => false

/-- Nothing stands against a power-off: ISLAND_AUTO, and no rebuild and no audit in progress. -/
def islandAuto (h : Hw) : Bool :=
  h.fabOn && h.bit Reg.FAB_CTRL 0 && h.bit Reg.FAB_CTRL 1 && h.pstate ≠ psDusk && h.fab.audit.isNone &&
    !h.fab.pages.any fun x => x.2.state == .rebuilding

/-- The pages of an island start to migrate away, up to 16 at a time (R303). -/
def evacuate (h : Hw) (r : Nat) : Hw :=
  (h.islandPages r).foldl (fun (h : Hw) g =>
    let p := h.page g
    if p.state = .resident && p.moveTo.isNone && decide (h.migrations < 16) then
      match h.chooseTarget g fun e => e / 32 == r with
      | some t => h.moveOut g t
      | none => h
    else h) h

/-- The empty island's power-off is requested; HELD leaves it powered and empty (R314). -/
def requestOff (h : Hw) (r : Nat) : Hw :=
  let h := { h with fab := { h.fab with evac := none } }.gate .hypervisor r 2
  if h.islandOn r then
    { h.count Reg.FAB_CNT_HELD with fab := { h.fab with heldAt := Tabs.set (fun _ => (0 : Nat)) h.fab.heldAt r (h.lc + 1) } }
  else h

/-- The highest-numbered eligible island is emptied, and then powered off. -/
def islandAutoOff (h : Hw) : Hw :=
  if !h.islandAuto then { h with fab := { h.fab with evac := none } }
  else
    let pick := match h.fab.evac with
      | some r => if h.bit Reg.FAB_ISLAND (16 + r) && h.islandOn r then some r else none
      | none => ((List.range 16).reverse).find? fun r => h.mayPowerOff r
    match pick with
    | none => { h with fab := { h.fab with evac := none } }
    | some r =>
      if (h.islandPages r).isEmpty then h.requestOff r
      else ({ h with fab := { h.fab with evac := some r } }).evacuate r

/-- The manager powers an island on (R314): for a load above LOAD_MAX, for a page without a place, or when ALLOW_OFF is cleared. -/
def islandPowerOn (h : Hw) (r : Nat) : Hw :=
  if h.fabOn && h.bit Reg.FAB_CTRL 0 && !h.islandOn r && !h.islandFailed r &&
      (h.overloaded || h.unplaced || !h.bit Reg.FAB_ISLAND (16 + r)) then
    { h with fab := { h.fab with evac := none } }.gate .hypervisor r 3
  else h

/-! ### Balancing (R420, R421) -/

/-- A committed point of a page for cycle m. -/
def committedPoint (h : Hw) (g m o : Nat) : Word := BitVec.ofInt 40 (h.sourceAt g m o)

/-- The declared cells of a rack. -/
def rackCells (h : Hw) (rack : Nat) : List (Nat × CellCfg) :=
  h.cfg.fab.cells.filterMap fun e => match e.2 with
    | some c => if c.rack = rack then some (e.1, c) else none
    | none => none

/-- Balancing of a cell is inhibited, whatever its surplus (R420). -/
def balInhibit (h : Hw) (m c : Nat) (x : CellCfg) : Bool :=
  let flags := (h.committedPoint c m 0x4C).toNat
  let hot := match h.known m (frameInput (c / 2048) (c % 2048 / 16)) with
    | some (.value v _) => bitN v.toNat 11
    | _ => false
  let warm := match h.known m x.temp with
    | some (.value v st) => bitsOf st 11 10 ≠ 0 || decide (h.balSetting 3 < v.toInt)
    | _ => true
  bitN flags 0 || bitN flags 1 || bitN flags 11 || hot || warm || !h.leads (c / 2048)

/-- A cell's request, before the limit of its node (R420). -/
def balRequest (h : Hw) (m c : Nat) (x : CellCfg) (surplus : Int) : Bool :=
  let was := Tabs.get (fun _ => false) h.crs.balReq c
  if h.balInhibit m c x then false
  else if !was && decide (h.balSetting 1 < surplus) then true
  else if decide (surplus ≤ h.balSetting 2) then false
  else was

/-- The requests of a rack with their surplus. -/
def rackRequests (h : Hw) (m rack : Nat) : List (Nat × Int × Bool) :=
  let cells := h.rackCells rack
  let soc := cells.map fun e => h.sourceAt e.1 m 0x40
  let least := soc.foldl min (soc.headD 0)
  cells.map fun e => let d := h.sourceAt e.1 m 0x40 - least; (e.1, d, h.balRequest m e.1 e.2 d)

/-- Whether a requesting cell stays within its node's limit: the largest surpluses, the lower channel on equal ones. -/
def withinNode (h : Hw) (l : List (Nat × Int × Bool)) (x : Nat × Int × Bool) : Bool :=
  let ahead := l.filter fun y => y.2.2 && y.1 / 16 == x.1 / 16 && (decide (x.2.1 < y.2.1) || (y.2.1 == x.2.1 && decide (y.1 < x.1)))
  x.2.2 && decide ((ahead.length : Int) < h.balSetting 4)

/-- The masks of the racks' nodes go to VNK_BAL. -/
def writeMasks (h : Hw) (l : List (Nat × Bool)) : Hw :=
  let h := h.cutFree
  l.foldl (fun (h : Hw) (x : Nat × Bool) =>
    let a := Reg.VNK_BAL (x.1 / 2048) (x.1 % 2048 / 16)
    if x.2 then h.setBit a (x.1 % 16) else h.clearBit a (x.1 % 16)) h

/-- The last committed cycle at which balancing is decided. -/
def balCycle (h : Hw) : Nat := let t := (h.balSetting 0).toNat; h.lcCommit - h.lcCommit % t

/-- Crest decides balancing on the values of cycle m. -/
def balance (h : Hw) (m : Nat) : Hw :=
  let all := h.cfg.fab.balance.flatMap fun rack => h.rackRequests m rack
  let l := all.map fun x => (x.1, h.withinNode all x)
  let crs := { h.crs with balAt := m + 1, balReq := l.foldl (fun (t : Tab Bool) (x : Nat × Bool) =>
    Tabs.set (fun _ => false) t x.1 x.2) h.crs.balReq }
  { h with crs := crs }.writeMasks l

end Hw

/-! ### Rows -/

/-- SAMPLE_INSTANT (R22). -/
def execSampleInstant (x : SiFacts) (s : State) : Result := .next (s.sampleInstant x)

/-- COMMIT_CYCLE; the summary of the cycle goes out with it where nothing is missing (R299, R725). -/
def execCommitCycle (s : State) : Result :=
  .next (s.onHw fun h => let n := h.commitNext; if h.committable n then (h.commit n).summaries else h)

/-- ISLAND_AUTO_OFF (R313, R314). -/
def execIslandAutoOff (s : State) : Result := .next (s.onHw fun h => h.islandAutoOff)

/-- ISLAND_POWER_ON (R314). -/
def execIslandPowerOn (r : Fin 16) (s : State) : Result := .next (s.onHw fun h => h.islandPowerOn r)

/-- BALANCING_DECISION (R420, R421). -/
def execBalancingDecision (s : State) : Result :=
  .next (s.onHw fun h =>
    let m := h.balCycle
    if h.inState psDay && h.crestOn && h.carriesInputs m && h.crs.balAt ≠ m + 1 && h.lcCommit ≠ 0 then h.balance m else h)

end Sys2Proof.Machine
end

