-- ==== Sys2Proof/Machine/Encoding.lean ====
section
/-! DEFINITION. The words of OL40 instructions (R323, R324): what TINFO receives when one raises ILLEGAL or PRIVILEGE. -/

namespace Sys2Proof.Machine

/-- The fields all formats share: major in [39:34], two registers in [33:29] and [28:24], the rest in [23:0]. -/
def encFields (major : BitVec 6) (rd rs1 : Nat) (rest : BitVec 24) : Word :=
  major ++ (BitVec.ofNat 5 rd ++ (BitVec.ofNat 5 rs1 ++ rest))

/-- OP3 (R323). -/
def encOp3 (major : BitVec 6) (rd rs1 rs2 idx : Nat) (fn : BitVec 8) : Word :=
  encFields major rd rs1 (BitVec.ofNat 5 rs2 ++ (0#8 ++ (BitVec.ofNat 3 idx ++ fn)))

/-- IMM, MEM and BRA (R323). -/
def encImm (major : BitVec 6) (rd rs1 : Nat) (imm : BitVec 24) : Word := encFields major rd rs1 imm

/-- MAC, major 0x02 (R323). -/
def encMac (rd rs1 rs2 acc sh accb : Nat) (fn : BitVec 6) : Word :=
  encFields 0x02 rd rs1 (BitVec.ofNat 5 rs2 ++ (BitVec.ofNat 2 acc ++ (BitVec.ofNat 7 sh ++ (BitVec.ofNat 2 accb ++ (0#2 ++ fn)))))

/-- SYS, major 0x20 (R323). -/
def encSys (rd rs1 cr : Nat) (fn : BitVec 8) : Word :=
  encFields 0x20 rd rs1 (0#5 ++ (BitVec.ofNat 7 cr ++ (0#4 ++ fn)))

/-- PAGE, major 0x28 (R323). -/
def encPage (rd rs1 rs2 tgt : Nat) (fn : BitVec 4) (len : BitVec 12) : Word :=
  encFields 0x28 rd rs1 (BitVec.ofNat 5 rs2 ++ (BitVec.ofNat 3 tgt ++ (fn ++ len)))

end Sys2Proof.Machine
end

