-- ==== Sys2Proof/Machine/Exceptions.lean ====
section
/-! DEFINITION. Taking an exception or an interrupt and returning (R336 to R340, R357, R511). -/

namespace Sys2Proof.Machine

namespace Core

/-- The core's copy of g1 to g31, the accumulators and FLAGS on an entry to L3 from the normal world (R511). -/
def shadowed (c : Core) (t : Nat) (trap3 : Bool) : Core :=
  if t = 3 ∧ c.ns then { c with shadow := some { g := c.g, acc := c.acc, flags := c.flags, byTrap3 := trap3 } } else c

/-- The entry of R338 at target level t: `ret` is the saved pc. -/
def enter (c : Core) (t : Nat) (ret tcode tinfo : Word) (trap3 : Bool) : Core :=
  let old := c.status
  let c := c.shadowed t trap3
  let c := { c with status := statusWord t (if t = 3 then false else if t = 2 then true else c.ns) false }
  let c := c.setCrAt (8 * t + 4) old
  let c := c.setCrAt (8 * t + 1) ret
  let c := c.setCrAt (8 * t + 2) tcode
  let c := c.setCrAt (8 * t + 3) tinfo
  { c with pc := c.crAt (8 * t), idle := false }

/-- The target level of an exception code (R338). -/
def targetLevel (c : Core) (code : Nat) : Nat :=
  if code = 0x0B then 2 else if code = 0x0C then 3 else if code = 0x07 ∨ code = 0x08 then 2
  else if c.level = 0 then 1 else c.level

/-- An exception on a core of the system profile: code and TINFO, and the IPA of a stage-2 fault (R337, R338). -/
def except (c : Core) (code : Nat) (tinfo : Word) (ipa : Option Word) : Core :=
  let t := c.targetLevel code
  let trap := 0x0A ≤ code && code ≤ 0x0C
  let c := c.enter t (if trap then c.pc + 1 else c.pc) (word code) tinfo (code == 0x0C)
  let c := match ipa with
    | some a => c.setCrAt 22 a
    | none => c
  { c with cycles := c.cycles + 1 }

/-- An interrupt taken at its target level (R523). -/
def interrupt (c : Core) (t src : Nat) : Core := c.enter t c.pc (word (2 ^ 39 + src * 2 ^ 8)) 0 false

/-- RETT may restore a STATUS: no level above, a level and world that R318 allows on the core (R339), and a change of world
only from L3 (R510, R511). -/
def rettOk (c : Core) (crest : Bool) (st : Word) : Bool :=
  let l := bitsOf st 1 0
  let ns := bitN st.toNat 2
  decide (l ≤ c.level) && (ns == c.ns || c.level == 3) && (if crest then l ≤ 1 && !ns else if ns then l ≤ 2 else l ≠ 2)

/-- The registers a RETT from L3 into the normal world leaves (R511). -/
def scrub (c : Core) : Core :=
  match c.shadow with
  | some b =>
    if b.byTrap3 then { c with g := Tabs.keep c.g 1 4, acc := [], flags := 0 }
    else { c with g := b.g, acc := b.acc, flags := b.flags }
  | none => { c with g := Tabs.keep c.g 1 4, acc := [], flags := 0 }

/-- RETT at the current level (R339, R511). -/
def rett (c : Core) : Core :=
  let l := c.level
  let st := c.crAt (8 * l + 4)
  let back := c.crAt (8 * l + 1)
  let c := if l = 3 ∧ bitN st.toNat 2 then c.scrub else c
  { c with status := st &&& 0xF, pc := back, cycles := c.cycles + 1, retired := c.retired + 1 }

end Core

/-- A target word of a stream, as a physical address (R354); `none` where the target does not allow it. -/
def Hw.streamTarget (h : Hw) (e : Nat) (t : Task) (tgt w : Nat) : Option Nat :=
  if tgt = 0 then (if 0x100 ≤ w ∧ w < pageSize t.page then some (backing t.page w) else none)
  else if tgt = 1 then (if w < 8192 then some (redoBase e + w) else none)
  else if tgt = 2 then (if w < 256 then some (shadowBase t.page + w) else none)
  else if tgt = 3 then (if w < (h.inst t.fi).dramSize then some ((h.inst t.fi).dramBase + w) else none)
  else none

namespace Hw

/-- One word of a stream (R354). The result is `some a` where the source at DRAM address a is poisoned. -/
def streamWord (h : Hw) (e : Nat) (t : Task) (x : Stream) (j : Nat) : Hw × Option Nat :=
  let g := h.engine e
  match h.streamTarget e t x.tgt (x.target + j) with
  | none => (h, none)
  | some a =>
    if x.write then
      (h.setRam a { data := (Tabs.get blankLocal g.work (x.loc + j)).data, tag := t.tag }, none)
    else
      let r := h.take a
      if r.2.poisoned then (r.1, some a)
      else (r.1.setEngine e { g with work := Tabs.set blankLocal g.work (x.loc + j) { data := r.2.data, tag := t.tag } }, none)

/-- The words of a stream from j on, until a poisoned source. -/
def streamRun (h : Hw) (e : Nat) (t : Task) (x : Stream) : Nat → Nat → Hw × Option Nat
  | 0, _ => (h, none)
  | n + 1, j =>
    match h.streamWord e t x j with
    | (h, some a) => (h, some a)
    | (h, none) => h.streamRun e t x n (j + 1)

/-- The oldest outstanding stream of an engine completes, or meets a poisoned source (R354). -/
def streamNext (h : Hw) (e : Nat) : Hw × Option Nat :=
  let g := h.engine e
  match g.task, g.streams with
  | some t, x :: rest => (h.setEngine e { g with streams := rest }).streamRun e t x x.words 0
  | _, _ => (h, none)

/-- The first n outstanding streams complete in issue order, or up to one that meets a poisoned source (R354). -/
def streamDrain (h : Hw) (e : Nat) : Nat → Hw × Option Nat
  | 0 => (h, none)
  | n + 1 =>
    match h.streamNext e with
    | (h, some a) => (h, some a)
    | (h, none) => h.streamDrain e n

/-- Every outstanding stream completes; what follows a poisoned source is not affected by it (R357, R359). -/
def streamFinish (h : Hw) (e : Nat) : Nat → Hw
  | 0 => h
  | n + 1 => (h.streamNext e).1.streamFinish e n

/-- An exception in an engine abandons the task: the outstanding streams complete, and code and TINFO are reported (R357).
The item of an INSTANCE task fails with 0xF100 + code, recorded in MBX_FI_STAT and MBX_FI_TINFO (R547); of any other task,
the fabric manager handles it (R357). -/
def engineExcept (h : Hw) (e code : Nat) (tinfo : Word) (loc : FaultAt := .other) : Hw :=
  let h := h.streamFinish e (h.engine e).streams.length
  let g := h.engine e
  match g.task with
  | none => h
  | some t =>
    let h := h.setEngine e { g with task := none, streams := [], report := some (code, tinfo), endRd := 0,
                                    core := { g.core with cycles := g.core.cycles + 1 } }
    if t.kind = .inst then
      let f := h.inst t.fi
      let h := h.setInst t.fi { f with fcode := code, ftask := t.page, tinfo := tinfo }
      h.fiTaskEnd t.fi (g.core.cycles - t.start).toNat (0xF100 + code)
    else h.taskFault e t code loc

/-- An exception on a core: its group takes it together, or the engine's task is abandoned (R338, R357, R486). -/
def raise (h : Hw) (c : CoreId) (code : Nat) (tinfo : Word) (ipa : Option Word := none) : Hw :=
  match c with
  | .engine e => h.engineExcept e code tinfo
  | _ => (h.members c).foldl (fun h m => h.setCore m ((h.coreOf m).except code tinfo ipa)) h

/-- An exception of a fetch: on an engine a poisoned word is one of its microcode slot (R357). -/
def fetchFault (h : Hw) (c : CoreId) (code : Nat) (tinfo : Word) (ipa : Option Word) : Hw :=
  match c with
  | .engine e => h.engineExcept e code tinfo (if code = 0x04 then .slot else .other)
  | _ => h.raise c code tinfo ipa

end Hw

/-- An exception raised by an instruction whose word is known: ILLEGAL 1, PRIVILEGE 2 (R337). -/
def State.illegal (s : State) (c : CoreId) (w : Word) : State := s.onHw fun h => h.raise c 0x01 w
def State.privilege (s : State) (c : CoreId) (w : Word) : State := s.onHw fun h => h.raise c 0x02 w

/-- INTERRUPT_TAKE: the core takes the source R523 puts first, at its target level; the source becomes ACTIVE, and an edge
source stops being pending. A source routed to the duty group reaches every member (R486). -/
def execInterruptTake (c : CoreId) (s : State) : Result :=
  .next (
    let h := s.hw
    if !h.bit Reg.IRQ_CTRL 0 || !h.corePowered c || !h.coreClocked c || (h.coreOf c).inReset || (h.coreOf c).halted then s
    else match h.takeNext c with
      | none => s
      | some i =>
        let t := Hw.ownerLevel (h.srcOwner i)
        let takers := if h.srcTarget i = 0 then h.members c else [c]
        let h := takers.foldl (fun h m => h.setCore m ((h.coreOf m).interrupt t i)) h
        let h := h.setBit (Reg.IRQ_SRC i) 2
        let h := if 0x200 ≤ i then h.clearBit (Reg.IRQ_SRC i) 1 else h
        ({ s with hw := h } : State).afterInstr c)

/-- SECURE_ENTRY_OVERRUN: a core has been in the secure world longer than 50 µs since its entry (R512). -/
def execSecureEntryOverrun (k : Fin 8) (s : State) : Result :=
  .next (s.onHw fun h =>
    if h.appOn k && !(h.appCore k).inReset && !(h.appCore k).ns && (h.appCore k).shadow.isSome then h.count Reg.WLD_CNT_SECLONG
    else h)

end Sys2Proof.Machine
end

