-- ==== Sys2Proof/Machine/Translate.lean ====
section
/-! DEFINITION. Address translation and the checks on a fetch or data access of a system core (R341 to R346, R350, R543). -/

namespace Sys2Proof.Machine

/-- What an access wants (R344). -/
inductive Want where
  | fetch | load | store | atomic
  deriving DecidableEq, Repr

/-- The access writes. -/
def Want.writes : Want → Bool
  | .store => true
  | .atomic => true
  | _ => false

/-- The outcome of a translation: a physical address and whether it is device memory, or an exception (R337). -/
inductive Xlat where
  | ok (pa : Nat) (device : Bool)
  | fault (code : Nat) (tinfo : Word) (ipa : Option Word)
  deriving DecidableEq, Repr

/-- What a descriptor is at a level (R342). -/
inductive Desc where
  | bad
  | table (next : Nat)
  /-- An output page and descriptor bits [11:2]. -/
  | leaf (page attr : Nat)
  deriving DecidableEq, Repr

/-- The index of a virtual page at a level: seven bits a level (R341). -/
def pageIndex (vpage level : Nat) : Nat := vpage / 2 ^ (7 * (3 - level)) % 128

/-- A descriptor read at a level (R342): fields that must be 0, a reserved MT and a block at the wrong level are faults. -/
def descOf (d : Word) (level vpage : Nat) (stage2 : Bool) : Desc :=
  let attr := bitsOf d 11 2
  let attrOk := !bitN d.toNat 6 && bitsOf d 11 10 = 0 && bitsOf d 8 7 ≠ 3 && (!stage2 || (!bitN d.toNat 5 && !bitN d.toNat 9))
  if !bitN d.toNat 0 then .bad
  else if bitN d.toNat 1 then
    (if level < 3 then (if bitsOf d 6 2 = 0 then .table (bitsOf d 39 7 * 128) else .bad)
     else if attrOk then .leaf (bitsOf d 39 12) attr else .bad)
  else if level = 1 ∨ level = 2 then
    (let low := 2 ^ (7 * (3 - level))
     if bitsOf d 39 12 % low = 0 ∧ attrOk then .leaf (bitsOf d 39 12 + vpage % low) attr else .bad)
  else .bad

/-- What a walk found. -/
inductive Walk where
  | leaf (page attr : Nat)
  | bad
  | fault (code : Nat) (tinfo : Word) (ipa : Option Word)
  deriving DecidableEq, Repr

namespace State

/-- A physical read by a core's walk: an ACCESS_FAULT where the firewall or the map denies it, a MEM_ERROR where the
descriptor is poisoned (R345, R505, R506). -/
def walkRead (s : State) (c : CoreId) (pa : Nat) : State × Except (Nat × Word) Word :=
  if !s.hw.memAllows (s.hw.coreWho c) false pa then
    (s.onHw fun h => h.deny (s.hw.coreWho c) false pa, .error (0x03, word pa))
  else match s.memLoad pa with
    | (s, .ok w) => (s, .ok w)
    | (s, .poisoned) => (s, .error (0x04, word pa))
    | (s, .error) => (s, .error (0x03, word pa))

/-- A walk of at most `n` levels, from a level on: `find` turns a table address into a physical one (R341, R342). -/
def walkFrom (s : State) (c : CoreId) (find : State → Nat → State × Except (Nat × Word × Option Word) Nat) (stage2 : Bool)
    (vpage : Nat) : Nat → Nat → Nat → State × Walk
  | 0, _, _ => (s, .bad)
  | n + 1, level, table =>
    match find s (table + pageIndex vpage level) with
    | (s, .error (code, t, ipa)) => (s, .fault code t ipa)
    | (s, .ok pa) =>
      match s.walkRead c pa with
      | (s, .error (code, t)) => (s, .fault code t none)
      | (s, .ok d) =>
        match descOf d level vpage stage2 with
        | .bad => (s, .bad)
        | .leaf p a => (s, .leaf p a)
        | .table next => s.walkFrom c find stage2 vpage n (level + 1) next

/-- The tags of a lookup by a core (R345). -/
structure Tags where
  core : Nat
  stage2 : Bool
  regime : Nat
  ns : Bool
  asid : Nat
  vmid : Nat

/-- A cached translation matches a lookup: global entries match every ASID (R345). -/
def hit (t : Tags) (vpage : Nat) (x : CachedXlat) : Bool :=
  x.core == t.core && x.stage2 == t.stage2 && x.regime == t.regime && x.ns == t.ns && x.vmid == t.vmid && x.vpage == vpage &&
    (bitN x.attr 7 || x.asid == t.asid)

/-- A translation of one stage: the cached leaf, or a walk whose leaf is then cached (R335, R345). -/
def stage (s : State) (c : CoreId) (t : Tags) (ttb vpage : Nat)
    (find : State → Nat → State × Except (Nat × Word × Option Word) Nat) : State × Walk :=
  match s.hw.xlat.find? (hit t vpage) with
  | some x => (s, .leaf x.out x.attr)
  | none =>
    match s.walkFrom c find t.stage2 vpage 4 0 ttb with
    | (s, .leaf p a) =>
      (s.onHw fun h => { h with xlat := { core := t.core, stage2 := t.stage2, regime := t.regime, ns := t.ns, asid := t.asid,
                                          vmid := t.vmid, vpage := vpage, out := p, attr := a } :: h.xlat }, .leaf p a)
    | r => r

/-- Stage 2 of an IPA in the normal world: the physical page and attributes, or the fault codes of R337. A walk's own
errors are those of its reads. -/
def stage2Of (s : State) (c : CoreId) (va : Word) (ipa : Nat) : State × Except (Nat × Word × Option Word) (Nat × Nat) :=
  let x := s.hw.coreOf c
  let t : Tags := { core := (s.hw.lead c).slot, stage2 := true, regime := 1, ns := true, asid := 0, vmid := bitsOf (x.crAt 45) 3 0 }
  match s.stage c t (bitsOf (x.crAt 44) 39 7 * 128) (ipa / 4096) (fun s a => (s, if a < 2 ^ 34 then .ok a else .error (0x07, va, some (word ipa)))) with
  | (s, .fault code ti i) => (s, .error (code, ti, i))
  | (s, .bad) => (s, .error (0x07, va, some (word ipa)))
  | (s, .leaf p a) => (s, if p < 2 ^ 22 then .ok (p, a) else .error (0x07, va, some (word ipa)))

/-- A stage's leaf allows an access (R344): bit 0 R, 1 W, 2 X of the attributes. -/
def leafAllows (a : Nat) (w : Want) : Bool :=
  match w with
  | .fetch => bitN a 2
  | .load => bitN a 0
  | .store => bitN a 0 && bitN a 1
  | .atomic => bitN a 0 && bitN a 1

/-- The first stage's leaf allows an access from a level: U for L0, and no fetch at L1 or above from a leaf with U (R344). -/
def stage1Allows (a level : Nat) (w : Want) : Bool :=
  leafAllows a w && (level ≠ 0 || bitN a 3) && !(w = .fetch && level ≠ 0 && bitN a 3)

/-- The memory type of a leaf is device (R342). -/
def leafDevice (a : Nat) : Bool := a / 32 % 4 == 2

/-- The physical address lies in a peripheral window, accessed as device whatever MT says (R344). -/
def isPeripheral (pa : Nat) : Bool := regionOf pa == .peripheral

/-- The translation of an access of a system core (R341 to R346). -/
def translate (s : State) (c : CoreId) (va : Word) (w : Want) : State × Xlat :=
  let x := s.hw.coreOf c
  let lvl := x.level
  let reg := if lvl ≤ 1 then 1 else lvl
  let ttb := if reg = 1 then 32 else if reg = 2 then 40 else 48
  let en := bitN (x.crAt (if reg = 1 then 34 else ttb + 2)).toNat 0
  let two := reg = 1 && c.isApp && x.ns && bitN (x.crAt 46).toNat 0
  let done (s : State) (pa : Nat) (dev : Bool) : State × Xlat :=
    if w = .fetch ∧ (dev ∨ isPeripheral pa) then (s, .fault 0x06 va none) else (s, .ok pa (dev || isPeripheral pa))
  let last (s : State) (ipa : Nat) (dev : Bool) : State × Xlat :=
    if two then
      match s.stage2Of c va ipa with
      | (s, .error (code, ti, i)) => (s, .fault code ti i)
      | (s, .ok (p, a)) =>
        if !leafAllows a w || (w = .fetch && leafDevice a) then (s, .fault 0x08 va (some (word ipa)))
        else done s (p * 4096 + ipa % 4096) (dev || leafDevice a)
    else done s ipa dev
  if !en then
    (if !two && va.toNat ≥ 2 ^ 34 then (s, .fault 0x03 va none) else last s va.toNat false)
  else
    let t : Tags := { core := (s.hw.lead c).slot, stage2 := false, regime := reg, ns := x.ns,
                      asid := if reg = 1 then bitsOf (x.crAt 33) 15 0 else 0,
                      vmid := if reg = 1 && x.ns then bitsOf (x.crAt 45) 3 0 else 0 }
    let find (s : State) (a : Nat) : State × Except (Nat × Word × Option Word) Nat :=
      if two then
        match s.stage2Of c va a with
        | (s, .error e) => (s, .error e)
        | (s, .ok (p, at2)) =>
          if leafAllows at2 .load then (s, .ok (p * 4096 + a % 4096)) else (s, .error (0x08, va, some (word a)))
      else (s, if a < 2 ^ 34 then .ok a else .error (0x05, va, none))
    match s.stage c t (bitsOf (x.crAt ttb) 39 7 * 128) (va.toNat / 4096) find with
    | (s, .fault code ti i) => (s, .fault code ti i)
    | (s, .bad) => (s, .fault 0x05 va none)
    | (s, .leaf p a) =>
      let out := p * 4096 + va.toNat % 4096
      if !stage1Allows a lvl w || (w = .fetch && leafDevice a) then (s, .fault 0x06 va none)
      else if !two && 2 ^ 34 ≤ out then (s, .fault 0x05 va none)
      else last s out (leafDevice a)

/-- The fetch of the instruction at pc of a system core: what raises on it, if anything (R336 item 1). -/
def fetchSystem (s : State) (c : CoreId) : State × Option (Nat × Word × Option Word) :=
  let pc := (s.hw.coreOf c).pc
  match s.translate c pc .fetch with
  | (s, .fault code ti i) => (s, some (code, ti, i))
  | (s, .ok pa _) =>
    let who := s.hw.coreWho c
    if !s.hw.memAllows who false pa then (s.onHw fun h => h.deny who false pa, some (0x03, pc, none))
    else match s.memLoad pa with
      | (s, .ok _) => (s, none)
      | (s, .poisoned) => (s, some (0x04, pc, none))
      | (s, .error) => (s, some (0x03, pc, none))

/-- The fetch of an engine: its microcode slot in force, or its instance's kernel (R350, R543). -/
def fetchEngine (s : State) (e : Nat) : State × Option (Nat × Word × Option Word) :=
  let g := s.hw.engine e
  let pc := g.core.pc
  match g.task with
  | none => (s, none)
  | some t =>
    let f := s.hw.inst t.fi
    let w : Option Nat :=
      if pc.toNat < 0x4000 then some (ridgeWord (e / 32) (0x68000 + 0x4000 * t.slot + pc.toNat))
      else if t.kind = .inst ∧ pc.toNat - 0x4000 < f.code then some (ridgeWord (e / 32) (0x78000 + f.rgOfs + (pc.toNat - 0x4000)))
      else none
    match w with
    | none => (s, some (0x03, pc, none))
    | some a =>
      let r := s.hw.take a
      ({ s with hw := r.1 }, if r.2.poisoned then some (0x04, pc, none) else none)

/-- The fetch of the instruction at a core's pc: the state after it, and what raises on it, if anything (R336 item 1). -/
def fetch (s : State) (c : CoreId) : State × Option (Nat × Word × Option Word) :=
  match c with
  | .engine e => s.fetchEngine e
  | _ => s.fetchSystem c

/-- The instruction frame: nothing on a core that does not run; an exception of the fetch first (R336); then the
instruction's own effect, and what follows it. -/
def instr (s : State) (c : CoreId) (body : State → State) : State :=
  if !s.hw.running c then s
  else match s.fetch c with
    | (s, some (code, ti, i)) => (s.onHw fun h => h.fetchFault c code ti i).afterInstr c
    | (s, none) => (body s).afterInstr c

/-- An instruction that only computes on its core's registers. -/
def compute (s : State) (c : CoreId) (f : Core → Ret) : Result :=
  .next (s.instr c fun s => s.onHw fun h => h.retireAll c f)

/-- An instruction that computes, and raises ILLEGAL when a field is out of its range (R321). -/
def computeIf (s : State) (c : CoreId) (ok : Bool) (w : Word) (f : Core → Ret) : Result :=
  .next (s.instr c fun s => if ok then s.onHw fun h => h.retireAll c f else s.illegal c w)

end State

end Sys2Proof.Machine
end

