-- ==== Sys2Proof/Machine/Ol40Branch.lean ====
section
/-! DEFINITION. The branches (R333). -/

namespace Sys2Proof.Machine

/-- The core goes to a target instead of the next word, and retires the branch (R333). -/
def Core.jump (k : Core) (target : Word) : Ret := { core := { k with pc := target - 1 } }

/-- A conditional branch: to pc + sx(imm24) where the condition holds (R333). -/
def Core.branch (k : Core) (taken : Bool) (imm : BitVec 24) : Ret := if taken then k.jump (k.pc + sx imm) else k.quiet

/-- JEQ: branches if rd = rs1 (R333). -/
def execJeq (c : CoreId) (rd rs1 : GReg) (imm : BitVec 24) (s : State) : Result :=
  s.compute c fun k => k.branch (k.gpr rd == k.gpr rs1) imm

/-- JNE: branches if rd ≠ rs1 (R333). -/
def execJne (c : CoreId) (rd rs1 : GReg) (imm : BitVec 24) (s : State) : Result :=
  s.compute c fun k => k.branch (k.gpr rd != k.gpr rs1) imm

/-- JLT: branches if rd < rs1 signed (R333). -/
def execJlt (c : CoreId) (rd rs1 : GReg) (imm : BitVec 24) (s : State) : Result :=
  s.compute c fun k => k.branch ((k.gpr rd).slt (k.gpr rs1)) imm

/-- JGE: branches if rd ≥ rs1 signed (R333). -/
def execJge (c : CoreId) (rd rs1 : GReg) (imm : BitVec 24) (s : State) : Result :=
  s.compute c fun k => k.branch (!(k.gpr rd).slt (k.gpr rs1)) imm

/-- JLTU: branches if rd < rs1 unsigned (R333). -/
def execJltu (c : CoreId) (rd rs1 : GReg) (imm : BitVec 24) (s : State) : Result :=
  s.compute c fun k => k.branch ((k.gpr rd).ult (k.gpr rs1)) imm

/-- JGEU: branches if rd ≥ rs1 unsigned (R333). -/
def execJgeu (c : CoreId) (rd rs1 : GReg) (imm : BitVec 24) (s : State) : Result :=
  s.compute c fun k => k.branch (!(k.gpr rd).ult (k.gpr rs1)) imm

/-- A call: rd := pc + 1, and the core goes to the target (R333). -/
def Core.callTo (k : Core) (rd : GReg) (target : Word) : Ret :=
  let r := k.ret rd (k.pc + 1)
  { r with core := { r.core with pc := target - 1 } }

/-- CALL: to pc + sx(imm24) (R333). -/
def execCall (c : CoreId) (rd : GReg) (imm : BitVec 24) (s : State) : Result :=
  s.compute c fun k => k.callTo rd (k.pc + sx imm)

/-- CALLR: to rs1 + sx(imm24), read before rd is written (R333). -/
def execCallr (c : CoreId) (rd rs1 : GReg) (imm : BitVec 24) (s : State) : Result :=
  s.compute c fun k => k.callTo rd (k.gpr rs1 + sx imm)

end Sys2Proof.Machine
end

