-- ==== Sys2Proof/Machine/Ol40Sys.lean ====
section
/-! DEFINITION. The system instructions and control registers (R334, R335, R349, R485, R525). -/

namespace Sys2Proof.Machine

/-- What an instruction may do with a control register. -/
inductive CrUse where
  | ok | illegal | privilege
  deriving DecidableEq, Repr

/-- The lowest level that reads a control register of the system profile, the lowest that writes it (`none`: read-only), or
`none` where the core has no such register (R335, R525). -/
def crLevels (app : Bool) (n : Nat) : Option (Nat × Option Nat) :=
  if n = 0 ∨ n = 1 ∨ n = 4 ∨ n = 5 then some (0, none)
  else if n = 2 then some (0, some 1)
  else if n = 3 then some (0, some 0)
  else if (8 ≤ n ∧ n ≤ 13) ∨ (32 ≤ n ∧ n ≤ 34) ∨ n = 56 ∨ n = 59 then some (1, some 1)
  else if !app then none
  else if (16 ≤ n ∧ n ≤ 22) ∨ n = 40 ∨ n = 42 ∨ (44 ≤ n ∧ n ≤ 46) ∨ n = 57 then some (2, some 2)
  else if (24 ≤ n ∧ n ≤ 29) ∨ n = 48 ∨ n = 50 ∨ n = 58 then some (3, some 3)
  else if n = 60 then some (2, none)
  else none

/-- A task is a page task, in which R349 closes some registers. -/
def Task.page? (t : Task) : Bool := t.kind = .step || t.kind = .audit

/-- Reading or writing a control register (R319, R321, R334, R349). -/
def Hw.crUse (h : Hw) (c : CoreId) (n : Nat) (write : Bool) : CrUse :=
  match c with
  | .engine e =>
    let pg := match (h.engine e).task with
      | some t => t.page?
      | none => false
    if n = 3 then .ok
    else if write then .illegal
    else if n = 0 ∨ n = 4 ∨ n = 5 ∨ n = 100 then (if pg then .illegal else .ok)
    else if n = 1 ∨ (96 ≤ n ∧ n ≤ 101) then .ok
    else .illegal
  | _ =>
    match crLevels c.isApp n with
    | none => .illegal
    | some (rd, wr) =>
      if write then
        match wr with
        | none => .illegal
        | some l => if (h.coreOf c).level < l then .privilege else .ok
      else if (h.coreOf c).level < rd then .privilege else .ok

/-- CORE_ID of a core: the lowest index of its group (R335, R485). -/
def Hw.coreIdWord (h : Hw) (c : CoreId) : Word :=
  match h.lead c with
  | .app k => word (0x01 * 2 ^ 32 + k)
  | .crest k => word (0x02 * 2 ^ 32 + k)
  | .engine e => word (0x03 * 2 ^ 32 + e)

/-- A control register of an engine (R335, R349). -/
def Engine.crRead (g : Engine) (n : Nat) : Word :=
  if n = 1 then 0x100
  else if n = 3 then g.core.flags
  else if n = 4 then g.core.cycles
  else if n = 5 then g.core.retired
  else match g.task with
    | none => 0
    | some t =>
      if n = 96 then word t.lc
      else if n = 97 then t.word
      else if n = 98 then word t.wbound
      else if n = 99 then g.sig
      else if n = 100 then word g.undo.length
      else if n = 101 then word t.slot
      else 0

/-- The value a core reads from a control register (R335, R485, R525). -/
def Hw.crRead (h : Hw) (c : CoreId) (n : Nat) : Word :=
  let x := h.coreOf c
  if n = 0 then h.coreIdWord c
  else match c with
    | .engine e => (h.engine e).crRead n
    | _ =>
      if n = 1 then 0x101
      else if n = 2 then x.status
      else if n = 3 then x.flags
      else if n = 4 then (h.coreOf (h.lead c)).cycles
      else if n = 5 then (h.coreOf (h.lead c)).retired
      else if n = 59 then 0
      else if n = 60 then
        match c with
        | .app k => word (h.vpend k)
        | _ => 0
      else x.crAt n

/-- The bits of a stored control register that hold a value (R335, R525). -/
def crMask (n : Nat) : Word :=
  if n = 32 ∨ n = 40 ∨ n = 44 ∨ n = 48 then 0xFFFFFFFF80
  else if n = 34 ∨ n = 42 ∨ n = 46 ∨ n = 50 then 1
  else if n = 33 then 0xFFFF
  else if n = 45 then 0xF
  else if 56 ≤ n ∧ n ≤ 58 then 0xFF
  else if n = 10 ∨ n = 18 ∨ n = 26 then 0x80FFFFFFFF
  else BitVec.allOnes 40

/-- A core with a control register written; IEOI stores nothing (R335). -/
def Core.crWrite (k : Core) (n : Nat) (v : Word) : Core :=
  if n = 2 then { k with status := (k.status &&& ~~~8) ||| (v &&& 8) }
  else if n = 3 then { k with flags := v &&& 0x1F }
  else if n = 59 then k
  else k.setCrAt n (v &&& crMask n)

/-- CRXW, CRSB and CRCB: the new value from the old one and rs1; rd takes the old one (R334). A write of IEOI ends a source,
once for a group (R486, R524). -/
def State.crExchange (s : State) (c : CoreId) (rd rs1 : GReg) (n : Nat) (w : Word) (f : Word → Word → Word) : Result :=
  .next (s.instr c fun s =>
    match s.hw.crUse c n true with
    | .illegal => s.illegal c w
    | .privilege => s.privilege c w
    | .ok =>
      s.onHw fun h =>
        let who := h.coreWho c
        let src := bitsOf (f 0 ((h.coreOf c).gpr rs1)) 9 0
        let h := if n = 59 then h.endOf who src else h
        (h.members c).foldl (fun h m =>
          let old := s.hw.crRead m n
          h.retireOn m fun k => (k.crWrite n (f old (k.gpr rs1))).ret rd old) h)

/-- CRRD: rd := cr[CR] (R334). -/
def execCrrd (c : CoreId) (rd : GReg) (cr : Fin 128) (s : State) : Result :=
  .next (s.instr c fun s =>
    match s.hw.crUse c cr false with
    | .illegal => s.illegal c (encSys rd 0 cr 0x00)
    | .privilege => s.privilege c (encSys rd 0 cr 0x00)
    | .ok => s.onHw fun h => (h.members c).foldl (fun h m => h.retireOn m fun k => k.ret rd (s.hw.crRead m cr)) h)

/-- CRXW: cr[CR] := rs1 (R334). -/
def execCrxw (c : CoreId) (rd rs1 : GReg) (cr : Fin 128) (s : State) : Result :=
  s.crExchange c rd rs1 cr (encSys rd rs1 cr 0x01) fun _ a => a

/-- CRSB: cr[CR] := cr[CR] or rs1 (R334). -/
def execCrsb (c : CoreId) (rd rs1 : GReg) (cr : Fin 128) (s : State) : Result :=
  s.crExchange c rd rs1 cr (encSys rd rs1 cr 0x02) fun old a => old ||| a

/-- CRCB: cr[CR] := cr[CR] and not rs1 (R334). -/
def execCrcb (c : CoreId) (rd rs1 : GReg) (cr : Fin 128) (s : State) : Result :=
  s.crExchange c rd rs1 cr (encSys rd rs1 cr 0x03) fun old a => old &&& ~~~a

/-- A system instruction with a lowest level: ILLEGAL where the core has none, PRIVILEGE below the level (R319, R334). -/
def State.sysInstr (s : State) (c : CoreId) (legal : Core → Bool) (lvl : Nat) (w : Word) (body : State → State) : Result :=
  .next (s.instr c fun s =>
    if c.isEngine || !legal (s.hw.coreOf c) then s.illegal c w
    else if (s.hw.coreOf c).level < lvl then s.privilege c w
    else body s)

/-- An instruction whose only effect on its core is to retire. -/
def State.retireQuiet (s : State) (c : CoreId) : State := s.onHw fun h => h.retireAll c Core.quiet

/-- TRAP1: exception TRAP1 (R334, R338). -/
def execTrap1 (c : CoreId) (s : State) : Result :=
  s.sysInstr c (fun _ => true) 0 (encSys 0 0 0 0x08) fun s => s.onHw fun h => h.raise c 0x0A 0

/-- TRAP2: exception TRAP2; ILLEGAL in the secure world and on Crest cores (R334, R338). -/
def execTrap2 (c : CoreId) (s : State) : Result :=
  s.sysInstr c (fun k => c.isApp && k.ns) 1 (encSys 0 0 0 0x09) fun s => s.onHw fun h => h.raise c 0x0B 0

/-- TRAP3: exception TRAP3; ILLEGAL on Crest cores (R334, R338, R510). -/
def execTrap3 (c : CoreId) (s : State) : Result :=
  s.sysInstr c (fun _ => c.isApp) 1 (encSys 0 0 0 0x0A) fun s => s.onHw fun h => h.raise c 0x0C 0

/-- RETT: the return of R339; ILLEGAL where PSTAT names a level or world it may not restore. -/
def execRett (c : CoreId) (s : State) : Result :=
  s.sysInstr c (fun k => k.level = 0 || k.rettOk c.isCrest (k.crAt (8 * k.level + 4))) 1 (encSys 0 0 0 0x0B) fun s =>
    s.onHw fun h => (h.members c).foldl (fun h m => h.setCore m (h.coreOf m).rett) h

/-- IDLE: waits until an interrupt is pending; no wait where one already is (R334, R359). -/
def execIdle (c : CoreId) (s : State) : Result :=
  s.sysInstr c (fun _ => true) 1 (encSys 0 0 0 0x0C) fun s =>
    s.onHw fun h =>
      let w := !h.wakes c
      h.retireAll c fun k => { core := { k with idle := w } }

/-- DSTOP: halts the group into the debug unit with invasive debug enabled, else the exception DSTOP with TINFO pc (R334,
R337, R498). -/
def execDstop (c : CoreId) (s : State) : Result :=
  .next (s.instr c fun s =>
    if s.invasive c then s.onHw fun h => h.setHalted c true
    else s.onHw fun h => h.raise c 0x09 (h.coreOf c).pc)

/-- ORDER: on a machine that runs one access at a time, earlier accesses are visible already (R332, R334). -/
def execOrder (c : CoreId) (s : State) : Result := .next (s.instr c fun s => s.retireQuiet c)

/-- ORDER.X: fetches see every earlier store already; not in the engine profile (R334). -/
def execOrderX (c : CoreId) (s : State) : Result :=
  s.sysInstr c (fun _ => true) 0 (encSys 0 0 0 0x11) fun s => s.retireQuiet c

/-- Drops cached translations of the issuing cluster, then retires (R334, R345). -/
def State.xflDrop (s : State) (c : CoreId) (p : CachedXlat → Bool) : State :=
  (s.onHw fun h => { h with xlat := h.xlat.filter fun x => !((decide (x.core < 8) == c.isCrest) && p x) }).retireQuiet c

/-- A cached stage-1 translation belongs to the core's current regime (R343, R345). -/
def Core.regimeHit (k : Core) (x : CachedXlat) : Bool :=
  !x.stage2 && x.regime == (if k.level ≤ 1 then 1 else k.level) && x.ns == k.ns &&
    (!(k.level ≤ 1 && k.ns) || x.vmid == bitsOf (k.crAt 45) 3 0)

/-- XFL.VA: stage-1 translations of the page of rs1 for the current ASID (R334). -/
def execXflVa (c : CoreId) (rs1 : GReg) (s : State) : Result :=
  s.sysInstr c (fun _ => true) 1 (encSys 0 rs1 0 0x18) fun s =>
    let k := s.hw.coreOf c
    let asid := if k.level ≤ 1 then bitsOf (k.crAt 33) 15 0 else 0
    s.xflDrop c fun x => k.regimeHit x && x.vpage == (k.gpr rs1).toNat / 4096 && (bitN x.attr 7 || x.asid == asid)

/-- XFL.AS: stage-1 translations tagged with ASID rs1[15:0] (R334). -/
def execXflAs (c : CoreId) (rs1 : GReg) (s : State) : Result :=
  s.sysInstr c (fun _ => true) 1 (encSys 0 rs1 0 0x19) fun s =>
    let k := s.hw.coreOf c
    s.xflDrop c fun x => !x.stage2 && x.regime == 1 && !bitN x.attr 7 && x.asid == bitsOf (k.gpr rs1) 15 0

/-- XFL.ALL: every translation of the current regime; at L2 every one of the cluster (R334, R345). -/
def execXflAll (c : CoreId) (s : State) : Result :=
  s.sysInstr c (fun _ => true) 1 (encSys 0 0 0 0x1A) fun s =>
    let k := s.hw.coreOf c
    s.xflDrop c fun x => k.level == 2 || k.regimeHit x

/-- XFL.IPA: stage-2 translations of the page of IPA rs1 (R334). -/
def execXflIpa (c : CoreId) (rs1 : GReg) (s : State) : Result :=
  s.sysInstr c (fun _ => true) 2 (encSys 0 rs1 0 0x1B) fun s =>
    let k := s.hw.coreOf c
    s.xflDrop c fun x => x.stage2 && x.vpage == (k.gpr rs1).toNat / 4096

/-- XFL.VM: translations tagged with VMID rs1[3:0] (R334). -/
def execXflVm (c : CoreId) (rs1 : GReg) (s : State) : Result :=
  s.sysInstr c (fun _ => true) 2 (encSys 0 rs1 0 0x1C) fun s =>
    let k := s.hw.coreOf c
    s.xflDrop c fun x => x.ns && x.regime == 1 && x.vmid == bitsOf (k.gpr rs1) 3 0

end Sys2Proof.Machine
end

