-- ==== Sys2Proof/Machine/Ol40Engine.lean ====
section
/-! DEFINITION. The engine profile: frames, the undo log, streams, tasks and the signature (R348 to R357). -/

namespace Sys2Proof.Machine

/-- An engine instruction's outcome. -/
inductive EngRes where
  | done (h : Hw)
  | except (code : Nat) (tinfo : Word)

/-- An engine instruction in a task: ILLEGAL on a core of the system profile (R319); else its body (R353). -/
def State.engInstr (s : State) (c : CoreId) (w : Word) (body : Hw → Nat → Task → EngRes) : Result :=
  .next (s.instr c fun s =>
    match c with
    | .engine e =>
      match (s.hw.engine e).task with
      | none => s
      | some t =>
        match body s.hw e t with
        | .done h => { s with hw := h }
        | .except code ti => s.onHw fun h => h.raise c code ti
    | _ => s.illegal c w)

/-- The offset of a frame point: u(rs1) + sx(imm24) modulo 2^40 (R351). -/
def Core.frameOfs (k : Core) (rs1 : GReg) (imm : BitVec 24) : Nat := (k.gpr rs1 + sx imm).toNat

/-- The container of a point of a task's frame (R283). -/
def frameWord (e : Nat) (t : Task) (o : Nat) : Nat := frameAddr e t.frame o

/-- An engine retires an instruction with an effect on its core. -/
def Hw.engRetire (h : Hw) (e : Nat) (f : Core → Core) : Hw := h.setEngine e { h.engine e with core := (f (h.engine e).core).tick }

/-- LDP: rd := point o of FRAME, in STEP and AUDIT tasks (R351). -/
def execLdp (c : CoreId) (rd rs1 : GReg) (imm : BitVec 24) (flaw : Flaw) (s : State) : Result :=
  s.engInstr c (encImm 0x13 rd rs1 imm) fun h e t =>
    let k := (h.engine e).core
    let o := k.frameOfs rs1 imm
    if !t.page? then .except 0x01 (encImm 0x13 rd rs1 imm)
    else if 0x100 ≤ o then .except 0x03 (word o)
    else
      let a := frameWord e t o
      let h := h.meetFlaw a flaw
      if (h.ram a).poisoned then
        -- the flaw's record stands: it is the controller's, not the instruction's
        .done (h.engineExcept e 0x04 (word o) .frame)
      else .done (h.engRetire e fun k => k.setGpr rd (h.ram a).data)

/-- The undo entry of a speculative write (R281, R352). -/
def Hw.undoOf (h : Hw) (e : Nat) (t : Task) (o : Nat) : Undo :=
  { boundary := false, frame := t.frame, ofs := o, tag := (h.ram (frameWord e t o)).tag, word := (h.ram (frameWord e t o)).data }

/-- STP: point o of FRAME := rd, with its undo entry in a speculative STEP; folded into SIG (R351, R352, R356). -/
def execStp (c : CoreId) (rd rs1 : GReg) (imm : BitVec 24) (s : State) : Result :=
  s.engInstr c (encImm 0x14 rd rs1 imm) fun h e t =>
    let w := encImm 0x14 rd rs1 imm
    let k := (h.engine e).core
    let o := k.frameOfs rs1 imm
    let spec := t.kind = .step && t.spec
    if !t.page? || (spec && !t.ckpt) then .except 0x01 w
    else if 0x100 ≤ o then .except 0x03 (word o)
    else if spec && t.wbound == 0 then .except 0x0D (word o)
    else
      let h := if spec then h.eccRead (frameWord e t o) else h
      let g := h.engine e
      let g := if spec then { g with undo := g.undo ++ [h.undoOf e t o], task := some { t with wbound := t.wbound - 1 } } else g
      let h := h.setEngine e { g with sig := misrFold (misrFold g.sig (word o)) (k.gpr rd) }
      let h := h.setRam (frameWord e t o) { data := k.gpr rd, tag := t.tag, poisoned := false }
      .done (h.engRetire e id)

/-- LDTG: rd := version tag of point o of FRAME, in SELFTEST tasks (R351). -/
def execLdtg (c : CoreId) (rd rs1 : GReg) (imm : BitVec 24) (flaw : Flaw) (s : State) : Result :=
  s.engInstr c (encImm 0x12 rd rs1 imm) fun h e t =>
    let k := (h.engine e).core
    let o := k.frameOfs rs1 imm
    if t.kind ≠ .selftest then .except 0x01 (encImm 0x12 rd rs1 imm)
    else if 0x100 ≤ o then .except 0x03 (word o)
    else
      let a := frameWord e t o
      let h := h.meetFlaw a flaw
      if (h.ram a).poisoned then .done (h.engineExcept e 0x04 (word o) .frame)
      else .done (h.engRetire e fun k => k.setGpr rd ((h.ram a).tag.setWidth 40))

/-- A stream request's outcome before it starts: ILLEGAL, ACCESS_FAULT at an address, or admitted (R354). -/
def Hw.streamOk (h : Hw) (t : Task) (write : Bool) (tgt loc target words : Nat) : Option (Nat × Nat) :=
  let cold := t.kind = .step && t.cold
  if 4 ≤ tgt ∨ (!write ∧ (tgt = 1 ∨ tgt = 2)) then some (1, 0)
  else if 0x800 < loc + words then some (3, loc)
  else
    let ok := if tgt = 0 then cold && decide (0x100 ≤ target) && decide (target + words ≤ pageSize t.page)
      else if tgt = 1 then cold && decide (target + words ≤ 8192)
      else if tgt = 2 then cold && decide (target + words ≤ 256)
      else t.kind = .inst && decide (target + words ≤ (h.inst t.fi).dramSize)
    if ok then none else some (3, target)

/-- A stream is issued and stays outstanding (R354). -/
def State.stream (s : State) (c : CoreId) (write : Bool) (rs1 rs2 : GReg) (tgt : Nat) (len : BitVec 12) (w : Word) : Result :=
  s.engInstr c w fun h e t =>
    let k := (h.engine e).core
    let loc := (k.gpr rs1).toNat
    let target := (k.gpr rs2).toNat
    match h.streamOk t write tgt loc target (len.toNat + 1) with
    | some (1, _) => .except 0x01 w
    | some (_, a) => .except 0x03 (word a)
    | none =>
      let g := h.engine e
      let x : Stream := { write := write, tgt := tgt, loc := loc, target := target, words := len.toNat + 1 }
      .done ((h.setEngine e { g with streams := g.streams ++ [x] }).engRetire e id)

/-- PSR: a stream into the working area (R354). -/
def execPsr (c : CoreId) (rs1 rs2 : GReg) (tgt : Fin 8) (len : BitVec 12) (s : State) : Result :=
  s.stream c false rs1 rs2 tgt len (encPage 0 rs1 rs2 tgt 0x0 len)

/-- PSW: a stream out of the working area (R354). -/
def execPsw (c : CoreId) (rs1 rs2 : GReg) (tgt : Fin 8) (len : BitVec 12) (s : State) : Result :=
  s.stream c true rs1 rs2 tgt len (encPage 0 rs1 rs2 tgt 0x1 len)

/-- STREAM_COMPLETE: the oldest outstanding stream of an engine finishes moving its words; a PSR that meets a poisoned source
raises MEM_ERROR with the DRAM address (R354). -/
def execStreamComplete (e : Fin 512) (s : State) : Result :=
  .next (s.onHw fun h =>
    match h.streamNext e with
    | (h, none) => h
    | (h, some a) => h.engineExcept e 0x04 (word a) .back)

/-- PWAIT: waits until every stream of the task has completed (R353). -/
def execPwait (c : CoreId) (s : State) : Result :=
  s.engInstr c (encPage 0 0 0 0 0x2 0) fun h e _ =>
    match h.streamDrain e (h.engine e).streams.length with
    | (h, some a) => .done (h.engineExcept e 0x04 (word a) .back)
    | (h, none) => .done (h.engRetire e id)

/-- CKPT: in a STEP, the step boundary of a speculative step; a second one raises ILLEGAL (R353). -/
def execCkpt (c : CoreId) (s : State) : Result :=
  s.engInstr c (encPage 0 0 0 0 0x3 0) fun h e t =>
    if t.kind ≠ .step ∨ t.ckpt then .except 0x01 (encPage 0 0 0 0 0x3 0)
    else
      let g := h.engine e
      let u : Undo := { boundary := true, frame := t.frame, word := word t.lc }
      .done ((h.setEngine e { g with undo := if t.spec then g.undo ++ [u] else g.undo,
                                     task := some { t with ckpt := true } }).engRetire e id)

/-- RBK: undoes the frame's steps with LC at or above TASK_LC; rd := data entries undone (R353). -/
def execRbk (c : CoreId) (rd : GReg) (s : State) : Result :=
  s.engInstr c (encPage rd 0 0 0 0x4 0) fun h e t =>
    if t.kind ≠ .rollback then .except 0x01 (encPage rd 0 0 0 0x4 0)
    else
      let h := h.undoFound e
      match poisonedUndo (h.engine e).undo (undoFrom t.frame t.lc (h.engine e).undo).1 with
      | some a => .done (h.engineExcept e 0x04 (word a) .locals)
      | none =>
        let r := h.rollbackFrame e t.frame t.lc
        .done (r.1.engRetire e fun k => k.setGpr rd (word r.2))

/-- CMT: removes the frame's entries of steps with LC at or below TASK_LC; rd := entries removed (R353). -/
def execCmt (c : CoreId) (rd : GReg) (s : State) : Result :=
  s.engInstr c (encPage rd 0 0 0 0x5 0) fun h e t =>
    if t.kind ≠ .release then .except 0x01 (encPage rd 0 0 0 0x5 0)
    else
      let r := h.releaseFrame e t.frame t.lc
      .done (r.1.engRetire e fun k => k.setGpr rd (word r.2))

/-- ENDT: waits for the outstanding streams, reports the end with the signature when SIGCAP is 1, and waits; the entries still
reserved return to the log's free space (R348, R353). -/
def execEndt (c : CoreId) (rd : GReg) (s : State) : Result :=
  s.engInstr c (encPage rd 0 0 0 0x6 0) fun h e t =>
    match h.streamDrain e (h.engine e).streams.length with
    | (h, some a) => .done (h.engineExcept e 0x04 (word a) .back)
    | (h, none) =>
      let g := h.engine e
      let h := h.setEngine e { g with task := none, endRd := rd.val, report := some (0, if t.sigcap then g.sig else 0),
                                      core := g.core.tick }
      if t.kind = .inst then .done (h.fiTaskEnd t.fi (g.core.cycles - t.start).toNat 0) else .done (h.taskEnded e t g.sig)

/-- RDLC: rd := TASK_LC (R353). -/
def execRdlc (c : CoreId) (rd : GReg) (s : State) : Result :=
  s.engInstr c (encPage rd 0 0 0 0x7 0) fun h e t => .done (h.engRetire e fun k => k.setGpr rd (word t.lc))

/-- SIGR: rd := SIG (R353). -/
def execSigr (c : CoreId) (rd : GReg) (s : State) : Result :=
  s.engInstr c (encPage rd 0 0 0 0x8 0) fun h e _ => .done (h.engRetire e fun k => k.setGpr rd (h.engine e).sig)

/-! ### The engine's data addresses (R350) -/

/-- What an engine's data address is, in its task. -/
inductive EngAddr where
  | work (a : Nat)
  | undo (a : Nat)
  | store (pa : Nat)
  | fault

/-- The table of R350. -/
def Hw.engAddr (h : Hw) (e : Nat) (t : Task) (a : Nat) (write : Bool) : EngAddr :=
  let w := a - 0x80000
  if 0x100000 ≤ a then .fault
  else if a < 0x800 then .work a
  else if a < 0x1000 then (if t.kind = .selftest ∧ !write then .undo a else .fault)
  else if a < 0x80000 then .fault
  else if w < 0x78000 then
    (if t.kind = .selftest ∧ (!write ∨ w < 0x68000 ∨ 0x70000 ≤ w) then .store (ridgeWord (e / 32) w) else .fault)
  else match t.kind with
    | .selftest => .store (ridgeWord (e / 32) w)
    | .inst =>
      let f := h.inst t.fi
      if f.rgOfs ≤ w - 0x78000 ∧ w - 0x78000 < f.rgOfs + f.rgSize then .store (ridgeWord (e / 32) w) else .fault
    | _ => .fault

/-- The outstanding streams an access to a working-area word waits for: those up to the last that touches it (R354). -/
def streamsFor (l : List Stream) (a : Nat) : Nat :=
  (l.zipIdx.foldl (fun n x => if x.1.loc ≤ a ∧ a < x.1.loc + x.1.words then x.2 + 1 else n) 0)

/-- A word of the undo log as SELFTEST reads it (R281); a free entry holds an old word that the spec does not keep, so a free
value is read. -/
def Hw.undoWord (h : Hw) (e a : Nat) : Hw × Option Word :=
  match (h.engine e).undo[(a - 0x800) / 2]? with
  | none => let r := h.drawWord; (r.2, some r.1)
  | some u =>
    if u.poisoned then (h, none)
    else if a % 2 = 1 then (h, some u.word)
    else if u.boundary then (h, some (word (u.frame * 2 ^ 24 + 0x7FF * 2 ^ 13)))
    else (h, some (word (u.tag.toNat * 2 ^ 24 + u.frame * 2 ^ 13 + u.ofs * 2 ^ 5)))

/-- LD on an engine (R330, R350, R354). -/
def Hw.engLoad (h : Hw) (e : Nat) (t : Task) (rd : GReg) (a : Nat) (flaw : Flaw) : EngRes :=
  match h.engAddr e t a false with
  | .fault => .except 0x03 (word a)
  | .undo a =>
    match (h.localRead e a flaw).1.undoWord e a with
    | (h, none) => .done (h.engineExcept e 0x04 (word a) .locals)
    | (h, some v) => .done (h.engRetire e fun k => k.setGpr rd v)
  | .store pa =>
    let h := h.meetFlaw pa flaw
    if (h.ram pa).poisoned then .done (h.engineExcept e 0x04 (word a))
    else .done (h.engRetire e fun k => k.setGpr rd (h.ram pa).data)
  | .work a =>
    match h.streamDrain e (streamsFor (h.engine e).streams a) with
    | (h, some b) => .done (h.engineExcept e 0x04 (word b) .back)
    | (h, none) =>
      let h := (h.localRead e a flaw).1
      let x := Tabs.get blankLocal (h.engine e).work a
      if x.poisoned then .done (h.engineExcept e 0x04 (word a) .locals)
      else .done (h.engRetire e fun k => k.setGpr rd x.data)

/-- ST on an engine (R330, R350, R354). -/
def Hw.engStore (h : Hw) (e : Nat) (t : Task) (v : Word) (a : Nat) : EngRes :=
  match h.engAddr e t a true with
  | .fault => .except 0x03 (word a)
  | .undo a => .except 0x03 (word a)
  | .store pa =>
    let tag := if t.page? then t.tag else h.tagNow
    .done ((h.setRam pa { data := v, tag := tag, poisoned := false }).engRetire e id)
  | .work a =>
    match h.streamDrain e (streamsFor (h.engine e).streams a) with
    | (h, some b) => .done (h.engineExcept e 0x04 (word b) .back)
    | (h, none) =>
      let g := h.engine e
      let tag := if t.page? then t.tag else h.tagNow
      .done ((h.setEngine e { g with work := Tabs.set blankLocal g.work a { data := v, tag := tag, poisoned := false } }).engRetire e id)

/-- FI_TASK_TIMEOUT: a task that runs beyond TASK_MAX is abandoned as an exception abandons one, its outstanding streams completed, and
its item fails with TIMEOUT (R357, R545). -/
def execFiTaskTimeout (e : Fin 512) (clocks : Nat) (s : State) : Result :=
  .next (s.onHw fun h =>
    match (h.engine e).task with
    | some t =>
      if t.kind = .inst ∧ (h.inst t.fi).taskMax < clocks then
        let h := h.streamFinish e (h.engine e).streams.length
        (h.setEngine e { h.engine e with task := none, streams := [], report := none }).fiTaskEnd t.fi clocks 0xF004
      else h
    | none => h)

end Sys2Proof.Machine
end

