-- ==== Sys2Proof/Machine/Ol40Int.lean ====
section
/-! DEFINITION. The integer, byte and immediate instructions (R327, R328). -/

namespace Sys2Proof.Machine

/-- ADD: wrap(rs1 + rs2) (R327). -/
def execAdd (c : CoreId) (rd rs1 rs2 : GReg) (s : State) : Result :=
  s.compute c fun k => k.ret rd ((k.gpr rs1) + (k.gpr rs2))

/-- SUB: wrap(rs1 - rs2) (R327). -/
def execSub (c : CoreId) (rd rs1 rs2 : GReg) (s : State) : Result :=
  s.compute c fun k => k.ret rd ((k.gpr rs1) - (k.gpr rs2))

/-- A signed result clamped by sat into rd, with FLAGS.SAT (R325, R326). -/
def Core.retSat (k : Core) (rd : GReg) (v : Int) : Ret := (k.noteSat (satVal v ≠ v)).ret rd (wrap (satVal v))

/-- ADDS: sat(s(rs1) + s(rs2)) (R327). -/
def execAdds (c : CoreId) (rd rs1 rs2 : GReg) (s : State) : Result :=
  s.compute c fun k => k.retSat rd ((k.gpr rs1).toInt + (k.gpr rs2).toInt)

/-- SUBS: sat(s(rs1) - s(rs2)) (R327). -/
def execSubs (c : CoreId) (rd rs1 rs2 : GReg) (s : State) : Result :=
  s.compute c fun k => k.retSat rd ((k.gpr rs1).toInt - (k.gpr rs2).toInt)

/-- AND: bitwise (R327). -/
def execAnd (c : CoreId) (rd rs1 rs2 : GReg) (s : State) : Result :=
  s.compute c fun k => k.ret rd ((k.gpr rs1) &&& (k.gpr rs2))

/-- OR: bitwise (R327). -/
def execOr (c : CoreId) (rd rs1 rs2 : GReg) (s : State) : Result :=
  s.compute c fun k => k.ret rd ((k.gpr rs1) ||| (k.gpr rs2))

/-- XOR: bitwise (R327). -/
def execXor (c : CoreId) (rd rs1 rs2 : GReg) (s : State) : Result :=
  s.compute c fun k => k.ret rd ((k.gpr rs1) ^^^ (k.gpr rs2))

/-- ANDN: rs1 and not rs2 (R327). -/
def execAndn (c : CoreId) (rd rs1 rs2 : GReg) (s : State) : Result :=
  s.compute c fun k => k.ret rd ((k.gpr rs1) &&& ~~~(k.gpr rs2))

/-- SHL by an unsigned amount: 0 from 40 on (R327). -/
def shiftL (a : Word) (n : Nat) : Word := if 40 ≤ n then 0 else a <<< n

/-- SHR by an unsigned amount: 0 from 40 on (R327). -/
def shiftR (a : Word) (n : Nat) : Word := if 40 ≤ n then 0 else a >>> n

/-- ASR by an unsigned amount, at most 39 (R327). -/
def shiftA (a : Word) (n : Nat) : Word := a.sshiftRight (min n 39)

/-- SHL: rs1 shifted left by u(rs2) (R327). -/
def execShl (c : CoreId) (rd rs1 rs2 : GReg) (s : State) : Result :=
  s.compute c fun k => k.ret rd (shiftL (k.gpr rs1) (k.gpr rs2).toNat)

/-- SHR: rs1 shifted right by u(rs2) (R327). -/
def execShr (c : CoreId) (rd rs1 rs2 : GReg) (s : State) : Result :=
  s.compute c fun k => k.ret rd (shiftR (k.gpr rs1) (k.gpr rs2).toNat)

/-- ASR: rs1 shifted right with its sign by min(u(rs2), 39) (R327). -/
def execAsr (c : CoreId) (rd rs1 rs2 : GReg) (s : State) : Result :=
  s.compute c fun k => k.ret rd (shiftA (k.gpr rs1) (k.gpr rs2).toNat)

/-- 1 for true, 0 for false, as a word. -/
def truth (b : Bool) : Word := if b then 1 else 0

/-- LT: 1 if rs1 < rs2 signed (R327). -/
def execLt (c : CoreId) (rd rs1 rs2 : GReg) (s : State) : Result :=
  s.compute c fun k => k.ret rd (truth ((k.gpr rs1).slt (k.gpr rs2)))

/-- LTU: 1 if rs1 < rs2 unsigned (R327). -/
def execLtu (c : CoreId) (rd rs1 rs2 : GReg) (s : State) : Result :=
  s.compute c fun k => k.ret rd (truth ((k.gpr rs1).ult (k.gpr rs2)))

/-- MIN: signed minimum (R327). -/
def execMin (c : CoreId) (rd rs1 rs2 : GReg) (s : State) : Result :=
  s.compute c fun k => k.ret rd (if (k.gpr rs1).slt (k.gpr rs2) then (k.gpr rs1) else (k.gpr rs2))

/-- MAX: signed maximum (R327). -/
def execMax (c : CoreId) (rd rs1 rs2 : GReg) (s : State) : Result :=
  s.compute c fun k => k.ret rd (if (k.gpr rs1).slt (k.gpr rs2) then (k.gpr rs2) else (k.gpr rs1))

/-- MINU: unsigned minimum (R327). -/
def execMinu (c : CoreId) (rd rs1 rs2 : GReg) (s : State) : Result :=
  s.compute c fun k => k.ret rd (if (k.gpr rs1).ult (k.gpr rs2) then (k.gpr rs1) else (k.gpr rs2))

/-- MAXU: unsigned maximum (R327). -/
def execMaxu (c : CoreId) (rd rs1 rs2 : GReg) (s : State) : Result :=
  s.compute c fun k => k.ret rd (if (k.gpr rs1).ult (k.gpr rs2) then (k.gpr rs2) else (k.gpr rs1))

/-- MUL: wrap(s(rs1) × s(rs2)) (R327). -/
def execMul (c : CoreId) (rd rs1 rs2 : GReg) (s : State) : Result :=
  s.compute c fun k => k.ret rd (wrap ((k.gpr rs1).toInt * (k.gpr rs2).toInt))

/-- MULHI: bits [79:40] of the signed product (R327). -/
def execMulhi (c : CoreId) (rd rs1 rs2 : GReg) (s : State) : Result :=
  s.compute c fun k => k.ret rd (wrap ((k.gpr rs1).toInt * (k.gpr rs2).toInt / 2 ^ 40))

/-- MULHIU: bits [79:40] of the unsigned product (R327). -/
def execMulhiu (c : CoreId) (rd rs1 rs2 : GReg) (s : State) : Result :=
  s.compute c fun k => k.ret rd (word ((k.gpr rs1).toNat * (k.gpr rs2).toNat / 2 ^ 40))

/-- The signed quotient, truncated toward zero; all ones for a divisor of 0 (R327). -/
def quotS (a b : Word) : Word := if b = 0 then BitVec.allOnes 40 else wrap (a.toInt.tdiv b.toInt)

/-- The signed remainder (R327). -/
def remS (a b : Word) : Word := if b = 0 then a else wrap (a.toInt.tmod b.toInt)

/-- The unsigned quotient (R327). -/
def quotU (a b : Word) : Word := if b = 0 then BitVec.allOnes 40 else word (a.toNat / b.toNat)

/-- The unsigned remainder (R327). -/
def remU (a b : Word) : Word := if b = 0 then a else word (a.toNat % b.toNat)

/-- DIV: signed division (R327). -/
def execDiv (c : CoreId) (rd rs1 rs2 : GReg) (s : State) : Result :=
  s.compute c fun k => k.ret rd (quotS (k.gpr rs1) (k.gpr rs2))

/-- DIVU: unsigned division (R327). -/
def execDivu (c : CoreId) (rd rs1 rs2 : GReg) (s : State) : Result :=
  s.compute c fun k => k.ret rd (quotU (k.gpr rs1) (k.gpr rs2))

/-- REM: signed remainder (R327). -/
def execRem (c : CoreId) (rd rs1 rs2 : GReg) (s : State) : Result :=
  s.compute c fun k => k.ret rd (remS (k.gpr rs1) (k.gpr rs2))

/-- REMU: unsigned remainder (R327). -/
def execRemu (c : CoreId) (rd rs1 rs2 : GReg) (s : State) : Result :=
  s.compute c fun k => k.ret rd (remU (k.gpr rs1) (k.gpr rs2))

/-- The 1 bits among the low n bits of a number. -/
def onesBelow (v : Nat) : Nat → Nat
  | 0 => 0
  | n + 1 => onesBelow v n + b2n (bitN v n)

/-- The leading zero bits among the low n bits of a number. -/
def zerosAbove (v : Nat) : Nat → Nat
  | 0 => 0
  | n + 1 => if bitN v n then 0 else zerosAbove v n + 1

/-- CLZ: leading zero bits, 0 to 40 (R327). -/
def execClz (c : CoreId) (rd rs1 : GReg) (s : State) : Result :=
  s.compute c fun k => k.ret rd (word (zerosAbove (k.gpr rs1).toNat 40))

/-- POPC: the number of 1 bits (R327). -/
def execPopc (c : CoreId) (rd rs1 : GReg) (s : State) : Result :=
  s.compute c fun k => k.ret rd (word (onesBelow (k.gpr rs1).toNat 40))

/-- ABSS: sat(abs(s(rs1))) (R327). -/
def execAbss (c : CoreId) (rd rs1 : GReg) (s : State) : Result :=
  s.compute c fun k => k.retSat rd ((k.gpr rs1).toInt.natAbs)

/-- Byte i of a word, byte 0 being [39:32]; 0 beyond byte 4 (R8, R327). -/
def byteOf (w : Word) (i : Nat) : Word := if 4 < i then 0 else word (bitsOf w (39 - 8 * i) (32 - 8 * i))

/-- A word with byte i replaced; unchanged beyond byte 4 (R327). -/
def withByte (w : Word) (i : Nat) (b : Word) : Word :=
  if 4 < i then w else withBits w (39 - 8 * i) (32 - 8 * i) (bitsOf b 7 0)

/-- BEXT: byte u(rs2) of rs1 (R327). -/
def execBext (c : CoreId) (rd rs1 rs2 : GReg) (s : State) : Result :=
  s.compute c fun k => k.ret rd (byteOf (k.gpr rs1) (k.gpr rs2).toNat)

/-- BINS: byte u(rs2) of rd replaced by rs1[7:0] (R327). -/
def execBins (c : CoreId) (rd rs1 rs2 : GReg) (s : State) : Result :=
  s.compute c fun k => k.ret rd (withByte (k.gpr rd) (k.gpr rs2).toNat (k.gpr rs1))

/-- BEXTI: as BEXT with byte IDX; IDX 5 to 7 raises ILLEGAL (R327). -/
def execBexti (c : CoreId) (rd rs1 : GReg) (idx : Fin 8) (s : State) : Result :=
  s.computeIf c (idx.val ≤ 4) (encOp3 0 rd rs1 0 idx 0x22) fun k => k.ret rd (byteOf (k.gpr rs1) idx)

/-- BINSI: as BINS with byte IDX; IDX 5 to 7 raises ILLEGAL (R327). -/
def execBinsi (c : CoreId) (rd rs1 : GReg) (idx : Fin 8) (s : State) : Result :=
  s.computeIf c (idx.val ≤ 4) (encOp3 0 rd rs1 0 idx 0x23) fun k => k.ret rd (withByte (k.gpr rd) idx (k.gpr rs1))

/-- ADDK: wrap(rs1 + sx(imm24)) (R328). -/
def execAddk (c : CoreId) (rd rs1 : GReg) (imm : BitVec 24) (s : State) : Result :=
  s.compute c fun k => k.ret rd ((k.gpr rs1) + sx imm)

/-- LTK: 1 if rs1 < sx(imm24) signed (R328). -/
def execLtk (c : CoreId) (rd rs1 : GReg) (imm : BitVec 24) (s : State) : Result :=
  s.compute c fun k => k.ret rd (truth ((k.gpr rs1).slt (sx imm)))

/-- LTKU: 1 if rs1 < sx(imm24) unsigned (R328). -/
def execLtku (c : CoreId) (rd rs1 : GReg) (imm : BitVec 24) (s : State) : Result :=
  s.compute c fun k => k.ret rd (truth ((k.gpr rs1).ult (sx imm)))

/-- ANDK: bitwise with imm24 zero-extended (R328). -/
def execAndk (c : CoreId) (rd rs1 : GReg) (imm : BitVec 24) (s : State) : Result :=
  s.compute c fun k => k.ret rd ((k.gpr rs1) &&& zx imm)

/-- IORK: bitwise with imm24 zero-extended (R328). -/
def execIork (c : CoreId) (rd rs1 : GReg) (imm : BitVec 24) (s : State) : Result :=
  s.compute c fun k => k.ret rd ((k.gpr rs1) ||| zx imm)

/-- XORK: bitwise with imm24 zero-extended (R328). -/
def execXork (c : CoreId) (rd rs1 : GReg) (imm : BitVec 24) (s : State) : Result :=
  s.compute c fun k => k.ret rd ((k.gpr rs1) ^^^ zx imm)

/-- The shift of an SHK immediate: type in [7:6], amount in [5:0] (R328). -/
def shiftK (a : Word) (imm : BitVec 24) : Word :=
  let n := imm.toNat % 64
  match imm.toNat / 64 % 4 with
  | 0 => shiftL a n
  | 1 => shiftR a n
  | _ => shiftA a n

/-- An SHK immediate is defined: amount at most 39, a type below 0b11, [23:8] zero (R328). -/
def shiftKOk (imm : BitVec 24) : Bool := imm.toNat / 256 == 0 && imm.toNat % 64 ≤ 39 && imm.toNat / 64 % 4 ≠ 3

/-- SHK: shift by an immediate; an undefined one raises ILLEGAL (R328). -/
def execShk (c : CoreId) (rd rs1 : GReg) (imm : BitVec 24) (s : State) : Result :=
  s.computeIf c (shiftKOk imm) (encImm 0x0A rd rs1 imm) fun k => k.ret rd (shiftK (k.gpr rs1) imm)

/-- HIK: imm24 to [39:16], [15:0] keeps the low 16 bits of rs1 (R328). -/
def execHik (c : CoreId) (rd rs1 : GReg) (imm : BitVec 24) (s : State) : Result :=
  s.compute c fun k => k.ret rd (imm ++ (k.gpr rs1).setWidth 16)

/-- PCREL: wrap(pc + sx(imm24)) (R328). -/
def execPcrel (c : CoreId) (rd : GReg) (imm : BitVec 24) (s : State) : Result :=
  s.compute c fun k => k.ret rd (k.pc + sx imm)

end Sys2Proof.Machine
end

