-- ==== Sys2Proof/Machine/Ol40Mac.lean ====
section
/-! DEFINITION. The fixed-point and accumulator instructions (R329). -/

namespace Sys2Proof.Machine

/-- An accumulator as a signed number. -/
def Core.accI (k : Core) (a : Fin 4) : Int := (k.accOf a).toInt

/-- The signed product of two registers. -/
def Core.prodS (k : Core) (r q : GReg) : Int := (k.gpr r).toInt * (k.gpr q).toInt

/-- The register after r. -/
def nextReg (r : GReg) : GReg := r + 1

/-- MACS: a := a + s(rs1) × s(rs2) (R329). -/
def execMacs (c : CoreId) (a : Fin 4) (rs1 rs2 : GReg) (s : State) : Result :=
  s.compute c fun k => (k.setAcc a (k.accI a + k.prodS rs1 rs2)).quiet

/-- MSUBS: a := a - s(rs1) × s(rs2) (R329). -/
def execMsubs (c : CoreId) (a : Fin 4) (rs1 rs2 : GReg) (s : State) : Result :=
  s.compute c fun k => (k.setAcc a (k.accI a - k.prodS rs1 rs2)).quiet

/-- MACU: a := a + u(rs1) × u(rs2) (R329). -/
def execMacu (c : CoreId) (a : Fin 4) (rs1 rs2 : GReg) (s : State) : Result :=
  s.compute c fun k => (k.setAcc a (k.accI a + (k.gpr rs1).toNat * (k.gpr rs2).toNat)).quiet

/-- MAC2: two products added; register 31 raises ILLEGAL (R329). -/
def execMac2 (c : CoreId) (a : Fin 4) (rs1 rs2 : GReg) (s : State) : Result :=
  s.computeIf c (rs1.val ≠ 31 && rs2.val ≠ 31) (encMac 0 rs1 rs2 a 0 0 0x03) fun k => 
    (k.setAcc a (k.accI a + k.prodS rs1 rs2 + k.prodS (nextReg rs1) (nextReg rs2))).quiet

/-- MSUB2: two products subtracted; register 31 raises ILLEGAL (R329). -/
def execMsub2 (c : CoreId) (a : Fin 4) (rs1 rs2 : GReg) (s : State) : Result :=
  s.computeIf c (rs1.val ≠ 31 && rs2.val ≠ 31) (encMac 0 rs1 rs2 a 0 0 0x04) fun k => 
    (k.setAcc a (k.accI a - k.prodS rs1 rs2 - k.prodS (nextReg rs1) (nextReg rs2))).quiet

/-- ACLR: a := 0 (R329). -/
def execAclr (c : CoreId) (a : Fin 4) (s : State) : Result :=
  s.compute c fun k => (k.putAcc a 0).quiet

/-- ALD: a := s(rs1) × 2^SH, SH 0 to 56 (R329). -/
def execAld (c : CoreId) (a : Fin 4) (rs1 : GReg) (sh : Fin 128) (s : State) : Result :=
  s.computeIf c (sh.val ≤ 56) (encMac 0 rs1 0 a sh 0 0x09) fun k => (k.setAcc a ((k.gpr rs1).toInt * 2 ^ sh.val)).quiet

/-- AADD: a := a + b (R329). -/
def execAadd (c : CoreId) (a b : Fin 4) (s : State) : Result :=
  s.compute c fun k => (k.setAcc a (k.accI a + k.accI b)).quiet

/-- ASUB: a := a - b (R329). -/
def execAsub (c : CoreId) (a b : Fin 4) (s : State) : Result :=
  s.compute c fun k => (k.setAcc a (k.accI a - k.accI b)).quiet

/-- ASRA: a := floor(a / 2^SH), SH 0 to 95 (R329). -/
def execAsra (c : CoreId) (a : Fin 4) (sh : Fin 128) (s : State) : Result :=
  s.computeIf c (sh.val ≤ 95) (encMac 0 0 0 a sh 0 0x0C) fun k => (k.setAcc a (k.accI a / 2 ^ sh.val)).quiet

/-- Part i of an accumulator: [39:0], [79:40], or [95:80] sign-extended (R329). -/
def accPart (a : BitVec 96) (i : Nat) : Word :=
  if i = 0 then a.extractLsb' 0 40 else if i = 1 then a.extractLsb' 40 40 else (a.extractLsb' 80 16).signExtend 40

/-- An accumulator with part i replaced (R329). -/
def withAccPart (a : BitVec 96) (i : Nat) (w : Word) : BitVec 96 :=
  if i = 0 then a.extractLsb' 80 16 ++ (a.extractLsb' 40 40 ++ w)
  else if i = 1 then a.extractLsb' 80 16 ++ (w ++ a.extractLsb' 0 40)
  else w.setWidth 16 ++ (a.extractLsb' 40 40 ++ a.extractLsb' 0 40)

/-- AGET: rd := part SH of a, SH 0 to 2 (R329). -/
def execAget (c : CoreId) (rd : GReg) (a : Fin 4) (sh : Fin 128) (s : State) : Result :=
  s.computeIf c (sh.val ≤ 2) (encMac rd 0 0 a sh 0 0x0D) fun k => k.ret rd (accPart (k.accOf a) sh)

/-- APUT: part SH of a := rs1, SH 0 to 2 (R329). -/
def execAput (c : CoreId) (a : Fin 4) (rs1 : GReg) (sh : Fin 128) (s : State) : Result :=
  s.computeIf c (sh.val ≤ 2) (encMac 0 rs1 0 a sh 0 0x0E) fun k => (k.putAcc a (withAccPart (k.accOf a) sh (k.gpr rs1))).quiet

/-- NRWS: rd := sat(rhe(a / 2^SH)), SH 0 to 95 (R329). -/
def execNrws (c : CoreId) (rd : GReg) (a : Fin 4) (sh : Fin 128) (s : State) : Result :=
  s.computeIf c (sh.val ≤ 95) (encMac rd 0 0 a sh 0 0x10) fun k => k.retSat rd (rhe (k.accI a) (2 ^ sh.val))

/-- NRWW: rd := wrap(rhe(a / 2^SH)), SH 0 to 95 (R329). -/
def execNrww (c : CoreId) (rd : GReg) (a : Fin 4) (sh : Fin 128) (s : State) : Result :=
  s.computeIf c (sh.val ≤ 95) (encMac rd 0 0 a sh 0 0x11) fun k => k.ret rd (wrap (rhe (k.accI a) (2 ^ sh.val)))

/-- NRWU: rd := satu(rhe(a / 2^SH)), SH 0 to 95 (R329). -/
def execNrwu (c : CoreId) (rd : GReg) (a : Fin 4) (sh : Fin 128) (s : State) : Result :=
  s.computeIf c (sh.val ≤ 95) (encMac rd 0 0 a sh 0 0x12) fun k => 
    let v := rhe (k.accI a) (2 ^ sh.val)
    (k.noteSat (satuVal v ≠ v)).ret rd (wrap (satuVal v))

/-- FMULS: rd := sat(rhe(s(rs1) × s(rs2) / 2^SH)), SH 0 to 79 (R329). -/
def execFmuls (c : CoreId) (rd rs1 rs2 : GReg) (sh : Fin 128) (s : State) : Result :=
  s.computeIf c (sh.val ≤ 79) (encMac rd rs1 rs2 0 sh 0 0x18) fun k => k.retSat rd (rhe (k.prodS rs1 rs2) (2 ^ sh.val))

/-- FMULW: rd := wrap(rhe(s(rs1) × s(rs2) / 2^SH)), SH 0 to 79 (R329). -/
def execFmulw (c : CoreId) (rd rs1 rs2 : GReg) (sh : Fin 128) (s : State) : Result :=
  s.computeIf c (sh.val ≤ 79) (encMac rd rs1 rs2 0 sh 0 0x19) fun k => k.ret rd (wrap (rhe (k.prodS rs1 rs2) (2 ^ sh.val)))

/-- DIVR's effect: sat(rhe(s(rs1) × 2^SH / s(rs2))); for rs2 = 0, 0 if rs1 is 0, else the bound of rs1's sign with
FLAGS.SAT set (R329). -/
def Core.divr (k : Core) (rd : GReg) (a b : Word) (sh : Nat) : Ret :=
  if b = 0 then
    (if a = 0 then k.ret rd 0 else (k.noteSat true).ret rd (wrap (if a.toInt < 0 then minS else maxS)))
  else k.retSat rd (rheQ (a.toInt * 2 ^ sh) b.toInt)

/-- DIVR: the rounded quotient, SH 0 to 56 (R329). -/
def execDivr (c : CoreId) (rd rs1 rs2 : GReg) (sh : Fin 128) (s : State) : Result :=
  s.computeIf c (sh.val ≤ 56) (encMac rd rs1 rs2 0 sh 0 0x1A) fun k => k.divr rd (k.gpr rs1) (k.gpr rs2) sh

/-- RSHR: rd := rhe(s(rs1) / 2^SH), SH 0 to 39 (R329). -/
def execRshr (c : CoreId) (rd rs1 : GReg) (sh : Fin 128) (s : State) : Result :=
  s.computeIf c (sh.val ≤ 39) (encMac rd rs1 0 0 sh 0 0x1B) fun k => k.ret rd (wrap (rhe (k.gpr rs1).toInt (2 ^ sh.val)))

end Sys2Proof.Machine
end

