-- ==== Sys2Proof/Machine/Ol40Mem.lean ====
section
/-! DEFINITION. The memory instructions LD, ST, CAS, SWAP and XADD, and a debugger's write (R330, R331, R350, R487, R488, R498). -/

namespace Sys2Proof.Machine

namespace Hw

/-! ### The output voter of a Crest group (R487) -/

/-- The core whose access leaves the group, after the vote over what the members put out: none where it is withheld. -/
def voted {α : Type} [DecidableEq α] (h : Hw) (c : CoreId) (out : Core → α) : Hw × Option CoreId :=
  match c with
  | .crest _ =>
    let ks : List (Fin 3) := (h.members c).filterMap fun m => match m with
      | .crest k => some k
      | _ => none
    let l := ks.map fun (k : Fin 3) => (k.val, out (h.crestCore k.val))
    let r := h.vote l
    let odd : Option Nat := match oddOf l with
      | some (some k) => some k
      | _ => none
    (r.1, if r.2 then ((ks.find? fun (k : Fin 3) => some k.val != odd).map CoreId.crest) else none)
  | _ => (h, some c)

end Hw

namespace State

/-! ### One access of a system core -/

/-- A read or write of a peripheral register by a core leaves the record of outside accesses as it was. -/
def quietBus (old s : State) : State := s.onHw fun h => { h with bus := old.hw.bus, busErr := old.hw.busErr }

/-- An access fault or a memory error on a data address (R337). -/
def dataFault (s : State) (c : CoreId) (code : Nat) (va : Word) (ipa : Option Word := none) : State :=
  s.onHw fun h => h.raise c code va ipa

/-- A core's data address translated, the vote of its group first: the core that issues, and the physical address (R336, R344,
R487). -/
def issue (s : State) (c : CoreId) (w : Want) (out : Core → Word × Word × Word) (k : State → CoreId → Nat → Bool → State) : State :=
  let r := s.hw.voted c out
  let s : State := { s with hw := r.1 }
  match r.2 with
  | none => s
  | some m =>
    let va := (out (s.hw.coreOf m)).1
    match s.translate m va w with
    | (s, .fault code ti ipa) => s.dataFault m code ti ipa
    | (s, .ok pa dev) => k s m pa dev

/-- LD on a system core: rd := the word at the physical address (R149, R155, R330, R506). -/
def loadAt (s : State) (c : CoreId) (rd : GReg) (va : Word) (pa : Nat) (flaw : Flaw) : State :=
  let who := s.hw.coreWho c
  let take (s : State) (v : Word) : State := s.onHw fun h => h.retireAll c fun k => k.ret rd v
  if isPeripheral pa then
    let t := s.readReg who pa
    let v := t.hw.bus
    if t.hw.busErr then (quietBus s t).dataFault c 0x03 va else take (quietBus s t) v
  else if !s.hw.memAllows who false pa then (s.onHw fun h => h.deny who false pa).dataFault c 0x03 va
  else
    let s := s.onHw fun h => if h.storable pa then h.meetFlaw pa flaw else h
    match s.memRead pa with
    | .ok v => take s v
    | .poisoned => s.dataFault c 0x04 va
    | .error => s.dataFault c 0x03 va

/-- ST on a system core: the address and the data enter the signatures (R155, R330, R488, R506). -/
def storeAt (s : State) (c : CoreId) (rd : GReg) (ofs : Core → Word) (va v : Word) (pa : Nat) : State :=
  let who := s.hw.coreWho c
  let done (s : State) : State := s.onHw fun h => h.retireAll c fun k => { core := k, folds := [ofs k, k.gpr rd] }
  if isPeripheral pa then
    (if s.hw.regOn pa && s.hw.regAllows who true pa then quietBus s ((done s).writeReg who pa v)
     else (quietBus s (s.writeReg who pa v)).dataFault c 0x03 va)
  else if !s.hw.memAllows who true pa then (s.onHw fun h => h.deny who true pa).dataFault c 0x03 va
  else if !s.hw.storable pa then s.dataFault c 0x03 va
  else done (s.onHw fun h => h.writeRam pa v)

/-- An atomic at a physical address: the old word goes to rd, and the new one, if any, to memory (R330, R331, R505). `new`: what a core
stores over an old word. -/
def atomicAt (s : State) (c : CoreId) (rd : GReg) (va : Word) (pa : Nat) (dev : Bool) (flaw : Flaw) (rs1 : GReg)
    (new : Core → Word → Option Word) : State :=
  let who := s.hw.coreWho c
  if dev then s.dataFault c 0x03 va
  else if !s.hw.memAllows who true pa then (s.onHw fun h => h.deny who true pa).dataFault c 0x03 va
  else if !s.hw.storable pa then s.dataFault c 0x03 va
  else
    let s := s.onHw fun h => h.meetFlaw pa flaw
    match s.memRead pa with
    | .ok old =>
      s.onHw fun h =>
        let h1 := match new (h.coreOf c) old with
          | some v => h.writeRam pa v
          | none => h
        h1.retireAll c fun k =>
          let r := k.ret rd old
          { r with folds := r.folds ++ match new k old with
            | some v => [k.gpr rs1, v]
            | none => [] }
    | .poisoned => s.dataFault c 0x04 va
    | .error => s.dataFault c 0x03 va

/-- An atomic of the system profile; ILLEGAL on an engine (R319, R324, R331). -/
def atomic (s : State) (c : CoreId) (rd rs1 rs2 : GReg) (fn : BitVec 8) (flaw : Flaw) (new : Core → Word → Option Word) : Result :=
  .next (s.instr c fun s =>
    match c with
    | .engine _ => s.illegal c (encOp3 0x15 rd rs1 rs2 0 fn)
    | _ =>
      s.issue c .atomic (fun k => (k.gpr rs1, k.gpr rs2, k.gpr rd)) fun s m pa dev =>
        s.atomicAt m rd ((s.hw.coreOf m).gpr rs1) pa dev flaw rs1 new)

/-- An access of an engine in its task, with the outcome R350 gives. -/
def engAccess (s : State) (c : CoreId) (e : Nat) (f : Task → EngRes) : State :=
  match (s.hw.engine e).task with
  | none => s
  | some t => match f t with
    | .done h => { s with hw := h }
    | .except code ti => s.onHw fun h => h.raise c code ti

/-- A debugger's write to memory or to a peripheral register, with the identity of the core it goes through (R498, R504, R526). -/
def debugStore (s : State) (c : CoreId) (pa : Nat) (v : Word) : State :=
  let who := s.hw.coreWho c
  if isPeripheral pa then quietBus s (s.writeReg who pa v)
  else if !s.hw.memAllows who true pa then s.onHw fun h => h.deny who true pa
  else s.onHw fun h => if h.storable pa then h.writeRam pa v else h

end State

/-- The data address rs1 + sx(imm24) (R330). -/
def Core.dataAddr (k : Core) (rs1 : GReg) (imm : BitVec 24) : Word := k.gpr rs1 + sx imm

/-- LD (R330). -/
def execLd (c : CoreId) (rd rs1 : GReg) (imm : BitVec 24) (flaw : Flaw) (s : State) : Result :=
  .next (s.instr c fun s =>
    match c with
    | .engine e => s.engAccess c e fun t => s.hw.engLoad e t rd (((s.hw.coreOf c).dataAddr rs1 imm).toNat) flaw
    | _ =>
      s.issue c .load (fun k => (k.dataAddr rs1 imm, 0, 0)) fun s m pa _ =>
        s.loadAt m rd ((s.hw.coreOf m).dataAddr rs1 imm) pa flaw)

/-- ST (R330). -/
def execSt (c : CoreId) (rd rs1 : GReg) (imm : BitVec 24) (s : State) : Result :=
  .next (s.instr c fun s =>
    match c with
    | .engine e =>
      let k := s.hw.coreOf c
      s.engAccess c e fun t => s.hw.engStore e t (k.gpr rd) ((k.dataAddr rs1 imm).toNat)
    | _ =>
      s.issue c .store (fun k => (k.dataAddr rs1 imm, k.gpr rd, 0)) fun s m pa _ =>
        let k := s.hw.coreOf m
        s.storeAt m rd (fun k => k.dataAddr rs1 imm) (k.dataAddr rs1 imm) (k.gpr rd) pa)

/-- CAS: mem[rs1] := rs2 where it equals rd; rd := the old word (R330). -/
def execCas (c : CoreId) (rd rs1 rs2 : GReg) (flaw : Flaw) (s : State) : Result :=
  s.atomic c rd rs1 rs2 0x00 flaw fun k old => if old = k.gpr rd then some (k.gpr rs2) else none

/-- SWAP: mem[rs1] := rs2; rd := the old word (R330). -/
def execSwap (c : CoreId) (rd rs1 rs2 : GReg) (flaw : Flaw) (s : State) : Result :=
  s.atomic c rd rs1 rs2 0x01 flaw fun k _ => some (k.gpr rs2)

/-- XADD: mem[rs1] := wrap(old + rs2); rd := the old word (R330). -/
def execXadd (c : CoreId) (rd rs1 rs2 : GReg) (flaw : Flaw) (s : State) : Result :=
  s.atomic c rd rs1 rs2 0x02 flaw fun k old => some (old + k.gpr rs2)

/-- DEBUGGER_WRITE: with the core's group halted and invasive debug enabled, every member takes the write in one clock (R498, R526). -/
def execDebuggerWrite (c : CoreId) (t : DbgTarget) (v : Word) (s : State) : Result :=
  .next (
    if !s.debugPort || c.isEngine || !(s.hw.coreOf c).halted || !s.invasive c then s
    else match t with
      | .mem a => s.debugStore c a.toNat v
      | .gpr r => s.onHw fun h => (h.members c).foldl (fun (h : Hw) m => h.setCore m ((h.coreOf m).setGpr r v)) h
      | .pc => s.onHw fun h => (h.members c).foldl (fun (h : Hw) m => h.setCore m { h.coreOf m with pc := v }) h
      | .cr n =>
        if (crLevels c.isApp n).isNone then s
        else s.onHw fun h => (h.members c).foldl (fun (h : Hw) m => h.setCore m ((h.coreOf m).crWrite n v)) h)

end Sys2Proof.Machine
end

