-- ==== Sys2Proof/Machine/Dispatch.lean ====
section
/-! DEFINITION. The dispatch: one arm per command, each one call of its meaning. -/

namespace Sys2Proof.Machine

/-- A command's effect on everything but the queue. -/
def exec (i : Instr) (s : State) : Host.Outcome State Fault Refusal :=
  match i with
  | .vinStart b => Sys2Proof.Machine.execVinStart b s
  | .vinLoss => Sys2Proof.Machine.execVinLoss s
  | .vholdExhausted => Sys2Proof.Machine.execVholdExhausted s
  | .railFailure r => Sys2Proof.Machine.execRailFailure r s
  | .clockSourceTimeout c => Sys2Proof.Machine.execClockSourceTimeout c s
  | .resetNPulse b => Sys2Proof.Machine.execResetNPulse b s
  | .vaoRecovery b => Sys2Proof.Machine.execVaoRecovery b s
  | .lockoutReset b => Sys2Proof.Machine.execLockoutReset b s
  | .serviceLevelFall => Sys2Proof.Machine.execServiceLevelFall s
  | .serviceLevelRise fail => Sys2Proof.Machine.execServiceLevelRise fail s
  | .pwrCmdEnterNight who => Sys2Proof.Machine.execPwrCmdEnterNight who s
  | .pwrCmdShutdown who => Sys2Proof.Machine.execPwrCmdShutdown who s
  | .powerCommandCommit => Sys2Proof.Machine.execPowerCommandCommit s
  | .duskStart => Sys2Proof.Machine.execDuskStart s
  | .duskComplete b => Sys2Proof.Machine.execDuskComplete b s
  | .nightBurst frames x => Sys2Proof.Machine.execNightBurst frames x s
  | .wakeSourceActive src => Sys2Proof.Machine.execWakeSourceActive src s
  | .dawnComplete fail => Sys2Proof.Machine.execDawnComplete fail s
  | .gateClock who block => Sys2Proof.Machine.execGateClock who block s
  | .gateUngate who block => Sys2Proof.Machine.execGateUngate who block s
  | .gatePowerOff who block => Sys2Proof.Machine.execGatePowerOff who block s
  | .gatePowerOn who block => Sys2Proof.Machine.execGatePowerOn who block s
  | .resetCommandCommit => Sys2Proof.Machine.execResetCommandCommit s
  | .checkpointDue => Sys2Proof.Machine.execCheckpointDue s
  | .checkpointCommit => Sys2Proof.Machine.execCheckpointCommit s
  | .patrolScrub m flaw => Sys2Proof.Machine.execPatrolScrub m flaw s
  | .norErase who => Sys2Proof.Machine.execNorErase who s
  | .norProgram who => Sys2Proof.Machine.execNorProgram who s
  | .norAbort who => Sys2Proof.Machine.execNorAbort who s
  | .norOperationDone ok => Sys2Proof.Machine.execNorOperationDone ok s
  | .sampleInstant x => Sys2Proof.Machine.execSampleInstant x s
  | .debugReset b => Sys2Proof.Machine.execDebugReset b s
  | .clockSourceLost c => Sys2Proof.Machine.execClockSourceLost c s
  | .railRecovery r => Sys2Proof.Machine.execRailRecovery r s
  | .lgReadyChange mv => Sys2Proof.Machine.execLgReadyChange mv s
  | .ringCycleStart => Sys2Proof.Machine.execRingCycleStart s
  | .alignmentAcquired p => Sys2Proof.Machine.execAlignmentAcquired p s
  | .alignmentLost p seen => Sys2Proof.Machine.execAlignmentLost p seen s
  | .rxCs k endB f => Sys2Proof.Machine.execRxCs k endB f s
  | .rxGd k endB g => Sys2Proof.Machine.execRxGd k endB g s
  | .rxMs k endB f => Sys2Proof.Machine.execRxMs k endB f s
  | .rxAx k endB f => Sys2Proof.Machine.execRxAx k endB f s
  | .rxDyResponse k endB f => Sys2Proof.Machine.execRxDyResponse k endB f s
  | .rxCl k endB f => Sys2Proof.Machine.execRxCl k endB f s
  | .rxDmReq k endB f => Sys2Proof.Machine.execRxDmReq k endB f s
  | .rxDmRsp k endB f rtt => Sys2Proof.Machine.execRxDmRsp k endB f rtt s
  | .rxDmAcc k endB f => Sys2Proof.Machine.execRxDmAcc k endB f s
  | .rxSuClaim k endB f => Sys2Proof.Machine.execRxSuClaim k endB f s
  | .rxSuSleep k endB f => Sys2Proof.Machine.execRxSuSleep k endB f s
  | .rxSuReclaim k endB f => Sys2Proof.Machine.execRxSuReclaim k endB f s
  | .commandNoAck k p => Sys2Proof.Machine.execCommandNoAck k p s
  | .vnkCmdGo who k v => Sys2Proof.Machine.execVnkCmdGo who k v s
  | .vnkStart who => Sys2Proof.Machine.execVnkStart who s
  | .dyDescriptorSubmit who k tail => Sys2Proof.Machine.execDyDescriptorSubmit who k tail s
  | .dyNoResponse k => Sys2Proof.Machine.execDyNoResponse k s
  | .closedRingJudge k => Sys2Proof.Machine.execClosedRingJudge k s
  | .coldStartListenEnd k => Sys2Proof.Machine.execColdStartListenEnd k s
  | .coldStartBackoffEnd k => Sys2Proof.Machine.execColdStartBackoffEnd k s
  | .coldStartClaimEnd k => Sys2Proof.Machine.execColdStartClaimEnd k s
  | .assignTimeout k p => Sys2Proof.Machine.execAssignTimeout k p s
  | .rxCommandMirror k hdr late frames => Sys2Proof.Machine.execRxCommandMirror k hdr late frames s
  | .rxRelay k hdr ba gd bytes => Sys2Proof.Machine.execRxRelay k hdr ba gd bytes s
  | .leaderPortLoss k => Sys2Proof.Machine.execLeaderPortLoss k s
  | .leaderlessTakeover k => Sys2Proof.Machine.execLeaderlessTakeover k s
  | .claimDecision k => Sys2Proof.Machine.execClaimDecision k s
  | .spareReleaseMark who k sl => Sys2Proof.Machine.execSpareReleaseMark who k sl s
  | .spareReleaseExpire k sl => Sys2Proof.Machine.execSpareReleaseExpire k sl s
  | .ringBreak k endB => Sys2Proof.Machine.execRingBreak k endB s
  | .ringBreakClear k => Sys2Proof.Machine.execRingBreakClear k s
  | .nodeMissing k p => Sys2Proof.Machine.execNodeMissing k p s
  | .nodeReassign k p => Sys2Proof.Machine.execNodeReassign k p s
  | .portErrorBlock p => Sys2Proof.Machine.execPortErrorBlock p s
  | .snpClosure n => Sys2Proof.Machine.execSnpClosure n s
  | .snpCalDataWrite who v => Sys2Proof.Machine.execSnpCalDataWrite who v s
  | .snpCalqGo who entry => Sys2Proof.Machine.execSnpCalqGo who entry s
  | .windowStart who => Sys2Proof.Machine.execWindowStart who s
  | .windowStop who => Sys2Proof.Machine.execWindowStop who s
  | .windowClear who => Sys2Proof.Machine.execWindowClear who s
  | .taskDispatchStep g run => Sys2Proof.Machine.execTaskDispatchStep g run s
  | .taskDispatchRollback g run => Sys2Proof.Machine.execTaskDispatchRollback g run s
  | .taskDispatchRelease g run => Sys2Proof.Machine.execTaskDispatchRelease g run s
  | .taskDispatchAudit e run odd => Sys2Proof.Machine.execTaskDispatchAudit e run odd s
  | .taskDispatchInstance e ix => Sys2Proof.Machine.execTaskDispatchInstance e ix s
  | .taskDispatchSelftest e run pass => Sys2Proof.Machine.execTaskDispatchSelftest e run pass s
  | .reductionCompute g => Sys2Proof.Machine.execReductionCompute g s
  | .commitCycle => Sys2Proof.Machine.execCommitCycle s
  | .migratePage who page engine => Sys2Proof.Machine.execMigratePage who page engine s
  | .returnPageHome who page => Sys2Proof.Machine.execReturnPageHome who page s
  | .quarantineEngine who engine => Sys2Proof.Machine.execQuarantineEngine who engine s
  | .migrationCopyDone g => Sys2Proof.Machine.execMigrationCopyDone g s
  | .rebuildDone g => Sys2Proof.Machine.execRebuildDone g s
  | .stepTimeout e => Sys2Proof.Machine.execStepTimeout e s
  | .auditStart g lc => Sys2Proof.Machine.execAuditStart g lc s
  | .islandAutoOff => Sys2Proof.Machine.execIslandAutoOff s
  | .islandPowerOn r => Sys2Proof.Machine.execIslandPowerOn r s
  | .absentMarking n => Sys2Proof.Machine.execAbsentMarking n s
  | .extIn c lc v st => Sys2Proof.Machine.execExtIn c lc v st s
  | .ltCfgWrite who w => Sys2Proof.Machine.execLtCfgWrite who w s
  | .journalExportDatagram n => Sys2Proof.Machine.execJournalExportDatagram n s
  | .exportRetransmitRequest src jpos n => Sys2Proof.Machine.execExportRetransmitRequest src jpos n s
  | .switchCancel fmc => Sys2Proof.Machine.execSwitchCancel fmc s
  | .microcodeSwitch => Sys2Proof.Machine.execMicrocodeSwitch s
  | .balancingDecision => Sys2Proof.Machine.execBalancingDecision s
  | .add c rd rs1 rs2 => Sys2Proof.Machine.execAdd c rd rs1 rs2 s
  | .sub c rd rs1 rs2 => Sys2Proof.Machine.execSub c rd rs1 rs2 s
  | .adds c rd rs1 rs2 => Sys2Proof.Machine.execAdds c rd rs1 rs2 s
  | .subs c rd rs1 rs2 => Sys2Proof.Machine.execSubs c rd rs1 rs2 s
  | .and c rd rs1 rs2 => Sys2Proof.Machine.execAnd c rd rs1 rs2 s
  | .or c rd rs1 rs2 => Sys2Proof.Machine.execOr c rd rs1 rs2 s
  | .xor c rd rs1 rs2 => Sys2Proof.Machine.execXor c rd rs1 rs2 s
  | .andn c rd rs1 rs2 => Sys2Proof.Machine.execAndn c rd rs1 rs2 s
  | .shl c rd rs1 rs2 => Sys2Proof.Machine.execShl c rd rs1 rs2 s
  | .shr c rd rs1 rs2 => Sys2Proof.Machine.execShr c rd rs1 rs2 s
  | .asr c rd rs1 rs2 => Sys2Proof.Machine.execAsr c rd rs1 rs2 s
  | .lt c rd rs1 rs2 => Sys2Proof.Machine.execLt c rd rs1 rs2 s
  | .ltu c rd rs1 rs2 => Sys2Proof.Machine.execLtu c rd rs1 rs2 s
  | .min c rd rs1 rs2 => Sys2Proof.Machine.execMin c rd rs1 rs2 s
  | .max c rd rs1 rs2 => Sys2Proof.Machine.execMax c rd rs1 rs2 s
  | .minu c rd rs1 rs2 => Sys2Proof.Machine.execMinu c rd rs1 rs2 s
  | .maxu c rd rs1 rs2 => Sys2Proof.Machine.execMaxu c rd rs1 rs2 s
  | .mul c rd rs1 rs2 => Sys2Proof.Machine.execMul c rd rs1 rs2 s
  | .mulhi c rd rs1 rs2 => Sys2Proof.Machine.execMulhi c rd rs1 rs2 s
  | .mulhiu c rd rs1 rs2 => Sys2Proof.Machine.execMulhiu c rd rs1 rs2 s
  | .div c rd rs1 rs2 => Sys2Proof.Machine.execDiv c rd rs1 rs2 s
  | .divu c rd rs1 rs2 => Sys2Proof.Machine.execDivu c rd rs1 rs2 s
  | .rem c rd rs1 rs2 => Sys2Proof.Machine.execRem c rd rs1 rs2 s
  | .remu c rd rs1 rs2 => Sys2Proof.Machine.execRemu c rd rs1 rs2 s
  | .clz c rd rs1 => Sys2Proof.Machine.execClz c rd rs1 s
  | .popc c rd rs1 => Sys2Proof.Machine.execPopc c rd rs1 s
  | .abss c rd rs1 => Sys2Proof.Machine.execAbss c rd rs1 s
  | .bext c rd rs1 rs2 => Sys2Proof.Machine.execBext c rd rs1 rs2 s
  | .bins c rd rs1 rs2 => Sys2Proof.Machine.execBins c rd rs1 rs2 s
  | .bexti c rd rs1 idx => Sys2Proof.Machine.execBexti c rd rs1 idx s
  | .binsi c rd rs1 idx => Sys2Proof.Machine.execBinsi c rd rs1 idx s
  | .addk c rd rs1 imm => Sys2Proof.Machine.execAddk c rd rs1 imm s
  | .ltk c rd rs1 imm => Sys2Proof.Machine.execLtk c rd rs1 imm s
  | .ltku c rd rs1 imm => Sys2Proof.Machine.execLtku c rd rs1 imm s
  | .andk c rd rs1 imm => Sys2Proof.Machine.execAndk c rd rs1 imm s
  | .iork c rd rs1 imm => Sys2Proof.Machine.execIork c rd rs1 imm s
  | .xork c rd rs1 imm => Sys2Proof.Machine.execXork c rd rs1 imm s
  | .shk c rd rs1 imm => Sys2Proof.Machine.execShk c rd rs1 imm s
  | .hik c rd rs1 imm => Sys2Proof.Machine.execHik c rd rs1 imm s
  | .pcrel c rd imm => Sys2Proof.Machine.execPcrel c rd imm s
  | .macs c a rs1 rs2 => Sys2Proof.Machine.execMacs c a rs1 rs2 s
  | .msubs c a rs1 rs2 => Sys2Proof.Machine.execMsubs c a rs1 rs2 s
  | .macu c a rs1 rs2 => Sys2Proof.Machine.execMacu c a rs1 rs2 s
  | .mac2 c a rs1 rs2 => Sys2Proof.Machine.execMac2 c a rs1 rs2 s
  | .msub2 c a rs1 rs2 => Sys2Proof.Machine.execMsub2 c a rs1 rs2 s
  | .aclr c a => Sys2Proof.Machine.execAclr c a s
  | .ald c a rs1 sh => Sys2Proof.Machine.execAld c a rs1 sh s
  | .aadd c a b => Sys2Proof.Machine.execAadd c a b s
  | .asub c a b => Sys2Proof.Machine.execAsub c a b s
  | .asra c a sh => Sys2Proof.Machine.execAsra c a sh s
  | .aget c rd a sh => Sys2Proof.Machine.execAget c rd a sh s
  | .aput c a rs1 sh => Sys2Proof.Machine.execAput c a rs1 sh s
  | .nrws c rd a sh => Sys2Proof.Machine.execNrws c rd a sh s
  | .nrww c rd a sh => Sys2Proof.Machine.execNrww c rd a sh s
  | .nrwu c rd a sh => Sys2Proof.Machine.execNrwu c rd a sh s
  | .fmuls c rd rs1 rs2 sh => Sys2Proof.Machine.execFmuls c rd rs1 rs2 sh s
  | .fmulw c rd rs1 rs2 sh => Sys2Proof.Machine.execFmulw c rd rs1 rs2 sh s
  | .divr c rd rs1 rs2 sh => Sys2Proof.Machine.execDivr c rd rs1 rs2 sh s
  | .rshr c rd rs1 sh => Sys2Proof.Machine.execRshr c rd rs1 sh s
  | .ld c rd rs1 imm flaw => Sys2Proof.Machine.execLd c rd rs1 imm flaw s
  | .st c rd rs1 imm => Sys2Proof.Machine.execSt c rd rs1 imm s
  | .cas c rd rs1 rs2 flaw => Sys2Proof.Machine.execCas c rd rs1 rs2 flaw s
  | .swap c rd rs1 rs2 flaw => Sys2Proof.Machine.execSwap c rd rs1 rs2 flaw s
  | .xadd c rd rs1 rs2 flaw => Sys2Proof.Machine.execXadd c rd rs1 rs2 flaw s
  | .ldp c rd rs1 imm flaw => Sys2Proof.Machine.execLdp c rd rs1 imm flaw s
  | .stp c rd rs1 imm => Sys2Proof.Machine.execStp c rd rs1 imm s
  | .ldtg c rd rs1 imm flaw => Sys2Proof.Machine.execLdtg c rd rs1 imm flaw s
  | .jeq c rd rs1 imm => Sys2Proof.Machine.execJeq c rd rs1 imm s
  | .jne c rd rs1 imm => Sys2Proof.Machine.execJne c rd rs1 imm s
  | .jlt c rd rs1 imm => Sys2Proof.Machine.execJlt c rd rs1 imm s
  | .jge c rd rs1 imm => Sys2Proof.Machine.execJge c rd rs1 imm s
  | .jltu c rd rs1 imm => Sys2Proof.Machine.execJltu c rd rs1 imm s
  | .jgeu c rd rs1 imm => Sys2Proof.Machine.execJgeu c rd rs1 imm s
  | .call c rd imm => Sys2Proof.Machine.execCall c rd imm s
  | .callr c rd rs1 imm => Sys2Proof.Machine.execCallr c rd rs1 imm s
  | .crrd c rd cr => Sys2Proof.Machine.execCrrd c rd cr s
  | .crxw c rd rs1 cr => Sys2Proof.Machine.execCrxw c rd rs1 cr s
  | .crsb c rd rs1 cr => Sys2Proof.Machine.execCrsb c rd rs1 cr s
  | .crcb c rd rs1 cr => Sys2Proof.Machine.execCrcb c rd rs1 cr s
  | .trap1 c => Sys2Proof.Machine.execTrap1 c s
  | .trap2 c => Sys2Proof.Machine.execTrap2 c s
  | .trap3 c => Sys2Proof.Machine.execTrap3 c s
  | .rett c => Sys2Proof.Machine.execRett c s
  | .idle c => Sys2Proof.Machine.execIdle c s
  | .dstop c => Sys2Proof.Machine.execDstop c s
  | .order c => Sys2Proof.Machine.execOrder c s
  | .orderX c => Sys2Proof.Machine.execOrderX c s
  | .xflVa c rs1 => Sys2Proof.Machine.execXflVa c rs1 s
  | .xflAs c rs1 => Sys2Proof.Machine.execXflAs c rs1 s
  | .xflAll c => Sys2Proof.Machine.execXflAll c s
  | .xflIpa c rs1 => Sys2Proof.Machine.execXflIpa c rs1 s
  | .xflVm c rs1 => Sys2Proof.Machine.execXflVm c rs1 s
  | .psr c rs1 rs2 tgt len => Sys2Proof.Machine.execPsr c rs1 rs2 tgt len s
  | .psw c rs1 rs2 tgt len => Sys2Proof.Machine.execPsw c rs1 rs2 tgt len s
  | .pwait c => Sys2Proof.Machine.execPwait c s
  | .ckpt c => Sys2Proof.Machine.execCkpt c s
  | .rbk c rd => Sys2Proof.Machine.execRbk c rd s
  | .cmt c rd => Sys2Proof.Machine.execCmt c rd s
  | .endt c rd => Sys2Proof.Machine.execEndt c rd s
  | .rdlc c rd => Sys2Proof.Machine.execRdlc c rd s
  | .sigr c rd => Sys2Proof.Machine.execSigr c rd s
  | .threshLoad k p kind ch => Sys2Proof.Machine.execThreshLoad k p kind ch s
  | .threshRetry k => Sys2Proof.Machine.execThreshRetry k s
  | .stopMessageRepeat => Sys2Proof.Machine.execStopMessageRepeat s
  | .warningEnd e => Sys2Proof.Machine.execWarningEnd e s
  | .measTimeout k p j => Sys2Proof.Machine.execMeasTimeout k p j s
  | .latchClear who e => Sys2Proof.Machine.execLatchClear who e s
  | .safeEnter who => Sys2Proof.Machine.execSafeEnter who s
  | .safeExit who => Sys2Proof.Machine.execSafeExit who s
  | .tripInChange ix level => Sys2Proof.Machine.execTripInChange ix level s
  | .crsTripWrite who v => Sys2Proof.Machine.execCrsTripWrite who v s
  | .pendingArm who => Sys2Proof.Machine.execPendingArm who s
  | .pendingDiscard who => Sys2Proof.Machine.execPendingDiscard who s
  | .pendingApply => Sys2Proof.Machine.execPendingApply s
  | .dieNop d ch data tag crcOk => Sys2Proof.Machine.execDieNop d ch data tag crcOk s
  | .dieSet d ch data tag crcOk => Sys2Proof.Machine.execDieSet d ch data tag crcOk s
  | .dieCfgCh d ch data tag crcOk => Sys2Proof.Machine.execDieCfgCh d ch data tag crcOk s
  | .dieCfgDie d ch data tag crcOk => Sys2Proof.Machine.execDieCfgDie d ch data tag crcOk s
  | .dieRefresh d ch data tag crcOk => Sys2Proof.Machine.execDieRefresh d ch data tag crcOk s
  | .dieSample d ch data tag crcOk => Sys2Proof.Machine.execDieSample d ch data tag crcOk s
  | .dieClear d ch data tag crcOk => Sys2Proof.Machine.execDieClear d ch data tag crcOk s
  | .dieStatus d ch data tag crcOk => Sys2Proof.Machine.execDieStatus d ch data tag crcOk s
  | .loadCmdOff who c line => Sys2Proof.Machine.execLoadCmdOff who c line s
  | .loadCmdOn who c line => Sys2Proof.Machine.execLoadCmdOn who c line s
  | .loadCmdFollow who c line => Sys2Proof.Machine.execLoadCmdFollow who c line s
  | .loadCmdClear who c line => Sys2Proof.Machine.execLoadCmdClear who c line s
  | .overcurrentEvent c warm => Sys2Proof.Machine.execOvercurrentEvent c warm s
  | .thermalShutdown c => Sys2Proof.Machine.execThermalShutdown c s
  | .lampRetryEnd c => Sys2Proof.Machine.execLampRetryEnd c s
  | .directLineChange d l level us => Sys2Proof.Machine.execDirectLineChange d l level us s
  | .watchdogExpire d => Sys2Proof.Machine.execWatchdogExpire d s
  | .dieLost d vls => Sys2Proof.Machine.execDieLost d vls s
  | .dieRestore d => Sys2Proof.Machine.execDieRestore d s
  | .dieVlsRecover d vls => Sys2Proof.Machine.execDieVlsRecover d vls s
  | .crestWindowBoundary => Sys2Proof.Machine.execCrestWindowBoundary s
  | .resyncSelftestDone pass => Sys2Proof.Machine.execResyncSelftestDone pass s
  | .modeDetach who k => Sys2Proof.Machine.execModeDetach who k s
  | .modeHandover who k => Sys2Proof.Machine.execModeHandover who k s
  | .modeJoin who k => Sys2Proof.Machine.execModeJoin who k s
  | .modeRetire who k => Sys2Proof.Machine.execModeRetire who k s
  | .modeCancel who => Sys2Proof.Machine.execModeCancel who s
  | .handoverTimeout => Sys2Proof.Machine.execHandoverTimeout s
  | .crsAlive who token => Sys2Proof.Machine.execCrsAlive who token s
  | .aliveLapse => Sys2Proof.Machine.execAliveLapse s
  | .aliveLapseLimit => Sys2Proof.Machine.execAliveLapseLimit s
  | .debugHalt c => Sys2Proof.Machine.execDebugHalt c s
  | .debugResume c => Sys2Proof.Machine.execDebugResume c s
  | .debugStep c => Sys2Proof.Machine.execDebugStep c s
  | .debuggerWrite c t v => Sys2Proof.Machine.execDebuggerWrite c t v s
  | .streamComplete e => Sys2Proof.Machine.execStreamComplete e s
  | .unitRelease who source id new => Sys2Proof.Machine.execUnitRelease who source id new s
  | .unitClaim who source id => Sys2Proof.Machine.execUnitClaim who source id s
  | .unitReturn who source id => Sys2Proof.Machine.execUnitReturn who source id s
  | .unitHandoverGrant source id abandoned => Sys2Proof.Machine.execUnitHandoverGrant source id abandoned s
  | .vmStart who v => Sys2Proof.Machine.execVmStart who v s
  | .vmStop who v => Sys2Proof.Machine.execVmStop who v s
  | .vmFatalFault v => Sys2Proof.Machine.execVmFatalFault v s
  | .vmFirstChannelWrite v => Sys2Proof.Machine.execVmFirstChannelWrite v s
  | .vmStartTimeout v => Sys2Proof.Machine.execVmStartTimeout v s
  | .vmStoppingDone v => Sys2Proof.Machine.execVmStoppingDone v s
  | .hp0Return => Sys2Proof.Machine.execHp0Return s
  | .secureEntryOverrun k => Sys2Proof.Machine.execSecureEntryOverrun k s
  | .interruptTake c => Sys2Proof.Machine.execInterruptTake c s
  | .irqSet who src => Sys2Proof.Machine.execIrqSet who src s
  | .irqClr who src => Sys2Proof.Machine.execIrqClr who src s
  | .idleWake c => Sys2Proof.Machine.execIdleWake c s
  | .mbxDoorbell who n seq tag len => Sys2Proof.Machine.execMbxDoorbell who n seq tag len s
  | .mbxAck who n seq code => Sys2Proof.Machine.execMbxAck who n seq code s
  | .mbxDoneRead who n => Sys2Proof.Machine.execMbxDoneRead who n s
  | .channelRelease who kind id new => Sys2Proof.Machine.execChannelRelease who kind id new s
  | .channelClaim who kind id => Sys2Proof.Machine.execChannelClaim who kind id s
  | .channelReturn who kind id => Sys2Proof.Machine.execChannelReturn who kind id s
  | .fiLoad ix => Sys2Proof.Machine.execFiLoad ix s
  | .fiRun ix => Sys2Proof.Machine.execFiRun ix s
  | .fiItemDone ix => Sys2Proof.Machine.execFiItemDone ix s
  | .fiBudgetGain => Sys2Proof.Machine.execFiBudgetGain s
  | .fiTaskTimeout e clocks => Sys2Proof.Machine.execFiTaskTimeout e clocks s
  | .fiQuiesce who ix => Sys2Proof.Machine.execFiQuiesce who ix s
  | .fiDrained ix => Sys2Proof.Machine.execFiDrained ix s
  | .fiReset who ix => Sys2Proof.Machine.execFiReset who ix s
  | .fiResume who ix => Sys2Proof.Machine.execFiResume who ix s
  | .fiRemove who ix => Sys2Proof.Machine.execFiRemove who ix s
  | .frameIngress p head => Sys2Proof.Machine.execFrameIngress p head s
  | .frameEof p bytes fcsOk codeErr => Sys2Proof.Machine.execFrameEof p bytes fcsOk codeErr s
  | .egressFrameStart q => Sys2Proof.Machine.execEgressFrameStart q s
  | .egressFrameDone q => Sys2Proof.Machine.execEgressFrameDone q s
  | .linkUp p speedBad pins => Sys2Proof.Machine.execLinkUp p speedBad pins s
  | .linkDown p pins => Sys2Proof.Machine.execLinkDown p pins s
  | .rxPauseFrame p q addressed spent => Sys2Proof.Machine.execRxPauseFrame p q addressed spent s
  | .pauseExpire p => Sys2Proof.Machine.execPauseExpire p s
  | .prpSupervisionSend => Sys2Proof.Machine.execPrpSupervisionSend s
  | .hpTxTail who ix tail => Sys2Proof.Machine.execHpTxTail who ix tail s
  | .hpRxTail who ix tail => Sys2Proof.Machine.execHpRxTail who ix tail s
  | .fdbWrite who idx => Sys2Proof.Machine.execFdbWrite who idx s
  | .fdbRead who idx => Sys2Proof.Machine.execFdbRead who idx s
  | .fdbInvalidate who idx => Sys2Proof.Machine.execFdbInvalidate who idx s
  | .mdioC22Write who n reg data => Sys2Proof.Machine.execMdioC22Write who n reg data s
  | .mdioC22Read who n reg => Sys2Proof.Machine.execMdioC22Read who n reg s
  | .mdioC45Write who n devad addr data => Sys2Proof.Machine.execMdioC45Write who n devad addr data s
  | .mdioC45Read who n devad addr => Sys2Proof.Machine.execMdioC45Read who n devad addr s
  | .twoWireWrite who n hi addr data => Sys2Proof.Machine.execTwoWireWrite who n hi addr data s
  | .twoWireRead who n hi addr => Sys2Proof.Machine.execTwoWireRead who n hi addr s
  | .mgmtDone n ack data => Sys2Proof.Machine.execMgmtDone n ack data s
  | .timeSampleSubmit who lo => Sys2Proof.Machine.execTimeSampleSubmit who lo s
  | .epochStart => Sys2Proof.Machine.execEpochStart s
  | .syncTimeout => Sys2Proof.Machine.execSyncTimeout s
  | .captureEdge edges => Sys2Proof.Machine.execCaptureEdge edges s
  | .capturePop who => Sys2Proof.Machine.execCapturePop who s
  | .ppsOutEdge => Sys2Proof.Machine.execPpsOutEdge s
  | .timPeriodStart k => Sys2Proof.Machine.execTimPeriodStart k s
  | .leapSecondEnd => Sys2Proof.Machine.execLeapSecondEnd s
  | .announceTimeout peer => Sys2Proof.Machine.execAnnounceTimeout peer s
  | .holdoverAnnounceStop => Sys2Proof.Machine.execHoldoverAnnounceStop s
  | .calQuery date => Sys2Proof.Machine.execCalQuery date s
  | .calWakeApply date => Sys2Proof.Machine.execCalWakeApply date s
  | .time80LoRead who pair => Sys2Proof.Machine.execTime80LoRead who pair s
  | .hello src via msg => Sys2Proof.Machine.execHello src via msg s
  | .finish src msg => Sys2Proof.Machine.execFinish src msg s
  | .handshakeTimeout id => Sys2Proof.Machine.execHandshakeTimeout id s
  | .kopClose src msg => Sys2Proof.Machine.execKopClose src msg s
  | .sessionIdleTimeout id => Sys2Proof.Machine.execSessionIdleTimeout id s
  | .kopRead id oid => Sys2Proof.Machine.execKopRead id oid s
  | .kopWrite id oid type value => Sys2Proof.Machine.execKopWrite id oid type value s
  | .kopWriteLc id oid lc type value => Sys2Proof.Machine.execKopWriteLc id oid lc type value s
  | .kopDescribe id oid => Sys2Proof.Machine.execKopDescribe id oid s
  | .kopNext id oid => Sys2Proof.Machine.execKopNext id oid s
  | .requestTimeout id => Sys2Proof.Machine.execRequestTimeout id s
  | .kopRequest src msg => Sys2Proof.Machine.execKopRequest src msg s
  | .canModeOff who n sending => Sys2Proof.Machine.execCanModeOff who n sending s
  | .canModeBus who n => Sys2Proof.Machine.execCanModeBus who n s
  | .canModeSleep who n sending => Sys2Proof.Machine.execCanModeSleep who n sending s
  | .canRecover who n => Sys2Proof.Machine.execCanRecover who n s
  | .canAbort who n sending => Sys2Proof.Machine.execCanAbort who n sending s
  | .canTxPush who n tag => Sys2Proof.Machine.execCanTxPush who n tag s
  | .canRxPop who n q => Sys2Proof.Machine.execCanRxPop who n q s
  | .canFrameReceived n hdr data eofErr => Sys2Proof.Machine.execCanFrameReceived n hdr data eofErr s
  | .canFrameSent n => Sys2Proof.Machine.execCanFrameSent n s
  | .canErrorStateChange n tec rc => Sys2Proof.Machine.execCanErrorStateChange n tec rc s
  | .canBusOffRecovered n => Sys2Proof.Machine.execCanBusOffRecovered n s
  | .streamPduClose k => Sys2Proof.Machine.execStreamPduClose k s
  | .streamRxDescriptor => Sys2Proof.Machine.execStreamRxDescriptor s
  | .selectiveWakeFrame n hdr data => Sys2Proof.Machine.execSelectiveWakeFrame n hdr data s
  | .wakeFecOverflow n => Sys2Proof.Machine.execWakeFecOverflow n s
  | .proxySegment n hdr data => Sys2Proof.Machine.execProxySegment n hdr data s
  | .proxyTimeout ix => Sys2Proof.Machine.execProxyTimeout ix s
  | .wakeValidationClose high => Sys2Proof.Machine.execWakeValidationClose high s
  | .wakeBackoffEnd sl => Sys2Proof.Machine.execWakeBackoffEnd sl s
  | .wakeBackoffClear who sl => Sys2Proof.Machine.execWakeBackoffClear who sl s
  | .diDebouncedChange ix level => Sys2Proof.Machine.execDiDebouncedChange ix level s
  | .canBusError n lec tx eof up => Sys2Proof.Machine.execCanBusError n lec tx eof up s
  | .lostArbitration n => Sys2Proof.Machine.execLostArbitration n s
  | .wakeDecoderFrame n bad => Sys2Proof.Machine.execWakeDecoderFrame n bad s
  | .wakeLineRise => Sys2Proof.Machine.execWakeLineRise s
  | .stageOpen role v => Sys2Proof.Machine.execStageOpen role v s
  | .stageData role ofs ws => Sys2Proof.Machine.execStageData role ofs ws s
  | .stageClose role => Sys2Proof.Machine.execStageClose role s
  | .activate role v lc => Sys2Proof.Machine.execActivate role v lc s
  | .activateCheck => Sys2Proof.Machine.execActivateCheck s
  | .mcLoad who => Sys2Proof.Machine.execMcLoad who s
  | .mcDeclare who => Sys2Proof.Machine.execMcDeclare who s
  | .mcCancel who => Sys2Proof.Machine.execMcCancel who s
  | .configSwitch => Sys2Proof.Machine.execConfigSwitch s
  | .install role mask => Sys2Proof.Machine.execInstall role mask s
  | .imageProven type slot => Sys2Proof.Machine.execImageProven type slot s
  | .activeCopy type slot => Sys2Proof.Machine.execActiveCopy type slot s
  | .arbRaise => Sys2Proof.Machine.execArbRaise s
  | .fuseLifecycle who sel => Sys2Proof.Machine.execFuseLifecycle who sel s
  | .fuseKeyProgram who sel => Sys2Proof.Machine.execFuseKeyProgram who sel s
  | .fuseKeyRevoke who sel => Sys2Proof.Machine.execFuseKeyRevoke who sel s
  | .fuseRaiseField who sel => Sys2Proof.Machine.execFuseRaiseField who sel s
  | .fuseDbgLock who => Sys2Proof.Machine.execFuseDbgLock who s
  | .fuseProgDone ok => Sys2Proof.Machine.execFuseProgDone ok s
  | .microcodeSlotLoaded r => Sys2Proof.Machine.execMicrocodeSlotLoaded r s
  | .treeTripRepeat => Sys2Proof.Machine.execTreeTripRepeat s
  | .peerTripReceive hdr group => Sys2Proof.Machine.execPeerTripReceive hdr group s
  | .plantTripClear role mask => Sys2Proof.Machine.execPlantTripClear role mask s
  | .peerStatusReceive k hdr flags breakA breakB => Sys2Proof.Machine.execPeerStatusReceive k hdr flags breakA breakB s
  | .partnerStatusLapse k => Sys2Proof.Machine.execPartnerStatusLapse k s
  | .peerSummaryReceive hdr body => Sys2Proof.Machine.execPeerSummaryReceive hdr body s
  | .summaryDeadline => Sys2Proof.Machine.execSummaryDeadline s
  | .readClearCounter who a => Sys2Proof.Machine.execReadClearCounter who a s
  | .registerWrite who a v => Sys2Proof.Machine.execRegisterWrite who a v s

end Sys2Proof.Machine
end

