-- ==== Sys2Proof/WellFormed.lean ====
section
/-! DEFINITION. Well-formed commands: the operands that a command's type leaves wider than the spec does lie in the range the spec
gives them. -/

namespace Sys2Proof

/-- A loop cycle number is a word of 40 bits (R8, R21). -/
def lcOk (n : Nat) : Bool := n < 2 ^ 40

/-- No key stands twice in a list of facts. -/
def keysOnce {α β : Type} [DecidableEq α] (l : List (α × β)) : Bool := decide (l.map Prod.fst).Nodup

/-- What a channel's sense reads is a code of 24 bits (R461). -/
def LoadFacts.wf (x : LoadFacts) : Bool :=
  keysOnce x.sense && keysOnce x.supply && decide x.mute.Nodup && x.sense.all fun e => e.2.1 < 2 ^ 24

/-- One mean for each analogue input. -/
def SiFacts.wf (x : SiFacts) : Bool := x.loads.wf && keysOnce x.ai

/-- The number of a unit or a source in a hand-over request has 10 bits (R516, R529). -/
def handoverIdOk (id : Nat) : Bool := id < 1024

/-- A command's operands lie in the ranges of the spec. -/
def Instr.wf : Instr → Bool
  | .sampleInstant x => x.wf
  | .nightBurst _ x => x.wf
  | .snpClosure n => lcOk n
  | .auditStart _ n => lcOk n
  | .absentMarking n => lcOk n
  | .extIn _ n _ _ => lcOk n
  | .unitRelease _ _ id new => handoverIdOk id && new < 256
  | .unitClaim _ _ id => handoverIdOk id
  | .unitReturn _ _ id => handoverIdOk id
  | .unitHandoverGrant _ id _ => handoverIdOk id
  | .channelRelease _ _ _ new => new < 256
  | .captureEdge es => keysOnce es
  | .canFrameReceived _ _ data _ => data.length ≤ 64
  | .selectiveWakeFrame _ _ data => data.length ≤ 64
  | .proxySegment _ _ data => data.length ≤ 64
  | .kopWrite _ _ _ v => v.length < 65536
  | .kopWriteLc _ _ _ _ v => v.length < 65536
  | _ => true

end Sys2Proof
end

