-- ==== Sys2Proof/Safety.lean ====
section
/-! DEFINITION. The terms that claims about the machine use: the canonical form of its memories, the fuses that only rise, when an
access from outside may happen, and what it means that a command completes. -/

namespace Sys2Proof.Machine

/-! ### The canonical form of the memories -/

/-- RAM in its canonical form: addresses strictly rising, no container equal to what an unwritten one holds. -/
def Memory.wf (m : Tab Container) : Bool := Tabs.wf Hw.blankRam m

/-- The NOR flash in its canonical form. -/
def Nor.wf (n : Nor) : Bool := Tabs.wf n.unlisted n.words

/-- The registers in their canonical form. -/
def Hw.regsWf (h : Hw) : Bool := Tabs.wf regReset h.regs

/-! ### Fuses -/

/-- Every fuse that is programmed in `f` is programmed in `g`: the lifecycle and the anti-rollback fields do not fall, no key loses
VALID or REVOKE, DBG_LOCK stays blown (R697, R706, R708). -/
structure Fuse.Le (f g : Fuse) : Prop where
  lifecycle : f.lifecycle ≤ g.lifecycle
  dbgLock : f.dbgLock = true → g.dbgLock = true
  keyValid : ∀ i : Fin 4, f.keyValid.getLsb i = true → g.keyValid.getLsb i = true
  revoked : ∀ i : Fin 4, f.revoked.getLsb i = true → g.revoked.getLsb i = true
  arb0 : f.arb0 ≤ g.arb0
  arb1 : f.arb1 ≤ g.arb1
  arb2 : f.arb2 ≤ g.arb2
  arb3 : f.arb3 ≤ g.arb3

/-! ### Accesses from outside -/

/-- A write of a register at a peripheral address by an identity happens: the block's domain is on, and the firewall allows it
(R155, R506, R508). -/
def Hw.MayWrite (h : Hw) (who : Who) (a : Nat) : Prop := h.blockOn (blockOf a) = true ∧ h.blockAllows who true (blockOf a) = true

/-- A read of a register at a peripheral address by an identity happens. -/
def Hw.MayRead (h : Hw) (who : Who) (a : Nat) : Prop := h.blockOn (blockOf a) = true ∧ h.blockAllows who false (blockOf a) = true

/-! ### Completion -/

/-- A command answers a next state, of which P holds. -/
def Ends (i : Instr) (s : State) (P : State → Prop) : Prop := ∃ t, exec i s = .next t ∧ P t

/-- Two states that differ in the hardware alone: queue, NOR flash, fuses and warm state are the same. -/
def State.SameStore (s t : State) : Prop := t.pending = s.pending ∧ t.nor = s.nor ∧ t.fuse = s.fuse ∧ t.warm = s.warm

/-! ### Instructions of a core -/

/-- A core executes an instruction: it runs, and the fetch at its pc raises nothing and leaves the state m (R334, R336, R348). -/
def State.Fetches (s : State) (c : CoreId) (m : State) : Prop := s.hw.running c = true ∧ s.fetch c = (m, none)

/-- Two cores that differ at most in what the debug unit sets after an instruction (R498). -/
def Core.Same (x y : Core) : Prop :=
  x = { y with halted := x.halted, stepping := x.stepping, haltPending := x.haltPending }

/-- An instruction, after a fetch that leaves the state m, answers a next state in which every member x of c's lockstep group has
become f x of what it was; every other core, every register but CRS_STAT (its HALTED bits follow the debug unit), every container of
RAM, NOR flash, fuses and queue stay as m has them (R483, R486, R498). -/
def GroupBecomes (i : Instr) (c : CoreId) (s m : State) (f : CoreId → Core → Core) : Prop :=
  Ends i s fun t =>
    m.SameStore t ∧ t.hw.mem = m.hw.mem ∧ (∀ a, a ≠ Reg.CRS_STAT → t.hw.reg a = m.hw.reg a) ∧
    (∀ x, x ∈ m.hw.members c → (t.hw.coreOf x).Same (f x (m.hw.coreOf x))) ∧
    (∀ x, x ∉ m.hw.members c → t.hw.coreOf x = m.hw.coreOf x)

/-- Every member of c's lockstep group executes an instruction on its own registers, with the effect f and then pc, CYCLES and
RETIRED advanced by 1; nothing else changes after the fetch (R320, R335, R483, R486). -/
def Computes (i : Instr) (c : CoreId) (s : State) (f : Core → Core) : Prop :=
  ∀ m, s.Fetches c m → GroupBecomes i c s m fun _ k => (f k).tick

/-- A core executes an instruction that raises an exception: every member of its group takes the entry of R338, which saves and
sets what `Core.except` says; nothing else changes after the fetch (R321, R338, R486). -/
def Raises (i : Instr) (c : CoreId) (s : State) (code : Nat) (tinfo : Word) : Prop :=
  ∀ m, s.Fetches c m → GroupBecomes i c s m fun _ k => k.except code tinfo none

/-- A three-register instruction writes rd with a function of rs1 and rs2. -/
def Writes3 (mk : CoreId → GReg → GReg → GReg → Instr) (v : Word → Word → Word) : Prop :=
  ∀ c rd rs1 rs2 s, Computes (mk c rd rs1 rs2) c s fun k => k.setGpr rd (v (k.gpr rs1) (k.gpr rs2))

/-- A two-register instruction writes rd with a function of rs1. -/
def Writes2 (mk : CoreId → GReg → GReg → Instr) (v : Word → Word) : Prop :=
  ∀ c rd rs1 s, Computes (mk c rd rs1) c s fun k => k.setGpr rd (v (k.gpr rs1))

/-- An immediate instruction writes rd with a function of rs1 and imm24. -/
def WritesImm (mk : CoreId → GReg → GReg → BitVec 24 → Instr) (v : Word → BitVec 24 → Word) : Prop :=
  ∀ c rd rs1 imm s, Computes (mk c rd rs1 imm) c s fun k => k.setGpr rd (v (k.gpr rs1) imm)

/-- A signed result v clamped into a word, in rd; a value that the clamp changes sets FLAGS.SAT, which is sticky (R325, R326). -/
def Core.saturate (k : Core) (rd : GReg) (v : Int) : Core :=
  let w := min (max v (-(2 ^ 39))) (2 ^ 39 - 1)
  ({ k with flags := if w = v then k.flags else k.flags ||| 0x10 }).setGpr rd (BitVec.ofInt 40 w)

/-- A core's accumulator takes a result: wrapped modulo 2^96, its FLAGS.ACC_OV bit set where it wraps (R326). -/
def Core.accumulate (k : Core) (a : Fin 4) (v : Int) : Core :=
  { k with
    acc := Tabs.set zeroAcc k.acc a (BitVec.ofInt 96 v)
    flags := if -(2 ^ 95) ≤ v ∧ v < 2 ^ 95 then k.flags else k.flags ||| (1#40 <<< a.val) }

/-- The signed value of a general register. -/
def Core.sgn (k : Core) (r : GReg) : Int := (k.gpr r).toInt

/-- The signed value of an accumulator. -/
def Core.accVal (k : Core) (a : Fin 4) : Int := (k.accOf a).toInt

/-- A branch: where p holds of rd and rs1, pc becomes pc + sx(imm24); where it does not, the next word (R333). -/
def Branches (mk : CoreId → GReg → GReg → BitVec 24 → Instr) (p : Word → Word → Bool) : Prop :=
  ∀ c rd rs1 imm s m, s.Fetches c m → GroupBecomes (mk c rd rs1 imm) c s m fun _ k =>
    if p (k.gpr rd) (k.gpr rs1) then { k.tick with pc := k.pc + imm.signExtend 40 } else k.tick

end Sys2Proof.Machine
end

