-- ==== Sys2Proof/Certificates/Slice0/Obligations.lean ====
section
/-! DEFINITION. The statements for the provers. Each docstring names the rules of the spec it formalises. -/

open Sys2Proof Sys2Proof.Machine

/-- When a core executes ADD, SUB, AND, OR, XOR, ANDN, SHL, SHR, ASR, LT, LTU, MIN, MAX, MINU, MAXU, MUL, MULHI, MULHIU,
DIV, DIVU, REM or REMU, the command answers a next state in which every core of its group has rd written with the
result that the table of R327 gives for its own rs1 and rs2 (a write to g0 being discarded), and pc, CYCLES and
RETIRED advanced by 1. No other core, no register but CRS_STAT, no memory, no fuse and no waiting command changes.
(R327, R325, R320) -/
def Obligations.IntegerOperationsWriteTheirResult : Prop :=
  Writes3 .add (fun a b => BitVec.ofInt 40 (a.toInt + b.toInt)) ∧
  Writes3 .sub (fun a b => BitVec.ofInt 40 (a.toInt - b.toInt)) ∧
  Writes3 .and (fun a b => a &&& b) ∧
  Writes3 .or (fun a b => a ||| b) ∧
  Writes3 .xor (fun a b => a ^^^ b) ∧
  Writes3 .andn (fun a b => a &&& ~~~b) ∧
  Writes3 .shl (fun a b => if 40 ≤ b.toNat then 0 else BitVec.ofNat 40 (a.toNat * 2 ^ b.toNat)) ∧
  Writes3 .shr (fun a b => if 40 ≤ b.toNat then 0 else BitVec.ofNat 40 (a.toNat / 2 ^ b.toNat)) ∧
  Writes3 .asr (fun a b => BitVec.ofInt 40 (a.toInt / 2 ^ (if b.toNat ≤ 39 then b.toNat else 39))) ∧
  Writes3 .lt (fun a b => if a.toInt < b.toInt then 1 else 0) ∧
  Writes3 .ltu (fun a b => if a.toNat < b.toNat then 1 else 0) ∧
  Writes3 .min (fun a b => if a.toInt ≤ b.toInt then a else b) ∧
  Writes3 .max (fun a b => if a.toInt ≤ b.toInt then b else a) ∧
  Writes3 .minu (fun a b => if a.toNat ≤ b.toNat then a else b) ∧
  Writes3 .maxu (fun a b => if a.toNat ≤ b.toNat then b else a) ∧
  Writes3 .mul (fun a b => BitVec.ofInt 40 (a.toInt * b.toInt)) ∧
  Writes3 .mulhi (fun a b => (BitVec.ofInt 80 (a.toInt * b.toInt)).extractLsb' 40 40) ∧
  Writes3 .mulhiu (fun a b => (BitVec.ofNat 80 (a.toNat * b.toNat)).extractLsb' 40 40) ∧
  Writes3 .div (fun a b => if b = 0 then 0xFFFFFFFFFF else BitVec.ofInt 40 (a.toInt.tdiv b.toInt)) ∧
  Writes3 .divu (fun a b => if b = 0 then 0xFFFFFFFFFF else BitVec.ofNat 40 (a.toNat / b.toNat)) ∧
  Writes3 .rem (fun a b => if b = 0 then a else BitVec.ofInt 40 (a.toInt - b.toInt * a.toInt.tdiv b.toInt)) ∧
  Writes3 .remu (fun a b => if b = 0 then a else BitVec.ofNat 40 (a.toNat % b.toNat))

/-- CLZ counts the leading zero bits of rs1, POPC its 1 bits, ABSS clamps its absolute value (setting FLAGS.SAT where the
clamp changes it), BEXT and BEXTI give a byte of rs1, BINS and BINSI replace one byte of rd; byte 0 is [39:32], a byte
number above 4 gives 0 or leaves rd, and the immediate forms take IDX 0 to 4. (R327, R8) -/
def Obligations.ByteAndCountOperationsWriteTheirResult : Prop :=
  Writes2 .clz (fun a => BitVec.ofNat 40 (if a = 0 then 40 else 39 - Nat.log2 a.toNat)) ∧
  Writes2 .popc (fun a => BitVec.ofNat 40 ((List.range 40).countP fun i => a.getLsbD i)) ∧
  (∀ c rd rs1 s, Computes (.abss c rd rs1) c s fun k => k.saturate rd (k.sgn rs1).natAbs) ∧
  Writes3 .bext (fun a b => if 4 < b.toNat then 0 else (a.extractLsb' (32 - 8 * b.toNat) 8).setWidth 40) ∧
  (∀ c rd rs1 rs2 s, Computes (.bins c rd rs1 rs2) c s fun k =>
    let i := (k.gpr rs2).toNat
    if 4 < i then k.setGpr rd (k.gpr rd)
    else k.setGpr rd ((k.gpr rd &&& ~~~(0xFF#40 <<< (32 - 8 * i))) ||| ((k.gpr rs1 &&& 0xFF) <<< (32 - 8 * i)))) ∧
  (∀ c rd rs1 (idx : Fin 8) s, idx.val ≤ 4 → Computes (.bexti c rd rs1 idx) c s fun k =>
    k.setGpr rd (((k.gpr rs1).extractLsb' (32 - 8 * idx.val) 8).setWidth 40)) ∧
  (∀ c rd rs1 (idx : Fin 8) s, idx.val ≤ 4 → Computes (.binsi c rd rs1 idx) c s fun k =>
    k.setGpr rd ((k.gpr rd &&& ~~~(0xFF#40 <<< (32 - 8 * idx.val))) ||| ((k.gpr rs1 &&& 0xFF) <<< (32 - 8 * idx.val))))

/-- ADDK, LTK, LTKU, ANDK, IORK, XORK, SHK (type in imm24 [7:6], amount in [5:0], at most 39), HIK, PCREL, ADDS and SUBS
write rd with the result of the table, and ADDS and SUBS set FLAGS.SAT where the clamp changes the sum or difference.
(R328, R325) -/
def Obligations.ImmediateOperationsWriteTheirResult : Prop :=
  WritesImm .addk (fun a i => a + i.signExtend 40) ∧
  WritesImm .ltk (fun a i => if a.toInt < i.toInt then 1 else 0) ∧
  WritesImm .ltku (fun a i => if a.toNat < (i.signExtend 40).toNat then 1 else 0) ∧
  WritesImm .andk (fun a i => a &&& i.setWidth 40) ∧
  WritesImm .iork (fun a i => a ||| i.setWidth 40) ∧
  WritesImm .xork (fun a i => a ^^^ i.setWidth 40) ∧
  WritesImm .hik (fun a i => BitVec.ofNat 40 (i.toNat * 2 ^ 16 + a.toNat % 2 ^ 16)) ∧
  (∀ c rd rs1 n s, n ≤ 39 → Computes (.shk c rd rs1 (BitVec.ofNat 24 n)) c s fun k => k.setGpr rd (k.gpr rs1 <<< n)) ∧
  (∀ c rd rs1 n s, n ≤ 39 → Computes (.shk c rd rs1 (BitVec.ofNat 24 (64 + n))) c s fun k => k.setGpr rd (k.gpr rs1 >>> n)) ∧
  (∀ c rd rs1 n s, n ≤ 39 → Computes (.shk c rd rs1 (BitVec.ofNat 24 (128 + n))) c s fun k => k.setGpr rd ((k.gpr rs1).sshiftRight n)) ∧
  (∀ c rd imm s, Computes (.pcrel c rd imm) c s fun k => k.setGpr rd (k.pc + imm.signExtend 40)) ∧
  (∀ c rd rs1 rs2 s, Computes (.adds c rd rs1 rs2) c s fun k => k.saturate rd (k.sgn rs1 + k.sgn rs2)) ∧
  (∀ c rd rs1 rs2 s, Computes (.subs c rd rs1 rs2) c s fun k => k.saturate rd (k.sgn rs1 - k.sgn rs2))

/-- MACS, MSUBS, MACU, MAC2, MSUB2, ACLR, ALD (SH 0 to 56), AADD, ASUB, ASRA (SH 0 to 95) and APUT (part 0, 1 or 2) leave
in the accumulator the exact result of the table of R329; a result outside -2^95 to 2^95 - 1 wraps modulo 2^96 and
sets the FLAGS.ACC_OV bit of that accumulator, which no other result clears. MAC2 and MSUB2 take two products of
neighbouring registers below g31. (R329, R326, R320) -/
def Obligations.AccumulatorOperationsAreExact : Prop :=
  (∀ c a rs1 rs2 s, Computes (.macs c a rs1 rs2) c s fun k => k.accumulate a (k.accVal a + k.sgn rs1 * k.sgn rs2)) ∧
  (∀ c a rs1 rs2 s, Computes (.msubs c a rs1 rs2) c s fun k => k.accumulate a (k.accVal a - k.sgn rs1 * k.sgn rs2)) ∧
  (∀ c a rs1 rs2 s, Computes (.macu c a rs1 rs2) c s fun k => k.accumulate a (k.accVal a + (k.gpr rs1).toNat * (k.gpr rs2).toNat)) ∧
  (∀ c a (rs1 rs2 : GReg) s, rs1.val < 31 ∧ rs2.val < 31 → Computes (.mac2 c a rs1 rs2) c s fun k => 
    k.accumulate a (k.accVal a + k.sgn rs1 * k.sgn rs2 + k.sgn (rs1 + 1) * k.sgn (rs2 + 1))) ∧
  (∀ c a (rs1 rs2 : GReg) s, rs1.val < 31 ∧ rs2.val < 31 → Computes (.msub2 c a rs1 rs2) c s fun k => 
    k.accumulate a (k.accVal a - k.sgn rs1 * k.sgn rs2 - k.sgn (rs1 + 1) * k.sgn (rs2 + 1))) ∧
  (∀ c a s, Computes (.aclr c a) c s fun k => k.accumulate a 0) ∧
  (∀ c a rs1 (sh : Fin 128) s, sh.val ≤ 56 → Computes (.ald c a rs1 sh) c s fun k => k.accumulate a (k.sgn rs1 * 2 ^ sh.val)) ∧
  (∀ c a b s, Computes (.aadd c a b) c s fun k => k.accumulate a (k.accVal a + k.accVal b)) ∧
  (∀ c a b s, Computes (.asub c a b) c s fun k => k.accumulate a (k.accVal a - k.accVal b)) ∧
  (∀ c a (sh : Fin 128) s, sh.val ≤ 95 → Computes (.asra c a sh) c s fun k => k.accumulate a (k.accVal a / 2 ^ sh.val)) ∧
  (∀ c a rs1 s, Computes (.aput c a rs1 0) c s fun k => k.putAcc a ((k.accOf a).extractLsb' 40 56 ++ k.gpr rs1)) ∧
  (∀ c a rs1 s, Computes (.aput c a rs1 1) c s fun k => 
    k.putAcc a ((k.accOf a).extractLsb' 80 16 ++ (k.gpr rs1 ++ (k.accOf a).extractLsb' 0 40))) ∧
  (∀ c a rs1 s, Computes (.aput c a rs1 2) c s fun k => k.putAcc a ((k.gpr rs1).setWidth 16 ++ (k.accOf a).extractLsb' 0 80))

/-- NRWS, NRWW, NRWU (SH 0 to 95), FMULS, FMULW (SH 0 to 79), DIVR (SH 0 to 56) and RSHR (SH 0 to 39) write rd with the
exact value rounded to the nearest integer, a tie going to the even one, then clamped or wrapped; a clamp that changes
the value sets FLAGS.SAT. DIVR by 0 gives 0 for a dividend of 0 and else the bound of its sign with FLAGS.SAT set.
AGET reads part 0, 1 or 2 of an accumulator. (R329, R325, R326) -/
def Obligations.RoundedOperationsWriteTheNearestInteger : Prop :=
  (∀ c rd a (sh : Fin 128) s, sh.val ≤ 95 → Computes (.nrws c rd a sh) c s fun k => k.saturate rd (rhe (k.accVal a) (2 ^ sh.val))) ∧
  (∀ c rd a (sh : Fin 128) s, sh.val ≤ 95 → Computes (.nrww c rd a sh) c s fun k => k.setGpr rd (BitVec.ofInt 40 (rhe (k.accVal a) (2 ^ sh.val)))) ∧
  (∀ c rd a (sh : Fin 128) s, sh.val ≤ 95 → Computes (.nrwu c rd a sh) c s fun k => 
    let v := rhe (k.accVal a) (2 ^ sh.val)
    let w := min (max v 0) (2 ^ 40 - 1)
    ({ k with flags := if w = v then k.flags else k.flags ||| 0x10 } : Core).setGpr rd (BitVec.ofInt 40 w)) ∧
  (∀ c rd rs1 rs2 (sh : Fin 128) s, sh.val ≤ 79 → Computes (.fmuls c rd rs1 rs2 sh) c s fun k => k.saturate rd (rhe (k.sgn rs1 * k.sgn rs2) (2 ^ sh.val))) ∧
  (∀ c rd rs1 rs2 (sh : Fin 128) s, sh.val ≤ 79 → Computes (.fmulw c rd rs1 rs2 sh) c s fun k => 
    k.setGpr rd (BitVec.ofInt 40 (rhe (k.sgn rs1 * k.sgn rs2) (2 ^ sh.val)))) ∧
  (∀ c rd rs1 rs2 (sh : Fin 128) s, sh.val ≤ 56 → Computes (.divr c rd rs1 rs2 sh) c s fun k => 
    if 0 < k.sgn rs2 then k.saturate rd (rhe (k.sgn rs1 * 2 ^ sh.val) (k.sgn rs2))
    else if k.sgn rs2 < 0 then k.saturate rd (rhe (-(k.sgn rs1 * 2 ^ sh.val)) (-k.sgn rs2))
    else if k.sgn rs1 = 0 then k.setGpr rd 0
    else ({ k with flags := k.flags ||| 0x10 } : Core).setGpr rd (if k.sgn rs1 < 0 then 0x8000000000 else 0x7FFFFFFFFF)) ∧
  (∀ c rd rs1 (sh : Fin 128) s, sh.val ≤ 39 → Computes (.rshr c rd rs1 sh) c s fun k => k.setGpr rd (BitVec.ofInt 40 (rhe (k.sgn rs1) (2 ^ sh.val)))) ∧
  (∀ c rd a s, Computes (.aget c rd a 0) c s fun k => k.setGpr rd ((k.accOf a).extractLsb' 0 40)) ∧
  (∀ c rd a s, Computes (.aget c rd a 1) c s fun k => k.setGpr rd ((k.accOf a).extractLsb' 40 40)) ∧
  (∀ c rd a s, Computes (.aget c rd a 2) c s fun k => k.setGpr rd (((k.accOf a).extractLsb' 80 16).signExtend 40)) ∧
  (∀ n d : Int, 0 < d → -d ≤ 2 * (n - d * rhe n d) ∧ 2 * (n - d * rhe n d) ≤ d ∧
    ((2 * (n - d * rhe n d) = d ∨ 2 * (n - d * rhe n d) = -d) → rhe n d % 2 = 0))

/-- On a core of the system profile, BEXTI and BINSI with IDX 5 to 7, SHK with an immediate that is no shift, MAC2 and
MSUB2 with g31, and ALD, ASRA, AGET, APUT, NRWS, NRWW, NRWU, FMULS, FMULW, DIVR and RSHR with SH beyond the range of
the table raise ILLEGAL (code 0x01) with TINFO the instruction word: every core of the group takes the exception
entry, and no register, accumulator, flag, memory word or fuse changes but by that entry. (R321, R327, R328, R329,
R337) -/
def Obligations.FieldsOutOfRangeRaiseIllegal : Prop :=
  ∀ c s, c.isEngine = false →
    (∀ rd rs1 (idx : Fin 8), 5 ≤ idx.val → Raises (.bexti c rd rs1 idx) c s 0x01 (encOp3 0 rd rs1 0 idx 0x22)) ∧
    (∀ rd rs1 (idx : Fin 8), 5 ≤ idx.val → Raises (.binsi c rd rs1 idx) c s 0x01 (encOp3 0 rd rs1 0 idx 0x23)) ∧
    (∀ rd rs1 (imm : BitVec 24), 39 < imm.toNat % 64 ∨ imm.toNat / 64 % 4 = 3 ∨ 256 ≤ imm.toNat →
      Raises (.shk c rd rs1 imm) c s 0x01 (encImm 0x0A rd rs1 imm)) ∧
    (∀ a (rs1 rs2 : GReg), rs1.val = 31 ∨ rs2.val = 31 → Raises (.mac2 c a rs1 rs2) c s 0x01 (encMac 0 rs1 rs2 a 0 0 0x03)) ∧
    (∀ a (rs1 rs2 : GReg), rs1.val = 31 ∨ rs2.val = 31 → Raises (.msub2 c a rs1 rs2) c s 0x01 (encMac 0 rs1 rs2 a 0 0 0x04)) ∧
    (∀ a rs1 (sh : Fin 128), 56 < sh.val → Raises (.ald c a rs1 sh) c s 0x01 (encMac 0 rs1 0 a sh 0 0x09)) ∧
    (∀ a (sh : Fin 128), 95 < sh.val → Raises (.asra c a sh) c s 0x01 (encMac 0 0 0 a sh 0 0x0C)) ∧
    (∀ rd a (sh : Fin 128), 2 < sh.val → Raises (.aget c rd a sh) c s 0x01 (encMac rd 0 0 a sh 0 0x0D)) ∧
    (∀ a rs1 (sh : Fin 128), 2 < sh.val → Raises (.aput c a rs1 sh) c s 0x01 (encMac 0 rs1 0 a sh 0 0x0E)) ∧
    (∀ rd a (sh : Fin 128), 95 < sh.val → Raises (.nrws c rd a sh) c s 0x01 (encMac rd 0 0 a sh 0 0x10)) ∧
    (∀ rd a (sh : Fin 128), 95 < sh.val → Raises (.nrww c rd a sh) c s 0x01 (encMac rd 0 0 a sh 0 0x11)) ∧
    (∀ rd a (sh : Fin 128), 95 < sh.val → Raises (.nrwu c rd a sh) c s 0x01 (encMac rd 0 0 a sh 0 0x12)) ∧
    (∀ rd rs1 rs2 (sh : Fin 128), 79 < sh.val → Raises (.fmuls c rd rs1 rs2 sh) c s 0x01 (encMac rd rs1 rs2 0 sh 0 0x18)) ∧
    (∀ rd rs1 rs2 (sh : Fin 128), 79 < sh.val → Raises (.fmulw c rd rs1 rs2 sh) c s 0x01 (encMac rd rs1 rs2 0 sh 0 0x19)) ∧
    (∀ rd rs1 rs2 (sh : Fin 128), 56 < sh.val → Raises (.divr c rd rs1 rs2 sh) c s 0x01 (encMac rd rs1 rs2 0 sh 0 0x1A)) ∧
    (∀ rd rs1 (sh : Fin 128), 39 < sh.val → Raises (.rshr c rd rs1 sh) c s 0x01 (encMac rd rs1 0 0 sh 0 0x1B))

/-- JEQ, JNE, JLT, JGE, JLTU and JGEU compare rd with rs1 and set pc to pc + sx(imm24) where the condition holds and to pc
+ 1 where it does not; CALL and CALLR write pc + 1 to rd and set pc to pc + sx(imm24) or to rs1 + sx(imm24), rs1 being
read before rd is written. Every core of the group does so on its own registers; nothing else changes but CYCLES and
RETIRED. (R333, R320) -/
def Obligations.BranchesAndCallsMoveThePc : Prop :=
  Branches .jeq (fun a b => a = b) ∧
  Branches .jne (fun a b => a ≠ b) ∧
  Branches .jlt (fun a b => a.toInt < b.toInt) ∧
  Branches .jge (fun a b => b.toInt ≤ a.toInt) ∧
  Branches .jltu (fun a b => a.toNat < b.toNat) ∧
  Branches .jgeu (fun a b => b.toNat ≤ a.toNat) ∧
  (∀ c rd imm s m, s.Fetches c m → GroupBecomes (.call c rd imm) c s m fun _ k =>
    { (k.setGpr rd (k.pc + 1)).tick with pc := k.pc + imm.signExtend 40 }) ∧
  (∀ c rd rs1 imm s m, s.Fetches c m → GroupBecomes (.callr c rd rs1 imm) c s m fun _ k =>
    { (k.setGpr rd (k.pc + 1)).tick with pc := k.gpr rs1 + imm.signExtend 40 })

/-- For every core state: g0 reads 0; a write to g0 leaves the core as it was; a write to another general register is what
a read of it gives, and leaves every other register; at reset every general register and accumulator of every core is
0, and pc advances by 1 from one instruction to the next. (R320) -/
def Obligations.GeneralRegistersHoldWhatIsWritten : Prop :=
  (∀ k : Core, k.gpr 0 = 0) ∧
  (∀ (k : Core) v, k.setGpr 0 v = k) ∧
  (∀ (k : Core) r v, r ≠ 0 → (k.setGpr r v).gpr r = v) ∧
  (∀ (k : Core) r q v, q ≠ r → (k.setGpr r v).gpr q = k.gpr q) ∧
  (∀ c r, (State.reset.hw.coreOf c).gpr r = 0) ∧
  (∀ c a, (State.reset.hw.coreOf c).accOf a = 0) ∧
  (∀ c a v, (State.reset.hw.coreOf c).pc = 0 ∧ ((State.reset.hw.coreOf c).putAcc a v).accOf a = v) ∧
  (∀ k : Core, k.tick.pc = k.pc + 1)

/-- On a core whose level may read (or write) control register n, CRRD gives rd the value of the register, and CRXW, CRSB
and CRCB give rd the old value and write rs1, old or rs1, old and not rs1 into it, each core of the group with its own
registers; n is any number but 59 (IEOI, which ends an interrupt). Below the level PRIVILEGE is raised, and ILLEGAL
where the register does not exist or is read-only, with TINFO the instruction word (on a core of the system profile).
(R334, R335, R485) -/
def Obligations.ControlRegisterInstructionsExchangeValues : Prop :=
  ∀ c s m rd rs1 (n : Fin 128), s.Fetches c m →
    (m.hw.crUse c n false = .ok → GroupBecomes (.crrd c rd n) c s m fun x k => (k.setGpr rd (m.hw.crRead x n)).tick) ∧
    (m.hw.crUse c n true = .ok → n.val ≠ 59 →
      GroupBecomes (.crxw c rd rs1 n) c s m (fun x k => ((k.crWrite n (k.gpr rs1)).setGpr rd (m.hw.crRead x n)).tick) ∧
      GroupBecomes (.crsb c rd rs1 n) c s m (fun x k =>
        ((k.crWrite n (m.hw.crRead x n ||| k.gpr rs1)).setGpr rd (m.hw.crRead x n)).tick) ∧
      GroupBecomes (.crcb c rd rs1 n) c s m (fun x k =>
        ((k.crWrite n (m.hw.crRead x n &&& ~~~(k.gpr rs1))).setGpr rd (m.hw.crRead x n)).tick)) ∧
    (c.isEngine = false → m.hw.crUse c n false = .privilege →
      GroupBecomes (.crrd c rd n) c s m fun _ k => k.except 0x02 (encSys rd 0 n 0x00) none) ∧
    (c.isEngine = false → m.hw.crUse c n true = .privilege →
      GroupBecomes (.crxw c rd rs1 n) c s m fun _ k => k.except 0x02 (encSys rd rs1 n 0x01) none) ∧
    (c.isEngine = false → m.hw.crUse c n true = .illegal →
      GroupBecomes (.crxw c rd rs1 n) c s m fun _ k => k.except 0x01 (encSys rd rs1 n 0x01) none)

/-- On an application core, reading control register n gives the register at or above its lowest level, PRIVILEGE below
it, and ILLEGAL where the table lists no such register; writing does the same with the registers that are read-only
raising ILLEGAL. The table is the one of R335 with the interrupt controller registers of R525: 0, 1, 2, 3, 4, 5 from
L0; 8 to 13, 32 to 34, 56, 59 from L1; 16 to 22, 40, 42, 44 to 46, 57, 60 from L2; 24 to 29, 48, 50, 58 from L3;
STATUS is written from L1; 0, 1, 4, 5 and 60 are read-only. (R335, R525, R321) -/
def Obligations.ControlRegistersOfApplicationCores : Prop :=
  ∀ (h : Hw) (k : Fin 8) (n : Fin 128),
    let l := (h.coreOf (.app k)).level
    let lowest : Option Nat :=
      if n.val ≤ 5 then some 0
      else if (8 ≤ n.val ∧ n.val ≤ 13) ∨ (32 ≤ n.val ∧ n.val ≤ 34) ∨ n.val = 56 ∨ n.val = 59 then some 1
      else if (16 ≤ n.val ∧ n.val ≤ 22) ∨ n.val = 40 ∨ n.val = 42 ∨ (44 ≤ n.val ∧ n.val ≤ 46) ∨ n.val = 57 ∨ n.val = 60 then some 2
      else if (24 ≤ n.val ∧ n.val ≤ 29) ∨ n.val = 48 ∨ n.val = 50 ∨ n.val = 58 then some 3
      else none
    let readOnly := n.val ≤ 1 ∨ n.val = 4 ∨ n.val = 5 ∨ n.val = 60
    (h.crUse (.app k) n false = .ok ↔ ∃ m, lowest = some m ∧ m ≤ l) ∧
    (h.crUse (.app k) n false = .illegal ↔ lowest = none) ∧
    (h.crUse (.app k) n true = .ok ↔ ¬readOnly ∧ ∃ m, lowest = some m ∧ m ≤ l ∧ (n.val = 2 → 1 ≤ l)) ∧
    (h.crUse (.app k) n true = .illegal ↔ lowest = none ∨ readOnly)

/-- On a core of the system profile: TRAP1 takes exception 0x0A from any level; on an application core in the normal world
at L1 or above TRAP2 takes 0x0B, and in any world at L1 or above TRAP3 takes 0x0C, each with TINFO 0; below L1 they
raise PRIVILEGE, and TRAP2 in the secure world or on a Crest core and TRAP3 on a Crest core raise ILLEGAL. DSTOP takes
0x09 with TINFO pc while invasive debug is not enabled, and halts the group while it is. RETT at L1 or above returns
where the saved status names an allowed level and world, raises ILLEGAL where it does not, and PRIVILEGE at L0. (R334,
R337, R338, R339, R510) -/
def Obligations.TrapsTakeTheirException : Prop :=
  ∀ c s m, c.isEngine = false → s.Fetches c m →
    let k0 := m.hw.coreOf c
    let ok := k0.rettOk c.isCrest (k0.crAt (8 * k0.level + 4))
    (GroupBecomes (.trap1 c) c s m fun _ k => k.except 0x0A 0 none) ∧
    (c.isApp = true → k0.ns = true → 1 ≤ k0.level → GroupBecomes (.trap2 c) c s m fun _ k => k.except 0x0B 0 none) ∧
    (c.isApp = true → 1 ≤ k0.level → GroupBecomes (.trap3 c) c s m fun _ k => k.except 0x0C 0 none) ∧
    (m.invasive c = false → GroupBecomes (.dstop c) c s m fun _ k => k.except 0x09 k0.pc none) ∧
    (m.invasive c = true → Ends (.dstop c) s fun t => ∀ x, x ∈ m.hw.members c →
      t.hw.coreOf x = { m.hw.coreOf x with halted := true, stepping := false, haltPending := false }) ∧
    (1 ≤ k0.level → ok = true → GroupBecomes (.rett c) c s m fun _ k => k.rett) ∧
    (1 ≤ k0.level → ok = false → GroupBecomes (.rett c) c s m fun _ k => k.except 0x01 (encSys 0 0 0 0x0B) none) ∧
    (k0.level = 0 → GroupBecomes (.rett c) c s m fun _ k => k.except 0x02 (encSys 0 0 0 0x0B) none) ∧
    (c.isApp = true → k0.ns = true → k0.level = 0 → GroupBecomes (.trap2 c) c s m fun _ k => k.except 0x02 (encSys 0 0 0 0x09) none) ∧
    (c.isCrest = true ∨ k0.ns = false → GroupBecomes (.trap2 c) c s m fun _ k => k.except 0x01 (encSys 0 0 0 0x09) none) ∧
    (c.isCrest = true → GroupBecomes (.trap3 c) c s m fun _ k => k.except 0x01 (encSys 0 0 0 0x0A) none)

/-- For every core state, code 0x01 to 0x0C and TINFO: the target level is L2 for TRAP2 and for a stage-2 fault, L3 for
TRAP3, and otherwise the current level, raised to L1 from L0; after the entry PSTAT of that level holds the old
STATUS, RPC holds pc (pc + 1 for TRAP1, TRAP2 and TRAP3), TCODE the code and TINFO its value; STATUS holds the target
level, IE 0, and NS 0 at L3, 1 at L2, unchanged otherwise; pc is TBASE of the target level; no general register,
accumulator or flag changes. (R338) -/
def Obligations.ExceptionEntrySavesAndVectors : Prop :=
  ∀ (k : Core) (code : Nat) (ti : Word), 1 ≤ code → code ≤ 0x0C →
    let t := if code = 0x0B then 2 else if code = 0x0C then 3 else if code = 0x07 ∨ code = 0x08 then 2
      else if k.level = 0 then 1 else k.level
    let r := k.except code ti none
    r.level = t ∧ r.ie = false ∧ r.ns = (if t = 3 then false else if t = 2 then true else k.ns) ∧
      r.status.toNat < 8 ∧
      r.crAt (8 * t + 4) = k.status ∧
      r.crAt (8 * t + 1) = (if 0x0A ≤ code then k.pc + 1 else k.pc) ∧
      r.crAt (8 * t + 2) = BitVec.ofNat 40 code ∧ r.crAt (8 * t + 3) = ti ∧
      r.pc = r.crAt (8 * t) ∧ r.crAt (8 * t) = Tabs.get Core.crReset k.cr (Core.crKey r.ns (8 * t)) ∧
      r.g = k.g ∧ r.acc = k.acc ∧ r.flags = k.flags

/-- For every core state at level L: after RETT, STATUS is PSTAT_L (its bits [3:0], which are all it has) and pc is RPC_L.
From L3 into the normal world, where the last entry from the normal world was a TRAP3 or there has been none since
reset, g1 to g4 keep their values and g5 to g31, every accumulator and FLAGS are 0; where it was any other exception
or an interrupt, g1 to g31, the accumulators and FLAGS are those of the shadow bank. In every other case they stay.
(R339, R511) -/
def Obligations.ReturnRestoresTheSavedState : Prop :=
  ∀ k : Core,
    let l := k.level
    let st := k.crAt (8 * l + 4)
    let r := k.rett
    r.status = st &&& 0xF ∧ r.pc = k.crAt (8 * l + 1) ∧
    (¬(l = 3 ∧ st.getLsbD 2 = true) → (∀ g, r.gpr g = k.gpr g) ∧ (∀ a, r.accOf a = k.accOf a) ∧ r.flags = k.flags) ∧
    (l = 3 → st.getLsbD 2 = true → (k.shadow = none ∨ ∃ b, k.shadow = some b ∧ b.byTrap3 = true) →
      (∀ g : GReg, g.val ≤ 4 → r.gpr g = k.gpr g) ∧ (∀ g : GReg, 5 ≤ g.val → r.gpr g = 0) ∧ (∀ a, r.accOf a = 0) ∧ r.flags = 0) ∧
    (∀ b, l = 3 → st.getLsbD 2 = true → k.shadow = some b → b.byTrap3 = false →
      (∀ g : GReg, g ≠ 0 → r.gpr g = Tabs.get zeroReg b.g g) ∧ (∀ a : Fin 4, r.accOf a = Tabs.get zeroAcc b.acc a) ∧ r.flags = b.flags)

/-- ORDER on any core, and ORDER.X on a core of the system profile, retire with no other effect (one access is made at a
time). IDLE at L1 or above retires and leaves the core waiting unless an interrupt is pending for it. XFL.VA, XFL.AS
and XFL.ALL at L1 or above and XFL.IPA and XFL.VM at L2 or above retire and drop, on every core of the issuing cluster
and nowhere else, exactly the cached translations that R334 names. Below their level these raise PRIVILEGE, and all
but ORDER raise ILLEGAL on an engine. (R332, R334, R343, R345) -/
def Obligations.BarriersIdleAndTranslationDrops : Prop :=
  ∀ c s m, s.Fetches c m →
    let k0 := m.hw.coreOf c
    let sys := c.isEngine = false
    let cluster := fun (x : CachedXlat) => decide (x.core < 8) == c.isCrest
    let drops := fun (i : Instr) (p : CachedXlat → Bool) =>
      GroupBecomes i c s m (fun _ k => k.tick) ∧ Ends i s fun t => t.hw.xlat = m.hw.xlat.filter fun x => !(cluster x && p x)
    GroupBecomes (.order c) c s m (fun _ k => k.tick) ∧
    (sys → GroupBecomes (.orderX c) c s m fun _ k => k.tick) ∧
    (sys → 1 ≤ k0.level → GroupBecomes (.idle c) c s m fun _ k => { k.tick with idle := !m.hw.wakes c }) ∧
    (∀ rs1, sys → 1 ≤ k0.level → drops (.xflVa c rs1) fun x => k0.regimeHit x && x.vpage == (k0.gpr rs1).toNat / 4096 &&
      (bitN x.attr 7 || x.asid == if k0.level ≤ 1 then bitsOf (k0.crAt 33) 15 0 else 0)) ∧
    (∀ rs1, sys → 1 ≤ k0.level → drops (.xflAs c rs1) fun x =>
      !x.stage2 && x.regime == 1 && !bitN x.attr 7 && x.asid == bitsOf (k0.gpr rs1) 15 0) ∧
    (sys → 1 ≤ k0.level → drops (.xflAll c) fun x => k0.level == 2 || k0.regimeHit x) ∧
    (∀ rs1, sys → 2 ≤ k0.level → drops (.xflIpa c rs1) fun x => x.stage2 && x.vpage == (k0.gpr rs1).toNat / 4096) ∧
    (∀ rs1, sys → 2 ≤ k0.level → drops (.xflVm c rs1) fun x => x.ns && x.regime == 1 && x.vmid == bitsOf (k0.gpr rs1) 3 0) ∧
    (sys → k0.level < 1 → GroupBecomes (.idle c) c s m fun _ k => k.except 0x02 (encSys 0 0 0 0x0C) none) ∧
    (∀ rs1, sys → k0.level < 2 → GroupBecomes (.xflVm c rs1) c s m fun _ k => k.except 0x02 (encSys 0 rs1 0 0x1C) none)

/-- On an application core whose data address rs1 + sx(imm24) translates to a physical address in RAM, boot ROM or NOR
flash that the firewall opens to the identity of the core: LD of a word without an uncorrectable flaw gives rd the
word and advances pc, changing nothing else; ST to a RAM address whose domain is on writes rd there with the version
tag of R145, and every other container, register but CRS_STAT, core, fuse and NOR word stays. Where the firewall is
closed, both raise ACCESS_FAULT with TINFO the data address, and no memory changes. (R330, R336, R155, R505, R145) -/
def Obligations.LoadsAndStoresOfApplicationCores : Prop :=
  ∀ (k : Fin 8) s m m2 rd rs1 imm (pa : Nat) (dev : Bool), s.Fetches (.app k) m → State.isPeripheral pa = false →
    let c := CoreId.app k
    let va := (m.hw.appCore k).gpr rs1 + imm.signExtend 40
    let va2 := (m2.hw.appCore k).gpr rs1 + imm.signExtend 40
    let who := m2.hw.coreWho c
    (∀ w flaw, m.translate c va .load = (m2, .ok pa dev) → m2.hw.memAllows who false pa = true → flaw ≠ .double →
      m2.memRead pa = .ok w → GroupBecomes (.ld c rd rs1 imm flaw) c s m2 fun _ x => (x.setGpr rd w).tick) ∧
    (m.translate c va .store = (m2, .ok pa dev) → m2.hw.memAllows who true pa = true → m2.hw.storable pa = true →
      Ends (.st c rd rs1 imm) s fun t =>
        t.hw.ram pa = { data := (m2.hw.appCore k).gpr rd, tag := m2.hw.tagNow, poisoned := false } ∧
        (∀ a, a ≠ pa → t.hw.ram a = m2.hw.ram a) ∧ m2.SameStore t ∧ (∀ a, a ≠ Reg.CRS_STAT → t.hw.reg a = m2.hw.reg a) ∧
        (t.hw.appCore k).Same (m2.hw.appCore k).tick ∧ ∀ x, x ≠ c → t.hw.coreOf x = m2.hw.coreOf x) ∧
    (m.translate c va .load = (m2, .ok pa dev) → m2.hw.memAllows who false pa = false →
      Ends (.ld c rd rs1 imm .sound) s fun t =>
        (t.hw.appCore k).Same ((m2.hw.appCore k).except 0x03 va2 none) ∧ t.hw.mem = m2.hw.mem ∧
        t.hw.reg Reg.WLD_CNT_DENY = (m2.hw.count Reg.WLD_CNT_DENY).reg Reg.WLD_CNT_DENY) ∧
    (m.translate c va .store = (m2, .ok pa dev) → m2.hw.memAllows who true pa = false →
      Ends (.st c rd rs1 imm) s fun t =>
        (t.hw.appCore k).Same ((m2.hw.appCore k).except 0x03 va2 none) ∧ t.hw.mem = m2.hw.mem)

/-- On an application core whose rs1 translates to an address of RAM that is no device memory, is open to its identity for
writing, on and without an uncorrectable flaw: rd takes the old word; SWAP stores rs2, XADD stores old + rs2, CAS
stores rs2 where the old word equals rd and stores nothing where it does not; a stored word carries the version tag of
R145, every other container, register but CRS_STAT, core, fuse and NOR word stays. To device memory each raises
ACCESS_FAULT with TINFO rs1 and changes no memory. (R330, R331, R145, R505) -/
def Obligations.AtomicsExchangeOneWord : Prop :=
  ∀ (k : Fin 8) s m m2 rd rs1 rs2 (pa : Nat) old, s.Fetches (.app k) m →
    let c := CoreId.app k
    let va := (m.hw.appCore k).gpr rs1
    let stores := fun (i : Instr) (new : Option Word) => Ends i s fun t =>
      t.hw.ram pa = (match new with
        | some v => { data := v, tag := m2.hw.tagNow, poisoned := false }
        | none => m2.hw.ram pa) ∧
      (∀ a, a ≠ pa → t.hw.ram a = m2.hw.ram a) ∧ m2.SameStore t ∧ (∀ a, a ≠ Reg.CRS_STAT → t.hw.reg a = m2.hw.reg a) ∧
      (t.hw.appCore k).Same ((m2.hw.appCore k).setGpr rd old).tick ∧ ∀ x, x ≠ c → t.hw.coreOf x = m2.hw.coreOf x
    (m.translate c va .atomic = (m2, .ok pa false) → m2.hw.memAllows (m2.hw.coreWho c) true pa = true →
      m2.hw.storable pa = true → m2.memRead pa = .ok old →
      stores (.swap c rd rs1 rs2 .sound) (some ((m2.hw.appCore k).gpr rs2)) ∧
      stores (.xadd c rd rs1 rs2 .sound) (some (old + (m2.hw.appCore k).gpr rs2)) ∧
      (old = (m2.hw.appCore k).gpr rd → stores (.cas c rd rs1 rs2 .sound) (some ((m2.hw.appCore k).gpr rs2))) ∧
      (old ≠ (m2.hw.appCore k).gpr rd → stores (.cas c rd rs1 rs2 .sound) none)) ∧
    (m.translate c va .atomic = (m2, .ok pa true) →
      GroupBecomes (.swap c rd rs1 rs2 .sound) c s m2 (fun _ x => x.except 0x03 (x.gpr rs1) none) ∧
      GroupBecomes (.xadd c rd rs1 rs2 .sound) c s m2 (fun _ x => x.except 0x03 (x.gpr rs1) none) ∧
      GroupBecomes (.cas c rd rs1 rs2 .sound) c s m2 (fun _ x => x.except 0x03 (x.gpr rs1) none))

/-- On an engine in a task, with o = rs1 + sx(imm24) below 0x100: LDP in a STEP or AUDIT task, and LDTG in a SELFTEST
task, give rd the word, or the version tag, of point o of FRAME where its container is not poisoned. STP in a STEP or
AUDIT task writes rd there with the version tag of the task; in a speculative STEP after CKPT with WBOUND above 0 the
old word and tag join the undo log and WBOUND falls by 1; SIG folds in the offset and then the word. No other
container of RAM changes, and pc, CYCLES and RETIRED advance by 1. (R351, R352, R356, R281, R283, R348) -/
def Obligations.EnginePointInstructions : Prop :=
  ∀ (e : Fin 512) s m (t : Task) rd rs1 imm, s.Fetches (.engine e) m → (m.hw.engine e).task = some t →
    let g := m.hw.engine e
    let c := CoreId.engine e
    let ofs := (g.core.gpr rs1 + imm.signExtend 40).toNat
    let a := frameAddr e t.frame ofs
    let point := t.kind = .step ∨ t.kind = .audit
    let spec := t.kind = .step ∧ t.spec = true
    ofs < 0x100 →
    (point → (m.hw.ram a).poisoned = false →
      GroupBecomes (.ldp c rd rs1 imm .sound) c s m fun _ k => (k.setGpr rd (m.hw.ram a).data).tick) ∧
    (t.kind = .selftest → (m.hw.ram a).poisoned = false →
      GroupBecomes (.ldtg c rd rs1 imm .sound) c s m fun _ k => (k.setGpr rd ((m.hw.ram a).tag.setWidth 40)).tick) ∧
    (point → (spec → t.ckpt = true ∧ 0 < t.wbound) →
      Ends (.stp c rd rs1 imm) s fun t2 =>
        t2.hw.ram a = { data := g.core.gpr rd, tag := t.tag, poisoned := false } ∧
        (∀ b, b ≠ a → t2.hw.ram b = m.hw.ram b) ∧ m.SameStore t2 ∧
        (t2.hw.engine e).core.Same g.core.tick ∧
        (t2.hw.engine e).sig = misrFold (misrFold g.sig (BitVec.ofNat 40 ofs)) (g.core.gpr rd) ∧
        (spec → (t2.hw.engine e).task = some { t with wbound := t.wbound - 1 } ∧
          (t2.hw.engine e).undo = g.undo ++
            [{ boundary := false, frame := t.frame, ofs := ofs, tag := (m.hw.ram a).tag, word := (m.hw.ram a).data }]) ∧
        (¬spec → (t2.hw.engine e).task = some t ∧ (t2.hw.engine e).undo = g.undo))

/-- On an engine in a task: PSR and PSW whose operands R354 admits add an outstanding stream after the others; PWAIT and
ENDT first complete every outstanding stream; CKPT in a STEP that has not run it marks the boundary, in the undo log
too when the step is speculative; RBK in a ROLLBACK task undoes the data entries of the frame with LC at or above
TASK_LC and gives rd their number; CMT in a RELEASE task removes the entries with LC at or below TASK_LC and gives rd
their number; ENDT ends the task, reports SIG when SIGCAP is 1 and 0 otherwise, and remembers rd; RDLC gives TASK_LC
and SIGR gives SIG. pc, CYCLES and RETIRED advance by 1. (R353, R354, R348, R281, R356) -/
def Obligations.EngineTaskInstructions : Prop :=
  ∀ (e : Fin 512) s m (t : Task) rd (rs1 rs2 : GReg) (tgt : Fin 8) (len : BitVec 12),
    s.Fetches (.engine e) m → (m.hw.engine e).task = some t →
    let g := m.hw.engine e
    let c := CoreId.engine e
    let stream := fun (w : Bool) => ({ write := w, tgt := tgt, loc := (g.core.gpr rs1).toNat,
                                       target := (g.core.gpr rs2).toNat, words := len.toNat + 1 } : Stream)
    let admitted := fun (w : Bool) => m.hw.streamOk t w tgt (g.core.gpr rs1).toNat (g.core.gpr rs2).toNat (len.toNat + 1) = none
    (admitted false → Ends (.psr c rs1 rs2 tgt len) s fun t2 =>
      (t2.hw.engine e).streams = g.streams ++ [stream false] ∧ (t2.hw.engine e).core.Same g.core.tick ∧ t2.hw.mem = m.hw.mem) ∧
    (admitted true → Ends (.psw c rs1 rs2 tgt len) s fun t2 =>
      (t2.hw.engine e).streams = g.streams ++ [stream true] ∧ (t2.hw.engine e).core.Same g.core.tick ∧ t2.hw.mem = m.hw.mem) ∧
    (∀ h, m.hw.streamDrain e g.streams.length = (h, none) → Ends (.pwait c) s fun t2 =>
      t2.hw.mem = h.mem ∧ (t2.hw.engine e).streams = (h.engine e).streams ∧ (t2.hw.engine e).core.Same (h.engine e).core.tick) ∧
    (t.kind = .step → t.ckpt = false → Ends (.ckpt c) s fun t2 =>
      (t2.hw.engine e).task = some { t with ckpt := true } ∧ (t2.hw.engine e).core.Same g.core.tick ∧
      (t2.hw.engine e).undo = (if t.spec then g.undo ++ [{ boundary := true, frame := t.frame, word := word t.lc }] else g.undo)) ∧
    (t.kind = .rollback → poisonedUndo g.undo (undoFrom t.frame t.lc g.undo).1 = none → Ends (.rbk c rd) s fun t2 =>
      t2.hw.mem = (m.hw.restore e (undoFrom t.frame t.lc g.undo).1).mem ∧
      (t2.hw.engine e).undo = (undoFrom t.frame t.lc g.undo).2 ∧
      (t2.hw.engine e).core.Same
        (g.core.setGpr rd (word ((undoFrom t.frame t.lc g.undo).1.filter fun u => !u.boundary).length)).tick) ∧
    (t.kind = .release → Ends (.cmt c rd) s fun t2 =>
      t2.hw.mem = m.hw.mem ∧ (t2.hw.engine e).undo = (undoUpTo t.frame t.lc g.undo).2 ∧
      (t2.hw.engine e).core.Same (g.core.setGpr rd (word (undoUpTo t.frame t.lc g.undo).1.length)).tick) ∧
    ((t.kind = .release ∨ t.kind = .selftest) → g.streams = [] → Ends (.endt c rd) s fun t2 =>
      (t2.hw.engine e).task = none ∧ (t2.hw.engine e).endRd = rd.val ∧
      (t2.hw.engine e).report = some (0, if t.sigcap then g.sig else 0) ∧ (t2.hw.engine e).core.Same g.core.tick ∧
      t2.hw.mem = m.hw.mem) ∧
    GroupBecomes (.rdlc c rd) c s m (fun _ k => (k.setGpr rd (word t.lc)).tick) ∧
    GroupBecomes (.sigr c rd) c s m (fun _ k => (k.setGpr rd g.sig).tick)

/-- On an engine in a task with no outstanding stream: LD of a working-area address below 0x800 that is not poisoned gives
rd its word, 0 where nothing has written it in this task; ST writes rd there. In a SELFTEST task, LD and ST of 0x80000
+ w reach word w of the ridge store, with w below 0x68000. LD and ST of an address from 0x1000 to 0x7FFFF or of
0x100000 and above raise ACCESS_FAULT: the task is abandoned with code 0x03 and TINFO the address. (R330, R350, R354,
R145) -/
def Obligations.EngineDataAccesses : Prop :=
  ∀ (e : Fin 512) s m (t : Task) rd rs1 imm, s.Fetches (.engine e) m → (m.hw.engine e).task = some t →
    (m.hw.engine e).streams = [] →
    let g := m.hw.engine e
    let c := CoreId.engine e
    let a := (g.core.gpr rs1 + imm.signExtend 40).toNat
    let local' := Tabs.get (fun _ => ({} : Container)) g.work a
    let w := ridgeWord (e / 32) (a - 0x80000)
    (a < 0x800 → local'.poisoned = false →
      GroupBecomes (.ld c rd rs1 imm .sound) c s m fun _ k => (k.setGpr rd local'.data).tick) ∧
    (a < 0x800 → Ends (.st c rd rs1 imm) s fun t2 =>
      (t2.hw.engine e).core.Same g.core.tick ∧ t2.hw.mem = m.hw.mem ∧
      (Tabs.get (fun _ => ({} : Container)) (t2.hw.engine e).work a).data = g.core.gpr rd ∧
      ∀ b, b ≠ a → Tabs.get (fun _ => ({} : Container)) (t2.hw.engine e).work b = Tabs.get (fun _ => ({} : Container)) g.work b) ∧
    (t.kind = .selftest → 0x80000 ≤ a → a < 0xE8000 → (m.hw.ram w).poisoned = false →
      GroupBecomes (.ld c rd rs1 imm .sound) c s m fun _ k => (k.setGpr rd (m.hw.ram w).data).tick) ∧
    (t.kind = .selftest → 0x80000 ≤ a → a < 0xE8000 → Ends (.st c rd rs1 imm) s fun t2 =>
      (t2.hw.engine e).core.Same g.core.tick ∧ (t2.hw.ram w).data = g.core.gpr rd ∧ ∀ b, b ≠ w → t2.hw.ram b = m.hw.ram b) ∧
    ((0x1000 ≤ a ∧ a < 0x80000 ∨ 0x100000 ≤ a) →
      exec (.ld c rd rs1 imm .sound) s = .next ((m.onHw fun h => h.engineExcept e 0x03 (word a)).afterInstr c) ∧
      exec (.st c rd rs1 imm) s = .next ((m.onHw fun h => h.engineExcept e 0x03 (word a)).afterInstr c))

/-- VIN above its threshold in Off boots the device with cause VIN (1); within a last gasp it only notes that VIN has
returned. RESET_N, the recovery of VAO after its failure, a lockout (GOLD has not reached Control after three boots
that failed, at most once in 60 s of powered time) and a debug reset with the secure world’s invasive debug enabled
boot it with causes 2, 3, 5 and 6; with DBG_LOCK blown the debug port counts a refusal instead. The end of VHOLD
within a last gasp takes every rail away. A boot starts with the cause recorded, no warm state, the straps read, and
LC one above the highest LC that the NOR flash records. (R69, R98, R99, R111, R112, R114, R118, R122, R526, R587) -/
def Obligations.ResetsBootTheDevice : Prop :=
  (∀ (s : State) cause straps, (s.bootStart cause straps).hw.pwr.cause = cause ∧ (s.bootStart cause straps).warm = none ∧
      (s.bootStart cause straps).hw.lc = s.highestLc + 1 ∧ (s.bootStart cause straps).hw.pwr.straps = straps.toNat) ∧
  (∀ (b : BootFacts) s,
      s.hw.booted = false →
      (s.hw.bit Reg.PWR_RAIL_PG 0 && !s.hw.aoOn) = false →
      Ends (.vinStart b) s fun t =>
        t = (s.boot 1 b) ∧
        t.hw.pwr.cause = 1 ∧ t.hw.lc = State.highestLc s + 1 ∧ t.warm = none ∧ t.pending = s.pending) ∧
  (∀ (b : BootFacts) s, s.hw.booted = true → s.hw.pwr.gasp = true → exec (.vinStart b) s = .next (
        s.onHw fun h => (h.setBit Reg.PWR_RAIL_PG 0).onPwr fun p => { p with vinBack := true })) ∧
  (∀ (b : BootFacts) s, s.hw.bit Reg.PWR_RAIL_PG 0 = true →
      Ends (.resetNPulse b) s fun t =>
        t = ((s.norEnds 6).boot 2 b) ∧
        t.hw.pwr.cause = 2 ∧ t.hw.lc = State.highestLc (s.norEnds 6) + 1 ∧ t.warm = none ∧ t.pending = s.pending) ∧
  (∀ (b : BootFacts) s,
      s.hw.aoOn = false →
      s.hw.bit Reg.PWR_RAIL_FAIL 1 = true →
      s.hw.bit Reg.PWR_RAIL_PG 0 = true →
      Ends (.vaoRecovery b) s fun t =>
        t = (s.boot 3 b) ∧
        t.hw.pwr.cause = 3 ∧ t.hw.lc = State.highestLc s + 1 ∧ t.warm = none ∧ t.pending = s.pending) ∧
  (∀ (b : BootFacts) s,
      s.hw.booted = true →
      s.hw.pwr.gold = true →
      4 ≤ s.hw.pwr.failed →
      s.hw.level < 2 →
      (s.hw.pwr.lockout = 0 ∨ s.hw.pwr.lockout + 60000 ≤ s.hw.poweredMs + 1) →
      Ends (.lockoutReset b) s fun t =>
        t = ((s.onHw fun h => h.onPwr fun p => { p with lockout := h.poweredMs + 1 }).boot 5 b) ∧
        t.hw.pwr.cause = 5 ∧ t.hw.lc = State.highestLc s + 1 ∧ t.warm = none ∧ t.pending = s.pending) ∧
  (∀ (b : BootFacts) s,
      s.hw.booted = true →
      s.hw.sysOn = true →
      s.debugPort = true →
      bitN s.wldDbg.toNat 3 = true →
      Ends (.debugReset b) s fun t =>
        t = ((s.norEnds 6).boot 6 b) ∧
        t.hw.pwr.cause = 6 ∧ t.hw.lc = State.highestLc (s.norEnds 6) + 1 ∧ t.warm = none ∧ t.pending = s.pending) ∧
  (∀ (b : BootFacts) s, s.hw.booted = true → s.hw.sysOn = true → s.fuse.dbgLock = true → exec (.debugReset b) s = .next (
        s.onHw fun h => h.count Reg.DBG_CNT_REFUSED)) ∧
  (∀ s, s.hw.pwr.gasp = true →
      Ends (.vholdExhausted) s fun t =>
        t = ((s.norEnds 6).toOff.onHw fun h => h.clearBit Reg.PWR_RAIL_PG 0) ∧
        t.hw.reg Reg.PWR_RAIL_PG = 0 ∧ t.hw.reg Reg.CLK_STAT = 0 ∧ t.hw.booted = false ∧ t.hw.mem = [] ∧ t.warm = none)

/-- The loss of VIN outside a Dusk starts the last gasp: PWR_RAIL_PG.VIN falls, Dusk begins with target Off and cause 4,
single Crest cores are held. A rail that fails while it is on sets its bit of PWR_RAIL_FAIL and its entry, loses what
it feeds, and the level falls; a failed island is marked and its pages are placed elsewhere; a recovered rail is good
again. A clock source that does not start in time is restarted once and then left unclocked and logged. The level
falls to what the working units hold, rises through the start of the units it needs, and PWR_VHOLD and LG_READY follow
the measured VHOLD at 17 000 mV. (R69, R71, R73, R80, R96, R97, R98, R105, R110) -/
def Obligations.PowerAndClockEventsHaveTheirConsequences : Prop :=
  (∀ s,
      s.hw.booted = true →
      s.hw.pstate ≠ psDusk →
      s.hw.bit Reg.PWR_VHOLD 16 = true →
      Ends (.vinLoss) s fun t =>
        t = (s.onHw fun h =>
          let h := (h.clearBit Reg.PWR_RAIL_PG 0).onPwr fun p => { p with gasp := true, short := false, vinBack := false, thenReset := false }
          ((h.duskBegin 2 4).setFld Reg.PWR_STATE Fld.PWR_STATE_CAUSE 4).gaspCrest) ∧
        t.hw.pstate = psDusk ∧ t.hw.duskTarget = 2 ∧ t.hw.fld Reg.PWR_STATE Fld.PWR_STATE_CAUSE = 4 ∧ t.hw.bit Reg.PWR_RAIL_PG 0 = false ∧
        t.hw.pwr.gasp = true ∧ t.hw.pwr.short = false) ∧
  (∀ (r : Fin 25) s,
      s.hw.aoOn = true →
      3 ≤ r.val →
      r.val < 8 →
      s.hw.bit Reg.PWR_RAIL_PG r = true →
      s.hw.pstate ≠ psNight → exec (.railFailure r) s = .next (s.onHw fun h =>
        let h := h.setBit Reg.PWR_RAIL_FAIL r
        let h := h.retEntry 0x02 (h.reg Reg.PWR_RAIL_FAIL)
        (if r.val = 3 then h.loseFab.clearBit Reg.PWR_RAIL_PG 3
         else if r.val = 4 ∨ r.val = 5 then (h.loseDram.clearBit Reg.PWR_RAIL_PG r).clearBit Reg.PWR_STATE 7
         else h.ringsDown.clearBit Reg.PWR_RAIL_PG r).levelFall)) ∧
  (∀ (r : Fin 25) s, s.hw.aoOn = true → 9 ≤ r.val → s.hw.islandOn (r - 9) = true → exec (.railFailure r) s = .next (s.onHw fun h =>
        let h := h.setBit Reg.PWR_RAIL_FAIL r
        ((h.retEntry 0x02 (h.reg Reg.PWR_RAIL_FAIL)).failIsland (r - 9)).levelFall)) ∧
  (∀ (r : Fin 25) s,
      s.hw.booted = true →
      2 ≤ r.val →
      s.hw.pstate ≠ psNight →
      s.hw.pstate ≠ psDawn →
      s.hw.bit Reg.PWR_RAIL_FAIL r = true → exec (.railRecovery r) s = .next (s.onHw fun h =>
        if r.val < 9 then h.setBit Reg.PWR_RAIL_PG r
        else (h.setBit Reg.PWR_ISLAND_PG (r - 9)).clearBit Reg.FAB_ISLAND (r - 9))) ∧
  (∀ (c : Fin 8) s,
      s.hw.booted = true →
      s.hw.pstate ≠ psNight →
      c.val ≠ 0 →
      bitN s.hw.pwr.restarted c = false → exec (.clockSourceTimeout c) s = .next (
        s.onHw fun h => (h.clockUp c).onPwr fun p => { p with restarted := setBitN p.restarted c })) ∧
  (∀ (c : Fin 8) s,
      s.hw.booted = true →
      s.hw.pstate ≠ psNight →
      c.val ≠ 0 →
      bitN s.hw.pwr.restarted c = true → exec (.clockSourceTimeout c) s = .next (
        s.onHw fun h => ((h.clocksOff [c]).retEntry 0x03 ((h.clocksOff [c]).reg Reg.CLK_STAT)).clockDown c)) ∧
  (∀ (c : Fin 8) s, s.hw.booted = true → c.val ≠ 0 → s.hw.bit Reg.CLK_STAT c = true →
      Ends (.clockSourceLost c) s fun t =>
        t = (s.onHw fun h => h.clockDown c) ∧
        t.hw.bit Reg.CLK_STAT c = false ∧ (c.val = 7 → ∀ k, 1 ≤ k → k < 8 → t.hw.bit Reg.CLK_STAT k = false)) ∧
  (∀ s, s.hw.booted = true → s.hw.levelNow < s.hw.level →
      Ends (.serviceLevelFall) s fun t =>
        t = (s.onHw fun h => h.setLevel h.levelNow) ∧
        t.hw.level = s.hw.levelNow) ∧
  (∀ fail s,
      s.hw.booted = true →
      (s.hw.pwr.stuck = false ∨ s.hw.level < s.hw.pwr.top) →
      (s.hw.pstate = psBoot ∨ s.hw.pstate = psDay) →
      (s.levelRise fail).hw.pstate ≠ psDawn →
      Ends (.serviceLevelRise fail) s fun t =>
        t = (s.levelRise fail) ∧
        s.hw.level ≤ t.hw.level ∧ t.hw.level ≤ s.hw.level + 1 ∧ (fail = false → s.hw.level = 0 → 1 ≤ s.hw.levelNow → t.hw.level = 1)) ∧
  (∀ (mv : BitVec 16) s, s.hw.aoOn = true → exec (.lgReadyChange mv) s = .next (s.onHw fun h =>
        let h := h.setReg Reg.PWR_VHOLD (word (b2n (decide (17000 ≤ mv.toNat)) * 2 ^ 16 + mv.toNat))
        if 17000 ≤ mv.toNat then h.setBit Reg.PWR_STATE 6 else h.clearBit Reg.PWR_STATE 6))

/-- A write of PWR_CMD by the secure world or Crest outside a Dusk, a Dawn, an update or a mode change makes the command
pending for PWR_CMD_LC or the next LC. At its LC a shutdown begins a commanded Dusk; a Night command begins Dusk where
the dwell is complete and the policy allows it, and is refused with STATE where the dwell is not; a reset command
begins the Dusk that ends in a reset. AUTO begins Dusk 16 cycles after the dwell was complete. A Dusk with everything
committed ends in Night, and after an INSTALL in a reset. Bursts run at every LC that is a multiple of 100 in Night;
an active wake source starts Dawn by its rule; a Dawn without a failed step resumes the warm state. (R76, R77, R78,
R80, R84, R89, R90, R92, R105, R113, R703) -/
def Obligations.NightAndDayCommandsMoveThePowerState : Prop :=
  (∀ who s,
      s.hw.MayWrite who Reg.PWR_CMD →
      (who = .secure ∨ who = .crest) →
      s.hw.pwrBusy = false →
      s.hw.pstate = psDay → exec (.pwrCmdEnterNight who) s = .next (
        s.onHw fun h => ((h.setReg Reg.PWR_CMD_STAT 0).onPwr fun p => { p with cmds := (p.cmds ++ [(1, max (h.reg Reg.PWR_CMD_LC).toNat (h.lc + 1))]).eraseDups }).busOk 0)) ∧
  (∀ who s,
      s.hw.MayWrite who Reg.PWR_CMD →
      (who = .secure ∨ who = .crest) →
      s.hw.pwrBusy = false →
      s.hw.pstate = psDay → exec (.pwrCmdShutdown who) s = .next (
        s.onHw fun h => ((h.setReg Reg.PWR_CMD_STAT 0).onPwr fun p => { p with cmds := (p.cmds ++ [(2, max (h.reg Reg.PWR_CMD_LC).toNat (h.lc + 1))]).eraseDups }).busOk 0)) ∧
  (∀ s,
      s.hw.booted = true →
      s.hw.pstate = psDay →
      s.hw.cmdDue 2 0x03000100 = true →
      Ends (.powerCommandCommit) s fun t =>
        t = ((s.onHw fun h => (h.settleLc (Hw.lcDue 0x03000100 h.lc) 1 0).settleLc (Hw.lcDue 0x03000000 h.lc) 2 stState).commandedDusk false) ∧
        t.hw.pstate = psDusk ∧ t.hw.duskTarget = 2 ∧ t.hw.fld Reg.PWR_STATE Fld.PWR_STATE_CAUSE = 2 ∧ t.hw.pwr.duskAt = s.hw.lc ∧ t.hw.pwr.cmds = [] ∧ t.hw.pwr.thenReset = false) ∧
  (∀ s,
      s.hw.booted = true →
      s.hw.pstate = psDay →
      s.hw.cmdDue 2 0x03000100 = false →
      s.hw.cmdDue 1 0x03000000 = true →
      s.hw.dwelled = true →
      s.hw.policy ≠ 0 →
      Ends (.powerCommandCommit) s fun t =>
        t = (s.onHw fun h => (h.settleLc (Hw.lcDue 0x03000000 h.lc) 1 0).duskBegin 1 2) ∧
        t.hw.pstate = psDusk ∧ t.hw.duskTarget = 1 ∧ t.hw.fld Reg.PWR_STATE Fld.PWR_STATE_CAUSE = 2 ∧ t.hw.pwr.duskAt = s.hw.lc ∧ t.hw.pwr.cmds = []) ∧
  (∀ s,
      s.hw.booted = true →
      s.hw.pstate = psDay →
      s.hw.cmdDue 2 0x03000100 = false →
      s.hw.cmdDue 1 0x03000000 = true →
      s.hw.dwelled = false → exec (.powerCommandCommit) s = .next (s.onHw fun h =>
        ((h.settleLc (Hw.lcDue 0x03000000 h.lc) 2 stState).setReg Reg.PWR_CMD_STAT 1).onPwr fun p =>
        { p with cmds := p.cmds.filter fun x => !(x.1 == 1 && decide (x.2 ≤ h.lc)) })) ∧
  (∀ d s,
      s.hw.pwr.dwellAt = some d →
      s.hw.booted = true →
      s.hw.pstate = psDay →
      s.hw.policy = 2 →
      s.hw.dwelled = true →
      d + 16 ≤ s.hw.lc →
      s.hw.upd.act = none →
      Ends (.duskStart) s fun t =>
        t = (s.onHw fun h => h.duskBegin 1 1) ∧
        t.hw.pstate = psDusk ∧ t.hw.duskTarget = 1 ∧ t.hw.fld Reg.PWR_STATE Fld.PWR_STATE_CAUSE = 1 ∧ t.hw.pwr.duskAt = s.hw.lc ∧ t.hw.pwr.cmds = []) ∧
  (∀ s,
      s.hw.booted = true →
      s.hw.pstate = psDay →
      (∃ n, s.hw.pwr.reset = some n ∧ n ≤ s.hw.lc) →
      Ends (.resetCommandCommit) s fun t =>
        t = ((s.onHw fun h => h.settleLc (Hw.lcDue 0x03030000 h.lc) 1 0).commandedDusk true) ∧
        t.hw.pstate = psDusk ∧ t.hw.duskTarget = 2 ∧ t.hw.fld Reg.PWR_STATE Fld.PWR_STATE_CAUSE = 2 ∧ t.hw.pwr.duskAt = s.hw.lc ∧ t.hw.pwr.cmds = [] ∧ t.hw.pwr.thenReset = true) ∧
  (∀ (b : BootFacts) s,
      s.hw.upd.install = false →
      s.hw.booted = true →
      s.hw.pstate = psDusk →
      s.hw.pwr.gasp = false →
      s.hw.duskCommitted = true →
      s.hw.duskTarget = 1 →
      Ends (.duskComplete b) s fun t =>
        t = ((s.onHw fun h => h.handoversEnd).duskNight) ∧
        (s.hw.pwr.wakes = 0 → t.hw.pstate = psNight) ∧ (t.hw.pstate = psNight ∨ t.hw.pstate = psDawn) ∧ t.warm.isSome = true ∧
        t.hw.bit Reg.PWR_RAIL_PG 2 = false ∧ t.hw.bit Reg.PWR_RAIL_PG 3 = false ∧ t.hw.bit Reg.PWR_RAIL_PG 8 = false) ∧
  (∀ (b : BootFacts) s, s.hw.upd.install = true → s.hw.booted = true →
      Ends (.duskComplete b) s fun t =>
        t = ((s.norEnds 6).boot 4 b) ∧
        t.hw.pwr.cause = 4 ∧ t.hw.lc = State.highestLc (s.norEnds 6) + 1 ∧ t.warm = none ∧ t.pending = s.pending) ∧
  (∀ frames x s,
      s.hw.booted = true →
      s.hw.pstate = psNight →
      s.hw.bit Reg.VNK_CTRL 1 = true →
      s.hw.lc % 100 = 0 →
      s.hw.pwr.burstAt ≤ s.hw.lc →
      s.hw.cycle ≠ s.hw.lc →
      Ends (.nightBurst frames x) s fun t =>
        t = (s.onHw fun h => h.burst h.lc true frames x) ∧
        t.hw.cycle = s.hw.lc ∧ t.hw.reg Reg.CLK_STAT = s.hw.reg Reg.CLK_STAT) ∧
  (∀ (src : BitVec 12) s,
      s.hw.booted = true →
      s.hw.pstate = psNight →
      (s.hw.reg Reg.WAKE_TIMER).toNat = s.hw.lc →
      s.hw.wakeable src.toNat ≠ [] →
      Ends (.wakeSourceActive src) s fun t =>
        t = (s.onHw fun h => h.wake src.toNat) ∧
        t.hw.pstate = psDawn ∧ t.hw.fld Reg.PWR_STATE Fld.PWR_STATE_CAUSE = 3 ∧
        ∀ i, i < 12 → t.hw.bit Reg.WAKE_SRC i = decide (i ∈ s.hw.wakeable src.toNat)) ∧
  (∀ (fail : Fin 7) w s,
      s.hw.booted = true →
      s.hw.pstate = psDawn →
      s.hw.pwr.stuck = false →
      fail.val = 0 →
      s.warm = some w →
      s.hw.bit Reg.PWR_STATE 7 = true →
      Ends (.dawnComplete fail) s fun t =>
        t = ({ s with warm := none, hw := Hw.dawnWarm (s.hw.dawnRails.dieWindows false) w }) ∧
        t.hw.pstate = psDay ∧ 2 ≤ t.hw.level ∧ t.hw.fab.pages = w.fab.pages ∧ t.hw.vms = w.vms ∧ t.hw.reg Reg.PWR_ISLAND_PG = w.reg Reg.PWR_ISLAND_PG) ∧
  (∀ (fail : Fin 7) s,
      s.hw.booted = true →
      s.hw.pstate = psDawn →
      s.hw.pwr.stuck = false →
      fail.val ≠ 0 →
      Ends (.dawnComplete fail) s fun t =>
        t = (s.dawnFails fail) ∧
        t.hw.pwr.stuck = true ∧ t.hw.pwr.stepFail = fail.val ∧ t.hw.pstate = psDawn)

/-- A write of PWR_GATE_REQ by the owner of a block 0 to 39: clock-gate sets the bit of the block in PWR_CLK_GATED (and
the link of an EP falls), ungate clears it, power off takes the power of the block away and the level may fall, power
on gives it back; PWR_GATE_STAT of that identity then reads the block with result 0. Where another holder holds the
block, a power-off is refused with HELD: PWR_HELD_CNT counts it, every holder gets its notice, the result is 1 and the
block stays as it was. (R100, R101, R102, R103, R104) -/
def Obligations.GateRequestsActOrAreHeld : Prop :=
  (∀ who (block : Byte) s,
      s.hw.MayWrite who Reg.PWR_GATE_REQ →
      block.toNat ≤ 39 →
      whoCode who ≠ 0 →
      s.hw.gateOwner block.toNat = whoCode who →
      s.hw.heldAgainst who block.toNat = false → exec (.gateClock who block) s = .next (s.onHw fun h =>
        (let h := h.setBit Reg.PWR_CLK_GATED block.toNat
        let h := if 25 ≤ block.toNat ∧ block.toNat ≤ 32 then h.linkFall (block.toNat - 25) else h
        { h with gateStat := Tabs.set (fun _ => (0 : Word)) h.gateStat (whoBit who) (word (block.toNat * 2 ^ 8)) }).busOk 0)) ∧
  (∀ who (block : Byte) s,
      s.hw.MayWrite who Reg.PWR_GATE_REQ →
      block.toNat ≤ 39 →
      whoCode who ≠ 0 →
      s.hw.gateOwner block.toNat = whoCode who → exec (.gateUngate who block) s = .next (s.onHw fun h =>
        (let h := h.clearBit Reg.PWR_CLK_GATED block.toNat
        { h with gateStat := Tabs.set (fun _ => (0 : Word)) h.gateStat (whoBit who) (word (block.toNat * 2 ^ 8)) }).busOk 0)) ∧
  (∀ who (block : Byte) s,
      s.hw.MayWrite who Reg.PWR_GATE_REQ →
      block.toNat ≤ 39 →
      whoCode who ≠ 0 →
      s.hw.gateOwner block.toNat = whoCode who →
      s.hw.heldAgainst who block.toNat = false → exec (.gatePowerOff who block) s = .next (s.onHw fun h =>
        (let h := ((h.blockOff block.toNat).mbxDomainOff).levelFall
        { h with gateStat := Tabs.set (fun _ => (0 : Word)) h.gateStat (whoBit who) (word (block.toNat * 2 ^ 8)) }).busOk 0)) ∧
  (∀ who (block : Byte) s,
      s.hw.MayWrite who Reg.PWR_GATE_REQ →
      block.toNat ≤ 39 →
      whoCode who ≠ 0 →
      s.hw.gateOwner block.toNat = whoCode who → exec (.gatePowerOn who block) s = .next (s.onHw fun h =>
        (let h := h.blockOn_ block.toNat
        { h with gateStat := Tabs.set (fun _ => (0 : Word)) h.gateStat (whoBit who) (word (block.toNat * 2 ^ 8)) }).busOk 0)) ∧
  (∀ who (block : Byte) s,
      s.hw.MayWrite who Reg.PWR_GATE_REQ →
      block.toNat ≤ 39 →
      whoCode who ≠ 0 →
      s.hw.gateOwner block.toNat = whoCode who →
      s.hw.heldAgainst who block.toNat = true → exec (.gatePowerOff who block) s = .next (s.onHw fun h =>
        (let h := (h.count Reg.PWR_HELD_CNT).heldNotices who block.toNat 2
        { h with gateStat := Tabs.set (fun _ => (0 : Word)) h.gateStat (whoBit who) (word (block.toNat * 2 ^ 8 + 1)) }).busOk 0))

/-- In Day at Full with an hour since the last one, CHECKPOINT_DUE writes a checkpoint to the slot of the lowest SLOT_SEQ:
version 1, a SLOT_SEQ one above every other, LC_COMMIT, the cell map, the FMC format, the number of cells and the 64
points 0x20 to 0x5F of every declared cell in index order. CHECKPOINT_COMMIT programs the commit word over those words
after the last of them, and erases nothing while at most 14 slots are written. (R132, R133, R161) -/
def Obligations.CheckpointsAreWrittenAndCommitted : Prop :=
  (∀ s : State, s.hw.norOn = true → s.hw.ckpt = none →
      let cells := s.cellsInOrder
      let seq := (List.range 16).foldl (fun m j => max m (s.ckptSeq j)) 0 + 1
      s.writeCheckpoint.hw.ckpt = some s.ckptNext ∧ s.writeCheckpoint.hw.fab.sinceCkpt = 0 ∧
      s.writeCheckpoint.nor = s.nor.programList (norCkpt + 0x110000 * s.ckptNext)
        ([1, word seq, word s.hw.lcCommit, s.hw.cfg.fab.cellmap, word (Config.fmcFormat s.hw.builds.fmc % 2 ^ 16), word cells.length, 0, 0] ++
          cells.flatMap fun c => (List.range 64).map fun j => s.hw.point c (0x20 + j))) ∧
  (∀ s,
      s.hw.inState psDay = true →
      s.hw.level = 3 →
      3600000 ≤ s.hw.fab.sinceCkpt →
      s.hw.norOn = true →
      s.hw.ckpt = none →
      Ends (.checkpointDue) s fun t =>
        t = (s.writeCheckpoint) ∧
        t.hw.ckpt = some s.ckptNext ∧ t.hw.fab.sinceCkpt = 0 ∧ t.pending = s.pending ∧ t.hw.mem = s.hw.mem) ∧
  (∀ k s,
      s.hw.ckpt = some k →
      s.hw.norOn = true →
      ((List.range 16).filter fun j => ({ s with nor := s.nor.program (norCkpt + 0x110000 * k + 8 + 64 * (s.ckptWord k 5).toNat) (State.commitWord ((List.range (8 + 64 * (s.ckptWord k 5).toNat)).map fun w => s.ckptWord k w)), hw := { s.hw with ckpt := none } } : State).ckptWritten j).length ≤ 14 → exec (.checkpointCommit) s = .next (
        { s with
        nor := s.nor.program (norCkpt + 0x110000 * k + 8 + 64 * (s.ckptWord k 5).toNat)
          (State.commitWord ((List.range (8 + 64 * (s.ckptWord k 5).toNat)).map fun w => s.ckptWord k w))
        hw := { s.hw with ckpt := none } }))

/-- A write of NOR_CMD by the secure world or Crest with the flash idle starts an erase of whole blocks, or a program from
secure SRAM or DRAM that the writer may read: NOR_STAT takes BUSY and WHO. In the lifecycle PROVISIONED and later a
range below the active partitions answers PROTECTED (3) at once. An abort ends the running operation with result 6. At
its end an erase leaves its range erased, a program its words with the result of the verification, and a failed
operation its range undefined with result 5. A patrol reads the next container of a memory that is scrubbed, and wraps
at its end. (R157, R158, R159, R160, R166, R151, R284) -/
def Obligations.NorOperationsAndThePatrolComplete : Prop :=
  (∀ (who : Who) s,
      s.hw.MayWrite who Reg.NOR_CMD →
      State.norWho who ≠ 0 →
      s.hw.norOn = true →
      s.hw.norOp = none →
      (2 ≤ s.fuse.lifecycle → norActive ≤ s.hw.fld Reg.NOR_ADDR Fld.NOR_ADDR_WADDR) →
      s.hw.fld Reg.NOR_LEN Fld.NOR_LEN_WORDS ≠ 0 ∧ s.hw.fld Reg.NOR_LEN Fld.NOR_LEN_WORDS ≤ 4194304 ∧ s.hw.fld Reg.NOR_ADDR Fld.NOR_ADDR_WADDR + s.hw.fld Reg.NOR_LEN Fld.NOR_LEN_WORDS ≤ norLast + 1 →
      s.hw.fld Reg.NOR_ADDR Fld.NOR_ADDR_WADDR % 0x10000 = 0 ∧ s.hw.fld Reg.NOR_LEN Fld.NOR_LEN_WORDS % 0x10000 = 0 → exec (.norErase who) s = .next (
        (s.onHw fun h => { (h.setFld Reg.NOR_STAT Fld.NOR_STAT_WHO (State.norWho who)).setBit Reg.NOR_STAT 0 with
        norOp := some { erase := true, addr := h.fld Reg.NOR_ADDR Fld.NOR_ADDR_WADDR, len := h.fld Reg.NOR_LEN Fld.NOR_LEN_WORDS,
                        src := h.fld Reg.NOR_SRC Fld.NOR_SRC_SRC, who := State.norWho who } }).onHw fun h => h.busOk 0)) ∧
  (∀ (who : Who) s,
      s.hw.MayWrite who Reg.NOR_CMD →
      State.norWho who ≠ 0 →
      s.hw.norOn = true →
      s.hw.norOp = none →
      (2 ≤ s.fuse.lifecycle → norActive ≤ s.hw.fld Reg.NOR_ADDR Fld.NOR_ADDR_WADDR) →
      s.hw.fld Reg.NOR_LEN Fld.NOR_LEN_WORDS ≠ 0 ∧ s.hw.fld Reg.NOR_LEN Fld.NOR_LEN_WORDS ≤ 4194304 ∧ s.hw.fld Reg.NOR_ADDR Fld.NOR_ADDR_WADDR + s.hw.fld Reg.NOR_LEN Fld.NOR_LEN_WORDS ≤ norLast + 1 →
      (0x100000 ≤ s.hw.fld Reg.NOR_SRC Fld.NOR_SRC_SRC ∧ s.hw.fld Reg.NOR_SRC Fld.NOR_SRC_SRC + s.hw.fld Reg.NOR_LEN Fld.NOR_LEN_WORDS ≤ 0x180000) ∨ (dramBase ≤ s.hw.fld Reg.NOR_SRC Fld.NOR_SRC_SRC ∧ s.hw.fld Reg.NOR_SRC Fld.NOR_SRC_SRC + s.hw.fld Reg.NOR_LEN Fld.NOR_LEN_WORDS ≤ 0x180000000) →
      s.hw.memAllows (if s.hw.masters.any (fun x => x.1 == Reg.NOR_SRC) then bitWho (Tabs.get (fun _ => 0) s.hw.masters Reg.NOR_SRC) else who) false (s.hw.fld Reg.NOR_SRC Fld.NOR_SRC_SRC) = true → exec (.norProgram who) s = .next (
        (s.onHw fun h => { (h.setFld Reg.NOR_STAT Fld.NOR_STAT_WHO (State.norWho who)).setBit Reg.NOR_STAT 0 with
        norOp := some { erase := false, addr := h.fld Reg.NOR_ADDR Fld.NOR_ADDR_WADDR, len := h.fld Reg.NOR_LEN Fld.NOR_LEN_WORDS,
                        src := h.fld Reg.NOR_SRC Fld.NOR_SRC_SRC, who := State.norWho who } }).onHw fun h => h.busOk 0)) ∧
  (∀ (who : Who) s,
      s.hw.MayWrite who Reg.NOR_CMD →
      State.norWho who ≠ 0 →
      s.hw.norOn = true →
      s.hw.norOp = none →
      2 ≤ s.fuse.lifecycle →
      s.hw.fld Reg.NOR_ADDR Fld.NOR_ADDR_WADDR < norActive → exec (.norErase who) s = .next (
        (s.onHw fun h => (h.setFld Reg.NOR_STAT Fld.NOR_STAT_WHO (State.norWho who)).setFld Reg.NOR_STAT Fld.NOR_STAT_RESULT 3).onHw fun h => h.busOk 0)) ∧
  (∀ (who : Who) s,
      s.hw.MayWrite who Reg.NOR_CMD →
      State.norWho who ≠ 0 →
      s.hw.norOn = true →
      s.hw.norOp = none →
      2 ≤ s.fuse.lifecycle →
      s.hw.fld Reg.NOR_ADDR Fld.NOR_ADDR_WADDR < norActive → exec (.norProgram who) s = .next (
        (s.onHw fun h => (h.setFld Reg.NOR_STAT Fld.NOR_STAT_WHO (State.norWho who)).setFld Reg.NOR_STAT Fld.NOR_STAT_RESULT 3).onHw fun h => h.busOk 0)) ∧
  (∀ (who : Who) s,
      s.hw.MayWrite who Reg.NOR_CMD →
      State.norWho who ≠ 0 →
      s.hw.norOn = true → exec (.norAbort who) s = .next (
        (s.norEnds 6).onHw fun h => h.busOk 0)) ∧
  (∀ op s, s.hw.norOp = some op → s.hw.norOn = true → op.erase = true → exec (.norOperationDone true) s = .next (
        ({ s with nor := s.nor.erase op.range.1 op.range.2 } : State).onHw fun h =>
        { (h.setFld Reg.NOR_STAT Fld.NOR_STAT_RESULT 0).clearBit Reg.NOR_STAT 0 with norOp := none })) ∧
  (∀ op s, s.hw.norOp = some op → s.hw.norOn = true → op.erase = false → exec (.norOperationDone true) s = .next (
        (s.norWords op.addr op.src op.len 0).1.onHw fun h =>
        { (h.setFld Reg.NOR_STAT Fld.NOR_STAT_RESULT (s.norWords op.addr op.src op.len 0).2).clearBit Reg.NOR_STAT 0 with norOp := none })) ∧
  (∀ op s, s.hw.norOp = some op → s.hw.norOn = true → exec (.norOperationDone false) s = .next (s.norEnds 5)) ∧
  (∀ m f s, (s.hw.scrubbed m).2.2.2 = true → (∀ e, m ≠ .localMem e) → exec (.patrolScrub m f) s = .next (s.onHw fun h =>
        let x := h.scrubbed m
        let i := Tabs.get (fun _ => (0 : Nat)) h.patrol x.1
        ({ h with patrol := Tabs.set (fun _ => (0 : Nat)) h.patrol x.1 ((i + 1) % x.2.2.1) } : Hw).meetFlaw (x.2.1 + i) f)) ∧
  (∀ e s, (s.hw.scrubbed (.localMem e)).2.2.2 = true → exec (.patrolScrub (.localMem e) .sound) s = .next (s.onHw fun h =>
        let i := Tabs.get (fun _ => (0 : Nat)) h.patrol (64 + e.val)
        { h with patrol := Tabs.set (fun _ => (0 : Nat)) h.patrol (64 + e.val) ((i + 1) % 0x1000) }))

/-- With VIN good in a booted device, SAMPLE_INSTANT advances LC by 1, powered time by 1 ms and the grid by the length of
the cycle, applies a written FAB_LT_CFG and the start of a span, then the pending writes that are due in Day and in
the boot, then the load commands and dies, the analogue inputs and the EVENT channels. A pending write gets the STATUS
of its object. The manager commits the next cycle once its inputs are known and every placed page has run it.
Balancing is decided once per period on the committed values; an island that is empty is powered off, and one that is
needed is powered on. (R22, R25, R26, R27, R299, R313, R314, R367, R420, R421) -/
def Obligations.TheSampleInstantAndTheCommitAdvanceTheCycle : Prop :=
  (∀ x s, s.hw.booted = true → s.hw.bit Reg.PWR_RAIL_PG 0 = true →
      let n := s.hw.lc + 1
      let s0 := s.onHw fun h =>
        x.localHits.foldl (fun (h : Hw) a => h.strikeLocal a.1.val a.2.toNat) (x.hits.foldl (fun (h : Hw) a => h.strike a.toNat) h)
      let s1 := s0.onHw fun h => (((h.timeAt n).stopBalancing n).settingsAt.spanAt n).calEffect n
      let s2 := if s1.hw.sysOn && s1.hw.crestOn && (s1.hw.inState psDay || s1.hw.inState psBoot) then s1.applyDue n else s1
      let s3 := s2.loadsAt n x.loads
      exec (.sampleInstant x) s = .next ((s3.onHw fun h => ((h.inputsAt x).eventsKnown n).timerAt n).hvfStep)) ∧
  (∀ (h : Hw) n, (h.timeAt n).lc = n ∧ (h.timeAt n).poweredMs = h.poweredMs + 1 ∧ (h.timeAt n).tu.tSi = h.tu.tSi + h.cycleLen) ∧
  (∀ (h : Hw) w, h.fab.ltCfg = some w → h.settingsAt.fab.ltCfg = none ∧ h.settingsAt.reg Reg.FAB_LT_CFG = w) ∧
  (∀ (s : State) n (w : LcWrite) ob, s.pendObj w = some ob →
      s.applyWrite w n = (ob.apply s w.value n).1.settled w (ob.apply s w.value n).2) ∧
  (∀ s, s.hw.committable s.hw.commitNext = true →
      Ends (.commitCycle) s fun t =>
        t = (s.onHw fun h => (h.commit h.commitNext).summaries) ∧
        t.hw.reg Reg.FAB_LC_COMMIT = word s.hw.commitNext ∧ t.hw.lc = s.hw.lc) ∧
  (∀ s,
      s.hw.islandAuto = true →
      s.hw.fab.evac = none →
      (List.range 16).all (fun r => !s.hw.mayPowerOff r) = true → exec (.islandAutoOff) s = .next (
        s)) ∧
  (∀ (r : Nat) s,
      s.hw.islandAuto = true →
      s.hw.fab.evac = some r →
      s.hw.bit Reg.FAB_ISLAND (16 + r) = true →
      s.hw.islandOn r = true →
      s.hw.islandPages r = [] → exec (.islandAutoOff) s = .next (
        s.onHw fun h => h.requestOff r)) ∧
  (∀ (r : Fin 16) s,
      s.hw.fabOn = true →
      s.hw.bit Reg.FAB_CTRL 0 = true →
      s.hw.islandOn r = false →
      s.hw.islandFailed r = false →
      (s.hw.overloaded = true ∨ s.hw.unplaced = true ∨ s.hw.bit Reg.FAB_ISLAND (16 + r) = false) → exec (.islandPowerOn r) s = .next (
        s.onHw fun h => ({ h with fab := { h.fab with evac := none } } : Hw).gate .hypervisor r 3)) ∧
  (∀ s,
      s.hw.inState psDay = true →
      s.hw.crestOn = true →
      s.hw.carriesInputs s.hw.balCycle = true →
      s.hw.crs.balAt ≠ s.hw.balCycle + 1 →
      s.hw.lcCommit ≠ 0 →
      Ends (.balancingDecision) s fun t =>
        t = (s.onHw fun h => h.balance h.balCycle) ∧
        t.hw.crs.balAt = s.hw.balCycle + 1 ∧
        (s.hw.cfg.fab.balance = [] → t.hw.crs.balReq = s.hw.crs.balReq) ∧ t.hw.mem = s.hw.mem ∧ t.hw.lc = s.hw.lc)

/-- For a page that needs no restart: where its next step is ready as a certain or a speculative one, TASK_DISPATCH_STEP
starts it with the page, its frame, level, LC and, for a speculative step, the declared write bound; where the undo
log leaves no room the step stalls with STALL and its counter; where it has to wait nothing changes. A rollback, a
release, an audit on an engine of another ridge, a task of an instance with budget on an engine with no step ready,
and a self-test on an engine without a page are loaded as tasks of their kind; a self-test that fails quarantines the
engine with cause 2. (R282, R296, R297, R311, R348, R370, R372, R373, R545, R309, R347) -/
def Obligations.TheManagerDispatchesTasks : Prop :=
  (∀ (g : Fin 17744) (run : Bool) s m, (s.hw.page g).restart = false → (s.hw.page g).spec = [] → s.hw.ready g = .certain m →
      let h1 := s.hw.startStep g m false
      let e := (h1.page g).engine
      (run = false → exec (.taskDispatchStep g run) s = .next (s.onHw fun h => h.startStep g m false)) ∧
      (∀ t, run = true → (h1.engine e).task = some t →
        exec (.taskDispatchStep g run) s = .next (s.onHw fun h => (h.startStep g m false).runStep e t))) ∧
  (∀ (g : Fin 17744) s m, (s.hw.page g).restart = false → (s.hw.page g).spec = [] → s.hw.ready g = .spec m →
      exec (.taskDispatchStep g false) s = .next (s.onHw fun h => h.startStep g m true)) ∧
  (∀ (g : Fin 17744) (run : Bool) s, (s.hw.page g).restart = false → (s.hw.page g).spec = [] → s.hw.ready g = .stall →
      let m := s.hw.stepCycle g + 1
      exec (.taskDispatchStep g run) s = .next (s.onHw fun h =>
        (if (h.page g).stalled = m then h
         else (h.count Reg.FAB_CNT_STALL).setPage g { h.page g with stalled := m }).setFld Reg.FAB_STAT Fld.FAB_STAT_STALL 1)) ∧
  (∀ (g : Fin 17744) (run : Bool) s, (s.hw.page g).restart = false → (s.hw.page g).spec = [] → s.hw.ready g = .wait →
      exec (.taskDispatchStep g run) s = .next s) ∧
  (∀ (h : Hw) (g m : Nat) (spec : Bool),
      let t := h.startStep g m spec
      let e := (h.page g).engine
      ∃ k, (t.engine e).task = some k ∧ k.kind = .step ∧ k.spec = spec ∧ k.level = pageLevel g ∧ k.frame = (h.page g).frame ∧
        k.page = g ∧ k.lc = m ∧ k.wbound = (if spec then Config.fmcBound g else 0)) ∧
  (∀ (g : Fin 17744) m s, (s.hw.page g).rollback = some m → s.hw.ownerFree g = true →
      Ends (.taskDispatchRollback g false) s fun t =>
        t = (s.onHw fun h => h.pageJob .rollback g m) ∧
        ∃ k, (t.hw.engine (s.hw.page g).engine).task = some k ∧ k.kind = .rollback ∧ k.page = g.val ∧ k.lc = m ∧
          k.frame = (s.hw.page g).frame ∧ t.hw.mem = s.hw.mem) ∧
  (∀ (g : Fin 17744) s,
      (s.hw.page g).spec = [] →
      s.hw.ownerFree g = true →
      s.hw.releasable g = true →
      Ends (.taskDispatchRelease g false) s fun t =>
        t = (s.onHw fun h => h.pageJob .release g ((h.page g).certain - 1)) ∧
        ∃ k, (t.hw.engine (s.hw.page g).engine).task = some k ∧ k.kind = .release ∧ k.page = g.val ∧ k.lc = (s.hw.page g).certain - 1 ∧
          k.frame = (s.hw.page g).frame ∧ t.hw.mem = s.hw.mem) ∧
  (∀ (e : Fin 512) a odd s,
      s.hw.fab.audit = some a →
      s.hw.engineFree e = true →
      e.val / 32 ≠ a.owner / 32 →
      a.ownerSig ≠ none →
      a.lc ≤ s.hw.lcCommit →
      a.auditor = none → exec (.taskDispatchAudit e false odd) s = .next (
        s.onHw fun h => ({ h with fab := { h.fab with audit := some { a with auditor := some e } } } : Hw).startAudit e { a with auditor := some e })) ∧
  (∀ (e : Fin 512) a odd s,
      s.hw.fab.audit = some a →
      s.hw.engineFree e = true →
      e.val / 32 ≠ a.owner / 32 →
      a.ownerSig ≠ none →
      a.lc ≤ s.hw.lcCommit →
      a.auditor = none → exec (.taskDispatchAudit e true odd) s = .next (s.onHw fun h =>
        let a := { a with auditor := some e.val }
        let h := ({ h with fab := { h.fab with audit := some a } } : Hw).startAudit e a
        let sig := odd.getD (h.auditSig a)
        (h.setEngine e { h.engine e with task := none, report := some (0, sig) }).auditEnded e sig)) ∧
  (∀ (e : Fin 512) (i : Fin 16) x s,
      (s.hw.inst i).item = some x →
      s.hw.engineFree e = true →
      (∀ y ∈ s.hw.fab.pages, y.2.engine = e.val → s.hw.ready y.1 = .wait ∨ s.hw.ready y.1 = .stall) →
      (s.hw.inst i).state = .busy →
      x.run = true →
      x.code = 0 →
      x.given < x.tasks →
      0 < (s.hw.inst i).budget → exec (.taskDispatchInstance e i) s = .next (s.onHw fun h =>
        (h.setInst i { h.inst i with item := some { x with given := x.given + 1 } }).loadTask e
        { kind := .inst, page := x.given, lc := 0, slot := h.mcSlot, fi := i })) ∧
  (∀ (e : Fin 512) s, s.hw.engineFree e = true → s.hw.pagesOn e = 0 → exec (.taskDispatchSelftest e true true) s = .next (s.onHw fun h =>
        let h := h.loadTask e { kind := .selftest, slot := h.mcSlot }
        h.setEngine e { h.engine e with task := none, report := some (0, 0) })) ∧
  (∀ (e : Fin 512) s, s.hw.engineFree e = true → s.hw.pagesOn e = 0 → exec (.taskDispatchSelftest e true false) s = .next (s.onHw fun h =>
        let h := h.loadTask e { kind := .selftest, slot := h.mcSlot }
        (h.setEngine e { h.engine e with task := none, report := some (0, 0) }).quarantine e 2))

/-- A write of FAB_MIG_REQ migrates a declared RESIDENT page to a named active engine, into a pool frame away from home,
brings a page home, or quarantines an engine with cause 5; one that is quarantined stays as it is. A copy that ends
ends the migration; a rebuilt page that has caught up is RESIDENT, and the last one raises the interrupt. A reduction
takes the next cycle that every source has certainly stepped, keeps 256 cycles, and is placed in the page where its
step waits for it. A step that runs too long quarantines its engine with cause 4. An audit names a page and a coming
step that is no cold pass. (R293, R302, R303, R304, R306, R307, R308, R309, R310, R317) -/
def Obligations.PagesMoveAreRebuiltAndReduced : Prop :=
  (∀ (h : Hw) g e homeOnly, g < 17744 → h.pageDeclared g = true → (h.page g).state = .resident → (h.page g).moveTo = none →
      h.migrations < 16 → h.pstate ≠ 4 → h.engineActive e = true → (h.page g).engine ≠ e →
      e ≠ (h.homeOf g).1 → homeOnly = false → ∀ f, (h.freePool (e / 32)).2 = some f → h.pageTask g = none →
      h.migrateTo g e homeOnly = (h.migResult 0).startMigration g (e, f)) ∧
  (∀ (h : Hw) e cause, h.quarOf e ≠ 0 → h.quarantine e cause = h) ∧
  (∀ (g : Fin 17744) s,
      17664 ≤ g.val →
      s.hw.pageDeclared g = true →
      (let n := s.hw.nextCycle (max (s.hw.page g).reduced s.hw.firstOwed); s.hw.carriesInputs n = true ∧ n ≤ s.hw.lc ∧ ∀ x ∈ s.hw.reductionSources g, n + 1 ≤ (s.hw.page x.1).certain) → exec (.reductionCompute g) s = .next (s.onHw fun h =>
        let n := h.nextCycle (max (h.page g).reduced h.firstOwed)
        let ws := h.reductionWords g n
        let keep := ((g.val, n, ws) :: h.fab.history).filter fun x => x.1 ≠ g.val || decide (n < x.2.1 + 256)
        let h1 : Hw := { h with fab := { h.fab with history := keep } }
        let h1 := h1.setPage g { h.page g with reduced := n + 1 }
        let h1 := (h.reductionSources g).foldl (fun (h : Hw) x =>
          h.setPage x.1 { h.page x.1 with sources := (h.page x.1).sources.filter fun y => decide (n ≤ y.1 + 256) }) h1
        if Hw.owned (h.page g) ∧ h1.stepCycle g = n then h1.writeRamList (frameAddr (h.page g).engine (h.page g).frame 0) ws else h1)) ∧
  (∀ (who : Who) (page : Fin 32768) (engine : Fin 512) s, s.hw.MayWrite who Reg.FAB_MIG_REQ →
      Ends (.migratePage who page engine) s fun t =>
        t = (s.onHw fun h => (h.migrateTo page engine false).busOk 0) ∧
        t.hw.busErr = false ∧ t.hw.lc = s.hw.lc ∧ (17744 ≤ page.val → t.hw.fld Reg.FAB_MIG_STAT Fld.FAB_MIG_STAT_RESULT = 2)) ∧
  (∀ (who : Who) (page : Fin 32768) s, s.hw.MayWrite who Reg.FAB_MIG_REQ →
      Ends (.returnPageHome who page) s fun t =>
        t = (s.onHw fun h => (h.migrateTo page (h.homeOf page).1 true).busOk 0) ∧
        t.hw.busErr = false ∧ t.hw.lc = s.hw.lc ∧ (17744 ≤ page.val → t.hw.fld Reg.FAB_MIG_STAT Fld.FAB_MIG_STAT_RESULT = 2)) ∧
  (∀ (who : Who) (engine : Fin 512) s, s.hw.MayWrite who Reg.FAB_MIG_REQ →
      Ends (.quarantineEngine who engine) s fun t =>
        t = (s.onHw fun h => ((h.quarantine engine 5).migResult 0).busOk 0) ∧
        t.hw.quarOf engine = (if s.hw.quarOf engine = 0 then 5 else s.hw.quarOf engine) ∧
        t.hw.fld Reg.FAB_MIG_STAT Fld.FAB_MIG_STAT_RESULT = 0 ∧ t.hw.busErr = false) ∧
  (∀ (g : Fin 17744) s, (s.hw.page g).state = .transit →
      Ends (.migrationCopyDone g) s fun t =>
        t = (s.onHw fun h => (h.migrationDone g).sendHome) ∧
        ∀ e f, (s.hw.page g).target = some (e, f) → (s.hw.page g).rebuild = false → s.hw.engineActive e = true →
          ((s.hw.migrationDone g).page g).state = .resident ∧ ((s.hw.migrationDone g).page g).engine = e ∧
          ((s.hw.migrationDone g).page g).frame = f ∧ ((s.hw.migrationDone g).page g).target = none) ∧
  (∀ (g : Fin 17744) s,
      (s.hw.page g).restart = false →
      (s.hw.page g).state = .rebuilding →
      (s.hw.page g).rebuildTo ≤ (s.hw.page g).certain →
      s.hw.pageTask g = none → exec (.rebuildDone g) s = .next (s.onHw fun h =>
        let h := h.setPage g { h.page g with state := .resident, rebuildTo := 0, excAt := none }
        if h.fab.pages.any fun x => x.2.state = .rebuilding then h else h.setBit Reg.FAB_IRQ_STAT 2)) ∧
  (∀ (e : Fin 512) t s, (s.hw.engine e).task = some t → t.kind = .step →
      Ends (.stepTimeout e) s fun t =>
        t = (s.onHw fun h => h.quarantine e 4) ∧
        t.hw.quarOf e = (if s.hw.quarOf e = 0 then 4 else s.hw.quarOf e) ∧ t.hw.lc = s.hw.lc) ∧
  (∀ (g : Fin 17744) lc s,
      s.hw.flag Reg.FAB_CTRL Fld.FAB_CTRL_AUDIT_EN = true →
      s.hw.flag Reg.FAB_CTRL Fld.FAB_CTRL_EN = true →
      s.hw.fab.audit = none →
      s.hw.fab.auditAt + s.hw.fld Reg.FAB_AUDIT_CFG Fld.FAB_AUDIT_CFG_PERIOD ≤ s.hw.lc + 1 →
      (s.hw.page g).state = .resident →
      s.hw.stepCycle g ≤ lc →
      s.hw.carriesInputs lc = true →
      (lc + 17800 - g.val) % 100 ≠ 0 →
      s.hw.pstate ≠ 4 → exec (.auditStart g lc) s = .next (s.onHw fun h =>
        { h with fab := { h.fab with
        auditAt := h.lc + 1, audit := some { page := g, lc := lc, snapshot := [], owner := (h.page g).engine } } }))

/-- From SI(n + HORIZON) on, or in Dusk, ABSENT_MARKING gives every input of cycle n that is not known its marker and
settles the speculative steps; EXT_IN delivers a value of a channel. A write of FAB_LT_CFG with every field in its
range is pending as written. The exporter sends the run of held journal words from FAB_JNL_XPOS, after a gap with its
flag, and advances it; a declared collector gets held words again, any other source nothing. A datagram is the mark
KJ, the version, the flags, DEVICE_ID, the boot, the position, the number of words, the words, and their CRC-32C.
(R363, R364, R367, R372, R374, R384, R385, R386, R390) -/
def Obligations.InputsArriveAndTheJournalIsExported : Prop :=
  (∀ old w : Word, 0 ≤ bitsOf w 39 32 ∧ bitsOf w 39 32 ≤ 64 ∧ 4 ≤ bitsOf w 25 16 ∧ bitsOf w 25 16 ≤ 1000 ∧ 20 ≤ bitsOf w 10 0 ∧ bitsOf w 10 0 ≤ 2000 →
      ltCfgMerge old w = word (bitsOf w 39 32 * 2 ^ 32 + bitsOf w 25 16 * 2 ^ 16 + bitsOf w 10 0)) ∧
  (∀ (h : Hw) flags jpos (ws : List Word),
      let body := [0x4B#8, 0x4A#8, 0x01#8, byte flags] ++ beBytes 2 h.cfg.deviceId ++ beBytes 3 h.log.boot ++ beBytes 5 jpos ++
        beBytes 2 ws.length ++ wordsBytes ws
      h.datagram flags jpos ws = body ++ beBytes 4 (crc32c body).toNat) ∧
  (∀ n s,
      s.hw.journalOn = true →
      s.hw.carriesInputs n = true →
      (s.hw.pstate = 4 ∨ n + s.hw.horizon ≤ s.hw.lc) →
      Ends (.absentMarking n) s fun t =>
        t = (s.onHw fun h => (h.markAbsent n).settleAll) ∧
        ∀ id ∈ s.hw.allInputs, id < 2 ^ 40 → ((s.hw.markAbsent n).inputOf n id).isSome = true ∧
          ((s.hw.inputOf n id).isSome = true → (s.hw.markAbsent n).inputOf n id = s.hw.inputOf n id)) ∧
  (∀ (c : Fin 256) lc v st s, s.hw.journalOn = true →
      Ends (.extIn c lc v st) s fun t =>
        t = (s.onHw fun h => (h.extArrive c lc v st).1) ∧
        t.hw.lc = s.hw.lc ∧ (s.hw.extCfg c = none → t = s) ∧
        (∀ e, s.hw.extCfg c = some e → e.sampled = false →
          Tabs.get (fun _ => []) t.hw.fab.events c.val = (s.hw.lc, v, st) :: Tabs.get (fun _ => []) s.hw.fab.events c.val)) ∧
  (∀ (who : Who) w s, s.hw.MayWrite who Reg.FAB_LT_CFG → exec (.ltCfgWrite who w) s = .next (
        s.onHw fun h => ({ h with fab := { h.fab with ltCfg := some (ltCfgMerge (h.fab.ltCfg.getD (h.reg Reg.FAB_LT_CFG)) w) } }).busOk 0)) ∧
  (∀ (n : Fin 290) v ws s,
      s.hw.exporterOn = true →
      (s.hw.reg Reg.FAB_JNL_XPOS).toNat ≠ s.hw.wpos →
      (s.hw.journalFound (s.hw.reg Reg.FAB_JNL_XPOS).toNat (n + 1)).journalHeld (s.hw.reg Reg.FAB_JNL_XPOS).toNat = true →
      (s.hw.journalFound (s.hw.reg Reg.FAB_JNL_XPOS).toNat (n + 1)).journalRun (s.hw.reg Reg.FAB_JNL_XPOS).toNat (n + 1) = v :: ws → exec (.journalExportDatagram n) s = .next (s.onHw fun h =>
        let x := (h.reg Reg.FAB_JNL_XPOS).toNat
        let h := h.journalFound x (n + 1)
        let h := h.toCollectors (h.datagram (if h.fab.exportGap then 0x80 else 0) x (v :: ws))
        { h.setReg Reg.FAB_JNL_XPOS (word (x + (ws.length + 1))) with fab := { h.fab with exportGap := false } })) ∧
  (∀ src jpos (n : Fin 65536) s,
      s.hw.exporterOn = true →
      src ∈ s.hw.cfg.fab.collectors →
      s.hw.journalHeld jpos.toNat = true →
      Ends (.exportRetransmitRequest src jpos n) s fun t =>
        t = (s.onHw fun h => h.resend jpos.toNat (n + 1) n) ∧
        t.hw.reg Reg.FAB_JNL_XPOS = s.hw.reg Reg.FAB_JNL_XPOS ∧ t.hw.wpos = s.hw.wpos ∧ t.hw.lc = s.hw.lc ∧ (n.val = 0 → t = s)) ∧
  (∀ src jpos (n : Fin 65536) s, src ∉ s.hw.cfg.fab.collectors → exec (.exportRetransmitRequest src jpos n) s = .next (s))

/-- At an end that receives, a frame with code violations is counted in CODE, one that its slot does not allow in SLOT,
one with a wrong CRC-32C in CRC, and one that meets every check is accepted. Acquiring and losing alignment set and
clear ALIGNED. An accepted CS, MS, AX, DY response, CL, DM and SU frame, and a guard minislot with its CRC-8 at its
own position, are taken as their rules say: the measurement enters the snapshot, the response ends its descriptor, a
DM request is answered, DM gives the link delay and D, a SLEEP leaves the leader a single end, a RECLAIM returns the
role with the next cycle. A command mirror of the partner sends its frames again in this end’s direction, a late one
is counted; a relayed frame is taken. (R169, R178, R182, R197, R199, R201, R213, R221, R227, R233, R248, R252) -/
def Obligations.RingFramesAreAcceptedAndTakeEffect : Prop :=
  (∀ (h0 : Hw) (k : Nat) (endB : Bool) (f : RxFrame), h0.receives k endB = true →
      let h := h0.passes k f.arr
      let p := h.portOf k endB
      let b := f.bytes
      let type := Hw.fType b
      let sof := h.place k endB f.arr
      let req := (h.windowAt k sof 0).isSome
      let slot := h.slotAllows k type (b.getD 5 0).toNat sof
      let body := b.take (b.length - 4)
      let crc := 9 ≤ b.length ∧ leNat (b.drop (b.length - 4)) = (crc32c body).toNat
      (f.viol ≠ 0 → h0.accept k endB f = (h.portCount p (Reg.VNK_PORT_CNT_CODE p) f.viol true, false)) ∧
      (f.viol = 0 → slot = false → h0.accept k endB f = (h.portCount p (Reg.VNK_PORT_CNT_SLOT p) 1 false, false)) ∧
      (f.viol = 0 → slot = true → ¬crc → h0.accept k endB f = (h.portCount p (Reg.VNK_PORT_CNT_CRC p) 1 true, false)) ∧
      (f.viol = 0 → slot = true → crc → b.length = Hw.fLen b + 9 → f.eof = true → Hw.lenOk type (Hw.fLen b) req = true →
        (b.getD 0 0).toNat % 4 = 0 → (bitN (b.getD 0 0).toNat 2 = true → type = 6 ∧ req = true) →
        bitN (b.getD 0 0).toNat 3 = endB.not → h.posOk k endB type (Hw.fPos b) sof = true →
        (b.getD 3 0).toNat = h.fld (Reg.VNK_RING_CFG k) Fld.VNK_RING_CFG_RINGTAG →
        ((b.getD 2 0).toNat = h.ringLc k h.cycle % 256 ∨ ((type = 1 ∨ type = 9) ∧ h.lcKnown k = false)) →
        (type = 9 → 1 ≤ (b.getD 5 0).toNat ∧ (b.getD 5 0).toNat ≤ 3) →
        h0.accept k endB f = (h.onPort p fun x => { x with now := true }, true))) ∧
  (∀ (h : Hw) k endB type f, Hw.fType f.bytes ≠ type → h.acceptType k endB type f = ((h.accept k endB f).1, false)) ∧
  (∀ (h : Hw) k endB f, h.acceptType k endB (Hw.fType f.bytes) f = h.accept k endB f) ∧
  (∀ (p : Fin 16) s, s.hw.vnkOn = true → (s.hw.endOfPort p).isSome = true → exec (.alignmentAcquired p) s = .next (
        s.onHw fun h => (h.setBit (Reg.VNK_PORT_STAT p) 5).setBit (Reg.VNK_PORT_STAT p) 6)) ∧
  (∀ (p : Fin 16) viol signal s, s.hw.vnkOn = true → s.hw.bit (Reg.VNK_PORT_STAT p) 5 = true → exec (.alignmentLost p ⟨viol, signal⟩) s = .next (s.onHw fun h =>
        let h := ((h.clearBit (Reg.VNK_PORT_STAT p) 5).count (Reg.VNK_PORT_CNT_ALIGN p)).portCount p (Reg.VNK_PORT_CNT_CODE p) viol true
        if signal then h else h.clearBit (Reg.VNK_PORT_STAT p) 6)) ∧
  (∀ (k : Fin 16) (endB : Bool) (f : RxFrame) g s, s.hw.acceptType k endB 1 f = (g, true) →
      Ends (.rxCs k endB f) s fun t =>
        t = ({ s with hw := (g.takeCs k endB (Hw.fPayload f.bytes)).followMode k (Hw.fPayload f.bytes) }) ∧
        (t.hw.port (s.hw.portOf k endB)).csNow = true ∧ t.hw.bit (Reg.VNK_RING_ROLE k) 11 = false ∧ t.hw.mem = g.mem) ∧
  (∀ (k : Fin 16) (endB : Bool) (x : RxGd) g s,
      s.hw.passes k x.arr = g →
      s.hw.receives k endB = true →
      x.viol = 0 →
      2123 ≤ s.hw.place k endB x.arr →
      x.pos.toNat < 160 →
      x.pos.toNat = ((s.hw.place k endB x.arr - 2123) / 5).toNat →
      x.crc = crc8 [byte (g.fld (Reg.VNK_RING_CFG k) Fld.VNK_RING_CFG_RINGTAG), byte (g.ringLc k s.hw.cycle % 256), x.pos, x.flags] →
      g.expected k x.pos.toNat = true → exec (.rxGd k endB x) s = .next (
        
        let q := x.pos.toNat
        let src := if endB then 0 else 1
        let h1 := g.onPort (s.hw.portOf k endB) fun y => { y with now := true }
        let h2 := ((((h1.heardNode k q).heardHop k q endB).gdFirst k q x.flags).gdIn s.hw.cycle k src q (some x.flags))
        { s with hw := (h2.guardFlags k q x.flags.toNat).relay k endB [x.pos, x.flags, x.crc] })) ∧
  (∀ (k : Fin 16) (endB : Bool) (f : RxFrame) g s, s.hw.acceptType k endB 3 f = (g, true) → exec (.rxMs k endB f) s = .next (
        let src := if endB then 0 else 1
        let p := Hw.fPos f.bytes
        let sof := s.hw.place k endB f.arr
        let h := ((g.heardSlot k p (some sof)).heardHop k p endB).onRing k fun r =>
          if endB then { r with okAB := p :: r.okAB } else { r with okBA := p :: r.okBA }
        { s with hw := ((h.copyIn s.hw.cycle k p src f.bytes (Hw.fPayload f.bytes)).noteNode k p (Hw.fPayload f.bytes)).relay k endB f.bytes })) ∧
  (∀ (k : Fin 16) (endB : Bool) (f : RxFrame) g s, s.hw.acceptType k endB 4 f = (g, true) → exec (.rxAx k endB f) s = .next (
        let src := if endB then 0 else 1
        let p := Hw.fPos f.bytes
        let sof := s.hw.place k endB f.arr
        let h := ((g.heardSlot k p (some sof)).heardHop k p endB).onRing k fun r =>
          if endB then { r with okAB := p :: r.okAB } else { r with okBA := p :: r.okBA }
        { s with hw := ((h.copyIn s.hw.cycle k p src f.bytes (Hw.fPayload f.bytes)).noteNode k p (Hw.fPayload f.bytes)).relay k endB f.bytes })) ∧
  (∀ (k : Fin 16) (endB : Bool) (f : RxFrame) g w x s,
      s.hw.acceptType k endB 6 f = (g, true) →
      s.hw.windowAt k (s.hw.place k endB f.arr) 68 = some w →
      (g.relay k endB f.bytes).flightOf k w endB.not = some x →
      Ends (.rxDyResponse k endB f) s fun t =>
        t = ({ s with hw := (g.relay k endB f.bytes).dyResponse k (g.relay k endB f.bytes).cycle x (Hw.fPayload f.bytes) }) ∧
        ∀ y ∈ (t.hw.ring k).dy, y.idx ≠ x.idx) ∧
  (∀ (k : Fin 16) (endB : Bool) (f : RxFrame) g s, s.hw.acceptType k endB 7 f = (g, true) → exec (.rxCl k endB f) s = .next (
        { s with hw := (g.takeCl k s.hw.cycle f.arr false endB.not (Hw.fPayload f.bytes)).relay k endB f.bytes })) ∧
  (∀ (k : Fin 16) (endB : Bool) (f : RxFrame) g s,
      s.hw.acceptType k endB 10 f = (g, true) →
      field (Hw.fPayload f.bytes) 0 1 = 1 →
      s.hw.lcKnown k = true → exec (.rxDmReq k endB f) s = .next (
        
        let d := (g.segments k s.hw.cycle).draw (2 ^ 32)
        { s with hw := d.2.sendFrame k endB 10 false s.hw.cycle ([2, 0] ++ beBytes 4 d.1 ++ List.replicate 4 0) })) ∧
  (∀ (k : Fin 16) (endB : Bool) (f : RxFrame) g rtt s,
      s.hw.acceptType k endB 10 f = (g, true) →
      field (Hw.fPayload f.bytes) 0 1 = 2 → exec (.rxDmRsp k endB f rtt) s = .next (
        { s with hw := g.onPort (s.hw.portOf k endB) fun x => { x with link := (rtt - field (Hw.fPayload f.bytes) 2 4) / 2 } })) ∧
  (∀ (k : Fin 16) (endB : Bool) (f : RxFrame) g s,
      s.hw.acceptType k endB 10 f = (g, true) →
      field (Hw.fPayload f.bytes) 0 1 = 3 → exec (.rxDmAcc k endB f) s = .next (
        
        let h := if Hw.fPos f.bytes ≠ Hw.endPos endB.not then g
          else g.onRing k fun r => if endB then { r with accB := true } else { r with accA := true }
        { s with hw := h.setD k endB.not (field (Hw.fPayload f.bytes) 2 4 + (h.port (h.portOf k endB)).link) })) ∧
  (∀ (k : Fin 16) (endB : Bool) (f : RxFrame) g s,
      s.hw.acceptType k endB 9 f = (g, true) →
      field (Hw.fPayload f.bytes) 0 1 = 1 → exec (.rxSuClaim k endB f) s = .next (
        { s with hw := g.takeClaim k (Hw.fPayload f.bytes) })) ∧
  (∀ (k : Fin 16) (endB : Bool) (f : RxFrame) g s,
      s.hw.acceptType k endB 9 f = (g, true) →
      field (Hw.fPayload f.bytes) 0 1 = 2 →
      g.leads k = true → exec (.rxSuSleep k endB f) s = .next (
        { s with hw := g.ringRole k 11 true })) ∧
  (∀ (k : Fin 16) (endB : Bool) (f : RxFrame) g s,
      s.hw.acceptType k endB 9 f = (g, true) →
      field (Hw.fPayload f.bytes) 0 1 = 3 →
      g.takenOver k = true → exec (.rxSuReclaim k endB f) s = .next (
        { s with hw := g.onRing k fun r => { r with next := 4 } })) ∧
  (∀ (k : Fin 16) hdr frames g s,
      s.hw.peerAccept 2 hdr (s.hw.isPartner k hdr) = (g, true) →
      g.standby k = true → exec (.rxCommandMirror k hdr true frames) s = .next (
        { s with hw := g.peerCountUp 3 })) ∧
  (∀ (k : Fin 16) hdr frames g s,
      s.hw.peerAccept 2 hdr (s.hw.isPartner k hdr) = (g, true) →
      g.standby k = true → exec (.rxCommandMirror k hdr false frames) s = .next (
        { s with hw :=
        let h := g.onRing k fun r => { r with mirror := true, next := if r.next = 2 then 0 else r.next }
        let endB := h.topo k == 3
        let turn := fun (b : List Byte) =>
          let c := (b.take (b.length - 4)).set 0 (byte ((b.getD 0 0).toNat / 16 * 16 + b2n endB * 8 + (b.getD 0 0).toNat % 8))
          c ++ leBytes 4 (crc32c c).toNat
        frames.foldl (fun (h : Hw) b => h.send (.vanik k endB) (turn b)) h })) ∧
  (∀ (k : Fin 16) hdr ba gd bytes g s, s.hw.peerAccept 3 hdr (s.hw.isPartner k hdr) = (g, true) → exec (.rxRelay k hdr ba gd bytes) s = .next (
        { s with hw := g.takeRelay k ba gd bytes }))

/-- A write of VNK_CTRL.EN starts the configured instances. RING_CYCLE_START ends the ring cycle before and begins the one
of the next SI, with PLL_V locked and no burst. An open end that has listened for 4 cycles draws its backoff, RANK
plus 0 to 3; after the backoff it draws a nonce and claims; after 3 cycles of claiming it takes the leader’s role with
the next cycle. A closed ring is judged once at the end of cycle L + 2, and moves its leader end when its port is
lost. A standby without a leader for 2 cycles takes the leader’s role with the next cycle. An ASSIGN without an answer
is repeated twice and then the position is absent; a missing node raises its event and gets its ASSIGN again every 8
cycles. (R190, R215, R218, R219, R224, R229, R230, R231, R232, R243) -/
def Obligations.RingsStartAndKeepTheirLeader : Prop :=
  (∀ (who : Who) s, s.hw.MayWrite who Reg.VNK_CTRL →
      Ends (.vnkStart who) s fun t =>
        t = (s.onHw fun h => (h.vnkStart).busOk 0) ∧
        t.hw.bit Reg.VNK_CTRL 0 = true ∧ t.hw.busErr = false ∧ t.hw.lc = s.hw.lc ∧
        (s.hw.bit Reg.VNK_CTRL 0 = true → t.hw = s.hw.busOk 0) ∧
        (s.hw.bit Reg.VNK_CTRL 0 = false → ∀ k, k < 16 → (s.hw.topo k = 0 → t.hw.phase k = s.hw.phase k) ∧
          (s.hw.topo k ≠ 0 → ((s.hw.declared k).filter (· < 128)).length = s.hw.nCell k →
            (s.hw.declared k).length - ((s.hw.declared k).filter (· < 128)).length = s.hw.nAux k → t.hw.phase k = 1))) ∧
  (∀ s,
      s.hw.vnkOn = true →
      s.hw.bit Reg.CLK_STAT 3 = true →
      s.hw.cycle ≠ s.hw.lc + 1 →
      s.hw.bit Reg.VNK_CTRL 1 = false →
      Ends (.ringCycleStart) s fun t =>
        t = (s.onHw fun h =>
          let h1 := { (h.closeCycles).setReg Reg.VNK_CYCLE (word (h.lc + 1)) with frozen := false }
          ((List.range 16).filter fun k => h1.takesPart k (h.lc + 1)).foldl (fun (g : Hw) k => g.beginRing k (h.lc + 1)) h1) ∧
        t.hw.reg Reg.VNK_CYCLE = word (s.hw.lc + 1) ∧ t.hw.lc = s.hw.lc) ∧
  (∀ (k : Fin 16) s,
      s.hw.phase k = 1 →
      s.hw.closedRing k = false →
      (s.hw.ring k).c1 ≠ 0 →
      (s.hw.ring k).c1 + 4 ≤ s.hw.cycle + 1 → exec (.coldStartListenEnd k) s = .next (s.onHw fun h =>
        ((h.draw 4).2.onRing k fun r => { r with
        backoff := h.fld (Reg.VNK_RING_START k) Fld.VNK_RING_START_RANK + (h.draw 4).1 }).setPhase k 2)) ∧
  (∀ (k : Fin 16) s,
      s.hw.phase k = 2 →
      (s.hw.ring k).c1 + 4 + (s.hw.ring k).backoff ≤ s.hw.cycle + 1 → exec (.coldStartBackoffEnd k) s = .next (
        s.onHw fun h => ((h.draw 65536).2.onRing k fun r => { r with nonce := (h.draw 65536).1 }).setPhase k 3)) ∧
  (∀ (k : Fin 16) s,
      s.hw.phase k = 3 →
      (s.hw.ring k).c1 + 7 + (s.hw.ring k).backoff ≤ s.hw.cycle + 1 → exec (.coldStartClaimEnd k) s = .next (
        s.onHw fun h => h.onRing k fun r => { r with next := 1 })) ∧
  (∀ (k : Fin 16) s,
      s.hw.closedRing k = true →
      s.hw.cycling k = true →
      (s.hw.ring k).judged = false →
      (s.hw.ring k).lead ≠ 0 →
      (s.hw.ring k).lead + 2 = s.hw.cycle + 1 → exec (.closedRingJudge k) s = .next (s.onHw fun h =>
        let h1 := h.onRing k fun r => { r with judged := true }
        if h1.portWorks (h1.portOf k false) = true ∧ 1 ≤ (h.ring k).csRun ∧ (h.ring k).leaderCs = true then h1
        else (h1.onRing k fun r => { r with leaderA := false }).count (Reg.VNK_RING_CNT_LEAD k))) ∧
  (∀ (k : Fin 16) s,
      s.hw.closedRing k = true →
      s.hw.cycling k = true →
      (s.hw.ring k).judged = true →
      s.hw.portWorking (s.hw.portOf k (!(s.hw.ring k).leaderA)) = false → exec (.leaderPortLoss k) s = .next (
        s.onHw fun h => (h.onRing k fun r => { r with leaderA := !r.leaderA }).count (Reg.VNK_RING_CNT_LEAD k))) ∧
  (∀ (k : Fin 16) s, s.hw.standby k = true → 2 ≤ (s.hw.ring k).leaderless → exec (.leaderlessTakeover k) s = .next (
        s.onHw fun h => h.onRing k fun r => { r with next := 2 })) ∧
  (∀ (k : Fin 16) (p : Fin 160) s,
      s.hw.leads k = true →
      (s.hw.assignOf k p).done = false →
      (s.hw.assignOf k p).absent = false →
      (s.hw.assignOf k p).due = false →
      1 ≤ (s.hw.assignOf k p).sent →
      (s.hw.assignOf k p).at_ + 2 ≤ s.hw.cycle → exec (.assignTimeout k p) s = .next (s.onHw fun h =>
        if (h.assignOf k p).sent < 3 then h.setAssign k p { h.assignOf k p with due := true }
        else ((h.setAssign k p { h.assignOf k p with absent := true }).undeclare 1).checkComplete k)) ∧
  (∀ (k : Fin 16) (p : Fin 160) s,
      s.hw.leads k = true →
      3 ≤ s.hw.miss k p →
      (match s.hw.spareFor k p with | some i => decide ((s.hw.spareOf k i).uid ≠ 0) | none => (s.hw.bound k p).isSome) = true →
      (s.hw.assignOf k p).at_ + 8 ≤ s.hw.cycle → exec (.nodeReassign k p) s = .next (
        s.onHw fun h => h.setAssign k p { h.assignOf k p with due := true })) ∧
  (∀ (k : Fin 16) (p : Fin 160) s,
      p.val ∈ s.hw.senders k →
      (s.hw.ring k).complete = true →
      s.hw.missing k p = true →
      Ends (.nodeMissing k p) s fun t =>
        t = (s.onHw fun h => h.raiseEvent (0x350 + k) k p false) ∧
        (s.hw.grdOn = true → t.hw.evActive (0x350 + k) = true) ∧ t.hw.lc = s.hw.lc)

/-- A write of VNK_CMD_GO with a good operation and length for a declared position queues the command with the next SEQ of
its target, and any other one fails with its code. A command without acknowledgement after its repeats fails with code
1; a descriptor without a response by SI(n + 3) ends with result 1. The leader decides the claims of the cycle before;
a claimant that holds a slot is granted it again. A release mark frees the spare slot after 2 000 cycles. An end that
hears neither CS nor ACC of the other raises the break event; 8 whole cycles clear it. A block of 1 000 cycles judges
the errors of a port. (R205, R208, R211, R213, R227, R234, R236, R239, R240, R242, R246) -/
def Obligations.RingCommandsClaimsAndBreaksAct : Prop :=
  (∀ (who : Who) (k sp : Fin 16) s, s.hw.MayWrite who (Reg.VNK_SPARE k sp) → s.hw.spareState k sp = 2 →
      exec (.spareReleaseMark who k sp) s = .next (s.onHw fun h =>
        ((h.setSpare k sp { h.spareOf k sp with mark := some h.cycle }).setBit (Reg.VNK_SPARE k sp) 37).busOk 0)) ∧
  (∀ (k sp : Fin 16) s m, s.hw.spareState k sp = 2 → (s.hw.spareOf k sp).mark = some m → m + 2000 ≤ s.hw.cycle →
      exec (.spareReleaseExpire k sp) s = .next (s.onHw fun h => (h.setSpare k sp {}).setReg (Reg.VNK_SPARE k sp) 0)) ∧
  (∀ (k sp : Fin 16) s m, (s.hw.spareOf k sp).mark = some m → s.hw.cycle < m + 2000 → exec (.spareReleaseExpire k sp) s = .next s) ∧
  (∀ (h : Hw) (k : Nat) (c : Claim) sp, (List.range (h.nSpare k)).find? (fun x => h.spareState k x ≠ 0 && (h.spareOf k x).uid == c.uid) = some sp →
      h.decideClaim k c = (h.sendGt k sp c.uid, true)) ∧
  (∀ (k : Fin 16) s,
      s.hw.leads k = true →
      (s.hw.ring k).gtSent = none →
      s.hw.lc = s.hw.cycle →
      (s.hw.ring k).claims.filter (fun c => decide (c.lc + 1 = s.hw.cycle)) = [] → exec (.claimDecision k) s = .next (
        s.onHw fun h => h.cut.onRing k fun r => { r with claims := r.claims.filter fun c => decide (h.cycle ≤ c.lc) })) ∧
  (∀ (k : Fin 16) c s,
      s.hw.leads k = true →
      (s.hw.ring k).gtSent = none →
      s.hw.lc = s.hw.cycle →
      (s.hw.ring k).claims.filter (fun c => decide (c.lc + 1 = s.hw.cycle)) = [c] → exec (.claimDecision k) s = .next (
        s.onHw fun h => ((h.cut.onRing k fun r => { r with claims := r.claims.filter fun c => decide (h.cycle ≤ c.lc) }).decideClaim k c).1)) ∧
  (∀ (who : Who) (k : Fin 16) v s,
      s.hw.MayWrite who (Reg.VNK_CMD_GO k) →
      1 < bitsOf v 31 24 →
      bitsOf v 23 16 ≤ 32 →
      s.hw.cycling k = true →
      bitsOf v 39 32 ∈ s.hw.declared k →
      (s.hw.ring k).cmds.length < 16 → exec (.vnkCmdGo who k v) s = .next (s.onHw fun h =>
        (let h := h.cutFree
        let p := bitsOf v 39 32
        let seq := (Tabs.get (fun _ => 0) (h.ring k).seqs p + 1) % 65536
        let c : RingCmd := { target := p, op := bitsOf v 31 24, args := (h.cmdData k).take (bitsOf v 23 16), seq := seq,
                             ready := (if h.frozen then h.cycle + 1 else h.cycle), thresh := false }
        let h := h.onRing k fun r => { r with cmds := r.cmds ++ [c], seqs := Tabs.set (fun _ => (0 : Nat)) r.seqs p seq }
        (h.setFld (Reg.VNK_CMD_STAT k) Fld.VNK_CMD_STAT_LAST_SEQ seq).cmdFree k).busOk 0)) ∧
  (∀ (who : Who) (k : Fin 16) v s,
      s.hw.MayWrite who (Reg.VNK_CMD_GO k) →
      (bitsOf v 31 24 ≤ 1 ∨ 32 < bitsOf v 23 16) → exec (.vnkCmdGo who k v) s = .next (
        s.onHw fun h => (h.cmdFail k (bitsOf v 39 32) 5).busOk 0)) ∧
  (∀ (k : Fin 16) (p : Fin 160) c s,
      (s.hw.ring k).cmds.find? (fun c => c.target == p.val && c.sent.any (· < s.hw.cycle) && decide (s.hw.fld Reg.VNK_CTRL Fld.VNK_CTRL_RETRY ≤ c.repeats)) = some c → exec (.commandNoAck k p) s = .next (
        s.onHw fun h => (((h.onRing k fun r => { r with cmds := r.cmds.erase c }).cmdFree k).cmdFail k p 1).threshFailed k c)) ∧
  (∀ (who : Who) (k : Fin 16) (tail : Fin 64) s, s.hw.MayWrite who (Reg.VNK_DY_QCTL k) →
      Ends (.dyDescriptorSubmit who k tail) s fun t =>
        t = (s.onHw fun h => ((h.setFld (Reg.VNK_DY_QCTL k) Fld.VNK_DY_QCTL_TAIL tail).dyHanded k).busOk 0) ∧
        t.hw.fld (Reg.VNK_DY_QCTL k) Fld.VNK_DY_QCTL_TAIL = tail.val ∧ t.hw.busErr = false ∧
        (s.hw.cycling k = true → t.hw = (s.hw.setFld (Reg.VNK_DY_QCTL k) Fld.VNK_DY_QCTL_TAIL tail).busOk 0)) ∧
  (∀ (k : Fin 16) f s,
      (s.hw.ring k).dy.filter (fun f => decide (f.lc + 3 ≤ s.hw.lc)) = [f] →
      Ends (.dyNoResponse k) s fun t =>
        t = (s.onHw fun h => h.dyEnd k f.idx 1 0 (h.ringLc k f.lc) []) ∧
        (∀ y ∈ (t.hw.ring k).dy, y.idx ≠ f.idx) ∧ t.hw.lc = s.hw.lc ∧ t.hw.cycle = s.hw.cycle) ∧
  (∀ (k : Fin 16) (endB : Bool) s,
      (s.hw.cycling k = true ∨ s.hw.phase k = 7) →
      s.hw.endHere k endB = true →
      s.hw.bit (Reg.VNK_RING_ROLE k) 11 = false →
      (s.hw.ring k).lead + (if s.hw.closedRing k then (if endB then 0 else 1) else 2) ≤ s.hw.cycle + 1 →
      (if endB then (s.hw.ring k).csB || (s.hw.ring k).accB else (s.hw.ring k).csA || (s.hw.ring k).accA) = false → exec (.ringBreak k endB) s = .next (s.onHw fun h =>
        let h1 := h.onRing k fun r => { r with healed := 0 }
        let h1 := if h1.broken k then h1 else h1.count (Reg.VNK_RING_CNT_BREAK k)
        ((h1.ringStat k 23 true).setBreaks k).raiseEvent (0x340 + k) k 0 false)) ∧
  (∀ (k : Fin 16) s, s.hw.broken k = true → 8 ≤ (s.hw.ring k).healed →
      Ends (.ringBreakClear k) s fun t =>
        t = (s.onHw fun h => ((h.ringStat k 23 false).setBreaks k).dropCond (0x340 + k)) ∧
        t.hw.broken k = false ∧ t.hw.evCond (0x340 + k) = false ∧ t.hw.mem = s.hw.mem) ∧
  (∀ (p : Fin 16) (k : Nat) (endB : Bool) s, s.hw.endOfPort p = some (k, endB) → 1000 ≤ (s.hw.port p).cycles → exec (.portErrorBlock p) s = .next (s.onHw fun h =>
        (h.setPort p { h.port p with errs := 0, cycles := 0 }).follow (0x360 + p) k 0
        (decide (h.fld (Reg.VNK_RING_START k) Fld.VNK_RING_START_ERR_LIMIT < (h.port p).errs))))

/-- With the SNP on, SNP_CLOSURE closes a cycle up to the next one that carries inputs. A write of SNP_CAL_DATA goes to
the staging entry while EN is 1 and to the store while it is 0. SNP_CALQ_GO asks for a change at SNP_CALQ_LC:
QUEUE_FULL, PAST_LC, SAME_CAL_ID and BAD_ENTRY in that order leave the queue as it is, and a good change joins the
queue behind the others, in place of a pending one of its entry and LC, and is journaled. WINDOW_START arms an idle
window with a good source at a coming LC, WINDOW_STOP gives a running one its stop, WINDOW_CLEAR empties it. (R253,
R256, R259, R262, R273, R275, R278) -/
def Obligations.TheSnapshotClosesCalibratesAndWindows : Prop :=
  (∀ (h : Hw) obj lc e ws,
      let id := bitsOf (ws.getD 7 0) 39 24
      let rest := h.snp.calq.filter fun c => !(!c.eff && c.entry == e && c.lc == lc)
      let pending := rest.filter fun c => !c.eff
      (64 ≤ pending.length → h.calChange obj lc e ws = (h, 1)) ∧
      (pending.length < 64 → lc ≤ (h.reg Reg.SNP_CLOSED_LC).toNat → h.calChange obj lc e ws = (h, 2)) ∧
      (pending.length < 64 → (h.reg Reg.SNP_CLOSED_LC).toNat < lc → id = bitsOf (h.calWord h.lc e 7) 39 24 →
        h.calChange obj lc e ws = (h, 3)) ∧
      (pending.length < 64 → (h.reg Reg.SNP_CLOSED_LC).toNat < lc → id ≠ bitsOf (h.calWord h.lc e 7) 39 24 →
        (∀ c ∈ pending, c.entry = e → bitsOf (c.words.getD 7 0) 39 24 ≠ id) →
        (Hw.calOk e ws = false → h.calChange obj lc e ws = (h, 4)) ∧
        (Hw.calOk e ws = true →
          let g : Hw := { h with snp := { h.snp with calq := rest ++ [{ lc := lc, entry := e, words := ws, obj := obj }] } }
          h.calChange obj lc e ws = ((g.setCalq.note 0x0F 0 ([word lc, word e] ++ ws)).calEffect h.lc, 0)))) ∧
  (∀ n s,
      s.hw.snpOn = true →
      (s.hw.reg Reg.SNP_CLOSED_LC).toNat < n →
      n ≤ s.hw.lc →
      (s.hw.carriesInputs (s.hw.nextCycle ((s.hw.reg Reg.SNP_CLOSED_LC).toNat + 1)) = true → n ≤ s.hw.nextCycle ((s.hw.reg Reg.SNP_CLOSED_LC).toNat + 1)) →
      Ends (.snpClosure n) s fun t =>
        t = (s.onHw fun h => h.closeCycle n) ∧
        t.hw.reg Reg.SNP_CLOSED_LC = word n ∧ t.hw.lc = s.hw.lc ∧ t.hw.snp.cal = s.hw.snp.cal) ∧
  (∀ (who : Who) v s,
      s.hw.MayWrite who Reg.SNP_CAL_DATA →
      s.hw.bit Reg.SNP_CTRL 0 = true → exec (.snpCalDataWrite who v) s = .next (
        s.onHw fun h => ({ h with snp := { h.snp with staging := h.snp.staging.set (h.fld Reg.SNP_CAL_ADDR Fld.SNP_CAL_ADDR_WORD) v } }).busOk 0)) ∧
  (∀ (who : Who) v s,
      s.hw.MayWrite who Reg.SNP_CAL_DATA →
      s.hw.bit Reg.SNP_CTRL 0 = false → exec (.snpCalDataWrite who v) s = .next (s.onHw fun h =>
        (let i := 8 * h.fld Reg.SNP_CAL_ADDR Fld.SNP_CAL_ADDR_ENTRY + h.fld Reg.SNP_CAL_ADDR Fld.SNP_CAL_ADDR_WORD
        { h with snp := { h.snp with cal := Tabs.set (fun _ => (0 : Word)) h.snp.cal i v } }).busOk 0)) ∧
  (∀ (who : Who) (entry : Fin 65536) s, s.hw.MayWrite who Reg.SNP_CALQ_GO → exec (.snpCalqGo who entry) s = .next (s.onHw fun h =>
        ((h.calChange false (h.reg Reg.SNP_CALQ_LC).toNat entry h.snp.staging).1.setFld Reg.SNP_CALQ_STAT Fld.SNP_CALQ_STAT_RESULT
        (h.calChange false (h.reg Reg.SNP_CALQ_LC).toNat entry h.snp.staging).2).busOk 0)) ∧
  (∀ (who : Who) s,
      s.hw.MayWrite who Reg.SNP_WIN_CMD →
      Hw.winIdle (s.hw.win (s.hw.fld Reg.SNP_WIN_SEL Fld.SNP_WIN_SEL_WIN)) = true →
      Hw.winSrcOk (s.hw.win (s.hw.fld Reg.SNP_WIN_SEL Fld.SNP_WIN_SEL_WIN)) = true →
      (s.hw.reg Reg.SNP_CLOSED_LC).toNat < (s.hw.reg Reg.SNP_WIN_START).toNat → exec (.windowStart who) s = .next (s.onHw fun h =>
        (let w := h.fld Reg.SNP_WIN_SEL Fld.SNP_WIN_SEL_WIN
        let lc := (h.reg Reg.SNP_WIN_START).toNat
        let y : Win := { src := (h.win w).src, start := lc, state := 1, result := 0 }
        ((h.setWin w y).winNote w 1 y lc).winCommitted).busOk 0)) ∧
  (∀ (who : Who) s,
      s.hw.MayWrite who Reg.SNP_WIN_CMD →
      (s.hw.win (s.hw.fld Reg.SNP_WIN_SEL Fld.SNP_WIN_SEL_WIN)).state = 2 →
      (s.hw.win (s.hw.fld Reg.SNP_WIN_SEL Fld.SNP_WIN_SEL_WIN)).stop = none →
      (s.hw.win (s.hw.fld Reg.SNP_WIN_SEL Fld.SNP_WIN_SEL_WIN)).start < (s.hw.reg Reg.SNP_WIN_STOP).toNat →
      (s.hw.reg Reg.SNP_CLOSED_LC).toNat < (s.hw.reg Reg.SNP_WIN_STOP).toNat → exec (.windowStop who) s = .next (s.onHw fun h =>
        (let w := h.fld Reg.SNP_WIN_SEL Fld.SNP_WIN_SEL_WIN
        let lc := (h.reg Reg.SNP_WIN_STOP).toNat
        let y : Win := { h.win w with stop := some lc, state := 2, result := 0 }
        ((h.setWin w y).winNote w 2 y lc).winCommitted).busOk 0)) ∧
  (∀ (who : Who) s, s.hw.MayWrite who Reg.SNP_WIN_CMD →
      Ends (.windowClear who) s fun t =>
        t = (s.onHw fun h => (h.winState (h.fld Reg.SNP_WIN_SEL Fld.SNP_WIN_SEL_WIN) { src := (h.win (h.fld Reg.SNP_WIN_SEL Fld.SNP_WIN_SEL_WIN)).src } 0 0).busOk 0) ∧
        t.hw.win (s.hw.fld Reg.SNP_WIN_SEL Fld.SNP_WIN_SEL_WIN) = { src := (s.hw.win (s.hw.fld Reg.SNP_WIN_SEL Fld.SNP_WIN_SEL_WIN)).src } ∧ t.hw.busErr = false ∧ ∀ w, w < 32 → w ≠ s.hw.fld Reg.SNP_WIN_SEL Fld.SNP_WIN_SEL_WIN → t.hw.win w = s.hw.win w)

/-- An event follows its condition: one that holds is raised, and one that is active already only keeps its condition.
THRESH loads the codes of a kind, for a cell node those of every channel with the same codes, and a failed one is sent
again; the stop message is repeated while repeats remain; a warning absent for WCLR guard cycles ends; a guarded
channel without value raises MEAS of its zone; a used TRIP_IN and CRS_TRIP raise their events; an unused TRIP_IN shows
its level and is counted. A latch clears when its condition does not hold and is refused and counted when it does.
GRD_SAFE.ENTER enters the safe state, EXIT leaves it unless a trip stands. The pending copy is armed, discarded, and
applied at its LC. (R428, R431, R432, R433, R437, R438, R439, R440, R446, R450) -/
def Obligations.GuardEventsLatchesAndTheSafeState : Prop :=
  (∀ (h : Hw) e ring pos (v : Bool), h.follow e ring pos v = if v then h.raiseEvent e ring pos false else h.dropCond e) ∧
  (∀ (h : Hw) e, h.evActive e = true → (h.endEvent e) = (h.clearBit (Reg.GRD_EVT_ACT (e / 40)) (e % 40)).applyMatrix) ∧
  (∀ (h : Hw) e ring pos node, h.grdOn = true → evExists e = true → h.evActive e = true → h.raiseEvent e ring pos node = h.setCond e true) ∧
  (∀ (k : Fin 16) (p : Fin 160) (kind : Fin 256) (ch : Fin 16) s, 2 ≤ s.hw.level → kind.val ∈ Hw.kindsOf p → 128 ≤ p.val →
      Ends (.threshLoad k p kind ch) s fun t =>
        t = (s.onHw fun h =>
          h.cmdGo k p 0x10 9 (beBytes 2 (Hw.kindMask kind) ++ [byte kind] ++ beBytes 3 (h.kindCodes k p kind ch).1 ++
          beBytes 3 (h.kindCodes k p kind ch).2) true) ∧
        (s.hw.cycling k = true → p.val ∈ s.hw.declared k → (s.hw.ring k).cmds.length < 16 →
          ∃ c ∈ (t.hw.ring k).cmds, c.target = p.val ∧ c.op = 0x10 ∧ c.thresh = true ∧ c.sent = none) ∧
        (s.hw.cycling k = false → t.hw.fld (Reg.VNK_CMD_STAT k) Fld.VNK_CMD_STAT_FAIL_CODE = 4 ∧ (t.hw.ring k).cmds = (s.hw.ring k).cmds)) ∧
  (∀ (k : Fin 16) x s, s.hw.grd.failed.find? (fun x => x.1 == k.val) = some x →
      Ends (.threshRetry k) s fun t =>
        t = (s.onHw fun h => ({ h with grd := { h.grd with failed := h.grd.failed.erase x } } : Hw).cmdGo k x.2.1 0x10 9 x.2.2 true) ∧
        t.hw.grd.failed = s.hw.grd.failed.erase x ∧ t.hw.mem = s.hw.mem) ∧
  (∀ s, s.hw.grd.stops ≠ 0 → exec (.stopMessageRepeat) s = .next (
        s.onHw fun h => { h.sendStop with grd := { h.grd with stops := h.grd.stops - 1 } })) ∧
  (∀ s, s.hw.grd.stops = 0 → exec (.stopMessageRepeat) s = .next (s)) ∧
  (∀ (e : Fin 928) s,
      evWarning e = true →
      s.hw.evActive e = true →
      s.hw.evCond e = false →
      s.hw.fld Reg.GRD_CTRL Fld.GRD_CTRL_WCLR ≤ Tabs.get (fun _ => 0) s.hw.grd.absent e →
      Ends (.warningEnd e) s fun t =>
        t = (s.onHw fun h => h.endEvent e) ∧
        t.hw.evActive e = false ∧ t.hw.evLatched e = s.hw.evLatched e ∧ t.hw.mem = s.hw.mem) ∧
  (∀ (k : Fin 16) (p : Fin 160) (j : Fin 20) s,
      s.hw.grdOn = true →
      j.val < Hw.chansOf p →
      s.hw.guarded_ k p j = true →
      Hw.chanKey k p j ∉ s.hw.grd.measOut →
      s.hw.fld Reg.GRD_CTRL Fld.GRD_CTRL_MEAS_LIMIT ≤ Tabs.get (fun _ => 0) s.hw.grd.meas (Hw.chanKey k p j) → exec (.measTimeout k p j) s = .next (
        s.onHw fun h => ({ h with grd := { h.grd with measOut := Hw.chanKey k p j :: h.grd.measOut } } : Hw).raiseEvent (0x300 + h.zoneOf k p j) k p false)) ∧
  (∀ (who : Who) (e : Fin 928) s,
      s.hw.MayWrite who (Reg.GRD_EVT_LATCH (e / 40)) →
      s.hw.evLatched e = true →
      s.hw.evCond e = false → exec (.latchClear who e) s = .next (
        s.onHw fun h => (((h.clearBit (Reg.GRD_EVT_LATCH (e / 40)) (e % 40)).guardNote e 2).applyMatrix).busOk 0)) ∧
  (∀ (who : Who) (e : Fin 928) s,
      s.hw.MayWrite who (Reg.GRD_EVT_LATCH (e / 40)) →
      s.hw.evLatched e = true →
      s.hw.evCond e = true → exec (.latchClear who e) s = .next (
        s.onHw fun h => (h.count Reg.GRD_CNT_REFUSED).busOk 0)) ∧
  (∀ (who : Who) s,
      s.hw.MayWrite who Reg.GRD_SAFE →
      Hw.grdOwner who = true →
      s.hw.safe = false →
      Ends (.safeEnter who) s fun t =>
        t = (s.onHw fun h => ((h.draw 4096).2.enterSafe (h.draw 4096).1).busOk 0) ∧
        t.hw.safe = true ∧ t.hw.bit Reg.GRD_IRQ_STAT 2 = true ∧ t.hw.fld Reg.GRD_STAT Fld.GRD_STAT_HL = 0xFFFF ∧
        t.hw.fld Reg.GRD_STAT Fld.GRD_STAT_TO = 0xF ∧ t.hw.busErr = false) ∧
  (∀ (who : Who) s,
      s.hw.MayWrite who Reg.GRD_SAFE →
      Hw.grdOwner who = true →
      s.hw.tripOn = false → exec (.safeExit who) s = .next (
        s.onHw fun h => ((h.clearBit Reg.GRD_STAT 0).applyMatrix).busOk 0)) ∧
  (∀ (who : Who) s,
      s.hw.MayWrite who Reg.GRD_SAFE →
      Hw.grdOwner who = true →
      s.hw.tripOn = true → exec (.safeExit who) s = .next (
        s.onHw fun h => (h.count Reg.GRD_CNT_REFUSED).busOk 0)) ∧
  (∀ (i : Fin 2) level s, s.hw.aoOn = true → s.hw.bit Reg.GRD_TRIPIN (16 + i) = true → exec (.tripInChange i level) s = .next (
        s.onHw fun h => (if level then h.setBit Reg.GRD_TRIPIN (18 + i) else h.clearBit Reg.GRD_TRIPIN (18 + i)).follow (0x390 + i) 0 0 level)) ∧
  (∀ (who : Who) (v : Byte) s, s.hw.MayWrite who Reg.GRD_CRS_TRIP → Hw.grdOwner who = true → exec (.crsTripWrite who v) s = .next (
        s.onHw fun h => ((List.range 8).foldl (fun (h : Hw) i => h.follow (0x398 + i) 0 0 (bitN v.toNat i)) (h.setReg Reg.GRD_CRS_TRIP (word v.toNat))).busOk 0)) ∧
  (∀ (who : Who) s, s.hw.MayWrite who Reg.GRD_PEND_CTL → Hw.grdOwner who = true → exec (.pendingArm who) s = .next (
        s.onHw fun h => (h.setBit Reg.GRD_PEND_CTL 2).busOk 0)) ∧
  (∀ (who : Who) s, s.hw.MayWrite who Reg.GRD_PEND_CTL → Hw.grdOwner who = true → exec (.pendingDiscard who) s = .next (
        s.onHw fun h => ({ h.clearBit Reg.GRD_PEND_CTL 2 with grd := { h.grd with pend := [] } }).busOk 0)) ∧
  (∀ s,
      s.hw.aoOn = true →
      s.hw.bit Reg.GRD_PEND_CTL 2 = true →
      (s.hw.reg Reg.GRD_PEND_LC).toNat ≤ s.hw.lc →
      Ends (.pendingApply) s fun t =>
        t = (s.onHw fun h => h.applyPend) ∧
        t.hw.grd.pend = [] ∧ t.hw.bit Reg.GRD_PEND_CTL 2 = false ∧ t.hw.lc = s.hw.lc) ∧
  (∀ (i : Fin 2) level s, s.hw.aoOn = true → s.hw.bit Reg.GRD_TRIPIN (16 + i) = false → exec (.tripInChange i level) s = .next (
        s.onHw fun h => if level then (h.setBit Reg.GRD_TRIPIN (18 + i)).undeclare 6 else h.clearBit Reg.GRD_TRIPIN (18 + i))) ∧
  (∀ (k : Fin 16) (p : Fin 160) (kind : Fin 256) (ch : Fin 16) s,
      2 ≤ s.hw.level →
      kind.val ∈ Hw.kindsOf p →
      p.val < 128 →
      bitN (Hw.kindMask kind) ch = true →
      Ends (.threshLoad k p kind ch) s fun t =>
        t = (s.onHw fun h =>
          let c := h.kindCodes k p kind ch
          let mask := (List.range 16).foldl (fun m i => if bitN (Hw.kindMask kind) i && h.kindCodes k p kind i == c then setBitN m i else m) 0
          h.cmdGo k p 0x10 9 (beBytes 2 mask ++ [byte kind] ++ beBytes 3 c.1 ++ beBytes 3 c.2) true) ∧
        (s.hw.cycling k = true → p.val ∈ s.hw.declared k → (s.hw.ring k).cmds.length < 16 →
          ∃ c ∈ (t.hw.ring k).cmds, c.target = p.val ∧ c.op = 0x10 ∧ c.thresh = true ∧ c.sent = none) ∧
        (s.hw.cycling k = false → t.hw.fld (Reg.VNK_CMD_STAT k) Fld.VNK_CMD_STAT_FAIL_CODE = 4 ∧ (t.hw.ring k).cmds = (s.hw.ring k).cmds))

/-- A powered die that gets a request sends the response to the request before; a request with a good CRC is executed by
its OP and its response held, one with a wrong CRC gives code 1: NOP does nothing, SAMPLE and STATUS answer, CFG_DIE
takes its windows, SET, CFG_CH and CLEAR act once per TAG, REFRESH takes the next WSEQ. A write of LSI_CMD for a
declared channel of a die that is not lost joins the queue with LSI_CMD_LC, and in the safe state it is refused with
code 2. An overcurrent retries within the warm-up while retries remain and latches otherwise; a thermal shutdown
latches; a window that expires takes the fail-safe states; a lost die is noted, a restored one configured again, and a
VLS of 16.5 V supplies the die again and clears the loss of a configured one. (R453, R454, R455, R456, R459, R460,
R463, R464, R465, R470, R473, R478) -/
def Obligations.LoadDiesAnswerAndProtectThemselves : Prop :=
  (∀ (d : Fin 4) (ch : Fin 16) (data : Word) (tag : Byte) s, s.hw.lsiOn = true → (s.hw.die d).powered = true →
      let x := s.hw.die d
      let good := fun (op : Nat) => s.onHw fun h =>
        (h.setDie d { (x.execute op ch data.toNat tag.toNat).1 with
            resp := Die.response op ch (x.execute op ch data.toNat tag.toNat).2.1 (x.execute op ch data.toNat tag.toNat).2.2, silent := 0 }).send
          (.die d) (beBytes 8 x.resp.toNat)
      let bad := fun (op : Nat) => s.onHw fun h =>
        (h.setDie d { x with resp := Die.response op ch 0 1, silent := 0 }).send (.die d) (beBytes 8 x.resp.toNat)
      exec (.dieNop d ch data tag true) s = .next (good 0) ∧ exec (.dieNop d ch data tag false) s = .next (bad 0) ∧
      exec (.dieSet d ch data tag true) s = .next (good 1) ∧ exec (.dieSet d ch data tag false) s = .next (bad 1) ∧
      exec (.dieCfgCh d ch data tag true) s = .next (good 2) ∧ exec (.dieCfgCh d ch data tag false) s = .next (bad 2) ∧
      exec (.dieCfgDie d ch data tag true) s = .next (good 3) ∧ exec (.dieCfgDie d ch data tag false) s = .next (bad 3) ∧
      exec (.dieRefresh d ch data tag true) s = .next (good 4) ∧ exec (.dieRefresh d ch data tag false) s = .next (bad 4) ∧
      exec (.dieSample d ch data tag true) s = .next (good 5) ∧ exec (.dieSample d ch data tag false) s = .next (bad 5) ∧
      exec (.dieClear d ch data tag true) s = .next (good 6) ∧ exec (.dieClear d ch data tag false) s = .next (bad 6) ∧
      exec (.dieStatus d ch data tag true) s = .next (good 7) ∧ exec (.dieStatus d ch data tag false) s = .next (bad 7)) ∧
  (∀ (who : Who) (c : Fin 64) (line : Fin 8) s,
      s.hw.MayWrite who Reg.LSI_CMD →
      s.hw.bit Reg.GRD_STAT 0 = false →
      bitN s.hw.lsi.declared c = true →
      s.hw.lsiLost (c / 16) = false →
      s.hw.lsi.queue.length < 32 → exec (.loadCmdOff who c line) s = .next (s.onHw fun h =>
        ((h.onLsi fun l => { l with
        queue := l.queue ++ [{ chan := c, op := 0, line := line, lc := (h.reg Reg.LSI_CMD_LC).toNat }] }).lsiFree).busOk 0)) ∧
  (∀ (who : Who) (c : Fin 64) (line : Fin 8) s, s.hw.MayWrite who Reg.LSI_CMD → s.hw.bit Reg.GRD_STAT 0 = true → exec (.loadCmdOff who c line) s = .next (
        s.onHw fun h => ((h.lsiResult c 2 0).count Reg.LSI_CNT_REFUSED).busOk 0)) ∧
  (∀ (who : Who) (c : Fin 64) (line : Fin 8) s,
      s.hw.MayWrite who Reg.LSI_CMD →
      s.hw.bit Reg.GRD_STAT 0 = false →
      bitN s.hw.lsi.declared c = true →
      s.hw.lsiLost (c / 16) = false →
      s.hw.lsi.queue.length < 32 → exec (.loadCmdOn who c line) s = .next (s.onHw fun h =>
        ((h.onLsi fun l => { l with
        queue := l.queue ++ [{ chan := c, op := 1, line := line, lc := (h.reg Reg.LSI_CMD_LC).toNat }] }).lsiFree).busOk 0)) ∧
  (∀ (who : Who) (c : Fin 64) (line : Fin 8) s, s.hw.MayWrite who Reg.LSI_CMD → s.hw.bit Reg.GRD_STAT 0 = true → exec (.loadCmdOn who c line) s = .next (
        s.onHw fun h => ((h.lsiResult c 2 0).count Reg.LSI_CNT_REFUSED).busOk 0)) ∧
  (∀ (who : Who) (c : Fin 64) (line : Fin 8) s,
      s.hw.MayWrite who Reg.LSI_CMD →
      s.hw.bit Reg.GRD_STAT 0 = false →
      bitN s.hw.lsi.declared c = true →
      s.hw.lsiLost (c / 16) = false →
      s.hw.lsi.queue.length < 32 → exec (.loadCmdFollow who c line) s = .next (s.onHw fun h =>
        ((h.onLsi fun l => { l with
        queue := l.queue ++ [{ chan := c, op := 2, line := line, lc := (h.reg Reg.LSI_CMD_LC).toNat }] }).lsiFree).busOk 0)) ∧
  (∀ (who : Who) (c : Fin 64) (line : Fin 8) s, s.hw.MayWrite who Reg.LSI_CMD → s.hw.bit Reg.GRD_STAT 0 = true → exec (.loadCmdFollow who c line) s = .next (
        s.onHw fun h => ((h.lsiResult c 2 0).count Reg.LSI_CNT_REFUSED).busOk 0)) ∧
  (∀ (who : Who) (c : Fin 64) (line : Fin 8) s,
      s.hw.MayWrite who Reg.LSI_CMD →
      s.hw.bit Reg.GRD_STAT 0 = false →
      bitN s.hw.lsi.declared c = true →
      s.hw.lsiLost (c / 16) = false →
      s.hw.lsi.queue.length < 32 → exec (.loadCmdClear who c line) s = .next (s.onHw fun h =>
        ((h.onLsi fun l => { l with
        queue := l.queue ++ [{ chan := c, op := 3, line := line, lc := (h.reg Reg.LSI_CMD_LC).toNat }] }).lsiFree).busOk 0)) ∧
  (∀ (who : Who) (c : Fin 64) (line : Fin 8) s, s.hw.MayWrite who Reg.LSI_CMD → s.hw.bit Reg.GRD_STAT 0 = true → exec (.loadCmdClear who c line) s = .next (
        s.onHw fun h => ((h.lsiResult c 2 0).count Reg.LSI_CNT_REFUSED).busOk 0)) ∧
  (∀ (c : Fin 64) warm s,
      (s.hw.die (c / 16)).powered = true →
      (s.hw.die (c / 16)).conducts ((s.hw.die (c / 16)).chan (c % 16)) = true →
      ((s.hw.die (c / 16)).chan (c % 16)).latch = 0 →
      warm = false → exec (.overcurrentEvent c warm) s = .next (
        s.onHw fun h => (h.onChan c fun _ y => { y with latch := 5, retry := false }).lsiNote Reg.LSI_CNT_OC 2)) ∧
  (∀ (c : Fin 64) s,
      (s.hw.die (c / 16)).powered = true →
      (s.hw.die (c / 16)).conducts ((s.hw.die (c / 16)).chan (c % 16)) = true →
      ((s.hw.die (c / 16)).chan (c % 16)).latch = 0 →
      (s.hw.die (c / 16)).hardLine ((s.hw.die (c / 16)).chan (c % 16)) = false →
      ((s.hw.die (c / 16)).chan (c % 16)).mode = 1 →
      ((s.hw.die (c / 16)).chan (c % 16)).retries < ((s.hw.die (c / 16)).chan (c % 16)).maxRetries → exec (.overcurrentEvent c true) s = .next (
        s.onHw fun h => (h.onChan c fun _ y => { y with retry := true }).lsiNote Reg.LSI_CNT_OC 2)) ∧
  (∀ (c : Fin 64) s, (s.hw.die (c / 16)).powered = true → exec (.thermalShutdown c) s = .next (
        s.onHw fun h => (h.onChan c fun _ y => { y with latch := 6, retry := false }).lsiNote Reg.LSI_CNT_OT 3)) ∧
  (∀ (c : Fin 64) s, ((s.hw.die (c / 16)).chan (c % 16)).retry = true → exec (.lampRetryEnd c) s = .next (
        s.onHw fun h => h.onChan c fun _ y => { y with retry := false, retries := y.retries + 1 })) ∧
  (∀ (d : Fin 4) (l : Fin 8) level us s, 5 ≤ us → (∀ p, p < 16 → ((s.hw.die d).chan p).mode ≠ 2) → exec (.directLineChange d l level us) s = .next (
        s.onHw fun h => h.setDie d { h.die d with lines := if level then setBitN (h.die d).lines l else clearBitN (h.die d).lines l })) ∧
  (∀ (d : Fin 4) s, (s.hw.die d).powered = true → (s.hw.die d).running = true →
      Ends (.watchdogExpire d) s fun t =>
        t = (s.onHw fun h =>
          let g := (h.setDie d (h.die d).expire).lsiNote Reg.LSI_CNT_WDX 4
          if g.aoOn then g.lsiStat (16 + d) true else g) ∧
        (t.hw.die d).running = false ∧ (t.hw.die d).fs = true ∧ (s.hw.aoOn = true → t.hw.bit Reg.LSI_STAT (16 + d) = true)) ∧
  (∀ (d : Fin 4) s, s.hw.lsiOn = true → s.hw.lsiLost d = false → exec (.dieLost d none) s = .next (
        s.onHw fun h => (h.setBit Reg.LSI_STAT (8 + d)).setBit Reg.LSI_IRQ_STAT 5)) ∧
  (∀ (d : Fin 4) (v : BitVec 16) s, v.toNat < 10000 → s.hw.lsiOn = false → exec (.dieLost d (some v)) s = .next (
        s.onHw fun h => h.setDie d { (h.die d).die_off with vls := v.toNat })) ∧
  (∀ (d : Fin 4) s,
      s.hw.lsiOn = true →
      (s.hw.die d).configured = false →
      (s.hw.die d).powered = true → exec (.dieRestore d) s = .next (s.onHw fun h =>
        let h := h.sendCfgDie d (h.bit Reg.LSI_STAT (4 + d))
        let h := (List.range 16).foldl (fun (h : Hw) p => h.sendCfgCh (16 * d + p)) h
        (h.clearBit Reg.LSI_STAT (8 + d)).setBit Reg.LSI_STAT (12 + d))) ∧
  (∀ (d : Fin 4) (vls : BitVec 16) s, 16500 ≤ vls.toNat →
      Ends (.dieVlsRecover d vls) s fun t =>
        t = (s.onHw fun h => (h.setDie d ((h.die d).supplied vls.toNat)).statusRead d) ∧
        (t.hw.die d).powered = true ∧ (t.hw.die d).low = false ∧ (t.hw.die d).vls = vls.toNat ∧
        (t.hw.die d).configured = (s.hw.die d).configured ∧
        (s.hw.lsiOn = true → (s.hw.die d).configured = true → t.hw.lsiLost d = false)) ∧
  (∀ (d : Fin 4) (v : BitVec 16) s, v.toNat < 16000 →
      Ends (.dieLost d (some v)) s fun t =>
        t = (s.onHw fun h => (h.setDie d ((h.die d).supplied v.toNat)).loseDie d) ∧
        ((t.hw.die d).low = true ∨ (t.hw.die d).powered = false) ∧ (t.hw.die d).vls = v.toNat ∧ (s.hw.lsiOn = true → t.hw.lsiLost d = true)) ∧
  (∀ (x : Die) ch data tag,
      x.execute 0 ch data tag = (x, 0, 0) ∧ x.execute 5 ch data tag = (x, (x.chan ch).sample.toNat, 0) ∧
      x.execute 7 ch data tag = (x, x.statusData, 0) ∧
      (2 ≤ data / 256 % 256 → data / 256 % 256 ≤ 50 → 150 ≤ data / 2 ^ 16 % 2048 → data / 2 ^ 16 % 2048 ≤ 2000 →
        x.execute 3 ch data tag =
          ({ x with configured := true, night := data % 2 == 1, dayMs := data / 256 % 256, nightMs := data / 2 ^ 16 % 2048 }, 0, 0)) ∧
      (x.configured = false → x.execute 1 ch data tag = (x, 0, 6) ∧ x.execute 6 ch data tag = (x, 0, 6) ∧ x.execute 4 ch data tag = (x, x.wseq, 6)) ∧
      (∀ op, op = 1 ∨ op = 2 ∨ op = 6 → x.configured = true → tag ≠ 0 → (x.chan ch).tag = tag →
        x.execute op ch data tag = (x, 0, (x.chan ch).ack)) ∧
      (∀ op, op = 1 ∨ op = 2 ∨ op = 6 → x.configured = true → (x.chan ch).tag ≠ tag →
        let r := x.evalChan (x.chan ch) op data
        x.execute op ch data tag = (x.setChan ch { r.1 with tag := tag, ack := r.2 }, 0, r.2)) ∧
      (x.configured = true → 1 ≤ (data % 256 + 256 - x.wseq) % 256 → (data % 256 + 256 - x.wseq) % 256 ≤ 64 →
        x.execute 4 ch data tag = (({ x with wseq := data % 256, running := true } : Die).settleFs, data % 256, 0)) ∧
      (x.configured = true → ((data % 256 + 256 - x.wseq) % 256 = 0 ∨ 64 < (data % 256 + 256 - x.wseq) % 256) →
        x.execute 4 ch data tag = (x, x.wseq, 5)))

/-- Three members that agree are issued; one that differs is found odd while the majority is issued; two that differ stop
the group. The end of a window compares the signatures and then carries out the pending request. A core whose self-
test fails is retired, and one that passes takes the state of the group. DETACH in mode 1, HANDOVER in mode 3 to a
ready single core, JOIN of a free core in modes 2 to 4, and RETIRE outside mode 5, asked by the duty group or the
secure world with nothing pending, become the pending request, carried out at once by a duty group of one; with one
pending the answer is BUSY. A cancelled HANDOVER or JOIN and a late HANDOVER end ABORTED. CRS_ALIVE ends a lapse, a
lapse is noted once, and four times ALIVE_MS stops the group. (R484, R487, R489, R490, R491, R492, R493, R494, R495,
R497, R500) -/
def Obligations.CrestVotesAndChangesItsMode : Prop :=
  (∀ {α : Type} [DecidableEq α] (h : Hw) (a b c : Nat) (x y : α),
      (h.vote [(a, x), (b, x), (c, x)] = (h, true)) ∧
      (x ≠ y → h.vote [(a, x), (b, x), (c, y)] = (h.oddCore c true, true) ∧ h.vote [(a, x), (b, y), (c, x)] = (h.oddCore b true, true) ∧
        h.vote [(a, y), (b, x), (c, x)] = (h.oddCore a true, true))) ∧
  (∀ {α : Type} [DecidableEq α] (h : Hw) (a b : Nat) (x y : α), x ≠ y → h.vote [(a, x), (b, y)] = (h.undecided true, false)) ∧
  (∀ s,
      s.hw.crestOn = true →
      s.hw.crs.off = false →
      s.hw.dutyHalted = false →
      Ends (.crestWindowBoundary) s fun t =>
        t = (s.onHw fun h => if h.compareWindow.2 then h.compareWindow.1.carryOut else h.compareWindow.1) ∧
        (s.hw.dutySize < 2 → t.hw = s.hw.carryOut) ∧ (s.hw.dutySize < 2 → s.hw.crs.request = none → t = s) ∧
        (2 ≤ s.hw.dutySize → (∀ a ∈ s.hw.duty, ∀ b ∈ s.hw.duty, s.hw.crestSig a.val = s.hw.crestSig b.val) → s.hw.crs.request = none →
          ∀ a ∈ s.hw.duty, t.hw.reg (Reg.CRS_SIG a.val) = s.hw.crestSig a.val)) ∧
  (∀ pass s, s.hw.crs.testing = none → exec (.resyncSelftestDone pass) s = .next (s)) ∧
  (∀ k s, s.hw.crs.testing = some k → s.hw.joining k = false →
      Ends (.resyncSelftestDone false) s fun t =>
        t = (s.onHw fun h => h.retireCore k) ∧
        t.hw.crs.testing = none ∧ (k < 3 → bitN t.hw.dutyMask k = false ∧ t.hw.isRetired k = true)) ∧
  (∀ k s,
      s.hw.crs.testing = some k →
      s.hw.joining k = false →
      s.hw.compareWindow.2 = true →
      Ends (.resyncSelftestDone true) s fun t =>
        t = (s.onHw fun h => h.compareWindow.1.resyncCopy k) ∧
        t.hw.crs.testing = none ∧ (k < 3 → bitN t.hw.dutyMask k = true) ∧ t.hw.bit Reg.CRS_IRQ_STAT 1 = true) ∧
  (∀ (who : Who) (k : Fin 4) s,
      s.hw.MayWrite who Reg.CRS_MODE_REQ →
      (who = .crest ∨ who = .secure) →
      s.hw.crs.request = none →
      k.val < 3 →
      s.hw.mode = 1 →
      bitN s.hw.dutyMask k = true →
      s.hw.dutySize ≠ 1 → exec (.modeDetach who k) s = .next (
        s.onHw fun h => (({ h with crs := { h.crs with request := some (opDetach, k), validated := false } } : Hw).setBit Reg.CRS_STAT 17 |>.modeResult opDetach 1).busOk 0)) ∧
  (∀ (who : Who) (k : Fin 4) s,
      s.hw.MayWrite who Reg.CRS_MODE_REQ →
      (who = .crest ∨ who = .secure) →
      s.hw.crs.request = none →
      k.val < 3 →
      s.hw.mode = 3 →
      s.hw.isSingle k = true →
      s.hw.bit Reg.CRS_READY 0 = true →
      s.hw.dutySize ≠ 1 → exec (.modeHandover who k) s = .next (
        s.onHw fun h => (({ h with crs := { h.crs with request := some (opHandover, k), validated := false } } : Hw).setBit Reg.CRS_STAT 17 |>.modeResult opHandover 1).busOk 0)) ∧
  (∀ (who : Who) (k : Fin 4) s,
      s.hw.MayWrite who Reg.CRS_MODE_REQ →
      (who = .crest ∨ who = .secure) →
      s.hw.crs.request = none →
      k.val < 3 →
      (s.hw.mode = 4 ∨ s.hw.mode = 3 ∨ s.hw.mode = 2) →
      bitN s.hw.dutyMask k = false →
      s.hw.isRetired k = false →
      s.hw.crs.testing ≠ some k.val →
      s.hw.dutySize ≠ 1 → exec (.modeJoin who k) s = .next (
        s.onHw fun h => (({ h with crs := { h.crs with request := some (opJoin, k), validated := false } } : Hw).setBit Reg.CRS_STAT 17 |>.modeResult opJoin 1).busOk 0)) ∧
  (∀ (who : Who) (k : Fin 4) s,
      s.hw.MayWrite who Reg.CRS_MODE_REQ →
      (who = .crest ∨ who = .secure) →
      s.hw.crs.request = none →
      k.val < 3 →
      s.hw.mode ≠ 5 →
      s.hw.isRetired k = false →
      s.hw.dutySize ≠ 1 → exec (.modeRetire who k) s = .next (
        s.onHw fun h => (({ h with crs := { h.crs with request := some (opRetire, k), validated := false } } : Hw).setBit Reg.CRS_STAT 17 |>.modeResult opRetire 1).busOk 0)) ∧
  (∀ (who : Who) (k : Fin 4) s,
      s.hw.MayWrite who Reg.CRS_MODE_REQ →
      (who = .crest ∨ who = .secure) →
      s.hw.crs.request ≠ none → exec (.modeDetach who k) s = .next (
        s.onHw fun h => (h.modeResult opDetach 2).busOk 0)) ∧
  (∀ (who : Who) k s,
      s.hw.MayWrite who Reg.CRS_MODE_REQ →
      (who = .crest ∨ who = .secure) →
      s.hw.crs.request = some (opHandover, k) →
      Ends (.modeCancel who) s fun t =>
        t = (s.onHw fun h => (h.endRequest 5).busOk 0) ∧
        t.hw.crs.request = none ∧ t.hw.crs.validated = false ∧ t.hw.reg Reg.CRS_READY = 0 ∧
        t.hw.reg Reg.CRS_MODE_STAT = word (opHandover * 16 + 5) ∧ t.hw.bit Reg.CRS_STAT 17 = false ∧ t.hw.busErr = false) ∧
  (∀ k s, s.hw.crs.request = some (opHandover, k) →
      Ends (.handoverTimeout) s fun t =>
        t = (s.onHw fun h => h.endRequest 5) ∧
        t.hw.crs.request = none ∧ t.hw.crs.validated = false ∧ t.hw.reg Reg.CRS_READY = 0 ∧
        t.hw.reg Reg.CRS_MODE_STAT = word (opHandover * 16 + 5) ∧ t.hw.bit Reg.CRS_STAT 17 = false) ∧
  (∀ (t : BitVec 40) s, s.hw.MayWrite .crest Reg.CRS_ALIVE → exec (.crsAlive .crest t) s = .next (
        s.onHw fun h => ((({ h with crs := { h.crs with lapse := false } } : Hw).setBit Reg.CRS_STAT 16).clearBit Reg.CRS_STAT 19).busOk 0)) ∧
  (∀ s,
      s.hw.crestOn = true →
      s.hw.dutyHalted = false →
      s.hw.crs.lapse = false →
      s.hw.crs.off = false → exec (.aliveLapse) s = .next (
        s.onHw fun h => ((({ h with crs := { h.crs with lapse := true } } : Hw).clearBit Reg.CRS_STAT 16).count Reg.CRS_CNT_ALIVE).setBit Reg.CRS_IRQ_STAT 5)) ∧
  (∀ s, s.hw.crs.lapse = true → s.hw.dutyHalted = false →
      Ends (.aliveLapseLimit) s fun t =>
        t = (s.onHw fun h => h.groupStop) ∧
        t.hw.crs.lapse = false ∧ t.hw.crs.testing = none ∧ t.hw.bit Reg.CRS_STAT 19 = true ∧ t.hw.bit Reg.CRS_IRQ_STAT 3 = true) ∧
  (∀ (who : Who) j s,
      s.hw.MayWrite who Reg.CRS_MODE_REQ →
      (who = .crest ∨ who = .secure) →
      s.hw.crs.request = some (opJoin, j) →
      Ends (.modeCancel who) s fun t =>
        t = (s.onHw fun h =>
          (let g := if h.crs.testing = some j then
              (({ h with crs := { h.crs with testing := none } } : Hw).clearBit Reg.CRS_STAT 18).noteMode
            else h
          g.endRequest 5).busOk 0) ∧
        t.hw.crs.request = none ∧ t.hw.reg Reg.CRS_MODE_STAT = word (opJoin * 16 + 5) ∧ t.hw.crs.testing ≠ some j ∧ t.hw.busErr = false) ∧
  (∀ (who : Who) (k : Fin 4) s,
      s.hw.MayWrite who Reg.CRS_MODE_REQ →
      (who = .crest ∨ who = .secure) →
      s.hw.crs.request = none →
      k.val < 3 →
      s.hw.mode = 3 →
      s.hw.isSingle k = true →
      s.hw.bit Reg.CRS_READY 0 = true →
      s.hw.dutySize = 1 → exec (.modeHandover who k) s = .next (
        s.onHw fun h => ((({ h with crs := { h.crs with request := some (opHandover, k), validated := false } } : Hw).setBit Reg.CRS_STAT 17 |>.modeResult opHandover 1).carryOut).busOk 0)) ∧
  (∀ (who : Who) (k : Fin 4) s,
      s.hw.MayWrite who Reg.CRS_MODE_REQ →
      (who = .crest ∨ who = .secure) →
      s.hw.crs.request = none →
      k.val < 3 →
      (s.hw.mode = 4 ∨ s.hw.mode = 3 ∨ s.hw.mode = 2) →
      bitN s.hw.dutyMask k = false →
      s.hw.isRetired k = false →
      s.hw.crs.testing ≠ some k.val →
      s.hw.dutySize = 1 → exec (.modeJoin who k) s = .next (
        s.onHw fun h => ((({ h with crs := { h.crs with request := some (opJoin, k), validated := false } } : Hw).setBit Reg.CRS_STAT 17 |>.modeResult opJoin 1).carryOut).busOk 0)) ∧
  (∀ (who : Who) (k : Fin 4) s,
      s.hw.MayWrite who Reg.CRS_MODE_REQ →
      (who = .crest ∨ who = .secure) →
      s.hw.crs.request = none →
      k.val < 3 →
      s.hw.mode ≠ 5 →
      s.hw.isRetired k = false →
      bitN s.hw.dutyMask k = false →
      s.hw.dutySize = 1 → exec (.modeRetire who k) s = .next (
        s.onHw fun h => ((({ h with crs := { h.crs with request := some (opRetire, k), validated := false } } : Hw).setBit Reg.CRS_STAT 17 |>.modeResult opRetire 1).carryOut).busOk 0))

/-- A debug request halts every member of the group where invasive debug is enabled, and waits otherwise; resume, step and
a debugger write act on every member of a halted group, and on none that runs. With DBG_LOCK blown nothing steps or
resumes. A stream ends or raises MEM_ERROR. A granted hand-over is over and the unit has its new owner. A source is
set and cleared by its owner and a foreign clear is counted. The source that a core takes is enabled, not active,
pending, routed to it and below its threshold; the takers enter its owner's level, it becomes ACTIVE and a software
source is no longer pending. A write to IEOI by the owner ends it, and one for a source that is not active is counted.
A waiting core resumes when an interrupt is pending. (R334, R354, R498, R511, R518, R522, R523, R524, R526) -/
def Obligations.DebugAndInterruptsReachTheCores : Prop :=
  (∀ (h : Hw) who i, h.srcActive i = true → whoCode who ≠ 0 → h.srcOwner i = whoCode who → h.endOf who i = h.clearBit (Reg.IRQ_SRC i) 2) ∧
  (∀ (h : Hw) who i, h.srcActive i = false → h.endOf who i = h.count Reg.IRQ_CNT_DENY) ∧
  (∀ (h : Hw) c i, h.canTake i c = true → h.srcEn i = true ∧ h.srcActive i = false ∧ h.srcPending i = true ∧ h.srcTargets i c = true ∧
      h.srcPrio i < bitsOf ((h.coreOf c).crAt (55 + Hw.ownerLevel (h.srcOwner i))) 7 0) ∧
  (∀ (k : Core) t i, t ≤ 3 → (k.interrupt t i).idle = false ∧ (k.interrupt t i).level = t) ∧
  (∀ (c : CoreId) s,
      s.debugPort = true →
      c.isEngine = false →
      s.hw.corePowered c = true →
      (s.hw.coreOf c).inReset = false →
      s.invasive c = true →
      Ends (.debugHalt c) s fun t =>
        t = (s.onHw fun h => h.setHalted c true) ∧
        ∀ m ∈ s.hw.members c, (t.hw.coreOf m).halted = true ∧ (t.hw.coreOf m).pc = (s.hw.coreOf m).pc) ∧
  (∀ (c : CoreId) s,
      s.debugPort = true →
      c.isEngine = false →
      s.hw.corePowered c = true →
      (s.hw.coreOf c).inReset = false →
      s.invasive c = false → exec (.debugHalt c) s = .next (
        s.onHw fun h => (h.members c).foldl (fun (h : Hw) m => h.setCore m { h.coreOf m with haltPending := true }) h)) ∧
  (∀ (c : CoreId) s, s.debugPort = true → (s.hw.coreOf c).halted = true →
      Ends (.debugResume c) s fun t =>
        t = (s.onHw fun h => h.setHalted c false) ∧
        ∀ m ∈ s.hw.members c, (t.hw.coreOf m).halted = false ∧ (t.hw.coreOf m).pc = (s.hw.coreOf m).pc) ∧
  (∀ (c : CoreId) s,
      s.debugPort = true →
      s.invasive c = true →
      (s.hw.coreOf c).halted = true → exec (.debugStep c) s = .next (
        s.onHw fun h => (h.members c).foldl (fun (h : Hw) m => h.setCore m { h.coreOf m with stepping := true }) h)) ∧
  (∀ (c : CoreId) r v s,
      s.debugPort = true →
      c.isEngine = false →
      (s.hw.coreOf c).halted = true →
      s.invasive c = true → exec (.debuggerWrite c (.gpr r) v) s = .next (
        s.onHw fun h => (h.members c).foldl (fun (h : Hw) m => h.setCore m ((h.coreOf m).setGpr r v)) h)) ∧
  (∀ (c : CoreId) v s,
      s.debugPort = true →
      c.isEngine = false →
      (s.hw.coreOf c).halted = true →
      s.invasive c = true → exec (.debuggerWrite c .pc v) s = .next (
        s.onHw fun h => (h.members c).foldl (fun (h : Hw) m => h.setCore m { h.coreOf m with pc := v }) h)) ∧
  (∀ (c : CoreId) t v s, (s.hw.coreOf c).halted = false → exec (.debuggerWrite c t v) s = .next (s)) ∧
  (∀ (e : Fin 512) g s, s.hw.streamNext e = (g, none) → exec (.streamComplete e) s = .next ({ s with hw := g })) ∧
  (∀ (e : Fin 512) g a s, s.hw.streamNext e = (g, some a) → exec (.streamComplete e) s = .next (
        { s with hw := g.engineExcept e 0x04 (word a) .back })) ∧
  (∀ (c : CoreId) s, (s.hw.coreOf c).idle = true → s.hw.wakes c = true → exec (.idleWake c) s = .next (
        s.onHw fun h => (h.members c).foldl (fun (h : Hw) m => h.setCore m { h.coreOf m with idle := false }) h)) ∧
  (∀ (who : Who) (src : Fin 1024) s,
      s.hw.MayWrite who Reg.IRQ_SET →
      0x200 ≤ src.val →
      whoCode who ≠ 0 →
      s.hw.srcOwner src = whoCode who → exec (.irqSet who src) s = .next (
        s.onHw fun h => (h.setBit (Reg.IRQ_SRC src) 1).busOk 0)) ∧
  (∀ (who : Who) (src : Fin 1024) s,
      s.hw.MayWrite who Reg.IRQ_CLR →
      0x200 ≤ src.val →
      whoCode who ≠ 0 →
      s.hw.srcOwner src = whoCode who → exec (.irqClr who src) s = .next (
        s.onHw fun h => (h.clearBit (Reg.IRQ_SRC src) 1).busOk 0)) ∧
  (∀ (who : Who) (src : Fin 1024) s,
      s.hw.MayWrite who Reg.IRQ_CLR →
      0x200 ≤ src.val →
      s.hw.srcOwner src ≠ whoCode who → exec (.irqClr who src) s = .next (
        s.onHw fun h => (h.count Reg.IRQ_CNT_DENY).busOk 0)) ∧
  (∀ (c : CoreId) i s,
      s.hw.bit Reg.IRQ_CTRL 0 = true →
      s.hw.corePowered c = true →
      s.hw.coreClocked c = true →
      (s.hw.coreOf c).inReset = false →
      (s.hw.coreOf c).halted = false →
      s.hw.takeNext c = some i → exec (.interruptTake c) s = .next (
        (s.onHw fun h =>
        let t := Hw.ownerLevel (h.srcOwner i)
        let takers := if h.srcTarget i = 0 then h.members c else [c]
        let h1 := takers.foldl (fun (h : Hw) m => h.setCore m ((h.coreOf m).interrupt t i)) h
        let h1 := h1.setBit (Reg.IRQ_SRC i) 2
        if 0x200 ≤ i then h1.clearBit (Reg.IRQ_SRC i) 1 else h1).afterInstr c)) ∧
  (∀ (k : Fin 8) s,
      s.hw.appOn k = true →
      (s.hw.appCore k).inReset = false →
      (s.hw.appCore k).ns = false →
      (s.hw.appCore k).shadow.isSome = true → exec (.secureEntryOverrun k) s = .next (
        s.onHw fun h => h.count Reg.WLD_CNT_SECLONG)) ∧
  (∀ (source : Bool) (id : Nat) n x s,
      s.hw.handovers.find? (fun x => x.source == source && x.id == id) = some x →
      s.hw.sysOn = true →
      Ends (.unitHandoverGrant source id n) s fun t =>
        t = (s.onHw fun h => h.handoverEnd x n) ∧
        codeIsVm x.new = false →
          (t.hw.inHandover x.source x.id = false ∧
          (x.source = false → isUnit x.id = true → x.new < 256 →
            t.hw.fld (Reg.WLD_UNIT_OWN x.id) Fld.WLD_UNIT_OWN_OWNER = x.new ∧ t.hw.fld (Reg.WLD_UNIT_OWN x.id) Fld.WLD_UNIT_OWN_STATE = 0))) ∧
  (∀ (c : CoreId) (n : Fin 128) v s,
      s.debugPort = true →
      c.isEngine = false →
      (s.hw.coreOf c).halted = true →
      s.invasive c = true →
      (crLevels c.isApp n).isNone = false → exec (.debuggerWrite c (.cr n) v) s = .next (
        s.onHw fun h => (h.members c).foldl (fun (h : Hw) m => h.setCore m ((h.coreOf m).crWrite n v)) h)) ∧
  (∀ (c : CoreId) (n : Fin 128) v s, (crLevels c.isApp n).isNone = true → exec (.debuggerWrite c (.cr n) v) s = .next (s)) ∧
  (∀ (c : CoreId) a v s,
      s.debugPort = true →
      c.isEngine = false →
      (s.hw.coreOf c).halted = true →
      s.invasive c = true → exec (.debuggerWrite c (.mem a) v) s = .next (
        s.debugStore c a.toNat v)) ∧
  (∀ (c : CoreId) s, s.fuse.dbgLock = true → exec (.debugStep c) s = .next (s)) ∧
  (∀ (c : CoreId) s, s.fuse.dbgLock = true → exec (.debugResume c) s = .next (s))

/-- CLAIM needs the CLAIM bit of the requester, RELEASE and RETURN the owner, the secure world or the hypervisor over a
VM, and a RELEASE an admissible new owner; the codes of a refusal are 2 and 5. An accepted request for a unit, or for
a source of no unit, releases it at once and WLD_HO_STAT of the requester reads RUNNING; one for a unit that is being
handed over is BUSY. START of an empty declared slot by the secure world or the hypervisor starts it, VM0 without an
image and a tenant from its good active image, STOP and a fatal fault of a running VM stop it, its first channel write
makes it RUNNING, ten seconds without make it FAILED, and the end of STOPPING clears it. HP0 is returned by Crest once
VM0 runs. (R514, R515, R516, R517, R518, R528, R529, R549) -/
def Obligations.UnitsChangeOwnersAndVmsChangeState : Prop :=
  (∀ (h : Hw) who owner new dflt grant claim,
      (whoCode who ≠ 0 → bitN claim (whoBit who) = true → whoCode who ≠ owner → h.hoVerdict who 2 owner new dflt grant claim = .go (whoCode who)) ∧
      (bitN claim (whoBit who) = false → h.hoVerdict who 2 owner new dflt grant claim = .refuse 2) ∧
      (mayRelease who owner = false → h.hoVerdict who 1 owner new dflt grant claim = .refuse 2 ∧ h.hoVerdict who 3 owner new dflt grant claim = .refuse 2) ∧
      (mayRelease who owner = true → h.newOwnerOk grant new = false → h.hoVerdict who 1 owner new dflt grant claim = .refuse 5) ∧
      (mayRelease who owner = true → h.newOwnerOk grant new = true → new ≠ owner → h.hoVerdict who 1 owner new dflt grant claim = .go new) ∧
      (mayRelease who owner = true → dflt ≠ owner → h.hoVerdict who 3 owner new dflt grant claim = .go dflt)) ∧
  (∀ (who : Who) (source : Bool) (id new : Nat) owner dflt grant claim n s,
      s.hw.MayWrite who Reg.WLD_HO_REQ →
      id < 1024 →
      (if source then id < 0x1F8 ∨ 0x200 ≤ id else isUnit id = true) →
      (source = true → sourceOfUnit id = false) →
      s.hw.inHandover source id = false →
      s.hw.hoAuth source id = (owner, dflt, grant, claim) →
      new < 256 →
      s.hw.hoVerdict who 1 owner new dflt grant claim = .go n →
      Ends (.unitRelease who source id new) s fun t =>
        t = (s.onHw fun h =>
          ((h.hoRelease { source := source, id := id, old := owner, new := n, op := 1, who := whoBit who }).setHoStat
          (whoBit who) n (b2n source) 1 id).busOk 0) ∧
        t.hw.inHandover source id = true ∧ t.hw.busErr = false ∧
        (source = false → t.hw.fld (Reg.WLD_UNIT_OWN id) Fld.WLD_UNIT_OWN_OWNER = 0 ∧ t.hw.fld (Reg.WLD_UNIT_OWN id) Fld.WLD_UNIT_OWN_STATE = 1) ∧
        (source = true → t.hw.fld (Reg.IRQ_SRC id) Fld.IRQ_SRC_OWNER = 0 ∧ t.hw.bit (Reg.IRQ_SRC id) 0 = false)) ∧
  (∀ (who : Who) (source : Bool) (id : Nat) owner dflt grant claim n s,
      s.hw.MayWrite who Reg.WLD_HO_REQ →
      id < 1024 →
      (if source then id < 0x1F8 ∨ 0x200 ≤ id else isUnit id = true) →
      (source = true → sourceOfUnit id = false) →
      s.hw.inHandover source id = false →
      s.hw.hoAuth source id = (owner, dflt, grant, claim) →
      s.hw.hoVerdict who 2 owner (whoCode who) dflt grant claim = .go n →
      Ends (.unitClaim who source id) s fun t =>
        t = (s.onHw fun h =>
          ((h.hoRelease { source := source, id := id, old := owner, new := n, op := 2, who := whoBit who }).setHoStat
          (whoBit who) n (b2n source) 1 id).busOk 0) ∧
        t.hw.inHandover source id = true ∧ t.hw.busErr = false ∧
        (source = false → t.hw.fld (Reg.WLD_UNIT_OWN id) Fld.WLD_UNIT_OWN_OWNER = 0 ∧ t.hw.fld (Reg.WLD_UNIT_OWN id) Fld.WLD_UNIT_OWN_STATE = 1) ∧
        (source = true → t.hw.fld (Reg.IRQ_SRC id) Fld.IRQ_SRC_OWNER = 0 ∧ t.hw.bit (Reg.IRQ_SRC id) 0 = false)) ∧
  (∀ (who : Who) (source : Bool) (id : Nat) owner dflt grant claim n s,
      s.hw.MayWrite who Reg.WLD_HO_REQ →
      id < 1024 →
      (if source then id < 0x1F8 ∨ 0x200 ≤ id else isUnit id = true) →
      (source = true → sourceOfUnit id = false) →
      s.hw.inHandover source id = false →
      s.hw.hoAuth source id = (owner, dflt, grant, claim) →
      s.hw.hoVerdict who 3 owner 0 dflt grant claim = .go n →
      Ends (.unitReturn who source id) s fun t =>
        t = (s.onHw fun h =>
          ((h.hoRelease { source := source, id := id, old := owner, new := n, op := 3, who := whoBit who }).setHoStat
          (whoBit who) n (b2n source) 1 id).busOk 0) ∧
        t.hw.inHandover source id = true ∧ t.hw.busErr = false ∧
        (source = false → t.hw.fld (Reg.WLD_UNIT_OWN id) Fld.WLD_UNIT_OWN_OWNER = 0 ∧ t.hw.fld (Reg.WLD_UNIT_OWN id) Fld.WLD_UNIT_OWN_STATE = 1) ∧
        (source = true → t.hw.fld (Reg.IRQ_SRC id) Fld.IRQ_SRC_OWNER = 0 ∧ t.hw.bit (Reg.IRQ_SRC id) 0 = false)) ∧
  (∀ (who : Who) (source : Bool) (id : Nat) s,
      s.hw.MayWrite who Reg.WLD_HO_REQ →
      id < 1024 →
      isUnit id = true →
      source = false →
      s.hw.inHandover source id = true → exec (.unitClaim who source id) s = .next (
        s.onHw fun h => (h.setHoStat (whoBit who) (whoCode who) 0 4 id).busOk 0)) ∧
  (∀ s,
      (s.hw.vmSlot 0).declared = true →
      (s.hw.vmSlot 0).state = .empty →
      s.hw.sysOn = true → exec (.vmStart .hypervisor 0) s = .next (
        s.onHw fun h => (h.setVmSlot 0 { h.vmSlot 0 with state := .starting }).answer stOk)) ∧
  (∀ (who : Who) (v : Fin 16) s, Hw.vmCommander who = false → exec (.vmStart who v) s = .next (
        s.onHw fun h => h.answer stNoAccess)) ∧
  (∀ (who : Who) (v : Fin 16) s, Hw.vmCommander who = true → (s.hw.vmSlot v).state ≠ .empty → exec (.vmStart who v) s = .next (
        s.onHw fun h => h.answer stState)) ∧
  (∀ (who : Who) (v : Fin 16) s, Hw.vmCommander who = true → (s.hw.vmSlot v).state = .running →
      Ends (.vmStop who v) s fun t =>
        t = (s.onHw fun h => (h.vmStopping v).answer stOk) ∧
        (t.hw.vmSlot v).state = .stopping ∧ t.hw.lc = s.hw.lc) ∧
  (∀ (v : Fin 16) s, (s.hw.vmSlot v).state = .running →
      Ends (.vmFatalFault v) s fun t =>
        t = (s.onHw fun h => (h.setVmSlot v { h.vmSlot v with faults := min ((h.vmSlot v).faults + 1) (2 ^ 40 - 1) }).vmStopping v) ∧
        (t.hw.vmSlot v).state = .stopping ∧ (t.hw.vmSlot v).faults = min ((s.hw.vmSlot v).faults + 1) (2 ^ 40 - 1)) ∧
  (∀ (v : Fin 16) s, (s.hw.vmSlot v).state = .starting → exec (.vmFirstChannelWrite v) s = .next (s.onHw fun h =>
        let h1 := h.setVmSlot v { h.vmSlot v with state := .running }
        if v.val = 0 then h1.pathEnds 1 true else h1)) ∧
  (∀ (v : Fin 16) s, (s.hw.vmSlot v).state = .starting →
      Ends (.vmStartTimeout v) s fun t =>
        t = (s.onHw fun h => (h.setVmSlot v { h.vmSlot v with state := .failed }).vmStopping v) ∧
        (t.hw.vmSlot v).state = .stopping) ∧
  (∀ (v : Fin 16) s, (s.hw.vmSlot v).state = .stopping → s.hw.vmStopped v = true →
      Ends (.vmStoppingDone v) s fun t =>
        t = (s.onHw fun h => h.vmCleared v) ∧
        (t.hw.vmSlot v).state = (if v.val = 0 then .starting else .empty) ∧
        ∀ i, i < (s.hw.vmSlot v).poolSize → (t.hw.ram ((s.hw.vmSlot v).poolBase + i)).data = 0) ∧
  (∀ s, (s.hw.vmSlot 0).state = .running →
      Ends (.hp0Return) s fun t =>
        t = (s.onHw fun h => h.hoRequest .crest 3 false 40 0) ∧
        ∀ owner dflt grant claim, s.hw.inHandover false 40 = false → s.hw.hoAuth false 40 = (owner, dflt, grant, claim) →
          mayRelease .crest owner = true → dflt ≠ owner →
          t.hw.inHandover false 40 = true ∧ t.hw.fld (Reg.WLD_UNIT_OWN 40) Fld.WLD_UNIT_OWN_OWNER = 0) ∧
  (∀ (who : Who) (v : Fin 16) s, Hw.vmCommander who = true → v.val ≠ 0 → (s.hw.vmSlot v).declared = true → (s.hw.vmSlot v).state = .empty →
      s.hw.sysOn = true → s.tenantGood (s.partImage norStaging 4 v) v = false → Ends (.vmStart who v) s fun t =>
        (s.tenantGood (s.partImage norActive 4 v) v = true → (t.hw.vmSlot v).state = .starting ∧ t.hw.status = stOk ∧
          Tabs.get (fun _ => (0 : Nat)) t.hw.upd.inForce (16 + v.val) = norActive + (partOf 4 v).1 + 1) ∧
        (s.tenantGood (s.partImage norActive 4 v) v = false → (t.hw.vmSlot v).state = .empty ∧ t.hw.status = stState))

/-- A doorbell of the sender on an open channel with a new SEQ and a credit left puts the message behind the others, takes
a credit and remembers the SEQ; a repeated SEQ that is still queued answers PENDING and is counted; a doorbell of any
other identity is counted. The receiver acknowledges the oldest message by its SEQ with a code below 0xFF00; a foreign
acknowledgement is counted. MBX_DONE gives the sender the oldest completion and removes it. A hand-over of a channel
end, or of an instance without work, that R517 admits resets the channel and moves the end. (R531, R533, R535, R537,
R539, R541, R552) -/
def Obligations.MailboxMessagesAndChannelsMove : Prop :=
  (∀ (c : Channel) (seq l : Nat), 0 < seq → seq < 65536 → c.last = some l → 1 ≤ (seq + 65536 - l) % 65536 →
      (seq + 65536 - l) % 65536 ≤ 32767 → c.classify seq = .fresh) ∧
  (∀ (c : Channel) (seq : Nat), 0 < seq → c.last = some seq → seq < 65536 → (∃ m ∈ c.queue, m.seq = seq) → c.classify seq = .pending) ∧
  (∀ (who : Who) (n : Fin 64) seq (tag : Byte) len s,
      s.hw.MayWrite who (Reg.MBX_DOORBELL n) →
      s.hw.channelOpen n = true →
      s.hw.isSender who n = true →
      s.hw.receiverOn (s.hw.chan n).recv = true →
      (s.hw.chan n).classify seq.toNat = .fresh →
      0 < (s.hw.chan n).credits → exec (.mbxDoorbell who n seq tag len) s = .next (s.onHw fun h =>
        (let c := h.chan n
        let m : MbxMsg := { ptr := bitsOf (h.reg (Reg.MBX_PTR n)) 33 0, len := len.toNat, tag := tag.toNat, seq := seq.toNat }
        (h.setChan n { c with
          txResult := 0, credits := c.credits - 1, queue := c.queue ++ [m],
          last := (if seq.toNat = 0 then c.last else some seq.toNat) }).vmFirstWrite who n).busOk 0)) ∧
  (∀ (who : Who) (n : Fin 64) seq (tag : Byte) len s,
      s.hw.MayWrite who (Reg.MBX_DOORBELL n) →
      s.hw.channelOpen n = true →
      s.hw.isSender who n = true →
      s.hw.receiverOn (s.hw.chan n).recv = true →
      (s.hw.chan n).classify seq.toNat = .pending → exec (.mbxDoorbell who n seq tag len) s = .next (
        s.onHw fun h => (((h.setChan n { h.chan n with txResult := 2 }).count Reg.MBX_CNT_REPEAT).vmFirstWrite who n).busOk 0)) ∧
  (∀ (who : Who) (n : Fin 64) seq (tag : Byte) len s,
      s.hw.MayWrite who (Reg.MBX_DOORBELL n) →
      s.hw.isSender who n = false → exec (.mbxDoorbell who n seq tag len) s = .next (
        s.onHw fun h => (h.count Reg.MBX_CNT_DENY).busOk 0)) ∧
  (∀ (who : Who) (n : Fin 64) (seq code : BitVec 16) m q s,
      s.hw.MayWrite who (Reg.MBX_ACK n) →
      s.hw.channelOpen n = true →
      s.hw.isReceiver who n = true →
      code.toNat < 0xFF00 →
      (s.hw.chan n).queue = m :: q →
      m.seq = seq.toNat → exec (.mbxAck who n seq code) s = .next (
        s.onHw fun h => ((h.setChan n { h.chan n with rxResult := 0 }).mbxAckHead n code.toNat).busOk 0)) ∧
  (∀ (who : Who) (n : Fin 64) (seq code : BitVec 16) s,
      s.hw.MayWrite who (Reg.MBX_ACK n) →
      s.hw.isReceiver who n = false → exec (.mbxAck who n seq code) s = .next (
        s.onHw fun h => (h.count Reg.MBX_CNT_DENY).busOk 0)) ∧
  (∀ (who : Who) (n : Fin 64) s, s.hw.MayRead who (Reg.MBX_DONE n) → s.hw.isSender who n = true → exec (.mbxDoneRead who n) s = .next (
        s.onHw fun h => (h.setChan n { h.chan n with done := (h.chan n).done.drop 1 }).busOk (h.chan n).doneWord)) ∧
  (∀ (who : Who) (id : Fin 64) new n s,
      s.hw.MayWrite who Reg.MBX_HO_REQ →
      id.val < 48 →
      s.hw.hoVerdict who 1 (s.hw.chan id).recv new (s.hw.chan id).dfltRecv (s.hw.chan id).grant (s.hw.chan id).claim = .go n → exec (.channelRelease who 1 id new) s = .next (
        s.onHw fun h => ((h.channelMove 1 id (h.chan id).recv n 1).setMbxHoStat who n 1 0 1 id).busOk 0)) ∧
  (∀ (who : Who) (id : Fin 64) n s,
      s.hw.MayWrite who Reg.MBX_HO_REQ →
      id.val < 48 →
      s.hw.hoVerdict who 2 (s.hw.chan id).sender (whoCode who) (s.hw.chan id).dfltSender (s.hw.chan id).grant (s.hw.chan id).claim = .go n → exec (.channelClaim who 2 id) s = .next (
        s.onHw fun h => ((h.channelMove 2 id (h.chan id).sender n 2).setMbxHoStat who n 2 0 2 id).busOk 0)) ∧
  (∀ (who : Who) (id : Fin 64) n s,
      s.hw.MayWrite who Reg.MBX_HO_REQ →
      id.val < 48 →
      s.hw.hoVerdict who 3 (s.hw.chan id).recv 0 (s.hw.chan id).dfltRecv (s.hw.chan id).grant (s.hw.chan id).claim = .go n → exec (.channelReturn who 1 id) s = .next (
        s.onHw fun h => ((h.channelMove 1 id (h.chan id).recv n 3).setMbxHoStat who n 1 0 3 id).busOk 0)) ∧
  (∀ (who : Who) (id : Fin 64) new n s,
      s.hw.MayWrite who Reg.MBX_HO_REQ →
      id.val < 48 →
      s.hw.hoVerdict who 1 (s.hw.chan id).sender new (s.hw.chan id).dfltSender (s.hw.chan id).grant (s.hw.chan id).claim = .go n → exec (.channelRelease who 2 id new) s = .next (
        s.onHw fun h => ((h.channelMove 2 id (h.chan id).sender n 1).setMbxHoStat who n 2 0 1 id).busOk 0)) ∧
  (∀ (who : Who) (id : Fin 64) n s,
      s.hw.MayWrite who Reg.MBX_HO_REQ →
      id.val < 48 →
      s.hw.hoVerdict who 2 (s.hw.chan id).recv (whoCode who) (s.hw.chan id).dfltRecv (s.hw.chan id).grant (s.hw.chan id).claim = .go n → exec (.channelClaim who 1 id) s = .next (
        s.onHw fun h => ((h.channelMove 1 id (h.chan id).recv n 2).setMbxHoStat who n 1 0 2 id).busOk 0)) ∧
  (∀ (who : Who) (id : Fin 64) n s,
      s.hw.MayWrite who Reg.MBX_HO_REQ →
      id.val < 48 →
      s.hw.hoVerdict who 3 (s.hw.chan id).sender 0 (s.hw.chan id).dfltSender (s.hw.chan id).grant (s.hw.chan id).claim = .go n → exec (.channelReturn who 2 id) s = .next (
        s.onHw fun h => ((h.channelMove 2 id (h.chan id).sender n 3).setMbxHoStat who n 2 0 3 id).busOk 0)) ∧
  (∀ (who : Who) (id : Fin 64) new n s,
      s.hw.MayWrite who Reg.MBX_HO_REQ →
      id.val < 16 →
      (s.hw.inst id).item = none →
      (s.hw.inst id).loaded = false →
      ((s.hw.inst id).state = .idle ∨ (s.hw.inst id).state = .drained) →
      s.hw.hoVerdict who 1 (0x10 + (s.hw.inst id).vm) new (0x10 + (s.hw.inst id).dfltVm) (s.hw.inst id).grant (s.hw.inst id).claim = .go n →
      codeIsVm n = true → exec (.channelRelease who 3 id new) s = .next (
        s.onHw fun h => ((h.channelMove 3 id (0x10 + (h.inst id).vm) n 1).setMbxHoStat who n 3 0 1 id).busOk 0))

/-- FI_LOAD copies a kernel inside its bounds from the DRAM grant to the ridge grants of the powered islands and
acknowledges with 0; FI_RUN starts an item of NT tasks from ENTRY of a loaded kernel; a finished item is acknowledged
with its code and the instance is IDLE. Every assigned instance gains RATE per millisecond up to ten gains; the end of
a task deducts its clocks and records the first failure; a task beyond TASK_MAX fails with TIMEOUT. Its VM, the
hypervisor and the secure world quiesce it, and reset, resume and remove it once drained; any other identity gets
DENIED. (R542, R544, R545, R547, R548, R552) -/
def Obligations.FabricInstancesRunTheirItems : Prop :=
  (∀ s : State, exec .fiBudgetGain s = .next (s.onHw fun h => h.forEach (List.range 16) fun h i =>
      if (h.inst i).state = .unassigned then h
      else
        let rate := h.fld (Reg.MBX_FI_CFG i) Fld.MBX_FI_CFG_RATE
        h.setInst i { h.inst i with budget := min ((h.inst i).budget + rate) (max (h.inst i).budget (10 * rate)) })) ∧
  (∀ (h : Hw) (i clocks code : Nat) x, (h.inst i).item = some x →
      h.fiTaskEnd i clocks code = h.setInst i { h.inst i with
        budget := (h.inst i).budget - clocks, used := (h.inst i).used + clocks
        item := some { x with ended := x.ended + 1, code := (if x.code = 0 then code else x.code) } }) ∧
  (∀ (who : Who) (i : Fin 16) s,
      s.hw.MayWrite who (Reg.MBX_FI_CMD i) →
      s.hw.fiMayCommand who i = true →
      (s.hw.inst i).state = .busy → exec (.fiQuiesce who i) s = .next (
        s.onHw fun h => (h.fiQuiesceNow i).busOk 0)) ∧
  (∀ (who : Who) (i : Fin 16) s,
      s.hw.MayWrite who (Reg.MBX_FI_CMD i) →
      s.hw.fiMayCommand who i = false → exec (.fiQuiesce who i) s = .next (
        s.onHw fun h => (h.setInst i { h.inst i with lastResult := 2 }).busOk 0)) ∧
  (∀ (who : Who) (i : Fin 16) s,
      s.hw.MayWrite who (Reg.MBX_FI_CMD i) →
      s.hw.fiMayCommand who i = true →
      (s.hw.inst i).state = .drained → exec (.fiReset who i) s = .next (
        s.onHw fun h => (h.fiResetNow i .idle).busOk 0)) ∧
  (∀ (who : Who) (i : Fin 16) s,
      s.hw.MayWrite who (Reg.MBX_FI_CMD i) →
      s.hw.fiMayCommand who i = false → exec (.fiReset who i) s = .next (
        s.onHw fun h => (h.setInst i { h.inst i with lastResult := 2 }).busOk 0)) ∧
  (∀ (who : Who) (i : Fin 16) s,
      s.hw.MayWrite who (Reg.MBX_FI_CMD i) →
      s.hw.fiMayCommand who i = true →
      (s.hw.inst i).state = .drained → exec (.fiResume who i) s = .next (
        s.onHw fun h => (h.setInst i { h.inst i with state := .idle, lastResult := 0 }).busOk 0)) ∧
  (∀ (who : Who) (i : Fin 16) s,
      s.hw.MayWrite who (Reg.MBX_FI_CMD i) →
      s.hw.fiMayCommand who i = false → exec (.fiResume who i) s = .next (
        s.onHw fun h => (h.setInst i { h.inst i with lastResult := 2 }).busOk 0)) ∧
  (∀ (who : Who) (i : Fin 16) s,
      s.hw.MayWrite who (Reg.MBX_FI_CMD i) →
      s.hw.fiMayCommand who i = true →
      (s.hw.inst i).state = .drained → exec (.fiRemove who i) s = .next (
        s.onHw fun h => (h.fiRemoveNow i).busOk 0)) ∧
  (∀ (who : Who) (i : Fin 16) s,
      s.hw.MayWrite who (Reg.MBX_FI_CMD i) →
      s.hw.fiMayCommand who i = false → exec (.fiRemove who i) s = .next (
        s.onHw fun h => (h.setInst i { h.inst i with lastResult := 2 }).busOk 0)) ∧
  (∀ (i : Fin 16) m s,
      s.hw.fiNext i = some m →
      (s.hw.inst i).state = .idle →
      (s.hw.inst i).item = none →
      (s.hw.inst i).nextCode = none →
      s.hw.fiDescOk i m = true →
      bitsOf (s.peek m.ptr) 39 32 = 1 →
      (s.peek (m.ptr + 2)).toNat ≤ (s.hw.inst i).code →
      (s.peek (m.ptr + 1)).toNat + (s.peek (m.ptr + 2)).toNat ≤ (s.hw.inst i).dramSize → exec (.fiLoad i) s = .next (s.onHw fun h =>
        let f := h.inst i
        let ws := (List.range (s.peek (m.ptr + 2)).toNat).map fun j => s.peek (f.dramBase + (s.peek (m.ptr + 1)).toNat + j)
        let h1 := h.forEach (List.range 16) fun h r => if h.fabOn && h.islandOn r then h.kernelTo i r ws else h
        (h1.setInst i { f with loaded := true, kernel := ws }).mbxAckHead (48 + i) 0)) ∧
  (∀ (i : Fin 16) m q s,
      (s.hw.chan (48 + i.val)).queue = m :: q →
      (s.hw.inst i).state = .idle →
      (s.hw.inst i).item = none →
      s.hw.fiDescOk i m = true →
      bitsOf (s.peek m.ptr) 39 32 = 2 →
      (s.hw.inst i).loaded = true →
      bitsOf (s.peek (m.ptr + 1)) 15 0 < (s.hw.inst i).code → exec (.fiRun i) s = .next (s.onHw fun h =>
        h.setInst i { h.inst i with
        state := .busy
        item := some { run := true, entry := bitsOf (s.peek (m.ptr + 1)) 15 0, tasks := bitsOf (s.peek (m.ptr + 2)) 11 0 + 1 } })) ∧
  (∀ (i : Fin 16) x s,
      (s.hw.inst i).item = some x →
      (s.hw.inst i).state = .busy →
      x.finished = true →
      (s.hw.inst i).nextCode = none → exec (.fiItemDone i) s = .next (
        s.onHw fun h => (h.setInst i { h.inst i with state := .idle, item := none, nextCode := none }).mbxAckHead (48 + i) x.code)) ∧
  (∀ (e : Fin 512) clocks t s,
      (s.hw.engine e).task = some t →
      t.kind = .inst →
      (s.hw.inst t.fi).taskMax < clocks → exec (.fiTaskTimeout e clocks) s = .next (
        s.onHw fun h => (h.setEngine e { h.engine e with task := none, streams := [], report := none }).fiTaskEnd t.fi clocks 0xF004)) ∧
  (∀ (i : Fin 16) x s,
      (s.hw.inst i).item = some x →
      (s.hw.inst i).state = .quiescing →
      x.ended = x.given → exec (.fiDrained i) s = .next (
        s.onHw fun h => (h.setInst i { h.inst i with state := .drained, item := none, nextCode := none }).mbxAckAll (48 + i) 0xF003))

/-- A frame that begins at an idle port is a MAC Control frame by its type, or runs the stages, and one they discard is
remembered as such. At its end one below 64 bytes, and one with a wrong FCS, is counted and discarded; a good one is
counted and forwarded, at its end on a port of the PRP pair. An egress that is free takes the frame that R566 chooses,
or none; an errored frame is ended, counted and released. A link rises on an enabled declared port unless its speed is
wrong or, on EP0 and EP1, LOS is high, one at a port that is not declared is counted, and a link falls with LINK_DOWN,
its pause and its frame ended. An addressed pause with pauses enabled starts or ends the pause and is counted; it
expires into its quanta. A PRP host node sends its supervision frame on the LANs with a link. (R554, R556, R560, R565,
R566, R567, R569, R570, R573, R580) -/
def Obligations.SwitchFramesLinksAndPauses : Prop :=
  (∀ (p : Fin 8) head s,
      s.hw.swOn = true →
      s.hw.linkUp p = true →
      s.hw.rxOf p = none →
      60 ≤ head.length →
      frameField head 12 2 = 0x8808 → exec (.frameIngress p head) s = .next (
        s.onHw fun h => h.setRx p (some { ctl := true }))) ∧
  (∀ (p : Fin 8) head g s,
      s.hw.swOn = true →
      s.hw.linkUp p = true →
      s.hw.rxOf p = none →
      60 ≤ head.length →
      frameField head 12 2 ≠ 0x8808 →
      Hw.ptpEvent (Hw.untagged head) = false →
      (s.hw.prpOn && decide (p.val < 2)) = false →
      s.hw.stages p head = (g, none) → exec (.frameIngress p head) s = .next (
        { s with hw := g.setRx p (some {}) })) ∧
  (∀ (p : Fin 8) l (fcs code : Bool) s,
      s.hw.swOn = true →
      s.hw.linkUp p = true →
      s.hw.rxOf p = none →
      l.length + 4 < 64 → exec (.frameEof p l fcs code) s = .next (
        s.onHw fun h => h.macCount p 12 1)) ∧
  (∀ (p : Fin 8) l (fcs code : Bool) r s,
      s.hw.swOn = true →
      s.hw.linkUp p = true →
      s.hw.rxOf p = some r →
      r.frame = none →
      64 ≤ l.length + 4 →
      l.length + 4 ≤ 2000 →
      code = false →
      fcs = false → exec (.frameEof p l fcs code) s = .next (
        s.onHw fun h => ((h.setRx p none).macCount p 14 1).setBit (Reg.MAC_IRQ_STAT p) 2)) ∧
  (∀ (p : Fin 8) l r s,
      s.hw.swOn = true →
      s.hw.linkUp p = true →
      s.hw.rxOf p = some r →
      64 ≤ l.length + 4 →
      l.length + 4 ≤ 2000 →
      r.ctl = false →
      Ends (.frameEof p l true false) s fun t =>
        t = (s.onHw fun h =>
          let h1 := ((h.setRx p none).goodFrame p (l.length + 4) (frameField l 0 6)).announced (Hw.untagged l)
          if r.late then h1.frameLate r p l else h1.frameWhole r p l) ∧
        t.hw.rxOf p = none ∧ t.hw.lc = s.hw.lc) ∧
  (∀ (q : Fin 11) g s,
      s.hw.swOn = true →
      s.hw.sendingOf q = none →
      (isEp q = true → s.hw.linkUp q = true ∧ s.hw.paused q = false) →
      s.hw.choose q = (g, none) → exec (.egressFrameStart q) s = .next (
        { s with hw := g })) ∧
  (∀ (q : Fin 11) g f s,
      s.hw.swOn = true →
      s.hw.sendingOf q = none →
      (isEp q = true → s.hw.linkUp q = true ∧ s.hw.paused q = false) →
      s.hw.choose q = (g, some f) →
      f.mirror ≠ none → exec (.egressFrameStart q) s = .next (
        { s with hw :=
        (((g.putFrame { f with started := f.started ++ [q.val] }).onSw fun w => { w with
            served := Tabs.set (fun _ => (0 : Nat)) w.served (8 * q + f.cls)
              (if f.ingress = 11 then Tabs.get (fun _ => 0) w.served (8 * q + f.cls) else f.ingress + 1) }).onSw fun w =>
          { w with sending := Tabs.set (fun _ => none) w.sending q (some (f.id, false, false)) }) })) ∧
  (∀ (q : Fin 11) s, s.hw.sendingOf q = none → exec (.egressFrameDone q) s = .next (s)) ∧
  (∀ (q : Fin 11) id (a b : Bool) f s,
      s.hw.sendingOf q = some (id, a, b) →
      s.hw.swFrame id = some f →
      f.bad = true → exec (.egressFrameDone q) s = .next (
        s.onHw fun h => (((h.macCount q 30 1).onSw fun w => { w with sending := Tabs.set (fun _ => none) w.sending q none }).releaseRef id q))) ∧
  (∀ (p : Fin 8) pins s,
      s.hw.swOn = true →
      s.hw.bit (Reg.MAC_CTRL p) 0 = true →
      s.hw.lineOn p = true →
      2 ≤ p.val →
      (s.hw.clearBit (Reg.MAC_STAT p) 6).linkUp p = false → exec (.linkUp p false pins) s = .next (
        s.onHw fun h => ((h.clearBit (Reg.MAC_STAT p) 6).setBit (Reg.MAC_STAT p) 7).setBit (Reg.MAC_IRQ_STAT p) 0)) ∧
  (∀ (p : Fin 8) pins s,
      s.hw.swOn = true →
      s.hw.bit (Reg.MAC_CTRL p) 0 = true →
      s.hw.lineOn p = true →
      2 ≤ p.val → exec (.linkUp p true pins) s = .next (
        s.onHw fun h => (h.linkFall p).setBit (Reg.MAC_STAT p) 6)) ∧
  (∀ (p : Fin 8) pins s, s.hw.sysOn = true →
      Ends (.linkDown p pins) s fun t =>
        t = (s.onHw fun h => (h.modulePins p pins).linkFall p) ∧
        t.hw.linkUp p = false ∧ t.hw.paused p = false ∧ t.hw.rxOf p = none ∧ t.hw.sendingOf p = none ∧
        (s.hw.linkUp p = true → t.hw.bit (Reg.MAC_IRQ_STAT p) 0 = true)) ∧
  (∀ (p : Fin 8) (q : BitVec 16) spent s,
      s.hw.swOn = true →
      s.hw.linkUp p = true →
      s.hw.bit (Reg.MAC_CTRL p) 3 = true →
      (s.hw.macCount p 16 1).bit (Reg.MAC_CTRL p) 3 = true →
      (s.hw.macCount p 16 1).paused p = false → exec (.rxPauseFrame p q true spent) s = .next (s.onHw fun h =>
        let h1 := (h.macCount p 16 1).setReg (Reg.MAC_PAUSE p) (word q.toNat)
        if q = 0 then h1.clearBit (Reg.MAC_STAT p) 5 else h1.setBit (Reg.MAC_STAT p) 5)) ∧
  (∀ (p : Fin 8) s, s.hw.paused p = true → exec (.pauseExpire p) s = .next (
        s.onHw fun h => ((h.macCount p 28 (h.reg (Reg.MAC_PAUSE p)).toNat).setReg (Reg.MAC_PAUSE p) 0).clearBit (Reg.MAC_STAT p) 5)) ∧
  (∀ s, s.hw.swOn = true → s.hw.prpOn = true → s.hw.cfg.sw.prpNodes = [] → exec (.prpSupervisionSend) s = .next (s)) ∧
  (∀ mac s,
      s.hw.swOn = true →
      s.hw.prpOn = true →
      s.hw.cfg.sw.prpNodes = [(mac, true)] →
      s.hw.linkUp 0 = true →
      (s.hw.nextSeq 0).1.linkUp 0 = true →
      ((s.hw.nextSeq 0).1.sentFrame 0 (Config.prpSupervision mac (s.hw.nextSeq 0).2 0xA)).linkUp 1 = false → exec (.prpSupervisionSend) s = .next (
        s.onHw fun h => (h.nextSeq 0).1.sentFrame 0 (Config.prpSupervision mac (h.nextSeq 0).2 0xA))) ∧
  (∀ (p : Fin 8) speed pins s, s.hw.swOn = true → s.hw.epEnabled p = false → exec (.linkUp p speed pins) s = .next (
        s.onHw fun h => h.undeclare 7)) ∧
  (∀ (p : Fin 8) pins s,
      s.hw.swOn = true →
      s.hw.bit (Reg.MAC_CTRL p) 0 = true →
      s.hw.lineOn p = true →
      p.val < 2 →
      pins.getLsbD 1 = false → exec (.linkUp p false pins) s = .next (
        s.onHw fun h => if h.linkUp p then (h.setFld (Reg.MAC_STAT p) ⟨4, 2⟩ pins.toNat).clearBit (Reg.MAC_STAT p) 6 else (((h.setFld (Reg.MAC_STAT p) ⟨4, 2⟩ pins.toNat).clearBit (Reg.MAC_STAT p) 6).setBit (Reg.MAC_STAT p) 7).setBit (Reg.MAC_IRQ_STAT p) 0))

/-- A write of MAC_MGMT_CMD of a window that is not BUSY sets BUSY and puts the request on the shared MDIO bus, or on the
two-wire bus of its module; with BUSY set the result is 2. Its end frees the bus, clears BUSY, writes RESULT and, for
a read that was answered, DATA, and sets the interrupt bit. A tail below SIZE is written; one of the transmit ring
sends the descriptors it hands over. FDB_WRITE puts the three words in the entry when no other valid entry has its
key, FDB_READ gives them, FDB_INVALIDATE clears VALID; COUNT follows the valid entries and the result is 0. (R559,
R577, R579, R583) -/
def Obligations.ManagementWindowsRingsAndForwardingEntries : Prop :=
  (∀ (who : Who) (n : Fin 6) (reg : Fin 32) (data : BitVec 16) s,
      s.hw.MayWrite who (Reg.MAC_MGMT_CMD (2 + n.val)) →
      s.hw.flag (Reg.MAC_MGMT_STAT (2 + n.val)) Fld.MAC_MGMT_STAT_BUSY = false → exec (.mdioC22Write who n reg data) s = .next (s.onHw fun h =>
        ((h.setFld (Reg.MAC_MGMT_STAT (2 + n.val)) Fld.MAC_MGMT_STAT_BUSY 1).onSw fun w => { w with
        mdio := w.mdio ++ [{ port := 2 + n.val, op := 0, reg := reg.val, addr := 0, data := data.toNat }] }).busOk 0)) ∧
  (∀ (who : Who) (n : Fin 6) (reg : Fin 32) s,
      s.hw.MayWrite who (Reg.MAC_MGMT_CMD (2 + n.val)) →
      s.hw.flag (Reg.MAC_MGMT_STAT (2 + n.val)) Fld.MAC_MGMT_STAT_BUSY = false → exec (.mdioC22Read who n reg) s = .next (s.onHw fun h =>
        ((h.setFld (Reg.MAC_MGMT_STAT (2 + n.val)) Fld.MAC_MGMT_STAT_BUSY 1).onSw fun w => { w with
        mdio := w.mdio ++ [{ port := 2 + n.val, op := 1, reg := reg.val, addr := 0, data := 0 }] }).busOk 0)) ∧
  (∀ (who : Who) (n : Fin 6) (devad : Fin 32) (addr data : BitVec 16) s,
      s.hw.MayWrite who (Reg.MAC_MGMT_CMD (2 + n.val)) →
      s.hw.flag (Reg.MAC_MGMT_STAT (2 + n.val)) Fld.MAC_MGMT_STAT_BUSY = false → exec (.mdioC45Write who n devad addr data) s = .next (s.onHw fun h =>
        ((h.setFld (Reg.MAC_MGMT_STAT (2 + n.val)) Fld.MAC_MGMT_STAT_BUSY 1).onSw fun w => { w with
        mdio := w.mdio ++ [{ port := 2 + n.val, op := 2, reg := devad.val, addr := addr.toNat, data := data.toNat }] }).busOk 0)) ∧
  (∀ (who : Who) (n : Fin 6) (devad : Fin 32) (addr : BitVec 16) s,
      s.hw.MayWrite who (Reg.MAC_MGMT_CMD (2 + n.val)) →
      s.hw.flag (Reg.MAC_MGMT_STAT (2 + n.val)) Fld.MAC_MGMT_STAT_BUSY = false → exec (.mdioC45Read who n devad addr) s = .next (s.onHw fun h =>
        ((h.setFld (Reg.MAC_MGMT_STAT (2 + n.val)) Fld.MAC_MGMT_STAT_BUSY 1).onSw fun w => { w with
        mdio := w.mdio ++ [{ port := 2 + n.val, op := 3, reg := devad.val, addr := addr.toNat, data := 0 }] }).busOk 0)) ∧
  (∀ (who : Who) (n : Fin 2) hi addr (data : Byte) s,
      s.hw.MayWrite who (Reg.MAC_MGMT_CMD n) →
      s.hw.flag (Reg.MAC_MGMT_STAT n) Fld.MAC_MGMT_STAT_BUSY = false → exec (.twoWireWrite who n hi addr data) s = .next (s.onHw fun h =>
        ((h.setFld (Reg.MAC_MGMT_STAT n) Fld.MAC_MGMT_STAT_BUSY 1).onSw fun w => { w with
        wire := Tabs.set (fun _ => none) w.wire n (some { port := n, op := 0, reg := b2n hi, addr := addr.toNat, data := data.toNat }) }).busOk 0)) ∧
  (∀ (who : Who) (n : Fin 2) hi (addr : Byte) s,
      s.hw.MayWrite who (Reg.MAC_MGMT_CMD n) →
      s.hw.flag (Reg.MAC_MGMT_STAT n) Fld.MAC_MGMT_STAT_BUSY = false → exec (.twoWireRead who n hi addr) s = .next (s.onHw fun h =>
        ((h.setFld (Reg.MAC_MGMT_STAT n) Fld.MAC_MGMT_STAT_BUSY 1).onSw fun w => { w with
        wire := Tabs.set (fun _ => none) w.wire n (some { port := n, op := 1, reg := b2n hi, addr := addr.toNat, data := 0 }) }).busOk 0)) ∧
  (∀ (who : Who) (n : Fin 6) (reg : Fin 32) data s,
      s.hw.MayWrite who (Reg.MAC_MGMT_CMD (2 + n.val)) →
      s.hw.flag (Reg.MAC_MGMT_STAT (2 + n.val)) Fld.MAC_MGMT_STAT_BUSY = true → exec (.mdioC22Write who n reg data) s = .next (
        s.onHw fun h => (h.setFld (Reg.MAC_MGMT_STAT (2 + n.val)) Fld.MAC_MGMT_STAT_RESULT 2).busOk 0)) ∧
  (∀ (n : Fin 8) ack (data : BitVec 16) r s, s.hw.sysOn = true → 2 ≤ n.val → s.hw.mgmtCurrent n = some r → Ends (.mgmtDone n ack data) s fun t =>
        t.hw.sw.mdio = s.hw.sw.mdio.drop 1 ∧ t.hw.flag (Reg.MAC_MGMT_STAT n) Fld.MAC_MGMT_STAT_BUSY = false ∧
        t.hw.fld (Reg.MAC_MGMT_STAT n) Fld.MAC_MGMT_STAT_RESULT = b2n (r.op == 1 && !ack) ∧ t.hw.bit (Reg.MAC_IRQ_STAT n) 3 = true ∧
        (r.op % 2 = 1 → (r.op = 1 → ack = true) → t.hw.fld (Reg.MAC_MGMT_STAT n) Fld.MAC_MGMT_STAT_DATA = data.toNat)) ∧
  (∀ (n : Fin 8) ack (data : BitVec 16) r s, s.hw.sysOn = true → n.val < 2 → s.hw.mgmtCurrent n = some r → Ends (.mgmtDone n ack data) s fun t =>
        t.hw.mgmtCurrent n = none ∧ t.hw.flag (Reg.MAC_MGMT_STAT n) Fld.MAC_MGMT_STAT_BUSY = false ∧
        t.hw.fld (Reg.MAC_MGMT_STAT n) Fld.MAC_MGMT_STAT_RESULT = b2n (!ack || s.hw.bit (Reg.MAC_STAT n) 4) ∧ t.hw.bit (Reg.MAC_IRQ_STAT n) 3 = true ∧
        (r.op = 1 → ack = true → s.hw.bit (Reg.MAC_STAT n) 4 = false →
          t.hw.fld (Reg.MAC_MGMT_STAT n) Fld.MAC_MGMT_STAT_DATA = data.toNat % 256)) ∧
  (∀ (who : Who) (i : Fin 3) (tail : BitVec 13) s,
      s.hw.MayWrite who (Reg.HP_RX_CTL i) →
      tail.toNat < s.hw.fld (Reg.HP_RX_CTL i) Fld.HP_RX_CTL_SIZE → exec (.hpRxTail who i tail) s = .next (
        s.onHw fun h => (h.setFld (Reg.HP_RX_CTL i) Fld.HP_RX_CTL_TAIL tail.toNat).busOk 0)) ∧
  (∀ (who : Who) (i : Fin 3) (tail : BitVec 13) s,
      s.hw.MayWrite who (Reg.HP_TX_CTL i) →
      tail.toNat < s.hw.fld (Reg.HP_TX_CTL i) Fld.HP_TX_CTL_SIZE → exec (.hpTxTail who i tail) s = .next (
        (s.onHw fun h => (h.setFld (Reg.HP_TX_CTL i) Fld.HP_TX_CTL_TAIL tail.toNat).busOk 0).hpSend i 4096)) ∧
  (∀ (who : Who) (idx : Fin 16384) s, s.hw.MayWrite who Reg.SWC_FDB_CMD → exec (.fdbRead who idx) s = .next (s.onHw fun h =>
        (let e := Tabs.get noFdb h.sw.fdb idx
        (((h.setReg Reg.SWC_FDB_W0 e.1).setReg Reg.SWC_FDB_W1 e.2.1).setReg Reg.SWC_FDB_W2 e.2.2).setFld Reg.SWC_FDB_STAT Fld.SWC_FDB_STAT_RESULT 0).busOk 0)) ∧
  (∀ (who : Who) (idx : Fin 16384) s, s.hw.MayWrite who Reg.SWC_FDB_CMD → s.hw.sw.fdb = [] → exec (.fdbWrite who idx) s = .next (s.onHw fun h =>
        (let h1 := h.onSw fun w => { w with fdb := Tabs.set noFdb w.fdb idx (h.reg Reg.SWC_FDB_W0, h.reg Reg.SWC_FDB_W1, h.reg Reg.SWC_FDB_W2) }
        (h1.setFld Reg.SWC_FDB_STAT Fld.SWC_FDB_STAT_COUNT (h1.sw.fdb.filter fun x => bitN x.2.1.toNat 39).length).setFld
          Reg.SWC_FDB_STAT Fld.SWC_FDB_STAT_RESULT 0).busOk 0)) ∧
  (∀ (who : Who) (idx : Fin 16384) s, s.hw.MayWrite who Reg.SWC_FDB_CMD → exec (.fdbInvalidate who idx) s = .next (s.onHw fun h =>
        (let e := Tabs.get noFdb h.sw.fdb idx
        let h1 := h.onSw fun w => { w with fdb := Tabs.set noFdb w.fdb idx (withBits e.1 39 39 0, e.2) }
        (h1.setFld Reg.SWC_FDB_STAT Fld.SWC_FDB_STAT_COUNT (h1.sw.fdb.filter fun x => bitN x.2.1.toNat 39).length).setFld
          Reg.SWC_FDB_STAT Fld.SWC_FDB_STAT_RESULT 0).busOk 0))

/-- A write of TIME_MEAS_LO with a valid pair is a sample; an epoch starts at its LC; without a sample for SYNC_TO the
state is HOLDOVER. Captured edges take the next SEQ and join the FIFO of 64 entries, or are lost with the SEQ counted;
a pop gives the oldest and latches its time. PPS_OUT rises at a whole second; a pulse timer starts a period with its
written words and stops with EN at 0. A leap second ends with OFFSET moved by 1. A silent peer leaves the choice of
master, and holdover ends the announcing. CAL_QUERY gives TAI and LC of an acceptable date and refuses any other;
CAL_WAKE arms the wake timer for a later LC with UTC valid. A read of a LO word latches its HI word. (R594, R596,
R597, R599, R603, R604, R605, R606, R607, R608, R609, R612) -/
def Obligations.TheTimeUnitCapturesPulsesAndKeepsTheCalendar : Prop :=
  (∀ (h : Hw) t (i : Nat) rise, 64 ≤ h.tu.fifo.length →
      (h.captureOne t i rise).tu.fifo = h.tu.fifo ∧ (h.captureOne t i rise).tu.capSeq = (h.tu.capSeq + 1) % 2 ^ 32) ∧
  (∀ (h : Hw) t (i : Nat) rise, h.tu.fifo.length < 64 →
      (h.captureOne t i rise).tu.fifo = h.tu.fifo ++ [{ input := i, rise := rise, seq := h.tu.capSeq, time := t }] ∧
      (h.captureOne t i rise).tu.capSeq = (h.tu.capSeq + 1) % 2 ^ 32) ∧
  (∀ y : Nat, leapYear y = true ↔ y % 4 = 0 ∧ (y % 100 ≠ 0 ∨ y % 400 = 0)) ∧
  (∀ (who : Who) lo x s,
      s.hw.MayWrite who Reg.TIME_MEAS_LO →
      time80Val (s.hw.reg Reg.TIME_MEAS_HI) lo = some x →
      Ends (.timeSampleSubmit who lo) s fun t =>
        t = (s.onHw fun h => ((h.setReg Reg.TIME_MEAS_LO lo).sample x).busOk 0) ∧
        t.hw.reg Reg.TIME_MEAS_LO = lo ∧ t.hw.busErr = false ∧ t.hw.lc = s.hw.lc ∧ t.hw.mem = s.hw.mem ∧
        (s.hw.flag Reg.TIME_CTRL Fld.TIME_CTRL_SERVO_EN = true → s.hw.rephasing = false → t.hw.tu.lastSample = s.hw.lc) ∧
        ((s.hw.flag Reg.TIME_CTRL Fld.TIME_CTRL_SERVO_EN && !s.hw.rephasing) = false → t.hw.tu = s.hw.tu)) ∧
  (∀ (who : Who) lo s,
      s.hw.MayWrite who Reg.TIME_MEAS_LO →
      time80Val (s.hw.reg Reg.TIME_MEAS_HI) lo = none → exec (.timeSampleSubmit who lo) s = .next (
        s.onHw fun h => (h.setReg Reg.TIME_MEAS_LO lo).busOk 0)) ∧
  (∀ e l s,
      s.hw.tu.epochs = e :: l →
      s.hw.sysOn = true →
      s.hw.rephasing = true →
      e.startLc ≤ s.hw.lc →
      Ends (.epochStart) s fun t =>
        t = (s.onHw fun h => h.startEpoch e) ∧
        t.hw.fld Reg.TIME_STAT Fld.TIME_STAT_EPOCH = e.num % 65536 ∧ t.hw.rephasing = false ∧ t.hw.timeValid = true ∧ t.hw.lockState = tAcquiring ∧
        t.hw.bit Reg.TIME_IRQ_STAT 1 = true ∧ (s.hw.timeValid = false → t.hw.bit Reg.TIME_IRQ_STAT 7 = true) ∧ t.hw.tu.streak = 0) ∧
  (∀ s,
      (s.hw.lockState = tAcquiring ∨ s.hw.lockState = tLocked) →
      s.hw.tu.lastSample + 100 * s.hw.fld Reg.TIME_CFG Fld.TIME_CFG_SYNC_TO ≤ s.hw.lc →
      Ends (.syncTimeout) s fun t =>
        t = (s.onHw fun h => h.setLock tHoldover) ∧
        t.hw.lockState = tHoldover ∧ t.hw.tu.heldSince = s.hw.lc ∧ t.hw.bit Reg.TIME_IRQ_STAT 0 = true ∧ t.hw.bit Reg.TIME_IRQ_STAT 5 = true) ∧
  (∀ s,
      s.hw.lc < s.hw.tu.lastSample + 100 * s.hw.fld Reg.TIME_CFG Fld.TIME_CFG_SYNC_TO → exec (.syncTimeout) s = .next (s)) ∧
  (∀ edges s,
      s.hw.sysOn = true →
      s.hw.flag Reg.TIME_CTRL Fld.TIME_CTRL_CAP_EN = true →
      Ends (.captureEdge edges) s fun t =>
        t = (s.onHw fun h => h.capture edges) ∧
        t.hw.tu.fifo.take s.hw.tu.fifo.length = s.hw.tu.fifo ∧ t.hw.tu.fifo.length ≤ max 64 s.hw.tu.fifo.length ∧
        t.hw.lc = s.hw.lc ∧ t.hw.mem = s.hw.mem ∧ (edges = [] → t.hw.tu.fifo = s.hw.tu.fifo ∧ t.hw.tu.capSeq = s.hw.tu.capSeq)) ∧
  (∀ (who : Who) c l s, s.hw.MayRead who Reg.TIME_CAP_INFO → s.hw.tu.fifo = c :: l → exec (.capturePop who) s = .next (s.onHw fun h =>
        (((h.onTu fun u => { u with fifo := l }).setReg Reg.TIME_CAP_HI (time80 c.time).1).setReg Reg.TIME_CAP_LO (time80 c.time).2).busOk
        (word (2 ^ 39 + c.input * 2 ^ 34 + b2n c.rise * 2 ^ 33 + c.seq)))) ∧
  (∀ (who : Who) s, s.hw.MayRead who Reg.TIME_CAP_INFO → s.hw.tu.fifo = [] → exec (.capturePop who) s = .next (
        s.onHw fun h => h.busOk 0)) ∧
  (∀ t x s,
      s.hw.sysOn = true →
      s.hw.fld Reg.TIME_PPS Fld.TIME_PPS_MODE = 1 →
      s.hw.netOf s.hw.tu.tSi = some t →
      s.hw.secondIn t = some x →
      s.hw.tu.ppsLc ≠ s.hw.lc + 1 → exec (.ppsOutEdge) s = .next (
        s.onHw fun h => h.onTu fun u => { u with pps := true, ppsLc := h.lc + 1 })) ∧
  (∀ (k : Fin 16) s,
      s.hw.sysOn = true →
      bitN (s.hw.reg (Reg.TIME_TIM k 0)).toNat 39 = true →
      Hw.timOk ((List.range 4).map fun w => s.hw.reg (Reg.TIME_TIM k w)) = true →
      (s.hw.tim k).running = true → exec (.timPeriodStart k) s = .next (s.onHw fun h =>
        let ws := (List.range 4).map fun w => h.reg (Reg.TIME_TIM k w)
        let t : PulseTimer := { words := ws, running := true, high := (h.reg (Reg.TIME_TIM k 2)).toNat }
        h.onTu fun u => { u with tims := Tabs.set (fun _ => ({} : PulseTimer)) u.tims k t })) ∧
  (∀ (k : Fin 16) s,
      s.hw.sysOn = true →
      bitN (s.hw.reg (Reg.TIME_TIM k 0)).toNat 39 = false →
      (s.hw.tim k).running = true → exec (.timPeriodStart k) s = .next (
        s.onHw fun h => h.onTu fun u => { u with tims := Tabs.set (fun _ => ({} : PulseTimer)) u.tims k {} })) ∧
  (∀ s,
      s.hw.sysOn = true →
      s.hw.utcValid = true →
      s.hw.flag Reg.TIME_UTC Fld.TIME_UTC_LEAP61 = true →
      s.hw.dayEnds 1 = true → exec (.leapSecondEnd) s = .next (
        s.onHw fun h => ((h.setFld Reg.TIME_UTC Fld.TIME_UTC_OFFSET (BitVec.ofInt 16 (h.utcOffset + 1)).toNat).clearBit Reg.TIME_UTC 17).setBit Reg.TIME_IRQ_STAT 6)) ∧
  (∀ (peer : Fin 256) s,
      s.hw.sysOn = true →
      peer.val < s.hw.cfg.time.peers.length →
      peer.val ∉ s.hw.tu.gone →
      Ends (.announceTimeout peer) s fun t =>
        t = (s.onHw fun h => (h.onTu fun u => { u with gone := peer.val :: u.gone }).setNoplant) ∧
        t.hw.tu = { s.hw.tu with gone := peer.val :: s.hw.tu.gone }) ∧
  (∀ s,
      s.hw.sysOn = true →
      s.hw.lockState = tHoldover →
      s.hw.tu.heldSince + 1000 * s.hw.cfg.time.holdAnn ≤ s.hw.lc → exec (.holdoverAnnounceStop) s = .next (
        s.onHw fun h => h.onTu fun u => { u with silent := true })) ∧
  (∀ d s, s.hw.sysOn = true → dateOk d = true → exec (.calQuery d) s = .next (s.onHw fun h =>
        (h.onTu fun u => { u with
        query := d, result := ((time80 ((h.dateLc d).1 * tSec)).1, (time80 ((h.dateLc d).1 * tSec)).2, word (h.dateLc d).2) }).answer stOk)) ∧
  (∀ d s, s.hw.sysOn = true → dateOk d = false → exec (.calQuery d) s = .next (s.onHw fun h => h.answer stBadValue)) ∧
  (∀ d s,
      s.hw.crestOn = true →
      dateOk d = true →
      s.hw.utcValid = true →
      s.hw.lc < (s.hw.dateLc d).2 → exec (.calWakeApply d) s = .next (
        s.onHw fun h => ((h.setReg Reg.WAKE_TIMER (word (h.dateLc d).2)).setBit Reg.WAKE_EN 11).answer stOk)) ∧
  (∀ d s, s.hw.crestOn = true → dateOk d = true → s.hw.utcValid = false → exec (.calWakeApply d) s = .next (
        s.onHw fun h => h.answer stState)) ∧
  (∀ (who : Who) (pair : Fin 3) s, s.hw.MayRead who (Reg.TIME_DEV_LO + 2 * pair) →
      Ends (.time80LoRead who pair) s fun t =>
        t = (s.onHw fun h => ((h.pairValue pair).2.setReg (Reg.TIME_DEV_HI + 2 * pair) (time80 (h.pairValue pair).1).1).busOk (time80 (h.pairValue pair).1).2) ∧
        t.hw.busErr = false ∧ t.hw.lc = s.hw.lc ∧
        (pair = 2 → t.hw.bus = (time80 ((s.hw.tu.tSi + s.hw.cycleLen : Nat) : Int)).2 ∧ t.hw.reg Reg.TIME_SI_HI = (time80 ((s.hw.tu.tSi + s.hw.cycleLen : Nat) : Int)).1)) ∧
  (∀ (k : Fin 16) s,
      s.hw.sysOn = true →
      bitN (s.hw.reg (Reg.TIME_TIM k 0)).toNat 39 = true →
      Hw.timOk ((List.range 4).map fun w => s.hw.reg (Reg.TIME_TIM k w)) = true →
      (s.hw.tim k).running = false →
      (s.hw.reg (Reg.TIME_TIM k 3)).toNat ≤ s.hw.lc → exec (.timPeriodStart k) s = .next (s.onHw fun h =>
        let ws := (List.range 4).map fun w => h.reg (Reg.TIME_TIM k w)
        let t : PulseTimer := { words := ws, running := true, high := (h.reg (Reg.TIME_TIM k 2)).toNat }
        h.onTu fun u => { u with tims := Tabs.set (fun _ => ({} : PulseTimer)) u.tims k t }))

/-- A HELLO of 170 bytes on a served path is refused with BUSY above 50 a second, and otherwise opens a handshake with the
role granted; a message that cannot be read is counted. FINISH within 2 s, opened with the keys of the handshake and
signed over TH, admits the session; one for no handshake is an unknown session. Handshakes end after 2 s; a CLOSE
closes with reason 6, an idle session with reason 3. A request that its key opens refreshes the session and is
executed; a failed tag is counted. SEQ 0 is BAD_MESSAGE, and a SEQ in execution changes nothing. Waiting items end
with TIMEOUT. (R628, R629, R630, R632, R634, R635, R640, R641) -/
def Obligations.KollosSessionsOpenServeAndClose : Prop :=
  (∀ (h : Hw) x reason notice, (h.closeSession x reason notice).kop.sessions = h.kop.sessions.filter (fun y => y.id ≠ x.id)) ∧
  (∀ s path req cert r, State.grantRole s path req cert = some r → r ≤ req ∧ r ≤ certNum cert 1 1) ∧
  (∀ (s : State) x seq body w, seq ≠ 0 → x.last ≠ none → w ∈ x.waits → w.seq = seq → s.request x seq body = s) ∧
  (∀ (s : State) x body, s.request x 0 body = s.onHw fun h => h.respond x 0 [itemHead 0 0 stBadMessage] false) ∧
  (∀ src (via : Via) msg m path s,
      s.hw.sysOn = true →
      kopRead msg = some m →
      m.type = mtHello →
      m.body.length = 170 →
      s.helloPath (beNat ((m.body.drop 48).take 1)) via ((m.body.drop 50).take 120) = some path →
      50 ≤ s.hw.recentHellos (path == 3) → exec (.hello src via msg) s = .next (
        s.onHw fun h => h.refuseHand src 0 stBusy 4)) ∧
  (∀ src (via : Via) msg m path s,
      s.hw.sysOn = true →
      kopRead msg = some m →
      m.type = mtHello →
      m.body.length = 170 →
      s.helloPath (beNat ((m.body.drop 48).take 1)) via ((m.body.drop 50).take 120) = some path →
      s.hw.recentHellos (path == 3) < 50 →
      s.hw.kop.hands = [] →
      s.hw.kop.hellos = [] →
      Ends (.hello src via msg) s fun t =>
        t = (let s1 := s.onHw fun h => h.onKop fun k => { k with hands := [], hellos := [(path == 3, h.poweredMs)] }
          match s1.grantRole path (beNat ((m.body.drop 48).take 1)) ((m.body.drop 50).take 120) with
          | none => s1.onHw fun h => h.refuseHand src 0 stNoAccess 2
          | some role => s1.onHw fun h => h.openHand path src via.transport.val role m.body) ∧
        (∀ x ∈ t.hw.kop.hands, x.path = path ∧ x.src = src ∧ x.at_ = s.hw.poweredMs ∧ x.role ≤ certNum ((m.body.drop 50).take 120) 1 1 ∧
          x.role ≤ beNat ((m.body.drop 48).take 1)) ∧ t.hw.kop.hands.length ≤ 1 ∧ t.hw.kop.sessions = s.hw.kop.sessions ∧ t.hw.out.length = s.hw.out.length + 1) ∧
  (∀ src (via : Via) msg s, s.hw.sysOn = true → kopRead msg = none → exec (.hello src via msg) s = .next (
        s.onHw fun h => h.kopCount 5)) ∧
  (∀ src msg m x s,
      s.hw.sysOn = true →
      kopRead msg = some m →
      m.type = mtFinish →
      s.hw.kop.hands.find? (fun x => x.id == m.id) = some x →
      s.hw.poweredMs ≤ x.at_ + 2000 →
      Ends (.finish src msg) s fun t =>
        t = (match kopOpen x.keys.cd m with
          | none => s.onHw fun h => h.kopCount 4
          | some plain =>
            let s1 := s.onHw fun h => h.dropHands fun y => y.id == x.id
            let signed := plain.length == 64 && Config.ed25519 ((x.cert.drop 22).take 32)
              (ascii "KOP1 client" ++ beBytes 64 x.th ++ beBytes 4 x.id) plain
            match (if signed then s1.grantRole x.path x.role x.cert else none) with
            | none => s1.onHw fun h => h.refuseHand src x.id stNoAccess 2
            | some role => s1.onHw fun h => h.admitHand { x with src := src } role) ∧
        ((kopOpen x.keys.cd m).isNone = true → t.hw.kop.sessions = s.hw.kop.sessions ∧ t.hw.kop.hands = s.hw.kop.hands) ∧
        ((kopOpen x.keys.cd m).isNone = false → t.hw.kop.hands = s.hw.kop.hands.filter fun y => y.id ≠ x.id) ∧ t.hw.lc = s.hw.lc) ∧
  (∀ src msg m s,
      s.hw.sysOn = true →
      kopRead msg = some m →
      m.type = mtFinish →
      s.hw.kop.hands.find? (fun x => x.id == m.id) = none → exec (.finish src msg) s = .next (
        s.onHw fun h => h.unknownSession src m.id)) ∧
  (∀ id s, exec (.handshakeTimeout id) s = .next (
        s.onHw fun h => h.onKop fun k => { k with hands := k.hands.filter fun x => !(x.id == id.toNat && decide (x.at_ + 2000 ≤ h.poweredMs)) })) ∧
  (∀ src msg m x s,
      s.hw.sysOn = true →
      kopRead msg = some m →
      m.type = mtClose →
      s.hw.session m.id = some x →
      Ends (.kopClose src msg) s fun t =>
        t = (match kopOpen x.keys.cd m with
          | none => s.onHw fun h => h.kopCount 4
          | some _ =>
            let y := { x with seen := s.hw.poweredMs, src := src }
            s.onHw fun h => (h.setSession y).closeSession y 6 true) ∧
        ((kopOpen x.keys.cd m).isNone = false → t.hw.kop.sessions = s.hw.kop.sessions.filter (fun y => y.id ≠ x.id) ∧
          t.hw.out = (.client src, kopSeal x.keys.dc 3 mtNotice x.id (x.notices + 1) [6]) :: s.hw.out) ∧
        ((kopOpen x.keys.cd m).isNone = true → t.hw.kop.sessions = s.hw.kop.sessions ∧ t.hw.out = s.hw.out)) ∧
  (∀ (id : BitVec 32) x s,
      s.hw.session id.toNat = some x →
      x.seen + 1000 * s.hw.idleTimeout x.role ≤ s.hw.poweredMs →
      Ends (.sessionIdleTimeout id) s fun t =>
        t = (s.onHw fun h => (h.closeSession x 3 true).kopCount 3) ∧
        t.hw.kop.sessions = s.hw.kop.sessions.filter (fun y => y.id ≠ x.id) ∧
        t.hw.out = (.client x.src, kopSeal x.keys.dc 3 mtNotice x.id (x.notices + 1) [3]) :: s.hw.out) ∧
  (∀ src msg m x s,
      s.hw.sysOn = true →
      kopRead msg = some m →
      m.type = mtRequest →
      s.hw.session m.id = some x →
      Ends (.kopRequest src msg) s fun t =>
        t = (match kopOpen x.keys.cd m with
          | none => s.onHw fun h => h.kopCount 4
          | some plain =>
            let y := { x with seen := s.hw.poweredMs, src := src }
            (s.onHw fun h => h.setSession y).request y m.seq plain) ∧
        ((kopOpen x.keys.cd m).isNone = true → t.hw.kop.sessions = s.hw.kop.sessions ∧ t.hw.out = s.hw.out) ∧
        ((kopOpen x.keys.cd m).isNone = false → m.seq ≠ 0 → x.last ≠ none → x.waits.any (fun w => w.seq == m.seq) = false →
          ∀ e, x.cache.find? (fun e => e.1 == m.seq) = some e → t.hw.out = (.client src, e.2) :: s.hw.out)) ∧
  (∀ (id : BitVec 32) x w s,
      s.hw.session id.toNat = some x →
      x.waits.filter (fun w => decide (w.at_ + s.hw.reqTimeout ≤ s.hw.poweredMs)) = [w] →
      Ends (.requestTimeout id) s fun t =>
        t = (s.onHw fun h => h.timeoutWait x w) ∧
        t.hw.kop.sessions.length = s.hw.kop.sessions.length ∧ (w.seq ≠ 0 → t.hw.out.length = s.hw.out.length + 1) ∧
        (∀ y, t.hw.session id.toNat = some y → y.waits = x.waits.filter fun v => v.seq ≠ w.seq))

/-- A READ of an object that exists, by a role that reads it, answers STATUS OK, the type, the length, the LC and the
value, and NO_ACCESS below the role. A WRITE answers BAD_OBJECT where nothing is named, NO_ACCESS below the role, the
judgement of the type and the value, and otherwise has the effect of the object. A WRITE_LC that is accepted answers
the LC now, the commit LC and the ticket; one refused answers its STATUS alone. DESCRIBE and NEXT change nothing but
what they answer. Each item is kept beside its STATUS: the five commands complete so, with BAD_OBJECT, NO_ACCESS, the
judgement, the value or the description. (R616, R618, R619, R638, R639, R642, R644, R645) -/
def Obligations.ItemsReadWriteDescribeAndWalkTheDictionary : Prop :=
  (∀ (id oid : BitVec 32) (lc : Word) (type : Byte) (value : List Byte) s x, s.hw.session id.toNat = some x →
      let s1 := (s.onHw fun h => ({ h with fab := { h.fab with reads := h.fab.reads.filter fun r => !(r.session == id.toNat && r.tag / 64 == 0) } } : Hw).setSession { x with waits := x.waits.filter fun w => w.seq ≠ 0 })
      let who := State.asker x
      let done := fun (s2 : State) (item : List Byte) =>
        s2.onHw fun h => (h.onKop fun k => { k with item := item }).answer (beNat ((item.drop 5).take 2))
      s1.tenantOf who oid.toNat = none →
      ((s1.itemRead who 0 oid.toNat).2 ≠ [] →
        exec (.kopRead id oid) s = .next (done (s1.itemRead who 0 oid.toNat).1 (s1.itemRead who 0 oid.toNat).2)) ∧
      (exec (.kopWrite id oid type value) s = .next (done (s1.itemWrite who oid.toNat type.toNat value).1
        (itemHead opWrite oid.toNat (s1.itemWrite who oid.toNat type.toNat value).2))) ∧
      ((s1.itemWriteLc who oid.toNat lc.toNat type.toNat value).2.1 ≠ stOk →
        exec (.kopWriteLc id oid lc type value) s = .next (done (s1.itemWriteLc who oid.toNat lc.toNat type.toNat value).1
          (itemHead opWriteLc oid.toNat (s1.itemWriteLc who oid.toNat lc.toNat type.toNat value).2.1))) ∧
      ((s1.itemWriteLc who oid.toNat lc.toNat type.toNat value).2.1 = stOk →
        let r := s1.itemWriteLc who oid.toNat lc.toNat type.toNat value
        exec (.kopWriteLc id oid lc type value) s = .next (done r.1
          (itemHead opWriteLc oid.toNat stOk ++ beBytes 5 s1.hw.lc ++ beBytes 5 r.2.2 ++ beBytes 5 r.1.hw.kop.ticket))) ∧
      exec (.kopDescribe id oid) s = .next (done s1 (s1.itemDescribe who oid.toNat)) ∧
      exec (.kopNext id oid) s = .next (done s1 (s1.itemNext who oid.toNat))) ∧
  (∀ (s : State) who oid type v,
      (s.objAt who oid = none → s.itemWrite who oid type v = (s, stBadObject)) ∧
      (∀ ob, s.objAt who oid = some ob → who.role < ob.wr → s.itemWrite who oid type v = (s, stNoAccess)) ∧
      (∀ ob, s.objAt who oid = some ob → ob.access = 2 → ob.wr ≤ who.role → ob.judge type v ≠ 0 → s.itemWrite who oid type v = (s, ob.judge type v)) ∧
      (∀ ob, s.objAt who oid = some ob → ob.access = 2 → ob.wr ≤ who.role → ob.judge type v = 0 → s.itemWrite who oid type v = ob.write s v)) ∧
  (∀ (s : State) who tag oid ob v lc s2, s.objAt who oid = some ob → ob.access ≠ 3 → ob.rd ≤ who.role → ob.read s = (s2, .value v lc) →
      s.itemRead who tag oid = (s2, itemHead opRead oid stOk ++ [byte ob.type] ++ beBytes 2 v.length ++ beBytes 5 (lc.getD s.hw.lc) ++ v)) ∧
  (∀ (s : State) who tag oid ob, s.objAt who oid = some ob → who.role < ob.rd → s.itemRead who tag oid = (s, itemHead opRead oid stNoAccess)) ∧
  (∀ (s : State) who oid lc type v, s.objAt who oid = none → s.itemWriteLc who oid lc type v = (s, stBadObject, 0)) ∧
  (∀ (id oid : BitVec 32) (lc : Word) (type : Byte) (value : List Byte) s x, s.hw.session id.toNat = some x →
      let s1 := (s.onHw fun h => ({ h with fab := { h.fab with reads := h.fab.reads.filter fun r => !(r.session == id.toNat && r.tag / 64 == 0) } } : Hw).setSession { x with waits := x.waits.filter fun w => w.seq ≠ 0 })
      let who := State.asker x
      let answers := fun (t : State) (st : Nat) (item : List Byte) => t.hw.status = st ∧ t.hw.kop.item = item
      s1.tenantOf who oid.toNat = none →
      Ends (.kopRead id oid) s (fun t =>
        (s1.objAt who oid.toNat = none → answers t stBadObject (itemHead opRead oid.toNat stBadObject)) ∧
        (∀ ob, s1.objAt who oid.toNat = some ob → (ob.access = 3 ∨ who.role < ob.rd → answers t stNoAccess (itemHead opRead oid.toNat stNoAccess)) ∧
          (¬(ob.access = 3 ∨ who.role < ob.rd) → ∀ v l, (ob.read s1).2 = .value v l → answers t stOk
            (itemHead opRead oid.toNat stOk ++ [byte ob.type] ++ beBytes 2 v.length ++ beBytes 5 (l.getD s1.hw.lc) ++ v)))) ∧
      Ends (.kopWrite id oid type value) s (fun t =>
        (s1.objAt who oid.toNat = none → answers t stBadObject (itemHead opWrite oid.toNat stBadObject)) ∧
        (∀ ob, s1.objAt who oid.toNat = some ob →
          ((ob.access ≠ 2 ∧ ob.access ≠ 3 ∧ ob.access ≠ 4) ∨ who.role < ob.wr → answers t stNoAccess (itemHead opWrite oid.toNat stNoAccess)) ∧
          ((ob.access = 2 ∨ ob.access = 3) → ob.wr ≤ who.role → ob.judge type.toNat value ≠ 0 →
            t.hw.kop.item = itemHead opWrite oid.toNat (ob.judge type.toNat value)))) ∧
      Ends (.kopWriteLc id oid lc type value) s (fun t =>
        (s1.objAt who oid.toNat = none → answers t stBadObject (itemHead opWriteLc oid.toNat stBadObject)) ∧
        (∀ ob, s1.objAt who oid.toNat = some ob →
          (ob.access ≠ 5 ∨ who.role < ob.wr → answers t stNoAccess (itemHead opWriteLc oid.toNat stNoAccess)) ∧
          (ob.access = 5 → ob.wr ≤ who.role → ob.judge type.toNat value = 0 → oid.toNat ≠ 0x70020400 → s1.hw.commitLc lc.toNat = none →
            answers t stBadValue (itemHead opWriteLc oid.toNat stBadValue)))) ∧
      Ends (.kopDescribe id oid) s (fun t =>
        (s1.objAt who oid.toNat = none → answers t stBadObject (itemHead opDescribe oid.toNat stBadObject)) ∧
        (∀ ob, s1.objAt who oid.toNat = some ob → answers t stOk (itemHead opDescribe oid.toNat stOk ++ [byte ob.type] ++ beBytes 2 ob.len ++
          [byte ob.access, byte ob.rd, byte ob.wr] ++ beBytes 2 ob.dflt.length ++ ob.dflt))) ∧
      Ends (.kopNext id oid) s (fun t =>
        s1.named who (oid.toNat + 1) = true → oid.toNat + 1 < 2 ^ 32 → answers t stOk (itemHead opNext oid.toNat stOk ++ beBytes 4 (oid.toNat + 1))))

/-- Entering OFF flushes the transmit FIFO and every queue, resets the counters and drops the queue of the gateway;
entering BUS takes the state by the counters and refills the FIFO; SLEEP freezes them. RECOVER starts the recovery
from bus-off, which ends with counters of 0. ABORT removes a head that is not being sent, and waits for the attempt of
one that is. A push answers NOT_BUS, FULL or OK; a frame that was sent leaves the FIFO, and TEC falls. A frame
received goes to the queue of the first filter that matches it, of 64 entries, or is counted; TEC above 255 is bus-
off. An error on the bus sets LEC and raises the counter. (R652, R653, R655, R656, R657, R658, R659, R681) -/
def Obligations.ControllersChangeModeQueueAndCountErrors : Prop :=
  (∀ (h : Hw) n f, 64 ≤ (h.ctl n).q0.length → h.queueRx n 0 f = h.count (Reg.CAN_CNT_RXDROP n)) ∧
  (∀ (h : Hw) n x f, h.filterHit n x = some f → ∀ g, g < f →
      (bitN (h.filter n g 0).toNat 39 = false ∨ bitN (h.filter n g 0).toNat 38 ≠ x.ide ∨
        Nat.xor x.id (bitsOf (h.filter n g 0) 28 0) &&& bitsOf (h.filter n g 1) 28 0 ≠ 0 ∨
        (bitsOf (h.filter n g 0) 37 36 = 1 ∧ x.fdf = true) ∨ (bitsOf (h.filter n g 0) 37 36 = 2 ∧ x.fdf = false) ∨
        bitsOf (h.filter n g 0) 37 36 = 3)) ∧
  (∀ (who : Who) (n : Fin 4) (sending : Bool) s, s.hw.MayWrite who (Reg.CAN_CTRL n) → s.hw.canMode n = 1 → exec (.canModeOff who n sending) s = .next (s.onHw fun h =>
        (let h := (h.setFld (Reg.CAN_CTRL n) Fld.CAN_CTRL_MODE 0).canFlush n sending
        let h := h.setCtl n { h.ctl n with q0 := [], q1 := [], last := none, busOff := false }
        let h := ((h.setFld (Reg.CAN_STAT n) Fld.CAN_STAT_FROZEN 0).setFld (Reg.CAN_STAT n) Fld.CAN_STAT_STATE 0).setFld
          (Reg.CAN_STAT n) Fld.CAN_STAT_TEC 0
        (h.setFld (Reg.CAN_STAT n) Fld.CAN_STAT_REC 0).dropOutq n).busOk 0)) ∧
  (∀ (who : Who) (n : Fin 4) s,
      s.hw.MayWrite who (Reg.CAN_CTRL n) →
      s.hw.canMode n = 0 →
      s.hw.fld (Reg.CAN_CTRL n) Fld.CAN_CTRL_MODE = 0 → exec (.canModeBus who n) s = .next (s.onHw fun h =>
        (let h := (h.setFld (Reg.CAN_CTRL n) Fld.CAN_CTRL_MODE 1).setFld (Reg.CAN_STAT n) Fld.CAN_STAT_FROZEN 0
        let st := if (h.ctl n).busOff then (if h.bit (Reg.CAN_CTRL n) 37 then 5 else 3)
          else if 127 < h.tec n || 127 < h.rec_ n then 2 else 1
        (h.setFld (Reg.CAN_STAT n) Fld.CAN_STAT_STATE st).canRefill n 64).busOk 0)) ∧
  (∀ (who : Who) (n : Fin 4) (sending : Bool) s, s.hw.MayWrite who (Reg.CAN_CTRL n) → s.hw.canMode n = 1 → exec (.canModeSleep who n sending) s = .next (
        s.onHw fun h => ((((h.setFld (Reg.CAN_CTRL n) Fld.CAN_CTRL_MODE 2).canFlush n sending).setFld (Reg.CAN_STAT n) Fld.CAN_STAT_FROZEN 1).setFld (Reg.CAN_STAT n) Fld.CAN_STAT_STATE 4).busOk 0)) ∧
  (∀ (who : Who) (n : Fin 4) s,
      s.hw.MayWrite who (Reg.CAN_CTRL n) →
      s.hw.canMode n = 1 →
      s.hw.canState n = 3 → exec (.canRecover who n) s = .next (
        s.onHw fun h => (h.setFld (Reg.CAN_STAT n) Fld.CAN_STAT_STATE 5).busOk 0)) ∧
  (∀ (who : Who) (n : Fin 4) x l s,
      s.hw.MayWrite who (Reg.CAN_CTRL n) →
      s.hw.canMode n = 1 →
      (s.hw.ctl n).tx = x :: l → exec (.canAbort who n false) s = .next (
        s.onHw fun h => (((h.setCtl n { h.ctl n with tx := l, abort := false }).count (Reg.CAN_CNT_ABORT n)).canRefill n 64).busOk 0)) ∧
  (∀ (who : Who) (n : Fin 4) x l s,
      s.hw.MayWrite who (Reg.CAN_CTRL n) →
      s.hw.canMode n = 1 →
      (s.hw.ctl n).tx = x :: l → exec (.canAbort who n true) s = .next (
        s.onHw fun h => (h.setCtl n { h.ctl n with abort := true }).busOk 0)) ∧
  (∀ (who : Who) (n : Fin 4) (tag : Byte) s, s.hw.MayWrite who (Reg.CAN_TX_PUSH n) → s.hw.canMode n ≠ 1 → exec (.canTxPush who n tag) s = .next (
        s.onHw fun h => (h.setFld (Reg.CAN_TX_STAT n) Fld.CAN_TX_STAT_RESULT 2).busOk 0)) ∧
  (∀ (who : Who) (n : Fin 4) (tag : Byte) s,
      s.hw.MayWrite who (Reg.CAN_TX_PUSH n) →
      s.hw.canMode n = 1 →
      s.hw.fld (Reg.CAN_CTRL n) Fld.CAN_CTRL_TX_LIMIT ≤ (s.hw.ctl n).tx.length → exec (.canTxPush who n tag) s = .next (
        s.onHw fun h => (h.setFld (Reg.CAN_TX_STAT n) Fld.CAN_TX_STAT_RESULT 1).busOk 0)) ∧
  (∀ (who : Who) (n : Fin 4) (tag : Byte) s,
      s.hw.MayWrite who (Reg.CAN_TX_PUSH n) →
      s.hw.canMode n = 1 →
      (s.hw.ctl n).tx.length < s.hw.fld (Reg.CAN_CTRL n) Fld.CAN_CTRL_TX_LIMIT → exec (.canTxPush who n tag) s = .next (
        s.onHw fun h => ((h.setCtl n { h.ctl n with tx := (h.ctl n).tx ++ [{ frame := h.stagedFrame n, tag := tag.toNat }] }).setFld (Reg.CAN_TX_STAT n) Fld.CAN_TX_STAT_RESULT 0).busOk 0)) ∧
  (∀ (who : Who) (n : Fin 4) s, s.hw.MayWrite who (Reg.CAN_RX_STAT n (0 : Fin 2)) → exec (.canRxPop who n 0) s = .next (
        s.onHw fun h => (h.setCtl n { h.ctl n with q0 := (h.ctl n).q0.drop 1 }).busOk 0)) ∧
  (∀ (who : Who) (n : Fin 4) s, s.hw.MayWrite who (Reg.CAN_RX_STAT n (1 : Fin 2)) → exec (.canRxPop who n 1) s = .next (
        s.onHw fun h => (h.setCtl n { h.ctl n with q1 := (h.ctl n).q1.drop 1 }).busOk 0)) ∧
  (∀ (n : Fin 4) x l s,
      s.hw.unitRuns (33 + n) = true →
      s.hw.canLive n = true →
      (s.hw.ctl n).leaving = none →
      (s.hw.ctl n).tx = x :: l → exec (.canFrameSent n) s = .next (s.onHw fun h =>
        let h := ((h.setCtl n { h.ctl n with tx := l, abort := false }).sentCan n x.frame).setFld (Reg.CAN_TX_STAT n)
          Fld.CAN_TX_STAT_LAST_TAG x.tag
        let h := h.setBit (Reg.CAN_IRQ_STAT n) 1
        (h.setErrors n (h.tec n - 1) (h.rec_ n)).canRefill n 64)) ∧
  (∀ (n : Fin 4) (hdr : Word) data eof f s,
      s.hw.canLive n = true →
      s.hw.filterHit n (canFrame hdr data) = some f →
      bitsOf (s.hw.filter n f 0) 35 33 = 1 →
      (s.hw.ctl n).last = none →
      s.hw.rec_ n = 0 →
      (s.hw.ctl n).q0.length < 64 →
      Ends (.canFrameReceived n hdr data eof) s fun t =>
        t = (s.onHw fun h =>
          let o := h.observe
          let h := o.2.setCtl n { h.ctl n with last := if eof then some (canFrame hdr data) else none }
          let h := h.onPwr fun p => { p with canSeen := setBitN p.canSeen n }
          h.queueRx n 0 { frame := canFrame hdr data, info := word (f * 2 ^ 34), lc := h.lc,
                          ofs := (rhe ((o.1 : Int) - h.tu.tSi) tNs).toNat }) ∧
        (t.hw.ctl n).q0.length = (s.hw.ctl n).q0.length + 1 ∧ (t.hw.ctl n).q1 = (s.hw.ctl n).q1 ∧ t.hw.bit (Reg.CAN_IRQ_STAT n) 0 = true ∧
        (t.hw.ctl n).last = (if eof then some (canFrame hdr data) else none)) ∧
  (∀ (n : Fin 4) (tec rc : Fin 512) s, s.hw.canLive n = true → 255 < tec.val →
      Ends (.canErrorStateChange n tec rc) s fun t =>
        t = (s.onHw fun h =>
          let h := (h.setFld (Reg.CAN_STAT n) Fld.CAN_STAT_TEC 0xFF).setFld (Reg.CAN_STAT n) Fld.CAN_STAT_REC (min rc 255)
          let h := h.setCtl n { h.ctl n with busOff := true }
          h.setCanState n (if h.bit (Reg.CAN_CTRL n) 37 then 5 else 3)) ∧
        (t.hw.ctl n).busOff = true ∧ t.hw.tec n = 255 ∧ t.hw.rec_ n = min rc.val 255 ∧ t.hw.canState n = (if s.hw.bit (Reg.CAN_CTRL n) 37 then 5 else 3)) ∧
  (∀ (n : Fin 4) (tec rc : Fin 512) s, s.hw.canLive n = true → tec.val ≤ 255 →
      Ends (.canErrorStateChange n tec rc) s fun t =>
        t = (s.onHw fun h =>
          let h := (h.setFld (Reg.CAN_STAT n) Fld.CAN_STAT_TEC tec).setFld (Reg.CAN_STAT n) Fld.CAN_STAT_REC (min rc 255)
          h.setCanState n (if 127 < tec.val || 127 < rc.val then 2 else 1)) ∧
        t.hw.tec n = tec.val ∧ t.hw.rec_ n = min rc.val 255 ∧ t.hw.canState n = (if 127 < tec.val || 127 < rc.val then 2 else 1)) ∧
  (∀ (n : Fin 4) s,
      s.hw.unitRuns (33 + n) = true →
      s.hw.canMode n = 1 →
      s.hw.canState n = 5 →
      Ends (.canBusOffRecovered n) s fun t =>
        t = (s.onHw fun h =>
          let h := h.setCtl n { h.ctl n with busOff := false }
          let h := (h.setFld (Reg.CAN_STAT n) Fld.CAN_STAT_TEC 0).setFld (Reg.CAN_STAT n) Fld.CAN_STAT_REC 0
          (h.setCanState n 1).canRefill n 64) ∧
        t.hw.canState n = 1 ∧ t.hw.tec n = 0 ∧ t.hw.rec_ n = 0 ∧ (t.hw.ctl n).busOff = false) ∧
  (∀ (n : Fin 4) (lec : Fin 8) (eof : Bool) (up : Fin 9) s, s.hw.canLive n = true →
      Ends (.canBusError n lec false eof up) s fun t =>
        t = (s.onHw fun h =>
          let h := h.setFld (Reg.CAN_STAT n) Fld.CAN_STAT_LEC lec
          h.setErrors n (h.tec n) (h.rec_ n + up)) ∧
        t.hw.fld (Reg.CAN_STAT n) Fld.CAN_STAT_LEC = lec.val ∧ t.hw.rec_ n = min (s.hw.rec_ n + up.val) 255 ∧ t.hw.tec n = s.hw.tec n) ∧
  (∀ (n : Fin 4) s,
      s.hw.unitRuns (33 + n) = true →
      (s.hw.ctl n).leaving = none →
      (s.hw.ctl n).abort = false → exec (.lostArbitration n) s = .next (
        s)) ∧
  (∀ (n : Fin 4) x l s,
      s.hw.unitRuns (33 + n) = true →
      (s.hw.ctl n).leaving = none →
      (s.hw.ctl n).abort = true →
      (s.hw.ctl n).tx = x :: l → exec (.lostArbitration n) s = .next (
        s.onHw fun h => ((h.setCtl n { h.ctl n with tx := l, abort := false }).count (Reg.CAN_CNT_ABORT n)).canRefill n 64))

/-- With the gateway off nothing is routed; a frame of no matching entry is counted. An output enters a queue of 64 or is
dropped, counted and raises the flag. An AVTPDU is closed of what fits in its length; with no ring to write to its
outputs are dropped. A descriptor of the inbound ring is read, its PDU enters the gateway, OWN is cleared and the head
advances. A segment repeated changes nothing, one out of order fails the fetch, a middle one is appended; a fetch
without an answer fails with TIMEOUT. (R668, R669, R670, R672, R674, R675, R676, R677) -/
def Obligations.TheGatewayRoutesStreamsAndProxies : Prop :=
  (∀ (h : Hw) i c d, (h.proxy i).seg = some (d.getD 4 0).toNat → h.segment i c d = h) ∧
  (∀ (h : Hw) i c d, (h.proxy i).seg = none → (d.getD 4 0).toNat ≠ 0 → h.segment i c d = h.proxyFail i 3) ∧
  (∀ (h : Hw) i c d, (h.proxy i).seg = none → (d.getD 4 0).toNat = 0 → (d.getD 5 0).toNat = 0 →
      h.segment i c d = h.setProxy i { h.proxy i with acc := (h.proxy i).acc ++ d.drop 6, seg := some 0 }) ∧
  (∀ (h : Hw) p f t, h.colOn = false → h.gateway p f t = h) ∧
  (∀ (h : Hw) p (f : CanFrame) t, h.colOn = true → (∀ e, e < 1024 → bitN (h.route e 0).toNat 39 = false) → h.gateway p f t = h.count Reg.COL_CNT_NOROUTE) ∧
  (∀ (h : Hw) p o, h.portTakes p = true → (h.outq p).length < 64 → h.enqueue p o = (h.setOutq p (h.outq p ++ [o]), true)) ∧
  (∀ (h : Hw) p o, (64 ≤ (h.outq p).length ∨ h.portTakes p = false) → h.enqueue p o = ((h.countBy Reg.COL_CNT_DROP 1).setBit Reg.COL_IRQ_STAT 0, false)) ∧
  (∀ (k : Fin 4) s, s.hw.outq (4 + k) = [] → exec (.streamPduClose k) s = .next (s)) ∧
  (∀ (k : Fin 4) s,
      s.hw.colOn = true →
      s.hw.outq (4 + k) ≠ [] →
      s.hw.portTakes (4 + k) = true →
      State.hpHolds s.hw Reg.COL_ORING_CTL = false → exec (.streamPduClose k) s = .next (s.onHw fun h =>
        let n := (acfFit 1388 (s.hw.outq (4 + k))).1
        ((h.setOutq (4 + k) ((s.hw.outq (4 + k)).drop n)).onCan fun x =>
          { x with seqOut := Tabs.set (fun _ => (0 : Nat)) x.seqOut k ((Tabs.get (fun _ => (0 : Nat)) s.hw.can.seqOut k + 1) % 256) }).colDrop
            Reg.COL_CNT_DROP n)) ∧
  (∀ s, State.hpHolds s.hw Reg.COL_IRING_CTL = false → exec (.streamRxDescriptor) s = .next (s)) ∧
  (∀ who s1 w0 w1 s2 ws s,
      s.hw.colOn = true →
      State.hpHolds s.hw Reg.COL_IRING_CTL = true →
      s.colWho = some who →
      s.dmaReads who (s.hw.fld Reg.COL_IRING_BASE Fld.COL_IRING_BASE_BASE + 2 * s.hw.fld Reg.COL_IRING_CTL Fld.COL_IRING_CTL_HEAD) 2 = (s1, some [w0, w1]) →
      bitN w0.toNat 39 = true →
      s1.dmaReads who (bitsOf w1 33 0) ((bitsOf w0 15 0 + 4) / 5) = (s2, some ws) →
      Ends (.streamRxDescriptor) s fun t =>
        t = (((s2.onHw fun h => h.streamIn ((wordsBytes ws).take (bitsOf w0 15 0))).dmaWrites who
          (s.hw.fld Reg.COL_IRING_BASE Fld.COL_IRING_BASE_BASE + 2 * s.hw.fld Reg.COL_IRING_CTL Fld.COL_IRING_CTL_HEAD)
          [withBits w0 39 39 0]).1.onHw fun h =>
            (h.setFld Reg.COL_IRING_CTL Fld.COL_IRING_CTL_HEAD (State.nextHead h Reg.COL_IRING_CTL)).setBit Reg.COL_IRQ_STAT 2) ∧
        t.hw.bit Reg.COL_IRQ_STAT 2 = true) ∧
  (∀ (n : Fin 4) (hdr : Word) data i c s,
      s.hw.canLive n = true →
      s.hw.cfg.proxies.find? (s.hw.answersFetch n (canFrame hdr data)) = some (i, some c) →
      Ends (.proxySegment n hdr data) s fun t =>
        t = (s.onHw fun h => h.segment i c (canFrame hdr data).data) ∧
        t.hw.lc = s.hw.lc ∧ t.hw.mem = s.hw.mem ∧
        ((s.hw.proxy i).seg = some ((canFrame hdr data).data.getD 4 0).toNat → t = s) ∧
        ((s.hw.proxy i).seg = none → (canFrame hdr data).data.getD 4 0 ≠ 0 → (t.hw.proxy i).state = 3) ∧
        ((s.hw.proxy i).seg = none → (canFrame hdr data).data.getD 4 0 = 0 → (canFrame hdr data).data.getD 5 0 = 0 → (t.hw.proxy i).seg = some 0 ∧
          (t.hw.proxy i).acc = (s.hw.proxy i).acc ++ (canFrame hdr data).data.drop 6)) ∧
  (∀ (n : Fin 4) (hdr : Word) data s,
      s.hw.canLive n = true →
      s.hw.cfg.proxies.find? (s.hw.answersFetch n (canFrame hdr data)) = none → exec (.proxySegment n hdr data) s = .next (
        s)) ∧
  (∀ (i : Fin 256) s, s.hw.sysOn = true → (s.hw.proxy i).state = 1 → exec (.proxyTimeout i) s = .next (
        s.onHw fun h => ((h.setProxy i { h.proxy i with state := 3, kind := 10, at_ := h.lc, acc := [] }).count Reg.COL_CNT_PROXYFAIL).setBit Reg.COL_IRQ_STAT 3))

/-- A decoder that is on lowers its counter on a good frame and raises it, to 32, on a bad one; a matching frame and an
overflow that is enabled wake. A wake by a source that is not in back-off starts Dawn in Night, with a plant source
ahead of a service source. At the close of the window each source of WAKE_SRC is judged. A back-off that ran out ends;
CLEAR ends it and its count, and is taken from the secure world and from Crest only. A debounced change of a declared
input sets its bits; WAKE_LINE in Day without dispatch writes DISPATCH with commit LC a + LEAD. (R89, R660, R661,
R663, R664, R666, R679, R683) -/
def Obligations.WakeSourcesDecodeJudgeAndBackOff : Prop :=
  (∀ (h : Hw) mask, h.wakeable mask = [] → h.wake mask = h.countUnwakeable mask) ∧
  (∀ (h : Hw) mask, h.wakeable mask ≠ [] → h.inState psNight = true → h.wake mask = (h.countUnwakeable mask).startDawn (h.wakeable mask)) ∧
  (∀ (h : Hw) l x, h.firstWake l = some x → h.wakeClass x ≠ 1 → ∀ y ∈ l, h.wakeClass y ≠ 1) ∧
  (∀ (n : Fin 4) (hdr : Word) data s,
      s.hw.decoderOn n = true →
      s.hw.wakeFrame n (canFrame hdr data) = true →
      Ends (.selectiveWakeFrame n hdr data) s fun t =>
        t = (s.onHw fun h => ((h.setFld (Reg.CAN_SW_STAT n) Fld.CAN_SW_STAT_FEC (h.fec n - 1)).setBit (Reg.CAN_SW_STAT n) 33).decoderWake n (canFrame hdr data).hdr) ∧
        t.hw.bit (Reg.CAN_SW_STAT n) 33 = true ∧ t.hw.fec n = s.hw.fec n - 1 ∧
        (s.hw.inState psDay = true → s.hw.sysOn = true → s.hw.canMode n = 2 → t.hw.bit (Reg.CAN_IRQ_STAT n) 3 = true) ∧
        (s.hw.inState psNight = true → s.hw.wakeable (2 ^ (5 + n.val)) ≠ [] → t.hw.inState psDawn = true ∧ t.hw.reg (Reg.GIO_WAKE_CAN n) = (canFrame hdr data).hdr)) ∧
  (∀ (n : Fin 4) (hdr : Word) data s, s.hw.decoderOn n = false → exec (.selectiveWakeFrame n hdr data) s = .next (s)) ∧
  (∀ (n : Fin 4) s, s.hw.decoderOn n = true → exec (.wakeDecoderFrame n true) s = .next (
        s.onHw fun h => h.setFld (Reg.CAN_SW_STAT n) Fld.CAN_SW_STAT_FEC (min 32 (h.fec n + 1)))) ∧
  (∀ (n : Fin 4) s, s.hw.decoderOn n = true → exec (.wakeDecoderFrame n false) s = .next (
        s.onHw fun h => h.setFld (Reg.CAN_SW_STAT n) Fld.CAN_SW_STAT_FEC (h.fec n - 1))) ∧
  (∀ (n : Fin 4) s,
      s.hw.decoderOn n = true →
      s.hw.fec n = 32 →
      bitN (s.hw.reg (Reg.CAN_SW_ID n)).toNat 32 = true →
      Ends (.wakeFecOverflow n) s fun t =>
        t = (s.onHw fun h => (h.setBit (Reg.CAN_SW_STAT n) 32).decoderWake n (word (2 ^ 30))) ∧
        t.hw.bit (Reg.CAN_SW_STAT n) 32 = true ∧
        (s.hw.inState psDay = true → s.hw.sysOn = true → s.hw.canMode n = 2 → t.hw.bit (Reg.CAN_IRQ_STAT n) 3 = true) ∧
        (s.hw.inState psNight = true → s.hw.wakeable (2 ^ (5 + n.val)) ≠ [] → t.hw.inState psDawn = true ∧ t.hw.reg (Reg.GIO_WAKE_CAN n) = word (2 ^ 30))) ∧
  (∀ (high : BitVec 12) s,
      s.hw.sysOn = true →
      s.hw.bit Reg.GIO_WAKE_VAL 39 = true →
      s.hw.pwr.judgeAt ≤ s.hw.lc →
      Ends (.wakeValidationClose high) s fun t =>
        t = (s.onHw fun h =>
          (((List.range 12).filter fun x => s.hw.bit Reg.WAKE_SRC x).foldl (fun (h : Hw) x => h.judgeWake high.toNat x)
            (h.setReg Reg.GIO_WAKE_VAL 0)).setBit Reg.GIO_IRQ_STAT 2) ∧
        t.hw.bit Reg.GIO_IRQ_STAT 2 = true ∧ t.hw.bit Reg.GIO_WAKE_VAL 39 = false ∧ t.hw.lc = s.hw.lc ∧
        (∀ x, x < 9 → s.hw.bit Reg.WAKE_SRC x = true → t.hw.bit Reg.GIO_WAKE_VAL x = s.hw.wakeProved high.toNat x ∧
          (s.hw.wakeProved high.toNat x = false → t.hw.bit Reg.GIO_WAKE_VAL (12 + x) = true))) ∧
  (∀ (src : Fin 9) s, s.hw.aoOn = true → s.hw.inBackoff src = false →
      Ends (.wakeBackoffEnd src) s fun t =>
        t = (s.onHw fun h => h.setBackoff src 0) ∧
        t.hw.inBackoff src = false ∧ t.hw.backoffEnd src = 0 ∧ (∀ x, x < 9 → x ≠ src.val → t.hw.backoffEnd x = s.hw.backoffEnd x)) ∧
  (∀ (who : Who) (src : Fin 9) s, Hw.aoWriter who = true → s.hw.aoOn = true → exec (.wakeBackoffClear who src) s = .next (
        s.onHw fun h => ((h.setFld (Reg.GIO_WAKE_FW src) Fld.GIO_WAKE_FW_COUNT 0).setBackoff src 0).busOk 0)) ∧
  (∀ (who : Who) (src : Fin 9) s, Hw.aoWriter who = false → exec (.wakeBackoffClear who src) s = .next (
        s.onHw fun h => (h.deny who true (Reg.GIO_WAKE_FW src)).busError)) ∧
  (∀ (i : Fin 32) s,
      s.hw.unitRuns 38 = true →
      s.hw.inState psDay = true →
      bitN s.hw.cfg.di i = true →
      s.hw.bit Reg.GIO_DI i = false → exec (.diDebouncedChange i true) s = .next (
        s.onHw fun h => ((h.setBit Reg.GIO_DI i).setBit Reg.GIO_DI_CHG i).setBit Reg.GIO_IRQ_STAT 0)) ∧
  (∀ (i : Fin 32) s,
      s.hw.unitRuns 38 = true →
      s.hw.inState psDay = true →
      bitN s.hw.cfg.di i = true →
      s.hw.bit Reg.GIO_DI i = true → exec (.diDebouncedChange i false) s = .next (
        s.onHw fun h => ((h.clearBit Reg.GIO_DI i).setBit Reg.GIO_DI_CHG i).setBit Reg.GIO_IRQ_STAT 0)) ∧
  (∀ s,
      s.hw.inState psDay = true →
      s.hw.level = 3 →
      s.hw.pwr.dispatch = false →
      (s.hw.vmSlot 0).state = .running →
      Ends (.wakeLineRise) s fun t =>
        t = (s.onHw fun h =>
          let lc := h.lc + h.fld Reg.FAB_LT_CFG Fld.FAB_LT_CFG_LEAD
          (h.journalCommand lc 0x38C00000 [1]).onKop fun k =>
            { k with pend := k.pend ++ [({ oid := 0x38C00000, acc := s.hw.lc, lc := lc, type := 1, value := [1], ticket := 0, session := 0 } : LcWrite)] }) ∧
        t.hw.lc = s.hw.lc ∧ t.hw.kop.pend.length = s.hw.kop.pend.length + 1) ∧
  (∀ s, s.hw.pwr.dispatch = true → exec (.wakeLineRise) s = .next (s))

/-- The update objects need the role ENGINEER. STAGE_OPEN of a target erases it, and is BUSY with one open. A chunk of 240
words is programmed at its place, and refused by length, or with nothing open. STAGE_CLOSE reports the lowest failing
code or programs word 0, which for a CFG is held until its switch. ACTIVATE of a staged image is accepted with a
commit LC, BUSY while one is in progress. The check at its LC ends with a result, or starts the procedure of the TYPE.
The start of an ACTIVATED image makes it PROVEN, and a PROVEN image is copied into ACTIVE, word 0 last, and its
partition erased. INSTALL checks the set of the staged images that it names, refuses it with result 3, or accepts it:
the device resets at its commit LC, or at once outside VM0. (R695, R696, R698, R699, R700, R701, R702, R691, R703,
R705, R711) -/
def Obligations.ImagesAreStagedActivatedProvenAndCopied : Prop :=
  (∀ (s : State) type slot w, imgPresent w = false → s.stageCheck type slot w = 0x01) ∧
  (∀ (s : State) type, setOk (s.setWith [type]) = false → s.activationFault type = 3) ∧
  (∀ (s : State) type, setOk (s.setWith [type]) = true → type = 1 → s.activationFault type = 4) ∧
  (∀ (role : Fin 5) (v : BitVec 16) s, s.hw.servedPath ≠ none → role.val < 3 → exec (.stageOpen role v) s = .next (
        s.onHw fun h => h.answer stNoAccess)) ∧
  (∀ (role : Fin 5) (v : BitVec 16) s,
      s.hw.servedPath ≠ none →
      3 ≤ role.val →
      s.fuse.lifecycle ≠ 3 →
      State.stageable (v.toNat / 256) (v.toNat % 16) = true →
      v.toNat / 16 % 16 = 0 →
      s.hw.upd.stage ≠ 2 →
      s.hw.upd.copies = [] →
      s.hw.upd.act = none →
      s.hw.norOn = true → exec (.stageOpen role v) s = .next (
        let p := s.stageTarget (v.toNat / 256) (v.toNat % 16)
        let nor := s.nor.erase p.1 (p.1 + p.2 - 1)
        ({ s with nor := nor } : State).onHw fun h =>
          (h.onUpd fun u => { u with stage := 2, stageType := v.toNat / 256, stageSlot := v.toNat % 16, stageFail := 0, held := none,
                                     heldCfg := if v.toNat / 256 = 5 then none else u.heldCfg }).answer stOk)) ∧
  (∀ (role : Fin 5) (v : BitVec 16) s,
      s.hw.servedPath ≠ none →
      3 ≤ role.val →
      s.fuse.lifecycle ≠ 3 →
      State.stageable (v.toNat / 256) (v.toNat % 16) = true →
      v.toNat / 16 % 16 = 0 →
      s.hw.upd.stage = 2 → exec (.stageOpen role v) s = .next (
        s.onHw fun h => h.answer stBusy)) ∧
  (∀ (role : Fin 5) (ofs : Word) ws s, s.hw.servedPath ≠ none → 3 ≤ role.val → ws.length ≠ 240 → exec (.stageData role ofs ws) s = .next (
        s.onHw fun h => h.answer stBadType)) ∧
  (∀ (role : Fin 5) (ofs : Word) ws s,
      s.hw.servedPath ≠ none →
      3 ≤ role.val →
      ws.length = 240 →
      s.hw.upd.stage ≠ 2 → exec (.stageData role ofs ws) s = .next (
        s.onHw fun h => h.answer stState)) ∧
  (∀ (role : Fin 5) (ofs : Word) ws base s,
      s.hw.servedPath ≠ none →
      3 ≤ role.val →
      ws.length = 240 →
      s.hw.upd.stage = 2 →
      s.hw.norOn = true →
      base = (s.stageTarget s.hw.upd.stageType s.hw.upd.stageSlot).1 →
      s.stagedImage s.hw.upd.stageType s.hw.upd.stageSlot s.hw.upd.held 4 = erased →
      4 < ofs.toNat →
      ofs.toNat + 240 ≤ (s.stageTarget s.hw.upd.stageType s.hw.upd.stageSlot).2 →
      (∀ i, ofs.toNat ≤ i → i < ofs.toNat + 240 → s.stagedImage s.hw.upd.stageType s.hw.upd.stageSlot s.hw.upd.held i = erased) → exec (.stageData role ofs ws) s = .next (
        ({ s with nor := (ws.zipIdx.map fun x => (ofs.toNat + x.2, x.1)).foldl (fun (n : Nor) x => n.program (base + x.1) x.2) s.nor } : State).onHw
        fun h => h.answer stOk)) ∧
  (∀ (role : Fin 5) s,
      s.hw.servedPath ≠ none →
      3 ≤ role.val →
      s.hw.upd.stage = 2 →
      s.hw.norOn = true → exec (.stageClose role) s = .next (
        let u := s.hw.upd
        let code := s.stageCheck u.stageType u.stageSlot (s.stagedImage u.stageType u.stageSlot u.held)
        if code ≠ 0 then s.onHw fun h => (h.onUpd fun u => { u with stage := 5, stageFail := code, held := none }).answer stOk
        else if u.stageType = 5 then s.onHw fun h => (h.onUpd fun u => { u with stage := 4, heldCfg := u.held, held := none }).answer stOk
        else ({ s with nor := s.nor.program (s.stageTarget u.stageType u.stageSlot).1 (u.held.getD erased) } : State).onHw fun h =>
          (h.onUpd fun u => { u with stage := 4, held := none }).answer stOk)) ∧
  (∀ (role : Fin 5) (v : BitVec 16) (lc : Word) n s,
      s.hw.servedPath ≠ none →
      3 ≤ role.val →
      State.stageable (v.toNat / 256) 0 = true →
      v.toNat % 256 = 0 →
      s.hw.upd.act = none →
      s.isStaged (v.toNat / 256) = true →
      s.hw.lcRefusal 0x70020400 lc.toNat 0 = 0 →
      s.hw.commitLc lc.toNat = some n →
      v.toNat / 256 ≠ 3 ∨ s.hw.lc + 20 ≤ n → exec (.activate role v lc) s = .next (s.onHw fun h =>
        ((h.acceptLc 0x70020400 n 0x03 (beBytes 2 v.toNat) 0).onUpd fun u =>
          { u with act := some { type := v.toNat / 256, lc := n, acc := h.lc }, updType := v.toNat / 256, updResult := 0 }).answer stOk)) ∧
  (∀ (role : Fin 5) (v : BitVec 16) (lc : Word) a s,
      s.hw.servedPath ≠ none →
      3 ≤ role.val →
      State.stageable (v.toNat / 256) 0 = true →
      v.toNat % 256 = 0 →
      s.hw.upd.act = some a → exec (.activate role v lc) s = .next (
        s.onHw fun h => (h.onUpd fun u => { u with updResult := 1 }).answer stBusy)) ∧
  (∀ s, s.hw.upd.act = none → exec (.activateCheck) s = .next (s)) ∧
  (∀ a s,
      s.hw.upd.act = some a →
      a.started = false →
      a.lc ≤ s.hw.lc →
      s.hw.level = 3 →
      a.type ≠ 3 ∨ State.spareFree s.hw = true →
      Ends (.activateCheck) s fun t =>
        t = (let f := if s.isStaged a.type then s.activationFault a.type else 2
          if f ≠ 0 then s.onHw fun h => h.endActivation f
          else
            let s := s.onHw fun h => h.onUpd fun u => { u with act := some { a with started := true } }
            if a.type = 2 then s.startCrestUpdate
            else if a.type = 3 then s.startMicrocode a
            else if a.type = 5 then s.startCfg a
            else (s.onHw fun h => h.onUpd fun u => { u with restart := s.tenants }).hvfStep) ∧
        ((if s.isStaged a.type then s.activationFault a.type else 2) ≠ 0 → t.hw.upd.act = none ∧ t.hw.upd.updType = a.type ∧
          t.hw.upd.updResult = (if s.isStaged a.type then s.activationFault a.type else 2)) ∧
        ((if s.isStaged a.type then s.activationFault a.type else 2) = 0 →
          (a.type = 3 → t.hw.fab.mcSwitch.map (·.lc) = some a.lc) ∧ (a.type = 5 → t.hw.fab.cfgSwitch.map (·.lc) = some a.lc))) ∧
  (∀ (type : Fin 8) s,
      s.hw.upd.act = none →
      type.val = 1 ∨ type.val = 2 →
      2 ≤ s.hw.level →
      s.setRegion type = norStaging → exec (.imageProven type 0) s = .next (
        let w := s.partImage norStaging type 0
        if imgPresent w ∧ w 63 = markActivated then
          (s.setMark type 0 markProven).onHw fun (h : Hw) =>
            ({ h with upd := { h.upd with copies := (h.upd.copies ++ [16 * type.val]).eraseDups } } : Hw)
        else s)) ∧
  (∀ (type : Fin 8) (slot : Fin 16) s,
      s.hw.norOn = true →
      imgPresent (s.partImage norStaging type slot) = true →
      s.partImage norStaging type slot 63 = markProven → exec (.activeCopy type slot) s = .next (
        let w := s.partImage norStaging type slot
        let p := partOf type slot
        let body := (List.range (64 + imgLen w - 1)).map fun i => if i = 62 then erased else w (i + 1)
        let nor := s.nor.erase (norActive + p.1) (norActive + p.1 + p.2 - 1)
        let nor := (nor.programList (norActive + p.1 + 1) body).program (norActive + p.1) (w 0)
        let nor := nor.erase (norStaging + p.1) (norStaging + p.1 + p.2 - 1)
        let key := if type.val = 4 then (if slot.val = 0 then 4 else 16 + slot.val) else type.val
        ({ s with nor := nor } : State).onHw fun (h : Hw) =>
          ({ h with upd := { h.upd with
              copies := h.upd.copies.filter (· ≠ 16 * type.val + slot)
              inForce := if Tabs.get (fun _ => 0) h.upd.inForce key = norStaging + p.1 + 1 then
                  Tabs.set (fun _ => (0 : Nat)) h.upd.inForce key (norActive + p.1 + 1)
                else h.upd.inForce } } : Hw))) ∧
  (∀ (role : Fin 5) (mask : BitVec 16) s, s.hw.servedPath ≠ none → 3 ≤ role.val → s.fuse.lifecycle ≠ 3 → mask.toNat ≠ 0 → mask.toNat < 32 →
      s.hw.upd.act = none → ((List.range 6).all fun i => !(decide (1 ≤ i) && bitN mask.toNat (i - 1)) || s.isStaged i) = true →
      let types := (List.range 6).filter fun i => decide (1 ≤ i) && bitN mask.toNat (i - 1)
      let good := setOk (s.setWith types) && s.sectsRead types && types.all fun i => imgAdmits (s.stagedOf i) && imgArbOk s.fuse (s.stagedOf i)
      Ends (.install role mask) s fun t =>
        (good = false → t.nor = s.nor ∧ t.hw.status = stState ∧ t.hw.upd.updResult = 3) ∧
        (good = true → t.hw.status = stOk ∧ t.hw.upd.updResult = 0 ∧ t.fuse = s.fuse ∧
          (s.hw.servedPath = some 0 → t.hw.pwr.reset = some (s.hw.lc + s.hw.lead_)) ∧
          (s.hw.servedPath ≠ some 0 → t.hw.upd.install = true))) ∧
  (∀ a s,
      s.hw.upd.act = some a →
      a.started = false →
      a.type = 3 →
      s.hw.level = 3 →
      State.spareFree s.hw = false →
      a.lc ≤ s.hw.lc + 1 → exec (.activateCheck) s = .next (
        s.onHw fun h => h.onUpd fun u => { u with act := none, updType := 3, updResult := 6 }))

/-- FAB_MC_CTRL takes LOAD, DECLARE and CANCEL from the secure world only. LOAD puts the slot not in force into loading,
with the build of the staged image; each powered ridge loads it. DECLARE needs it loading or loaded and X of at least
a + LEAD; a declared switch is recorded. At SI(X) the slot switches, the build follows, the old slot is retained, and
is released only when the commit and every S_g have reached X; a step of a cycle before X runs from the old slot. A
switch not loaded in time, or one whose held word is gone, is cancelled. A CFG switch programs word 0 and takes the
new sections, the rings and worlds apart. (R369, R699, R701, R715) -/
def Obligations.MicrocodeAndConfigurationSwitchAtTheirCycle : Prop :=
  (∀ h : Hw, h.mcRelease ≠ h → h.mcSpare = 4 ∧ h.fab.mcSince ≤ h.lcCommit ∧ ∀ p ∈ h.fab.pages, h.fab.mcSince + 1 ≤ p.2.shadowLc) ∧
  (∀ (h : Hw) n, (n < h.fab.mcSince → h.slotFor n = 1 - h.mcSlot) ∧ (h.fab.mcSince ≤ n → h.slotFor n = h.mcSlot)) ∧
  (∀ s,
      s.hw.MayWrite .secure Reg.FAB_MC_CTRL →
      s.hw.mcSpare = 0 ∨ s.hw.mcSpare = 2 →
      s.hw.fab.mcSwitch = none → exec (.mcLoad .secure) s = .next (s.onHw fun h =>
        (((h.setReg Reg.FAB_MC_STAT (word (1 * 2 ^ 37 + h.mcSlot * 2 ^ 36))).setReg Reg.FAB_MC_BUILD
          (imgBuild (s.partImage norStaging 3 0))).setFld Reg.FAB_MC_STAT Fld.FAB_MC_STAT_RESULT 0).busOk 0)) ∧
  (∀ (who : Who) s, s.hw.MayWrite who Reg.FAB_MC_CTRL → who ≠ .secure → exec (.mcLoad who) s = .next (s.onHw fun h => h.busOk 0)) ∧
  (∀ s,
      s.hw.MayWrite .secure Reg.FAB_MC_CTRL →
      s.hw.fab.mcSwitch = none →
      s.hw.mcSpare = 1 ∨ s.hw.mcSpare = 2 →
      s.hw.lc + s.hw.lead_ ≤ (s.hw.reg Reg.FAB_MC_LC).toNat → exec (.mcDeclare .secure) s = .next (s.onHw fun h =>
        (let x : Switch := { lc := (h.reg Reg.FAB_MC_LC).toNat, build := h.reg Reg.FAB_MC_BUILD, acc := h.lc, slot := 1 - h.mcSlot }
        ((({ h with fab := { h.fab with mcSwitch := some x } } : Hw).switchRecord false 2 x).mcProgress).setFld
          Reg.FAB_MC_STAT Fld.FAB_MC_STAT_RESULT 0).busOk 0)) ∧
  (∀ s,
      s.hw.MayWrite .secure Reg.FAB_MC_CTRL →
      s.hw.fab.mcSwitch = none → exec (.mcCancel .secure) s = .next (
        s.onHw fun h => h.busOk 0)) ∧
  (∀ x s,
      s.hw.MayWrite .secure Reg.FAB_MC_CTRL →
      s.hw.fab.mcSwitch = some x →
      s.hw.mcSpare ≠ 3 →
      s.hw.upd.act = none → exec (.mcCancel .secure) s = .next (s.onHw fun h =>
        (let h := ({ h with fab := { h.fab with mcSwitch := none } } : Hw).switchRecord true 2 x
        h.setFld Reg.FAB_MC_STAT Fld.FAB_MC_STAT_RESULT 4).busOk 0)) ∧
  (∀ (r : Fin 16) s, s.hw.islandOn r = true → s.hw.mcSpare = 1 →
      Ends (.microcodeSlotLoaded r) s fun t =>
        t = (s.onHw fun h => ((h.reloadSlot r (1 - h.mcSlot)).slotHeld r).mcProgress) ∧
        t.hw.bit Reg.FAB_MC_STAT (16 + r.val) = true ∧ t.hw.mcSlot = s.hw.mcSlot ∧ t.hw.lc = s.hw.lc ∧
        ((∀ x, x ∈ s.hw.poweredRidges → x = r.val ∨ s.hw.bit Reg.FAB_MC_STAT (16 + x) = true) → t.hw.mcSpare = (if s.hw.fab.mcSwitch.isSome then 3 else 2))) ∧
  (∀ x s,
      s.hw.fab.mcSwitch = some x →
      x.lc ≤ s.hw.lc →
      s.hw.spareLoaded = true → exec (.microcodeSwitch) s = .next (s.onHw fun h =>
        let old := h.builds.fmc
        let slot := 1 - h.mcSlot
        let h := ({ h with fab := { h.fab with mcSwitch := none, mcSince := x.lc }, builds := { h.builds with fmc := x.build } } : Hw)
        let h := (h.setFld Reg.FAB_STAT Fld.FAB_STAT_MC_SLOT slot).setFld Reg.FAB_MC_STAT Fld.FAB_MC_STAT_IN_FORCE slot
        (h.setFld Reg.FAB_MC_STAT Fld.FAB_MC_STAT_SPARE 4).setReg Reg.FAB_MC_BUILD old)) ∧
  (∀ s, s.hw.fab.mcSwitch = none → exec (.microcodeSwitch) s = .next (s)) ∧
  (∀ x s,
      s.hw.fab.mcSwitch = some x →
      x.lc ≤ s.hw.lc + 1 →
      s.hw.spareLoaded = false →
      Ends (.switchCancel true) s fun t =>
        t = (s.onHw fun h => h.cancelMc) ∧
        t.hw.fab.mcSwitch = none ∧ t.hw.fld Reg.FAB_MC_STAT Fld.FAB_MC_STAT_RESULT = 4 ∧ t.hw.mcSlot = s.hw.mcSlot ∧
        t.hw.builds = s.hw.builds ∧ (s.hw.mcSpare = 3 → t.hw.mcSpare = 2)) ∧
  (∀ s, s.hw.spareLoaded = true → exec (.switchCancel true) s = .next (s)) ∧
  (∀ x s,
      s.hw.fab.cfgSwitch = some x →
      s.hw.upd.heldCfg = none →
      s.hw.upd.act = none → exec (.switchCancel false) s = .next (
        s.onHw fun h => ({ h with fab := { h.fab with cfgSwitch := none } } : Hw).switchRecord true 1 x)) ∧
  (∀ s, s.hw.fab.cfgSwitch = none → exec (.configSwitch) s = .next (s)) ∧
  (∀ x w0 s,
      s.hw.fab.cfgSwitch = some x →
      s.hw.upd.heldCfg = some w0 →
      x.lc ≤ s.hw.lc →
      s.hw.norOn = true →
      Ends (.configSwitch) s fun t =>
        t = (let b := decide (x.slot = 1)
          let old := s.cfgWords s.hw.pwr.slotB
          let t := ({ s with nor := s.nor.program (configBase b) w0 } : State).takeCfg b
          let new := t.cfgWords b
          let cal := (Config.cfgCal new).filter fun e => !((Config.cfgCal old).contains e)
          (t.changedRegs old new).onHw fun (h : Hw) =>
            let h : Hw := { h with
              snp := { h.snp with cal := cal.foldl (fun (t : Tab Word) (e : Nat × Word) => Tabs.set (fun _ => (0 : Word)) t e.1 e.2) h.snp.cal }
              lsi := { h.lsi with declared := Config.cfgLoads new }
              cfg := { h.cfg with rings := s.hw.cfg.rings, worlds := s.hw.cfg.worlds }
              fab := { h.fab with cfgSwitch := none } }
            let h : Hw := h.onUpd fun u => { u with heldCfg := none }
            (if h.upd.act.any fun (a : Activation) => a.type == 5 then h.endActivation 0 else h).revokeSessions) ∧
        t.hw.fab.cfgSwitch = none ∧ t.hw.upd.heldCfg = none ∧ t.hw.cfg.rings = s.hw.cfg.rings ∧ t.hw.cfg.worlds = s.hw.cfg.worlds ∧
        t.fuse = s.fuse ∧ t.hw.lc = s.hw.lc)

/-- With no operation in progress and LG_READY set, a lifecycle transition, a key program, a revoke that leaves an owner
key, a raise to at most 64 and the debug lock each start with RESULT OK and the staged data; KEY0 is never revoked,
and one in progress is BUSY. When the operation is done, the hash and VALID, the revoke bit, the field, or the lock
are blown, a lifecycle transition applies at the next reset, and nothing is in progress. ARB_RAISE below Full changes
nothing; at Full in PRODUCT or RETIRED each field rises to the ARB of the proven image in force. (R697, R706, R707,
R708, R709, R713) -/
def Obligations.FuseOperationsStartFinishAndRaise : Prop :=
  (∀ (who : Who) (sel : Fin 4) s,
      s.hw.MayWrite who Reg.FUSE_PROG →
      s.hw.upd.fuseOp = none →
      s.hw.bit Reg.PWR_VHOLD 16 = true →
      s.lifecycleRefusal sel = 0 → exec (.fuseLifecycle who sel) s = .next (
        ((s.onHw fun h => h.busOk 0).onHw fun h => h.setFld Reg.FUSE_STAT Fld.FUSE_STAT_RESULT 0).onHw fun h =>
        h.onUpd fun u => { u with fuseOp := some { op := 1, sel := sel.val, data := s.progData } })) ∧
  (∀ (who : Who) (sel : Fin 4) s,
      s.hw.MayWrite who Reg.FUSE_PROG →
      s.hw.upd.fuseOp = none →
      s.hw.bit Reg.PWR_VHOLD 16 = true →
      s.fuse.keyValid.getLsbD sel = false → exec (.fuseKeyProgram who sel) s = .next (
        ((s.onHw fun h => h.busOk 0).onHw fun h => h.setFld Reg.FUSE_STAT Fld.FUSE_STAT_RESULT 0).onHw fun h =>
        h.onUpd fun u => { u with fuseOp := some { op := 2, sel := sel.val, data := s.progData } })) ∧
  (∀ (who : Who) (sel : Fin 4) s,
      s.hw.MayWrite who Reg.FUSE_PROG →
      s.hw.upd.fuseOp = none →
      s.hw.bit Reg.PWR_VHOLD 16 = true →
      sel.val ≠ 0 →
      (∃ k, (k = 1 ∨ k = 2 ∨ k = 3) ∧ k ≠ sel.val ∧ s.fuse.keyGood k = true) → exec (.fuseKeyRevoke who sel) s = .next (
        ((s.onHw fun h => h.busOk 0).onHw fun h => h.setFld Reg.FUSE_STAT Fld.FUSE_STAT_RESULT 0).onHw fun h =>
        h.onUpd fun u => { u with fuseOp := some { op := 3, sel := sel.val, data := s.progData } })) ∧
  (∀ (who : Who) (sel : Fin 4) s,
      s.hw.MayWrite who Reg.FUSE_PROG →
      s.hw.upd.fuseOp = none →
      s.hw.bit Reg.PWR_VHOLD 16 = true →
      State.arbField s.fuse sel < bitsOf (s.hw.reg (Reg.FUSE_PROG_DATA 0)) 6 0 →
      bitsOf (s.hw.reg (Reg.FUSE_PROG_DATA 0)) 6 0 ≤ 64 → exec (.fuseRaiseField who sel) s = .next (
        ((s.onHw fun h => h.busOk 0).onHw fun h => h.setFld Reg.FUSE_STAT Fld.FUSE_STAT_RESULT 0).onHw fun h =>
        h.onUpd fun u => { u with fuseOp := some { op := 4, sel := sel.val, data := s.progData } })) ∧
  (∀ (who : Who) s,
      s.hw.MayWrite who Reg.FUSE_PROG →
      s.hw.upd.fuseOp = none →
      s.hw.bit Reg.PWR_VHOLD 16 = true → exec (.fuseDbgLock who) s = .next (
        ((s.onHw fun h => h.busOk 0).onHw fun h => h.setFld Reg.FUSE_STAT Fld.FUSE_STAT_RESULT 0).onHw fun h =>
        h.onUpd fun u => { u with fuseOp := some { op := 5, sel := 0, data := s.progData } })) ∧
  (∀ (who : Who) s,
      s.hw.MayWrite who Reg.FUSE_PROG →
      s.hw.upd.fuseOp = none →
      s.hw.bit Reg.PWR_VHOLD 16 = true → exec (.fuseKeyRevoke who 0) s = .next (
        (s.onHw fun h => h.busOk 0).onHw fun h => h.setFld Reg.FUSE_STAT Fld.FUSE_STAT_RESULT 1)) ∧
  (∀ (who : Who) sel x s, s.hw.MayWrite who Reg.FUSE_PROG → s.hw.upd.fuseOp = some x → exec (.fuseRaiseField who sel) s = .next (
        (s.onHw fun h => h.busOk 0).onHw fun h => h.setFld Reg.FUSE_STAT Fld.FUSE_STAT_RESULT 3)) ∧
  (∀ k d s, s.hw.upd.fuseOp = some { op := 2, sel := k, data := d } → exec (.fuseProgDone true) s = .next (
        (({ s with fuse := { State.setHash s.fuse k (d.zipIdx.map fun x => if x.2 = 6 then withBits x.1 23 0 0 else x.1) with
          keyValid := s.fuse.keyValid ||| BitVec.twoPow 4 k } } : State).onHw fun h => h.setFld Reg.FUSE_STAT Fld.FUSE_STAT_RESULT 0).onHw fun h =>
        h.onUpd fun u => { u with fuseOp := none })) ∧
  (∀ k d s, s.hw.upd.fuseOp = some { op := 3, sel := k, data := d } → exec (.fuseProgDone true) s = .next (
        (({ s with fuse := { s.fuse with revoked := s.fuse.revoked ||| BitVec.twoPow 4 k } } : State).onHw fun h => h.setFld Reg.FUSE_STAT Fld.FUSE_STAT_RESULT 0).onHw fun h =>
        h.onUpd fun u => { u with fuseOp := none })) ∧
  (∀ k d s, s.hw.upd.fuseOp = some { op := 4, sel := k, data := d } → exec (.fuseProgDone true) s = .next (
        (({ s with fuse := State.setArb s.fuse k (bitsOf (d.getD 0 0) 6 0) } : State).onHw fun h => h.setFld Reg.FUSE_STAT Fld.FUSE_STAT_RESULT 0).onHw fun h =>
        h.onUpd fun u => { u with fuseOp := none })) ∧
  (∀ k d s, s.hw.upd.fuseOp = some { op := 5, sel := k, data := d } → exec (.fuseProgDone true) s = .next (
        (({ s with fuse := { s.fuse with dbgLock := true } } : State).onHw fun h => h.setFld Reg.FUSE_STAT Fld.FUSE_STAT_RESULT 0).onHw fun h =>
        h.onUpd fun u => { u with fuseOp := none })) ∧
  (∀ k d s, s.hw.upd.fuseOp = some { op := 1, sel := k, data := d } → exec (.fuseProgDone true) s = .next (
        ((s.onHw fun h => h.onUpd fun u => { u with lifecycleNext := some k }).onHw fun h => h.setFld Reg.FUSE_STAT Fld.FUSE_STAT_RESULT 0).onHw
        fun h => h.onUpd fun u => { u with fuseOp := none })) ∧
  (∀ ok s, s.hw.upd.fuseOp = none → exec (.fuseProgDone ok) s = .next (s)) ∧
  (∀ s, s.hw.level ≠ 3 → exec (.arbRaise) s = .next (s)) ∧
  (∀ s,
      s.hw.level = 3 →
      2 ≤ s.fuse.lifecycle →
      s.hw.bit Reg.PWR_VHOLD 16 = true → exec (.arbRaise) s = .next (
        let arb := fun (t : Nat) =>
          let w := s.inForce t
          let base := Tabs.get (fun _ => 0) s.hw.upd.inForce t
          if t = 5 then (if s.hw.pwr.configured then imgArb w else 0)
          else if base = 0 ∨ base - 1 < norActive ∨ (norStaging ≤ base - 1 ∧ w 63 ≠ markProven) then 0 else imgArb w
        ({ s with fuse := { s.fuse with
            arb0 := max s.fuse.arb0 (max (arb 1) (arb 2)), arb1 := max s.fuse.arb1 (arb 3), arb2 := max s.fuse.arb2 (arb 4),
            arb3 := max s.fuse.arb3 (arb 5) } } : State)))

/-- The oldest trip frame is sent again until its third time. A peer frame of the plant, from a declared neighbour, is
taken once by its SEQ; a repetition changes nothing and any other is counted as undeclared. A TRIP sets the bit of its
group. PLANT_TRIP_CLEAR needs a role, and is refused with STATE within 3 ms of a frame. A status of the partner is
held, and lapses after two cycles. The summary of a child is held for its cycle if it comes in time, and the summaries
that are then complete go out; at SI(n + 5) the summary of the committed cycle n is made, kept at the summit and sent
to the parent elsewhere. (R716, R718, R720, R721, R723, R724, R725, R728, R729) -/
def Obligations.PeersTripReportAndSummarise : Prop :=
  (∀ s, s.hw.grd.trips = [] → exec (.treeTripRepeat) s = .next (s)) ∧
  (∀ e r l s, s.hw.grd.trips = (e, r) :: l →
      Ends (.treeTripRepeat) s fun t =>
        t = (s.onHw fun h =>
          let x := h.sendTrip e r
          ({ x with grd := { x.grd with trips := if r < 2 then l ++ [(e, r + 1)] else l } } : Hw)) ∧
        t.hw.grd.trips = (if r < 2 then l ++ [(e, r + 1)] else l) ∧ s.hw.out.length ≤ t.hw.out.length) ∧
  (∀ (hdr : PeerHdr) (group : Byte) s,
      s.hw.sysOn = true →
      s.hw.inTree = true →
      hdr.declared = true ∧ hdr.version = 1 ∧ hdr.tag.toNat = s.hw.cfg.plantTag ∧ (hdr.dst.toNat = s.hw.cfg.deviceId ∨ hdr.dst.toNat = 0xFFFF) →
      (Tabs.get (fun _ => ([] : List Nat)) s.hw.peerSeen (8 * hdr.src.toNat + 1)).contains hdr.seq.toNat = false →
      Ends (.peerTripReceive hdr group) s fun t =>
        t = (s.onHw fun h =>
          let seen := Tabs.get (fun _ => ([] : List Nat)) h.peerSeen (8 * hdr.src.toNat + 1)
          let h : Hw := { h with peerSeen := Tabs.set (fun _ => ([] : List Nat)) h.peerSeen (8 * hdr.src.toNat + 1) ((hdr.seq.toNat :: seen).take 16) }
          h.takeTrip group.toNat) ∧
        t.hw.tripRecent group.toNat = true ∧ t.hw.lc = s.hw.lc ∧
        (∀ b, s.hw.groupBit group.toNat = some b → b < 8 → t.hw.bit Reg.GRD_CRS_TRIP b = true)) ∧
  (∀ (hdr : PeerHdr) (group : Byte) s,
      s.hw.sysOn = true →
      s.hw.inTree = true →
      hdr.declared = true ∧ hdr.version = 1 ∧ hdr.tag.toNat = s.hw.cfg.plantTag ∧ (hdr.dst.toNat = s.hw.cfg.deviceId ∨ hdr.dst.toNat = 0xFFFF) →
      (Tabs.get (fun _ => ([] : List Nat)) s.hw.peerSeen (8 * hdr.src.toNat + 1)).contains hdr.seq.toNat = true → exec (.peerTripReceive hdr group) s = .next (
        s)) ∧
  (∀ (hdr : PeerHdr) (group : Byte) s,
      s.hw.sysOn = true →
      s.hw.inTree = true →
      (hdr.declared = false ∨ hdr.version ≠ 1 ∨ hdr.tag.toNat ≠ s.hw.cfg.plantTag) → exec (.peerTripReceive hdr group) s = .next (
        s.onHw fun h => (h.peerCountUp 2).undeclare 11)) ∧
  (∀ (role : Fin 5) (mask : Byte) s,
      s.hw.servedPath ≠ none →
      s.hw.inTree = true →
      1 ≤ role.val →
      s.hw.crestOn = true →
      (Hw.groupsOf mask.toNat).any s.hw.tripRecent = true → exec (.plantTripClear role mask) s = .next (
        s.onHw fun h => h.answer stState)) ∧
  (∀ (role : Fin 5) (mask : Byte) s,
      s.hw.servedPath ≠ none →
      s.hw.inTree = true →
      1 ≤ role.val →
      s.hw.crestOn = true →
      (Hw.groupsOf mask.toNat).any s.hw.tripRecent = false →
      Ends (.plantTripClear role mask) s fun t =>
        t = (s.onHw fun h =>
          (h.setCrsTrip ((Hw.groupsOf mask.toNat).foldl (fun n g => match h.groupBit g with
            | some b => clearBitN n b
            | none => n) (h.reg Reg.GRD_CRS_TRIP).toNat)).answer stOk) ∧
        t.hw.status = stOk ∧
        (∀ g ∈ Hw.groupsOf mask.toNat, ∀ b, s.hw.groupBit g = some b → b < 8 → t.hw.bit Reg.GRD_CRS_TRIP b = false)) ∧
  (∀ (role : Fin 5) (mask : Byte) s, s.hw.servedPath ≠ none → s.hw.inTree = true → role.val = 0 → exec (.plantTripClear role mask) s = .next (
        s.onHw fun h => h.answer stNoAccess)) ∧
  (∀ (k : Fin 16) (hdr : PeerHdr) (flags breakA breakB : Byte) s,
      s.hw.sysOn = true →
      s.hw.isPartner k hdr = true →
      hdr.declared = true ∧ hdr.version = 1 ∧ hdr.tag.toNat = s.hw.cfg.plantTag ∧ (hdr.dst.toNat = s.hw.cfg.deviceId ∨ hdr.dst.toNat = 0xFFFF) →
      (Tabs.get (fun _ => ([] : List Nat)) s.hw.peerSeen (8 * hdr.src.toNat + 4)).contains hdr.seq.toNat = false → exec (.peerStatusReceive k hdr flags breakA breakB) s = .next (s.onHw fun h =>
        let seen := Tabs.get (fun _ => ([] : List Nat)) h.peerSeen (8 * hdr.src.toNat + 4)
        let h : Hw := { h with peerSeen := Tabs.set (fun _ => ([] : List Nat)) h.peerSeen (8 * hdr.src.toNat + 4) ((hdr.seq.toNat :: seen).take 16) }
        h.onRing k fun r =>
          { r with partner := word (flags.toNat * 2 ^ 32 + breakA.toNat * 2 ^ 24 + breakB.toNat * 2 ^ 16)
                   partnerOk := if flags.getLsbD 0 then some h.lc else r.partnerOk })) ∧
  (∀ (k : Fin 16) (hdr : PeerHdr) (flags breakA breakB : Byte) s, s.hw.sysOn = true → s.hw.isPartner k hdr = false → exec (.peerStatusReceive k hdr flags breakA breakB) s = .next (
        s.onHw fun h => (h.peerCountUp 2).undeclare 11)) ∧
  (∀ (k : Fin 16) n s, (s.hw.ring k).partnerOk = some n → n + 2 ≤ s.hw.lc → exec (.partnerStatusLapse k) s = .next (
        s.onHw fun h => (h.onRing k fun r => { r with partnerOk := none }).peerCountUp 4)) ∧
  (∀ (k : Fin 16) s, (s.hw.ring k).partnerOk = none → exec (.partnerStatusLapse k) s = .next (s)) ∧
  (∀ (hdr : PeerHdr) (body : List Byte) s,
      s.hw.sysOn = true →
      s.hw.inTree = true →
      s.hw.children.contains hdr.src.toNat = true →
      hdr.declared = true ∧ hdr.version = 1 ∧ hdr.tag.toNat = s.hw.cfg.plantTag ∧ (hdr.dst.toNat = s.hw.cfg.deviceId ∨ hdr.dst.toNat = 0xFFFF) →
      (Tabs.get (fun _ => ([] : List Nat)) s.hw.peerSeen (8 * hdr.src.toNat + 5)).contains hdr.seq.toNat = false →
      60 ≤ body.length →
      s.hw.lc ≤ beNat (body.take 5) + 5 →
      Ends (.peerSummaryReceive hdr body) s fun t =>
        t = (s.onHw fun h =>
          let seen := Tabs.get (fun _ => ([] : List Nat)) h.peerSeen (8 * hdr.src.toNat + 5)
          let h : Hw := { h with peerSeen := Tabs.set (fun _ => ([] : List Nat)) h.peerSeen (8 * hdr.src.toNat + 5) ((hdr.seq.toNat :: seen).take 16) }
          let subs := h.tree.subs.filter fun x => decide (h.lc ≤ x.1 / 65536 + 64)
          let subs := Tabs.set (fun _ => ([] : List Byte)) subs (beNat (body.take 5) * 65536 + hdr.src.toNat) (body.take 60)
          ({ h with tree := { h.tree with subs := subs } } : Hw).summaries) ∧
        Tabs.get (fun _ => ([] : List Byte)) t.hw.tree.subs (beNat (body.take 5) * 65536 + hdr.src.toNat) = body.take 60 ∧ t.hw.lc = s.hw.lc) ∧
  (∀ n s,
      s.hw.nextCycle (max s.hw.tree.sent s.hw.firstOwed) = n →
      s.hw.sysOn = true →
      s.hw.inTree = true →
      (s.hw.vmSlot 0).state = .running →
      s.hw.carriesInputs n = true →
      n ≤ s.hw.lcCommit →
      n + 5 ≤ s.hw.lc →
      s.hw.cfg.role = 0 →
      Ends (.summaryDeadline) s fun t =>
        t = (s.onHw fun h => ({ h with tree := { h.tree with total := h.summaryBody n, sent := n + 1 } } : Hw)) ∧
        t.hw.tree.sent = n + 1 ∧ t.hw.tree.total.take 5 = beBytes 5 n) ∧
  (∀ n s,
      s.hw.nextCycle (max s.hw.tree.sent s.hw.firstOwed) = n →
      s.hw.sysOn = true →
      s.hw.inTree = true →
      (s.hw.vmSlot 0).state = .running →
      s.hw.carriesInputs n = true →
      n ≤ s.hw.lcCommit →
      n + 5 ≤ s.hw.lc →
      s.hw.cfg.role ≠ 0 →
      Ends (.summaryDeadline) s fun t =>
        t = (s.onHw fun h => ({ h with tree := { h.tree with total := h.summaryBody n, sent := n + 1 } } : Hw).sendSummary (h.summaryBody n)) ∧
        t.hw.tree.sent = n + 1 ∧ t.hw.tree.total.take 5 = beBytes 5 n) ∧
  (∀ n s,
      s.hw.nextCycle (max s.hw.tree.sent s.hw.firstOwed) = n →
      s.hw.lc < n + 5 → exec (.summaryDeadline) s = .next (s))

/-- A read that the domain and the firewall allow returns the word of the register and has its effect on read; one of a
block that is off, or of no address, ends with the error response, and a denied one is recorded. A write of a register
without an effect of its own sets its RW bits to the word, clears W1C and sets W1S bits where the word has a 1, leaves
every other bit, and no other register changes; a read clears exactly the RC bits. A write of RAM stores the word with
the tag of the cycle and a sound container, and every other container stays. (R9, R11, R12, R13, R145, R149, R153,
R155, R505, R506) -/
def Obligations.RegistersReadAndWriteByTheirAccessCode : Prop :=
  (∀ (h : Hw) a (v : Word) c (i : Nat), cardOf a = some c → c.legal = [] → i < 40 →
      ((h.plain a v).reg a).getLsbD i =
        (if bitN c.w1s i = true ∧ v.getLsbD i = true then true
         else if bitN c.w1c i = true ∧ v.getLsbD i = true then false
         else if bitN c.rw i = true then v.getLsbD i else (h.reg a).getLsbD i)) ∧
  (∀ (h : Hw) a v b, b ≠ a → (h.plain a v).reg b = h.reg b) ∧
  (∀ (h : Hw) who a c (i : Nat), cardOf a = some c → i < 40 →
      ((h.clearRc who a c.rc).reg a).getLsbD i = ((h.reg a).getLsbD i && !bitN c.rc i)) ∧
  (∀ (h : Hw) a v, (h.writeRam a v).ram a = { data := v, tag := h.tagNow, poisoned := false }) ∧
  (∀ (h : Hw) a v b, b ≠ a → (h.writeRam a v).ram b = h.ram b) ∧
  (∀ (who : Who) (a : BitVec 34) s,
      regionOf a.toNat = .peripheral →
      s.hw.regOn a.toNat = true →
      s.hw.regAllows who false a.toNat = true →
      Hw.loPair a.toNat = none →
      a.toNat ≠ Reg.TIME_CAP_INFO →
      Ends (.readClearCounter who a) s fun t =>
        t = (s.onHw fun h => (h.readEffect who a.toNat).busOk (s.regView who a.toNat)) ∧
        t.hw.bus = s.regView who a.toNat ∧ t.hw.busErr = false ∧ t.hw.mem = s.hw.mem ∧ t.hw.lc = s.hw.lc) ∧
  (∀ (who : Who) (a : BitVec 34) s, regionOf a.toNat = .peripheral → s.hw.regOn a.toNat = false → exec (.readClearCounter who a) s = .next (
        s.onHw fun h => h.busError)) ∧
  (∀ (who : Who) (a : BitVec 34) s,
      regionOf a.toNat = .peripheral →
      s.hw.regOn a.toNat = true →
      s.hw.regAllows who false a.toNat = false → exec (.readClearCounter who a) s = .next (
        s.onHw fun h => (h.deny who false a.toNat).busError)) ∧
  (∀ (who : Who) (a : BitVec 34) w s,
      regionOf a.toNat ≠ .peripheral →
      s.hw.memAllows who false a.toNat = true →
      s.memRead a.toNat = .ok w → exec (.readClearCounter who a) s = .next (
        s.onHw fun h => h.busOk w)) ∧
  (∀ (who : Who) (a : BitVec 34) s,
      regionOf a.toNat = .unmapped →
      s.hw.memAllows who false a.toNat = true → exec (.readClearCounter who a) s = .next (
        s.onHw fun h => h.busError)) ∧
  (∀ (who : Who) (a : BitVec 34) (v : Word) s, regionOf a.toNat = .peripheral → s.hw.regOn a.toNat = false → exec (.registerWrite who a v) s = .next (
        s.onHw fun h => h.busError)) ∧
  (∀ (who : Who) (a : BitVec 34) (v : Word) s,
      regionOf a.toNat = .peripheral →
      s.hw.regOn a.toNat = true →
      s.hw.regAllows who true a.toNat = false → exec (.registerWrite who a v) s = .next (
        s.onHw fun h => (h.deny who true a.toNat).busError)) ∧
  (∀ (who : Who) (a : BitVec 34) (v : Word) s,
      regionOf a.toNat = .peripheral →
      a.toNat / 0x10000 = 0x1001 ∨ a.toNat / 0x10000 = 0x10F0 →
      s.hw.regOn a.toNat = true →
      s.hw.regAllows who true a.toNat = true → exec (.registerWrite who a v) s = .next (
        s.onHw fun h => (h.plain a.toNat v).busOk 0)) ∧
  (∀ (who : Who) (a : BitVec 34) (v : Word) s,
      regionOf a.toNat ≠ .peripheral →
      s.hw.memAllows who true a.toNat = true →
      s.hw.storable a.toNat = true → exec (.registerWrite who a v) s = .next (
        s.onHw fun h => (h.writeRam a.toNat v).busOk 0)) ∧
  (∀ (who : Who) (a : BitVec 34) (v : Word) s,
      regionOf a.toNat ≠ .peripheral →
      s.hw.memAllows who true a.toNat = true →
      s.hw.storable a.toNat = false → exec (.registerWrite who a v) s = .next (
        s.onHw fun h => h.busError))

/-- With a command c at the front of the queue, step is exec of c on the state with the rest of the queue; with no command
waiting it answers the same state. That an empty queue idles is the choice of the model (log entry 5). (R9) -/
def Obligations.StepCarriesOutTheCommandAtTheFront : Prop :=
  (∀ (c : Instr) rest (s : State), step { s with pending := c :: rest } = exec c { s with pending := rest }) ∧
  (∀ s : State, s.pending = [] → step s = .next s)

/-- For every state: if a step answers a next state, its queue is the queue without its first command; no effect of any
command adds, drops or reorders a waiting one. The queue is the means of the model by which commands reach the block
(log entry 5). (R9) -/
def Obligations.TheQueueIsFirstInFirstOut : Prop :=
  ∀ s t : State, step s = .next t → t.pending = s.pending.tail

/-- For every state: if a step answers a next state, its lifecycle and its four anti-rollback fields are at least what
they were, every key that was VALID or revoked is so still, and DBG_LOCK stays blown. (R697, R706, R708, R709, R713) -/
def Obligations.ProgrammedFusesStayProgrammed : Prop :=
  ∀ s t : State, step s = .next t → s.fuse.Le t.fuse

/-- For every state whose NOR flash lists its words with strictly rising addresses, none equal to what an unlisted word
reads as (erased, or what an abort left undefined): if a step answers a next state, its flash has that form. (R157,
R160) -/
def Obligations.TheFlashKeepsItsCanonicalForm : Prop :=
  ∀ s t : State, Nor.wf s.nor = true → step s = .next t → Nor.wf t.nor = true

/-- The state after reset: every register of the map reads as its card gives it, the clock increment and the servo gains
among them; Crest cores hold STATUS 1 and application cores STATUS 3; RAM, flash and registers are in their canonical
form; every VM slot is EMPTY; no fuse is programmed (blank fuses are the choice of the model, log entry 4) and no
command waits. (R612, R514, R335, R348, R157, R706, R708) -/
def Obligations.ResetLeavesTheSpecifiedValues : Prop :=
  (∀ a, State.reset.hw.reg a = regReset a) ∧ regReset Reg.TIME_INC = 0x0800000000 ∧ regReset Reg.TIME_SERVO = 0x0020000040 ∧
  (∀ k, (State.reset.hw.crestCore k).status = 1 ∧ (State.reset.hw.appCore k).status = 3) ∧
  (∀ v, (State.reset.hw.vmSlot v).state = .empty) ∧
  Memory.wf State.reset.hw.mem = true ∧ Nor.wf State.reset.nor = true ∧ State.reset.hw.regsWf = true ∧
  State.reset.fuse.lifecycle = 0 ∧ State.reset.fuse.keyValid = 0 ∧ State.reset.fuse.revoked = 0 ∧ State.reset.fuse.dbgLock = false ∧
  State.reset.pending = [] ∧ State.reset.warm = none

/-- For any effect that a register write or read would have: where the domain is on and the firewall denies the identity,
WLD_CNT_DENY rises by 1 up to its limit, WLD_DENY_ADDR names the address and direction, WLD_DENY_WHO the identity, the
response is an error with the word 0, and no other register, no RAM and no core changes. Until the firewall is armed
only Crest passes. A memory address in no region is denied to every identity but the system. (R505, R506, R508, R509,
R155) -/
def Obligations.DeniedAccessesAreCountedAndChangeNothingElse : Prop :=
  (∀ (h : Hw) who write a, h.blockOn (blockOf a) = true → h.blockAllows who write (blockOf a) = false →
      ∃ d : Hw,
        ((∀ f, write = true → h.guarded who a f = d) ∧ (∀ f, write = false → h.guardedRead who a f = d)) ∧
        d.busErr = true ∧ d.bus = 0 ∧
        (d.reg Reg.WLD_CNT_DENY).toNat = min ((h.reg Reg.WLD_CNT_DENY).toNat + 1) 0xFFFFFFFFFF ∧
        bitN (d.reg Reg.WLD_DENY_ADDR).toNat 39 = true ∧ bitN (d.reg Reg.WLD_DENY_ADDR).toNat 38 = write ∧
        bitsOf (d.reg Reg.WLD_DENY_ADDR) 33 0 = a % 2 ^ 34 ∧
        (who ≠ .system → (d.reg Reg.WLD_DENY_WHO).toNat = whoBit who) ∧
        (∀ b, b ≠ Reg.WLD_CNT_DENY → b ≠ Reg.WLD_DENY_ADDR → b ≠ Reg.WLD_DENY_WHO → d.reg b = h.reg b) ∧
        { d with regs := h.regs, bus := h.bus, busErr := h.busErr } = h) ∧
  (∀ (h : Hw) who write b, who ≠ .system → who ≠ .crest → h.bit Reg.WLD_CTRL 0 = false → h.blockAllows who write b = false) ∧
  (∀ (h : Hw) who write a, who ≠ .system → h.bit Reg.WLD_CTRL 0 = true → (∀ i, i < 64 → h.fwRegionHolds i a = false) →
      h.memAllows who write a = false) ∧
  (∀ (h : Hw) who write a i, who ≠ .system → h.bit Reg.WLD_CTRL 0 = true → i < 64 → h.fwRegionHolds i a = true →
      (∀ j, j < i → h.fwRegionHolds j a = false) →
      h.memAllows who write a = bitN (if write then bitsOf (h.reg (Reg.WLD_RGN_ACC i)) 19 0 else bitsOf (h.reg (Reg.WLD_RGN_ACC i)) 39 20) (whoBit who))

/-- For every command c and every state s there is a next state t with exec c s = next t: no form is refused, none ends in
a fault. What t holds is what the other statements say, command by command. (R9) -/
def Obligations.EveryCommandAnswersANextState : Prop :=
  ∀ (c : Instr) (s : State), ∃ t, exec c s = .next t
end

