-- ==== Sys2Proof/Laws/Tab.lean ====
section
/-! SUPPORT. The laws of sparse tables: a read after a write, and the canonical form is kept. -/

namespace Sys2Proof.Laws

open Sys2Proof.Machine

variable {α : Type}

/-- A key above which a table begins is not listed. -/
theorem get_of_risingFrom (d : Nat → α) (t : Tab α) (b k : Nat) (h : Tabs.risingFrom b t = true) (hk : k < b) :
    Tabs.get d t k = d k := by
  induction t generalizing b with
  | nil => rfl
  | cons e t ih =>
    obtain ⟨j, v⟩ := e
    simp only [Tabs.risingFrom, Bool.and_eq_true, decide_eq_true_eq] at h
    have h1 : k ≠ j := by omega
    simp [Tabs.get, h1, ih (j + 1) h.2 (by omega)]

theorem risingFrom_mono (t : Tab α) (b c : Nat) (hbc : c ≤ b) (h : Tabs.risingFrom b t = true) :
    Tabs.risingFrom c t = true := by
  cases t with
  | nil => rfl
  | cons e t =>
    obtain ⟨j, v⟩ := e
    simp only [Tabs.risingFrom, Bool.and_eq_true, decide_eq_true_eq] at h ⊢
    exact ⟨by omega, h.2⟩

theorem get_put_same (d : Nat → α) (t : Tab α) (k : Nat) (v : α) : Tabs.get d (Tabs.put t k v) k = v := by
  induction t with
  | nil => simp [Tabs.put, Tabs.get]
  | cons e t ih =>
    obtain ⟨j, w⟩ := e
    by_cases h1 : k = j
    · simp [Tabs.put, Tabs.get, h1]
    · by_cases h2 : k < j
      · simp [Tabs.put, Tabs.get, h1, h2]
      · simp [Tabs.put, Tabs.get, h1, h2, ih]

theorem get_put_ne (d : Nat → α) (t : Tab α) (k x : Nat) (v : α) (hx : x ≠ k) :
    Tabs.get d (Tabs.put t k v) x = Tabs.get d t x := by
  induction t with
  | nil => simp [Tabs.put, Tabs.get, hx]
  | cons e t ih =>
    obtain ⟨j, w⟩ := e
    by_cases h1 : k = j
    · subst h1; simp [Tabs.put, Tabs.get, hx]
    · by_cases h2 : k < j
      · simp [Tabs.put, Tabs.get, h1, h2, hx]
      · simp [Tabs.put, Tabs.get, h1, h2, ih]

theorem get_drop_same (d : Nat → α) (t : Tab α) (k : Nat) : Tabs.get d (Tabs.drop t k) k = d k := by
  induction t with
  | nil => rfl
  | cons e t ih =>
    obtain ⟨j, w⟩ := e
    by_cases h1 : j = k
    · subst h1; simpa [Tabs.drop] using ih
    · have h2 : ¬ k = j := fun h => h1 h.symm
      have h3 : Tabs.drop ((j, w) :: t) k = (j, w) :: Tabs.drop t k := by simp [Tabs.drop, h1]
      simp [h3, Tabs.get, h2, ih]

theorem get_drop_ne (d : Nat → α) (t : Tab α) (k x : Nat) (hx : x ≠ k) :
    Tabs.get d (Tabs.drop t k) x = Tabs.get d t x := by
  induction t with
  | nil => rfl
  | cons e t ih =>
    obtain ⟨j, w⟩ := e
    by_cases h1 : j = k
    · subst h1
      have h3 : Tabs.drop ((j, w) :: t) j = Tabs.drop t j := by simp [Tabs.drop]
      simp [h3, Tabs.get, hx, ih]
    · have h3 : Tabs.drop ((j, w) :: t) k = (j, w) :: Tabs.drop t k := by simp [Tabs.drop, h1]
      simp [h3, Tabs.get, ih]

section
variable [DecidableEq α]

/-- A read after a write to the same key gives the value written. -/
@[simp] theorem get_set_same (d : Nat → α) (t : Tab α) (k : Nat) (v : α) : Tabs.get d (Tabs.set d t k v) k = v := by
  unfold Tabs.set
  split
  · rw [get_drop_same d t k]; exact Eq.symm ‹_›
  · exact get_put_same d t k v

/-- A write leaves every other key as it was. -/
theorem get_set_ne (d : Nat → α) (t : Tab α) (k x : Nat) (v : α) (hx : x ≠ k) :
    Tabs.get d (Tabs.set d t k v) x = Tabs.get d t x := by
  unfold Tabs.set
  split
  · exact get_drop_ne d t k x hx
  · exact get_put_ne d t k x v hx

omit [DecidableEq α] in
theorem risingFrom_put (t : Tab α) (b k : Nat) (v : α) (hb : b ≤ k) (hs : Tabs.risingFrom b t = true) :
    Tabs.risingFrom b (Tabs.put t k v) = true := by
  induction t generalizing b with
  | nil => simp [Tabs.put, Tabs.risingFrom, hb]
  | cons e t ih =>
    obtain ⟨j, w⟩ := e
    simp only [Tabs.risingFrom, Bool.and_eq_true, decide_eq_true_eq] at hs
    by_cases h1 : k = j
    · subst h1; simp [Tabs.put, Tabs.risingFrom, hs.1, hs.2]
    · by_cases h2 : k < j
      · simp only [Tabs.put, h1, h2, if_true, if_false, Tabs.risingFrom, hb, hs.2, decide_true, Bool.and_true, Bool.true_and]
        exact decide_eq_true (by omega)
      · simp [Tabs.put, Tabs.risingFrom, h1, h2, hs.1, ih (j + 1) (by omega) hs.2]

omit [DecidableEq α] in
theorem all_put (p : Nat × α → Bool) (t : Tab α) (k : Nat) (v : α) (hv : p (k, v) = true) (h : t.all p = true) :
    (Tabs.put t k v).all p = true := by
  induction t with
  | nil => simp [Tabs.put, hv]
  | cons e t ih =>
    obtain ⟨j, w⟩ := e
    simp only [List.all_cons, Bool.and_eq_true] at h
    unfold Tabs.put
    split
    · simp [hv, h.2]
    · split
      · simp only [List.all_cons, hv, h.1, h.2, Bool.and_self]
      · simp only [List.all_cons, h.1, ih h.2, Bool.and_self]

omit [DecidableEq α] in
theorem risingFrom_filter (p : Nat × α → Bool) (t : Tab α) (b : Nat) (hs : Tabs.risingFrom b t = true) :
    Tabs.risingFrom b (t.filter p) = true := by
  induction t generalizing b with
  | nil => rfl
  | cons e t ih =>
    obtain ⟨j, w⟩ := e
    simp only [Tabs.risingFrom, Bool.and_eq_true, decide_eq_true_eq] at hs
    rw [List.filter_cons]
    split
    · simp [Tabs.risingFrom, hs.1, ih _ hs.2]
    · exact risingFrom_mono _ _ _ (by omega) (ih _ hs.2)

omit [DecidableEq α] in
theorem risingFrom_drop (t : Tab α) (b k : Nat) (hs : Tabs.risingFrom b t = true) :
    Tabs.risingFrom b (Tabs.drop t k) = true := risingFrom_filter _ t b hs

omit [DecidableEq α] in
theorem all_drop (p : Nat × α → Bool) (t : Tab α) (k : Nat) (h : t.all p = true) : (Tabs.drop t k).all p = true := by
  rw [List.all_eq_true] at *
  intro e he
  exact h e (List.mem_filter.mp he).1

/-- A write keeps the canonical form. -/
theorem wf_set (d : Nat → α) (t : Tab α) (k : Nat) (v : α) (h : Tabs.wf d t = true) :
    Tabs.wf d (Tabs.set d t k v) = true := by
  unfold Tabs.wf at *
  rw [Bool.and_eq_true] at *
  unfold Tabs.set
  split
  · exact ⟨risingFrom_drop t 0 k h.1, all_drop _ t k h.2⟩
  · exact ⟨risingFrom_put t 0 k v (by omega) h.1, all_put _ t k v (by simpa using ‹_›) h.2⟩

/-- A change at one key keeps the canonical form. -/
theorem wf_modify (d : Nat → α) (t : Tab α) (k : Nat) (f : α → α) (h : Tabs.wf d t = true) :
    Tabs.wf d (Tabs.modify d t k f) = true := wf_set d t k _ h

/-- Dropping entries keeps the canonical form. -/
theorem wf_filter (d : Nat → α) (t : Tab α) (p : Nat × α → Bool) (h : Tabs.wf d t = true) :
    Tabs.wf d (t.filter p) = true := by
  unfold Tabs.wf at *
  rw [Bool.and_eq_true] at *
  refine ⟨risingFrom_filter p t 0 h.1, ?_⟩
  rw [List.all_eq_true] at *
  intro e he
  exact h.2 e (List.mem_filter.mp he).1

theorem wf_clear (d : Nat → α) (t : Tab α) (lo hi : Nat) (h : Tabs.wf d t = true) :
    Tabs.wf d (Tabs.clear t lo hi) = true := wf_filter d t _ h

theorem wf_keep (d : Nat → α) (t : Tab α) (lo hi : Nat) (h : Tabs.wf d t = true) :
    Tabs.wf d (Tabs.keep t lo hi) = true := wf_filter d t _ h

/-- Writing a list of keys and values keeps the canonical form. -/
theorem wf_foldl_set (d : Nat → α) (l : List (Nat × α)) (t : Tab α) (h : Tabs.wf d t = true) :
    Tabs.wf d (l.foldl (fun t e => Tabs.set d t e.1 e.2) t) = true := by
  induction l generalizing t with
  | nil => exact h
  | cons e l ih => exact ih _ (wf_set d t e.1 e.2 h)

end

end Sys2Proof.Laws
end

