-- ==== Sys2Proof/Laws/State.lean ====
section
/-! SUPPORT. The laws of State: what each update leaves as it was. -/

namespace Sys2Proof.Laws

open Sys2Proof.Machine

/-! ### A change of the hardware alone -/

@[simp] theorem onHw_hw (s : State) (f : Hw → Hw) : (s.onHw f).hw = f s.hw := rfl
@[simp] theorem onHw_pending (s : State) (f : Hw → Hw) : (s.onHw f).pending = s.pending := rfl
@[simp] theorem onHw_nor (s : State) (f : Hw → Hw) : (s.onHw f).nor = s.nor := rfl
@[simp] theorem onHw_fuse (s : State) (f : Hw → Hw) : (s.onHw f).fuse = s.fuse := rfl
@[simp] theorem onHw_warm (s : State) (f : Hw → Hw) : (s.onHw f).warm = s.warm := rfl

theorem onHw_sameStore (s : State) (f : Hw → Hw) : s.SameStore (s.onHw f) := ⟨rfl, rfl, rfl, rfl⟩

/-- A command that answers a next state ends there. -/
theorem ends_of_next {i : Instr} {s t : State} {P : State → Prop} (h : exec i s = .next t) (hp : P t) : Ends i s P := ⟨t, h, hp⟩

/-! ### Accesses from outside -/

/-- A write of a register that may happen has its effect (R155, R506). -/
theorem guarded_of_mayWrite {h : Hw} {who : Who} {a : Nat} (hw : h.MayWrite who a) (f : Hw → Hw) : h.guarded who a f = (f h).busOk 0 := by
  simp [Hw.guarded, hw.1, hw.2]

/-- A write of a register whose domain is off ends with the error response (R155). -/
theorem guarded_of_off {h : Hw} {who : Who} {a : Nat} (hb : h.blockOn (blockOf a) = false) (f : Hw → Hw) :
    h.guarded who a f = h.busError := by
  simp [Hw.guarded, hb]

/-- A write that the firewall closes is counted and recorded, and ends with the error response (R506). -/
theorem guarded_of_denied {h : Hw} {who : Who} {a : Nat} (hb : h.blockOn (blockOf a) = true)
    (ha : h.blockAllows who true (blockOf a) = false) (f : Hw → Hw) : h.guarded who a f = (h.deny who true a).busError := by
  simp [Hw.guarded, hb, ha]

/-- A read of a register that may happen returns its word. -/
theorem guardedRead_of_mayRead {h : Hw} {who : Who} {a : Nat} (hr : h.MayRead who a) (f : Hw → Hw × Word) :
    h.guardedRead who a f = (f h).1.busOk (f h).2 := by
  simp [Hw.guardedRead, hr.1, hr.2]

/-! ### Registers -/

variable (h : Hw) (a b : Nat) (v : Word)

@[simp] theorem reg_setReg_same : (h.setReg a v).reg a = v := by simp [Hw.reg, Hw.setReg]

theorem reg_setReg_ne (hb : b ≠ a) : (h.setReg a v).reg b = h.reg b := by
  simp [Hw.reg, Hw.setReg, get_set_ne _ _ _ _ _ hb]

@[simp] theorem setReg_mem : (h.setReg a v).mem = h.mem := rfl
@[simp] theorem setReg_crest : (h.setReg a v).crest = h.crest := rfl
@[simp] theorem setReg_app : (h.setReg a v).app = h.app := rfl
@[simp] theorem setReg_eng : (h.setReg a v).eng = h.eng := rfl
@[simp] theorem setReg_crs : (h.setReg a v).crs = h.crs := rfl
@[simp] theorem setReg_lc : (h.setReg a v).lc = h.lc := rfl
@[simp] theorem setReg_cycled : (h.setReg a v).cycled = h.cycled := rfl
@[simp] theorem setReg_ecc : (h.setReg a v).ecc = h.ecc := rfl
@[simp] theorem setReg_fab : (h.setReg a v).fab = h.fab := rfl
@[simp] theorem setReg_cfg : (h.setReg a v).cfg = h.cfg := rfl
@[simp] theorem setReg_tu : (h.setReg a v).tu = h.tu := rfl
@[simp] theorem setReg_xlat : (h.setReg a v).xlat = h.xlat := rfl
@[simp] theorem setReg_vms : (h.setReg a v).vms = h.vms := rfl
@[simp] theorem setReg_mbx : (h.setReg a v).mbx = h.mbx := rfl
@[simp] theorem setReg_fi : (h.setReg a v).fi = h.fi := rfl
@[simp] theorem setReg_rings : (h.setReg a v).rings = h.rings := rfl
@[simp] theorem setReg_ports : (h.setReg a v).ports = h.ports := rfl
@[simp] theorem setReg_snp : (h.setReg a v).snp = h.snp := rfl
@[simp] theorem setReg_grd : (h.setReg a v).grd = h.grd := rfl
@[simp] theorem setReg_lsi : (h.setReg a v).lsi = h.lsi := rfl
@[simp] theorem setReg_sw : (h.setReg a v).sw = h.sw := rfl
@[simp] theorem setReg_can : (h.setReg a v).can = h.can := rfl
@[simp] theorem setReg_kop : (h.setReg a v).kop = h.kop := rfl
@[simp] theorem setReg_tree : (h.setReg a v).tree = h.tree := rfl
@[simp] theorem setReg_upd : (h.setReg a v).upd = h.upd := rfl
@[simp] theorem setReg_pwr : (h.setReg a v).pwr = h.pwr := rfl
@[simp] theorem setReg_log : (h.setReg a v).log = h.log := rfl
@[simp] theorem setReg_retLog : (h.setReg a v).retLog = h.retLog := rfl
@[simp] theorem setReg_free : (h.setReg a v).free = h.free := rfl
@[simp] theorem setReg_bus : (h.setReg a v).bus = h.bus := rfl
@[simp] theorem setReg_busErr : (h.setReg a v).busErr = h.busErr := rfl
@[simp] theorem setReg_status : (h.setReg a v).status = h.status := rfl
@[simp] theorem setReg_out : (h.setReg a v).out = h.out := rfl
@[simp] theorem setReg_norOp : (h.setReg a v).norOp = h.norOp := rfl
@[simp] theorem setReg_poweredMs : (h.setReg a v).poweredMs = h.poweredMs := rfl

/-! ### RAM -/

variable (c : Container)

@[simp] theorem ram_setRam_same : (h.setRam a c).ram a = c := by simp [Hw.ram, Hw.setRam]

theorem ram_setRam_ne (hb : b ≠ a) : (h.setRam a c).ram b = h.ram b := by
  simp [Hw.ram, Hw.setRam, get_set_ne _ _ _ _ _ hb]

@[simp] theorem setRam_regs : (h.setRam a c).regs = h.regs := rfl
@[simp] theorem setRam_reg : (h.setRam a c).reg b = h.reg b := rfl
@[simp] theorem setRam_crest : (h.setRam a c).crest = h.crest := rfl
@[simp] theorem setRam_app : (h.setRam a c).app = h.app := rfl
@[simp] theorem setRam_eng : (h.setRam a c).eng = h.eng := rfl

/-! ### Cores -/

variable (k j : Nat) (x : Core)

@[simp] theorem appCore_setAppCore_same : (h.setAppCore k x).appCore k = x := by simp [Hw.appCore, Hw.setAppCore]

theorem appCore_setAppCore_ne (hj : j ≠ k) : (h.setAppCore k x).appCore j = h.appCore j := by
  simp [Hw.appCore, Hw.setAppCore, get_set_ne _ _ _ _ _ hj]

@[simp] theorem crestCore_setCrestCore_same : (h.setCrestCore k x).crestCore k = x := by simp [Hw.crestCore, Hw.setCrestCore]

theorem crestCore_setCrestCore_ne (hj : j ≠ k) : (h.setCrestCore k x).crestCore j = h.crestCore j := by
  simp [Hw.crestCore, Hw.setCrestCore, get_set_ne _ _ _ _ _ hj]

@[simp] theorem engine_setEngine_same (g : Engine) : (h.setEngine k g).engine k = g := by simp [Hw.engine, Hw.setEngine]

theorem engine_setEngine_ne (g : Engine) (hj : j ≠ k) : (h.setEngine k g).engine j = h.engine j := by
  simp [Hw.engine, Hw.setEngine, get_set_ne _ _ _ _ _ hj]

@[simp] theorem setCore_reg (m : CoreId) : (h.setCore m x).reg a = h.reg a := by cases m <;> rfl
@[simp] theorem setCore_mem (m : CoreId) : (h.setCore m x).mem = h.mem := by cases m <;> rfl
@[simp] theorem setCore_xlat (m : CoreId) : (h.setCore m x).xlat = h.xlat := by cases m <;> rfl
@[simp] theorem setCore_crs (m : CoreId) : (h.setCore m x).crs = h.crs := by cases m <;> rfl
@[simp] theorem foldSig_reg (m : CoreId) (l : List Word) : (h.foldSig m l).reg a = h.reg a := by cases m <;> rfl
@[simp] theorem foldSig_mem (m : CoreId) (l : List Word) : (h.foldSig m l).mem = h.mem := by cases m <;> rfl
@[simp] theorem foldSig_coreOf (m n : CoreId) (l : List Word) : (h.foldSig m l).coreOf n = h.coreOf n := by
  cases m <;> cases n <;> rfl

/-- A core written reads as written. -/
@[simp] theorem coreOf_setCore_same (m : CoreId) : (h.setCore m x).coreOf m = x := by
  cases m <;> simp [Hw.coreOf, Hw.setCore]

/-- A core written leaves every other core as it was. -/
theorem coreOf_setCore_ne (m n : CoreId) (hn : n ≠ m) : (h.setCore m x).coreOf n = h.coreOf n := by
  cases m <;> cases n <;> simp only [Hw.coreOf, Hw.setCore] <;> try rfl
  · refine crestCore_setCrestCore_ne _ _ _ _ fun e => hn ?_
    rw [Fin.ext e]
  · refine appCore_setAppCore_ne _ _ _ _ fun e => hn ?_
    rw [Fin.ext e]
  · rw [engine_setEngine_ne]
    exact fun e => hn (by rw [Fin.ext e])

end Sys2Proof.Laws
end

