-- ==== Sys2Proof/Laws/Cores.lean ====
section
/-! SUPPORT. What an instruction of a core can do: one law for retiring, one for what follows an instruction, and the law of an
instruction that only computes. -/

namespace Sys2Proof.Laws

open Sys2Proof.Machine

theorem crestCores_nodup : Hw.crestCores.Nodup := by decide

/-- No core stands twice in a group. -/
theorem members_nodup (h : Hw) (c : CoreId) : (h.members c).Nodup := by
  cases c with
  | crest k =>
    simp only [Hw.members]
    split
    · refine List.pairwise_map.mpr ((List.Pairwise.filter _ crestCores_nodup).imp ?_)
      intro a b h e; cases e; exact h rfl
    · simp
  | app k => simp [Hw.members]
  | engine e => simp [Hw.members]

/-- Every member of a list of cores retires an instruction, each on its own registers. -/
theorem coreOf_retire_list (f : CoreId → Core → Ret) (l : List CoreId) (hl : l.Nodup) (h : Hw) (x : CoreId) :
    (l.foldl (fun h m => h.retireOn m (f m)) h).coreOf x =
      if x ∈ l then (f x (h.coreOf x)).core.tick else h.coreOf x := by
  induction l generalizing h with
  | nil => simp
  | cons m l ih =>
    rw [List.nodup_cons] at hl
    rw [List.foldl_cons, ih hl.2]
    by_cases hx : x = m
    · subst hx; simp [hl.1, Hw.retireOn]
    · simp [hx, Hw.retireOn, coreOf_setCore_ne _ _ _ _ hx]

/-- Retiring touches no register, no RAM. -/
theorem retire_list_rest (f : CoreId → Core → Ret) (l : List CoreId) (h : Hw) :
    (∀ a, (l.foldl (fun h m => h.retireOn m (f m)) h).reg a = h.reg a) ∧
      (l.foldl (fun h m => h.retireOn m (f m)) h).mem = h.mem := by
  induction l generalizing h with
  | nil => simp
  | cons m l ih =>
    rw [List.foldl_cons]
    obtain ⟨h1, h2⟩ := ih (h.retireOn m (f m))
    exact ⟨fun a => by rw [h1]; simp [Hw.retireOn], by rw [h2]; simp [Hw.retireOn]⟩

/-- Which cores form a group rests on CRS_STAT alone. -/
theorem members_congr (h g : Hw) (c : CoreId) (e : g.reg Reg.CRS_STAT = h.reg Reg.CRS_STAT) : g.members c = h.members c := by
  have hd : g.dutyMask = h.dutyMask := by simp only [Hw.dutyMask, Hw.fld, e]
  cases c <;> simp [Hw.members, Hw.duty, hd]

theorem noteHalted_reg (h : Hw) (m : CoreId) (b : Bool) (a : Nat) (ha : a ≠ Reg.CRS_STAT) :
    (h.noteHalted m b).reg a = h.reg a := by
  cases m <;> cases b <;> simp [Hw.noteHalted, Hw.setBit, Hw.clearBit, reg_setReg_ne _ _ _ _ ha]

@[simp] theorem noteHalted_mem (h : Hw) (m : CoreId) (b : Bool) : (h.noteHalted m b).mem = h.mem := by
  cases m <;> cases b <;> rfl

@[simp] theorem noteHalted_coreOf (h : Hw) (m n : CoreId) (b : Bool) : (h.noteHalted m b).coreOf n = h.coreOf n := by
  cases m <;> cases b <;> cases n <;> rfl

/-- Halting a list of cores changes what the debug unit sets of its members, and CRS_STAT, alone. -/
theorem halt_list (b : Bool) (l : List CoreId) (h : Hw) :
    let g := l.foldl (fun h m => (h.setCore m { h.coreOf m with halted := b, stepping := false, haltPending := false }).noteHalted m b) h
    (∀ a, a ≠ Reg.CRS_STAT → g.reg a = h.reg a) ∧ g.mem = h.mem ∧ (∀ x, (g.coreOf x).Same (h.coreOf x)) ∧
      ∀ x, x ∉ l → g.coreOf x = h.coreOf x := by
  induction l generalizing h with
  | nil => exact ⟨fun _ _ => rfl, rfl, fun _ => rfl, fun _ _ => rfl⟩
  | cons m l ih =>
    obtain ⟨h1, h2, h3, h4⟩ := ih ((h.setCore m { h.coreOf m with halted := b, stepping := false, haltPending := false }).noteHalted m b)
    refine ⟨fun a ha => ?_, ?_, fun x => ?_, fun x hx => ?_⟩
    · rw [List.foldl_cons, h1 a ha, noteHalted_reg _ _ _ _ ha]; simp
    · rw [List.foldl_cons, h2]; simp
    · have e := h3 x
      rw [List.foldl_cons]
      by_cases hx : x = m
      · subst hx
        simp only [Core.Same, noteHalted_coreOf, coreOf_setCore_same] at e ⊢
        exact e
      · simpa [Core.Same, coreOf_setCore_ne _ _ _ _ hx] using e
    · simp only [List.mem_cons, not_or] at hx
      rw [List.foldl_cons, h4 x hx.2]
      simp [coreOf_setCore_ne _ _ _ _ hx.1]

/-- What follows an instruction: everything but what the debug unit sets of the core's group stays. -/
theorem afterInstr_spec (s : State) (c : CoreId) :
    s.SameStore (s.afterInstr c) ∧ (s.afterInstr c).hw.mem = s.hw.mem ∧
      (∀ a, a ≠ Reg.CRS_STAT → (s.afterInstr c).hw.reg a = s.hw.reg a) ∧
      (∀ x, ((s.afterInstr c).hw.coreOf x).Same (s.hw.coreOf x)) ∧
      ∀ x, x ∉ s.hw.members c → (s.afterInstr c).hw.coreOf x = s.hw.coreOf x := by
  unfold State.afterInstr
  dsimp only
  split
  · obtain ⟨h1, h2, h3, h4⟩ := halt_list true (s.hw.members c) s.hw
    exact ⟨⟨rfl, rfl, rfl, rfl⟩, h2, h1, h3, h4⟩
  · exact ⟨⟨rfl, rfl, rfl, rfl⟩, rfl, fun _ _ => rfl, fun _ => rfl, fun _ _ => rfl⟩

/-- An instruction whose effect, after the fetch, is that every member of its group retires it. -/
theorem becomes_of_retire {i : Instr} {c : CoreId} {s m : State} {f : CoreId → Core → Core} (r : CoreId → Core → Ret)
    (hr : exec i s = .next ((m.onHw fun h => (h.members c).foldl (fun h x => h.retireOn x (r x)) h).afterInstr c))
    (hf : ∀ x, x ∈ m.hw.members c → (r x (m.hw.coreOf x)).core.tick = f x (m.hw.coreOf x)) : GroupBecomes i c s m f := by
  refine ends_of_next hr ?_
  obtain ⟨p1, p2⟩ := retire_list_rest r (m.hw.members c) m.hw
  have p3 := coreOf_retire_list r _ (members_nodup m.hw c) m.hw
  generalize hg : (m.hw.members c).foldl (fun h x => h.retireOn x (r x)) m.hw = g at p1 p2 p3
  have hm2 : (m.onHw fun h => (h.members c).foldl (fun h x => h.retireOn x (r x)) h) = { m with hw := g } := by
    rw [← hg]; rfl
  rw [hm2]
  obtain ⟨q1, q2, q3, q4, q5⟩ := afterInstr_spec { m with hw := g } c
  have hmem : g.members c = m.hw.members c := members_congr _ _ _ (p1 _)
  refine ⟨⟨q1.1, q1.2.1, q1.2.2.1, q1.2.2.2⟩, q2.trans p2, fun a ha => (q3 a ha).trans (p1 a), fun x hx => ?_, fun x hx => ?_⟩
  · have e := q4 x
    rw [show ({ m with hw := g } : State).hw.coreOf x = _ from p3 x, if_pos hx, hf x hx] at e
    exact e
  · rw [q5 x (by rw [hmem]; exact hx)]
    exact (p3 x).trans (if_neg hx)

theorem instr_of_fetches {s m : State} {c : CoreId} (hm : s.Fetches c m) (body : State → State) :
    s.instr c body = (body m).afterInstr c := by
  simp [State.instr, hm.1, hm.2]

/-- The law of `State.compute`. -/
theorem computes_of_compute {i : Instr} {c : CoreId} {s : State} {f : Core → Core} (r : Core → Ret)
    (hr : exec i s = s.compute c r) (hf : ∀ k, (r k).core = f k) : Computes i c s f :=
  fun m hm => becomes_of_retire (fun _ => r) (by rw [hr, State.compute, instr_of_fetches hm]; rfl) fun x _ => by rw [hf]

/-- The law of `State.computeIf`. -/
theorem computes_of_computeIf {i : Instr} {c : CoreId} {s : State} {f : Core → Core} {ok : Bool} {w : Word} (r : Core → Ret)
    (hr : exec i s = s.computeIf c ok w r) (hok : ok = true) (hf : ∀ k, (r k).core = f k) : Computes i c s f :=
  fun m hm => becomes_of_retire (fun _ => r) (by rw [hr, State.computeIf, instr_of_fetches hm, if_pos hok]; rfl)
    fun x _ => by rw [hf]

/-- Every member of a list of cores takes a new state of its own. -/
theorem coreOf_set_list (f : CoreId → Core → Core) (l : List CoreId) (hl : l.Nodup) (h : Hw) :
    let g := l.foldl (fun h m => h.setCore m (f m (h.coreOf m))) h
    (∀ x, g.coreOf x = if x ∈ l then f x (h.coreOf x) else h.coreOf x) ∧ (∀ a, g.reg a = h.reg a) ∧ g.mem = h.mem := by
  induction l generalizing h with
  | nil => simp
  | cons m l ih =>
    rw [List.nodup_cons] at hl
    obtain ⟨h1, h2, h3⟩ := ih hl.2 (h.setCore m (f m (h.coreOf m)))
    refine ⟨fun x => ?_, fun a => ?_, ?_⟩
    · rw [List.foldl_cons, h1]
      by_cases hx : x = m
      · subst hx; simp [hl.1]
      · simp [hx, coreOf_setCore_ne _ _ _ _ hx]
    · rw [List.foldl_cons, h2]; simp
    · rw [List.foldl_cons, h3]; simp

/-- An instruction whose effect, after the fetch, is one new state for every member of its group. -/
theorem becomes_of_set_list {i : Instr} {c : CoreId} {s m : State} (f : CoreId → Core → Core)
    (hr : exec i s = .next ((m.onHw fun h => (h.members c).foldl (fun h x => h.setCore x (f x (h.coreOf x))) h).afterInstr c)) :
    GroupBecomes i c s m f := by
  refine ends_of_next hr ?_
  obtain ⟨p1, p2, p3⟩ := coreOf_set_list f _ (members_nodup m.hw c) m.hw
  generalize hg : (m.hw.members c).foldl (fun h x => h.setCore x (f x (h.coreOf x))) m.hw = g at p1 p2 p3
  have hm2 : (m.onHw fun h => (h.members c).foldl (fun h x => h.setCore x (f x (h.coreOf x))) h) = { m with hw := g } := by
    rw [← hg]; rfl
  rw [hm2]
  obtain ⟨q1, q2, q3, q4, q5⟩ := afterInstr_spec { m with hw := g } c
  have hmem : g.members c = m.hw.members c := members_congr _ _ _ (p2 _)
  refine ⟨⟨q1.1, q1.2.1, q1.2.2.1, q1.2.2.2⟩, q2.trans p3, fun a ha => (q3 a ha).trans (p2 a), fun x hx => ?_, fun x hx => ?_⟩
  · have e := q4 x
    rw [show ({ m with hw := g } : State).hw.coreOf x = _ from p1 x, if_pos hx] at e
    exact e
  · rw [q5 x (by rw [hmem]; exact hx)]
    exact (p1 x).trans (if_neg hx)

/-- The law of an exception raised by an instruction of a system core. -/
theorem raises_of_raise {i : Instr} {c : CoreId} {s : State} {code : Nat} {ti : Word} (hc : c.isEngine = false)
    (hr : ∀ m, s.Fetches c m → exec i s = .next ((m.onHw fun h => h.raise c code ti).afterInstr c)) : Raises i c s code ti := by
  intro m hm
  refine becomes_of_set_list (fun _ k => k.except code ti none) ?_
  rw [hr m hm]
  cases c with
  | engine e => cases hc
  | crest k => rfl
  | app k => rfl

end Sys2Proof.Laws
end

