-- ==== Sys2Proof/Laws/Memory.lean ====
section
/-! SUPPORT. The laws of RAM and of the NOR flash: every operation keeps the canonical form, a read after a write gives the word,
and a write leaves every other word. -/

namespace Sys2Proof.Laws

open Sys2Proof.Machine

/-! ### RAM -/

/-- A write stores the word, the tag of the cycle and a sound container (R145, R150). -/
@[simp] theorem ram_writeRam_same (h : Hw) (a : Nat) (w : Word) :
    (h.writeRam a w).ram a = { data := w, tag := h.tagNow, poisoned := false } := ram_setRam_same h a _

theorem ram_writeRam_ne (h : Hw) (a b : Nat) (w : Word) (hb : b ≠ a) : (h.writeRam a w).ram b = h.ram b :=
  ram_setRam_ne h a b _ hb

theorem setRam_wf (h : Hw) (a : Nat) (c : Container) (w : Memory.wf h.mem = true) : Memory.wf (h.setRam a c).mem = true :=
  wf_set _ _ _ _ w

theorem writeRam_wf (h : Hw) (a : Nat) (v : Word) (w : Memory.wf h.mem = true) : Memory.wf (h.writeRam a v).mem = true :=
  setRam_wf h a _ w

theorem writeRamList_wf (h : Hw) (a : Nat) (l : List Word) (w : Memory.wf h.mem = true) :
    Memory.wf (h.writeRamList a l).mem = true := by
  induction l generalizing h a with
  | nil => exact w
  | cons v l ih => exact ih _ _ (writeRam_wf h a v w)

/-- Words beside a list that is written stay. -/
theorem ram_writeRamList_ne (h : Hw) (a b : Nat) (l : List Word) (hb : b < a ∨ a + l.length ≤ b) :
    (h.writeRamList a l).ram b = h.ram b := by
  induction l generalizing h a with
  | nil => rfl
  | cons v l ih =>
    simp only [List.length_cons] at hb
    rw [Hw.writeRamList, ih _ _ (by omega), ram_writeRam_ne _ _ _ _ (by omega)]

/-- Word i of a list that is written is where it belongs. -/
theorem ram_writeRamList (h : Hw) (a i : Nat) (l : List Word) (hi : i < l.length) :
    ((h.writeRamList a l).ram (a + i)).data = l[i] := by
  induction l generalizing h a i with
  | nil => simp at hi
  | cons v l ih =>
    cases i with
    | zero =>
      rw [Hw.writeRamList, ram_writeRamList_ne _ _ _ _ (by omega)]
      simp
    | succ i =>
      have e : a + (i + 1) = a + 1 + i := by omega
      rw [Hw.writeRamList, e, ih _ _ _ (by simpa using hi)]
      rfl

theorem zeroRam_wf (h : Hw) (a n : Nat) (w : Memory.wf h.mem = true) : Memory.wf (h.zeroRam a n).mem = true := by
  unfold Hw.zeroRam
  dsimp only
  split
  · exact wf_clear _ _ _ _ w
  · generalize List.range n = l
    generalize h.mem = m at w
    induction l generalizing m with
    | nil => exact w
    | cons i l ih => exact ih _ (wf_set _ _ _ _ w)

/-- Counting an error changes no container. -/
@[simp] theorem mem_eccFound (h : Hw) (m a : Nat) (f : Flaw) : (h.eccFound m a f).mem = h.mem := by
  cases f with
  | sound => rfl
  | single => rfl
  | double =>
    unfold Hw.eccFound Hw.eccUncorrectable
    dsimp only
    split <;> rfl

theorem eccRead_wf (h : Hw) (a : Nat) (w : Memory.wf h.mem = true) : Memory.wf (h.eccRead a).mem = true := by
  unfold Hw.eccRead
  dsimp only
  split
  · exact w
  · rw [mem_eccFound]
    exact setRam_wf h a _ w

theorem meetFlaw_wf (h : Hw) (a : Nat) (f : Flaw) (w : Memory.wf h.mem = true) : Memory.wf (h.meetFlaw a f).mem = true := by
  unfold Hw.meetFlaw
  split
  · exact eccRead_wf h a w
  · exact eccRead_wf _ a (setRam_wf h a _ w)

/-- Clearing a range, as the loss of a memory's supply does, keeps the form. -/
theorem clear_wf (m : Tab Container) (lo hi : Nat) (w : Memory.wf m = true) : Memory.wf (Tabs.clear m lo hi) = true :=
  wf_clear _ _ _ _ w

/-- Keeping a range alone, as a reset does of the retention SRAM, keeps the form. -/
theorem keep_wf (m : Tab Container) (lo hi : Nat) (w : Memory.wf m = true) : Memory.wf (Tabs.keep m lo hi) = true :=
  wf_keep _ _ _ _ w

/-! ### NOR flash -/

theorem program_wf (n : Nor) (a : Nat) (v : Word) (w : Nor.wf n = true) : Nor.wf (n.program a v) = true := wf_set _ _ _ _ w

theorem programList_wf (n : Nor) (a : Nat) (l : List Word) (w : Nor.wf n = true) : Nor.wf (n.programList a l) = true := by
  induction l generalizing n a with
  | nil => exact w
  | cons v l ih => exact ih _ _ (program_wf n a v w)

theorem word_program_same (n : Nor) (a : Nat) (v : Word) : (n.program a v).word a = v := get_set_same _ _ _ _

theorem word_program_ne (n : Nor) (a b : Nat) (v : Word) (hb : b ≠ a) : (n.program a v).word b = n.word b :=
  get_set_ne _ _ _ _ _ hb

/-- Outside a cut the pieces of a hole hold what the hole held, under the same generation. -/
theorem find_cut (x : NorHole) (lo hi a : Nat) (l : List NorHole) (ha : a < lo ∨ hi < a) :
    ((x.cut lo hi ++ l).find? fun y => y.lo ≤ a && a ≤ y.hi).map NorHole.gen =
      ((x :: l).find? fun y => y.lo ≤ a && a ≤ y.hi).map NorHole.gen := by
  unfold NorHole.cut
  split
  · rfl
  · rename_i hn
    by_cases hx : x.lo ≤ a ∧ a ≤ x.hi
    · rw [List.find?_cons_of_pos (a := x) (by simpa using hx)]
      by_cases h1 : x.lo < lo
      · by_cases h2 : hi < x.hi
        · by_cases h3 : a ≤ lo - 1
          · simp [h1, h2, hx.1, h3]
          · have h4 : hi + 1 ≤ a := by omega
            simp [h1, h2, h3, h4, hx.2]
        · have h3 : a ≤ lo - 1 := by omega
          simp [h1, h2, hx.1, h3]
      · have h2 : hi < x.hi := by omega
        have h4 : hi + 1 ≤ a := by omega
        simp [h1, h2, h4, hx.2]
    · rw [List.find?_cons_of_neg (a := x) (by simpa using hx)]
      by_cases h1 : x.lo < lo
      · have h3 : ¬ (x.lo ≤ a ∧ a ≤ lo - 1) := by omega
        by_cases h2 : hi < x.hi
        · have h4 : ¬ (hi + 1 ≤ a ∧ a ≤ x.hi) := by omega
          simp only [if_pos h1, if_pos h2, List.cons_append, List.nil_append]
          rw [List.find?_cons_of_neg (by simpa using h3), List.find?_cons_of_neg (by simpa using h4)]
        · simp only [if_pos h1, if_neg h2, List.cons_append, List.nil_append]
          rw [List.find?_cons_of_neg (by simpa using h3)]
      · by_cases h2 : hi < x.hi
        · have h4 : ¬ (hi + 1 ≤ a ∧ a ≤ x.hi) := by omega
          simp only [if_neg h1, if_pos h2, List.cons_append, List.nil_append]
          rw [List.find?_cons_of_neg (by simpa using h4)]
        · simp only [if_neg h1, if_neg h2, List.nil_append]

theorem find_cuts (l : List NorHole) (lo hi a : Nat) (ha : a < lo ∨ hi < a) :
    ((l.flatMap fun x => x.cut lo hi).find? fun y => y.lo ≤ a && a ≤ y.hi).map NorHole.gen =
      (l.find? fun y => y.lo ≤ a && a ≤ y.hi).map NorHole.gen := by
  induction l with
  | nil => rfl
  | cons x l ih =>
    rw [List.flatMap_cons, find_cut x lo hi a _ ha]
    rw [List.find?_cons, List.find?_cons]
    split
    · rfl
    · exact ih

/-- The unlisted words of a flash by the generation of their hole. -/
theorem unlisted_eq (n : Nor) (a : Nat) :
    n.unlisted a = match (n.holes.find? fun y => y.lo ≤ a && a ≤ y.hi).map NorHole.gen with
      | some g => Config.freeNor g a
      | none => BitVec.allOnes 40 := by
  unfold Nor.unlisted
  split <;> rename_i e <;> simp [e]

theorem unlisted_erase (n : Nor) (lo hi a : Nat) (ha : a < lo ∨ hi < a) : (n.erase lo hi).unlisted a = n.unlisted a := by
  rw [unlisted_eq, unlisted_eq]
  simp only [Nor.erase, find_cuts n.holes lo hi a ha]

theorem unlisted_undefine (n : Nor) (lo hi g a : Nat) (ha : a < lo ∨ hi < a) : (n.undefine lo hi g).unlisted a = n.unlisted a := by
  rw [unlisted_eq, unlisted_eq]
  have h : ¬ (lo ≤ a ∧ a ≤ hi) := by omega
  simp only [Nor.undefine]
  rw [List.find?_cons_of_neg (by simpa using h), find_cuts n.holes lo hi a ha]

/-- The canonical form under another unlisted value, where no listed key sees the difference. -/
theorem wf_congr {α : Type} [DecidableEq α] (d e : Nat → α) (t : Tab α) (h : ∀ x ∈ t, d x.1 = e x.1) (w : Tabs.wf d t = true) :
    Tabs.wf e t = true := by
  unfold Tabs.wf at *
  rw [Bool.and_eq_true] at *
  refine ⟨w.1, ?_⟩
  rw [List.all_eq_true] at *
  intro x hx
  have := w.2 x hx
  rwa [h x hx] at this

theorem erase_wf (n : Nor) (lo hi : Nat) (w : Nor.wf n = true) : Nor.wf (n.erase lo hi) = true := by
  refine wf_congr n.unlisted _ _ (fun x hx => ?_) (wf_clear n.unlisted _ lo hi w)
  have h := (List.mem_filter.mp hx).2
  exact (unlisted_erase n lo hi x.1 (by simpa using h)).symm

theorem undefine_wf (n : Nor) (lo hi g : Nat) (w : Nor.wf n = true) : Nor.wf (n.undefine lo hi g) = true := by
  refine wf_congr n.unlisted _ _ (fun x hx => ?_) (wf_clear n.unlisted _ lo hi w)
  have h := (List.mem_filter.mp hx).2
  exact (unlisted_undefine n lo hi g x.1 (by simpa using h)).symm

/-! ### At reset -/

theorem reset_memory_wf : Memory.wf State.reset.hw.mem = true ∧ Nor.wf State.reset.nor = true ∧ State.reset.hw.regsWf = true :=
  ⟨rfl, rfl, rfl⟩

end Sys2Proof.Laws
end

