-- ==== Sys2Proof/Laws/Store.lean ====
section
/-! SUPPORT. What the shared operations over the whole state leave: the waiting commands stay, the fuses do not fall, and the NOR
flash keeps its canonical form. -/

namespace Sys2Proof.Laws

open Sys2Proof.Machine

/-- What every operation leaves of the queue, the fuses and the flash. -/
structure Keeps (s t : State) : Prop where
  pending : t.pending = s.pending
  fuse : s.fuse.Le t.fuse
  nor : Nor.wf s.nor = true → Nor.wf t.nor = true

theorem le_refl (f : Fuse) : f.Le f :=
  ⟨Nat.le_refl _, id, fun _ => id, fun _ => id, Nat.le_refl _, Nat.le_refl _, Nat.le_refl _, Nat.le_refl _⟩

theorem le_trans {f g k : Fuse} (a : f.Le g) (b : g.Le k) : f.Le k :=
  ⟨Nat.le_trans a.1 b.1, b.2 ∘ a.2, fun i => b.3 i ∘ a.3 i, fun i => b.4 i ∘ a.4 i, Nat.le_trans a.5 b.5, Nat.le_trans a.6 b.6,
    Nat.le_trans a.7 b.7, Nat.le_trans a.8 b.8⟩

theorem keeps_refl (s : State) : Keeps s s := ⟨rfl, le_refl _, id⟩

theorem keeps_trans {s t u : State} (a : Keeps s t) (b : Keeps t u) : Keeps s u :=
  ⟨b.1.trans a.1, le_trans a.2 b.2, b.3 ∘ a.3⟩

/-- A change of the hardware alone keeps them. -/
theorem keeps_onHw (s : State) (f : Hw → Hw) : Keeps s (s.onHw f) := ⟨rfl, le_refl _, id⟩

theorem keeps_then {s t : State} (a : Keeps s t) (f : Hw → Hw) : Keeps s (t.onHw f) := keeps_trans a (keeps_onHw t f)

/-- A change of the flash that keeps its form, with any change of the hardware, keeps them. -/
theorem keeps_nor (s : State) (n : Nor) (h : Hw) (w : Nor.wf s.nor = true → Nor.wf n = true) :
    Keeps s { s with nor := n, hw := h } := ⟨rfl, le_refl _, w⟩

theorem keeps_nor_only (s : State) (n : Nor) (w : Nor.wf s.nor = true → Nor.wf n = true) : Keeps s { s with nor := n } :=
  keeps_nor s n s.hw w

theorem keeps_foldl {α : Type} (l : List α) (f : State → α → State) (h : ∀ s x, Keeps s (f s x)) (s : State) :
    Keeps s (l.foldl f s) := by
  induction l generalizing s with
  | nil => exact keeps_refl s
  | cons x l ih => exact keeps_trans (h s x) (ih _)

/-- A rise of the fuses keeps them. -/
theorem keeps_fuse (s : State) (f : Fuse) (h : s.fuse.Le f) : Keeps s { s with fuse := f } := ⟨rfl, h, id⟩

/-! ### Accesses to memory -/

theorem keeps_memLoad (s : State) (a : Nat) : Keeps s (s.memLoad a).1 := keeps_onHw s _

theorem keeps_dmaRead (s : State) (who : Who) (a : Nat) : Keeps s (s.dmaRead who a).1 := by
  unfold State.dmaRead
  split
  · dsimp only; exact keeps_onHw s _
  · have h := keeps_memLoad s a
    split <;> rename_i e <;> rw [e] at h <;> exact h

theorem keeps_dmaReads (s : State) (who : Who) (a n : Nat) : Keeps s (s.dmaReads who a n).1 := by
  induction n generalizing s a with
  | zero => exact keeps_refl s
  | succ n ih =>
    unfold State.dmaReads
    have h := keeps_dmaRead s who a
    split <;> rename_i e <;> rw [e] at h
    · exact h
    · rename_i s' w
      have h2 := ih s' (a + 1)
      split <;> rename_i e2
      · rw [e2] at h2; exact keeps_trans h h2
      · exact keeps_trans h h2

theorem keeps_dmaWrites (s : State) (who : Who) (a : Nat) (l : List Word) : Keeps s (s.dmaWrites who a l).1 := by
  induction l generalizing s a with
  | nil => exact keeps_refl s
  | cons w l ih =>
    unfold State.dmaWrites
    split
    · dsimp only; exact keeps_onHw s _
    · split
      · exact keeps_refl s
      · exact keeps_trans (keeps_onHw _ _) (ih _ _)

theorem keeps_walkRead (s : State) (c : CoreId) (pa : Nat) : Keeps s (s.walkRead c pa).1 := by
  unfold State.walkRead
  split
  · dsimp only; exact keeps_onHw s _
  · have h := keeps_memLoad s pa
    split <;> rename_i e <;> rw [e] at h <;> exact h

/-! ### The logs, the checkpoints and the flash -/

theorem keeps_logWords (s : State) (l : List Word) : Keeps s (s.logWords l) := by
  unfold State.logWords
  dsimp only
  split
  · exact keeps_refl s
  · refine keeps_nor s _ _ fun w => ?_
    split
    · exact erase_wf _ _ _ (programList_wf _ _ _ w)
    · exact programList_wf _ _ _ w

theorem keeps_logEntry (s : State) (code : Nat) (data : Word) : Keeps s (s.logEntry code data) := keeps_logWords s _

theorem keeps_copyRetLog (s : State) : Keeps s s.copyRetLog :=
  keeps_then (keeps_foldl _ _ (fun s _ => keeps_trans (keeps_onHw s _) (keeps_logWords _ _)) s) _

theorem keeps_writeCheckpoint (s : State) : Keeps s s.writeCheckpoint := by
  unfold State.writeCheckpoint
  dsimp only
  split
  · exact keeps_refl s
  · exact keeps_nor s _ _ fun w => programList_wf _ _ _ w

theorem keeps_eraseSlots (s : State) (n : Nat) : Keeps s (s.eraseSlots n) := by
  induction n generalizing s with
  | zero => exact keeps_refl s
  | succ n ih =>
    unfold State.eraseSlots
    dsimp only
    split
    · exact keeps_refl s
    · split
      · exact keeps_trans (keeps_nor_only s _ fun w => erase_wf _ _ _ w) (ih _)
      · exact keeps_refl s

theorem keeps_commitCheckpoint (s : State) : Keeps s s.commitCheckpoint := by
  unfold State.commitCheckpoint
  split
  · exact keeps_refl s
  · dsimp only
    split
    · exact keeps_refl s
    · exact keeps_trans (keeps_nor s _ _ fun w => program_wf _ _ _ w) (keeps_eraseSlots _ _)

theorem keeps_norEnds (s : State) (r : Nat) : Keeps s (s.norEnds r) := by
  unfold State.norEnds
  split
  · exact keeps_refl s
  · exact keeps_then (keeps_nor_only s _ fun w => undefine_wf _ _ _ _ w) _

theorem keeps_norWords (s : State) (a src n r : Nat) : Keeps s (s.norWords a src n r).1 := by
  induction n generalizing s a src r with
  | zero => exact keeps_refl s
  | succ n ih =>
    unfold State.norWords
    have h := keeps_memLoad s src
    split <;> rename_i e <;> rw [e] at h
    · exact keeps_trans h (keeps_trans (keeps_nor_only _ _ fun w => program_wf _ _ _ w) (ih _ _ _ _))
    · exact h

theorem keeps_norDone (s : State) (ok : Bool) : Keeps s (s.norDone ok) := by
  unfold State.norDone
  split
  · exact keeps_refl s
  · split
    · exact keeps_refl s
    · split
      · exact keeps_norEnds s 5
      · refine keeps_then ?_ _
        split
        · exact keeps_nor_only s _ fun w => erase_wf _ _ _ w
        · exact keeps_norWords s _ _ _ _

theorem keeps_setMark (s : State) (type slot : Nat) (m : Word) : Keeps s (s.setMark type slot m) := by
  unfold State.setMark
  split
  · exact keeps_nor_only s _ fun w => program_wf _ _ _ w
  · exact keeps_refl s

theorem keeps_proven (s : State) (type slot : Nat) : Keeps s (s.proven type slot) := by
  unfold State.proven
  dsimp only
  split
  · exact keeps_then (keeps_setMark s _ _ _) _
  · exact keeps_refl s

theorem keeps_copyActive (s : State) (type slot : Nat) : Keeps s (s.copyActive type slot) := by
  unfold State.copyActive
  dsimp only
  split
  · exact keeps_refl s
  · refine keeps_then (keeps_nor_only s _ fun w => ?_) _
    exact erase_wf _ _ _ (program_wf _ _ _ (programList_wf _ _ _ (erase_wf _ _ _ w)))

/-! ### Fuses -/

theorem setArb_le (f : Fuse) (i v : Nat) : f.Le (State.setArb f i v) := by
  unfold State.setArb
  have h := le_refl f
  split
  · exact { h with arb0 := Nat.le_max_left _ _ }
  · split
    · exact { h with arb1 := Nat.le_max_left _ _ }
    · split
      · exact { h with arb2 := Nat.le_max_left _ _ }
      · exact { h with arb3 := Nat.le_max_left _ _ }

theorem setHash_le (f : Fuse) (k : Nat) (l : List Word) : f.Le (State.setHash f k l) := { le_refl f with }

theorem keeps_fuseBlow (s : State) (x : FuseOp) : Keeps s (s.fuseBlow x) := by
  have h := le_refl s.fuse
  have or (a b : BitVec 4) (i : Fin 4) (e : a.getLsb i = true) : (a ||| b).getLsb i = true := by
    have e2 : a.getLsbD i.val = true := e
    show (a ||| b).getLsbD i.val = true
    rw [BitVec.getLsbD_or, e2, Bool.true_or]
  unfold State.fuseBlow
  dsimp only
  split
  · exact keeps_onHw _ _
  · split
    · exact keeps_fuse s _ { h with keyValid := fun i e => or _ _ i e }
    · split
      · exact keeps_fuse s _ { h with revoked := fun i e => or _ _ i e }
      · split
        · exact keeps_fuse s _ (setArb_le _ _ _)
        · exact keeps_fuse s _ { h with dbgLock := fun _ => rfl }

theorem keeps_fuseDone (s : State) (ok : Bool) : Keeps s (s.fuseDone ok) := by
  unfold State.fuseDone
  split
  · exact keeps_refl s
  · refine keeps_then (keeps_then ?_ _) _
    split
    · exact keeps_fuseBlow s _
    · unfold State.fuseFail
      dsimp only
      split
      · exact ⟨rfl, setHash_le _ _ _, id⟩
      · split
        · exact ⟨rfl, setArb_le _ _ _, id⟩
        · exact keeps_refl s

end Sys2Proof.Laws
end

