-- ==== Sys2Proof/Tests/Slice0.lean ====
section
/-! SUPPORT. For every statement with hypotheses a concrete state and operands that meet them; commands that are not well formed; the
spec's worked examples; single steps. Every expected value comes from the spec, at the rule that the theorem's comment names. -/

namespace Sys2Proof.Tests

open Sys2Proof.Machine Sys2Proof.Laws

set_option maxRecDepth 100000
set_option Elab.async false

/-! ### States and messages that the witnesses use -/

/-- The registers of that state that differ from their reset values: the controls' enables, every rail, island and clock good, Day at
Full, one memory region and every fixed block open to all, and every unit with the secure world. -/
def upRegs : Tab Word :=
  [(Reg.PWR_STATE, 0x303), (Reg.PWR_RAIL_PG, 0xFFFFFFFFFF), (Reg.PWR_ISLAND_PG, 0xFFFFFFFFFF), (Reg.CLK_STAT, 0xFF),
   (Reg.GRD_CTRL, 0x8030001), (Reg.VNK_CTRL, 0x30001), (Reg.SNP_CTRL, 0x3840001), (Reg.LSI_CTRL, 1), (Reg.SWC_CTRL, 1),
   (Reg.CAN_CTRL 0, 0x4400000000), (Reg.DMC_STAT, 1), (Reg.WLD_CTRL, 1), (Reg.WLD_RGN_BASE 0, 0x8000000000),
   (Reg.WLD_RGN_LIMIT 0, 0xFFFFFFFFFF), (Reg.WLD_RGN_ACC 0, 0xFFFFFFFFFF)] ++
    (List.range 18).map (fun u => (Reg.WLD_UNIT_OWN (25 + u), 0x100000000)) ++ (List.range 17).map fun b => (Reg.WLD_FIXED b, 0xFFFFFFFFFF)

/-- A powered state at Full in Day: every rail good, Crest in TRIPLE, VM 0 running, one memory region open to all, loop cycle 1 000
passed. -/
def up : Hw :=
  let core : Core := { Core.crestInit with inReset := false }
  { regs := upRegs, lc := 1000, cycled := true, pwr := { cause := 1 }, vms := [(0, { state := .running, declared := true })],
    crest := [(0, core), (1, core), (2, core)], app := [(0, { Core.appInit with inReset := false })],
    eng := [(0, { Engine.init with task := some { kind := .step } })] }

/-- That state with a change. -/
def on (f : Hw → Hw) : State := { hw := f up }

/-- That state with ring 0 closed over ports 0 and 1, both aligned, cycling in ring cycle 100, positions 0 and 128 declared, one
spare slot and two windows. -/
def ringUp : Hw :=
  let h := ((up.setReg (Reg.VNK_RING_CFG 0) 0x140).setReg (Reg.VNK_RING_SEG 0) 0x0101010002).setReg Reg.VNK_CYCLE 100
  let h := ((h.setBit (Reg.VNK_PORT_STAT 0) 5).setBit (Reg.VNK_PORT_STAT 1) 5).setBit (Reg.VNK_RING_STAT 0) 22
  let h := (h.setBit (Reg.VNK_RING_DECL 0 0) 0).setBit (Reg.VNK_RING_DECL 0 3) 8
  let b : Option Bind := some { uid := 7, aux := false, hop := 1 }
  let c : RingCfg := { cfg := 0, seg := 0, start := 0, decl := [], peerId := 5, bind := [(0, b)], allow := [], sparePos := [3], dAB := 0, dBA := 0 }
  { h with cfg := { h.cfg with rings := [(0, some c)] } }

/-- A frame that a state's end A of ring 0 finds well formed. -/
def rx (h : Hw) (type pos sof : Nat) (payload : List Byte) : RxFrame :=
  { arr := 320 * sof, bytes := h.frameBytes 0 type true false pos (h.ringLc 0 h.cycle) payload, viol := 0, eof := true }

/-- A KOP message of a type, of session 0, with a body of zeros; and what it reads as. -/
def kmsg (t n : Nat) : List Byte := [0x4B, 0x50, 1, BitVec.ofNat 8 t, 0, 0, 0, 0, 0, 0, 0, 0, 0, BitVec.ofNat 8 n, 0, 0] ++ List.replicate n 0
def kval (t n : Nat) : KopMsg := { type := t, id := 0, seq := 0, body := List.replicate n 0, header := (kmsg t n).take 16 }

/-- A root certificate's fields: role 3, every device, key 0. -/
def cert0 : List Byte := [1, 3, 0xFF, 0xFF] ++ List.replicate 116 0

theorem Option.any_wit {α : Type} {p : α → Bool} {o : Option α} (h : o.any p = true) : ∃ x, o = some x ∧ p x = true := by
  cases o with
  | none => cases h
  | some x => exact ⟨x, rfl, h⟩

/-- What a read object gives. -/
def readsAs : ObjRead → List Byte × Option Nat
  | .value v lc => (v, lc)
  | _ => ([], none)

/-- That state with application core 0 in a STATUS, with registers. -/
def appAt (status : Nat) (g : Tab Word) : State :=
  on fun h => { h with app := [(0, { Core.appInit with inReset := false, status := word status, g := g })] }

/-- That state with a task on engine 0 and the register g1. -/
def engAt (t : Task) (g1 : Nat) : State :=
  on fun h => h.setEngine 0 { h.engine 0 with task := some t, core := { (h.engine 0).core with g := [(1, word g1)] } }

theorem fetches_of {s : State} {c : CoreId} (P : State → Prop) (h1 : s.hw.running c = true) (h2 : (s.fetch c).2 = none) (h3 : P (s.fetch c).1) :
    ∃ m, s.Fetches c m ∧ P m := ⟨_, ⟨h1, Prod.ext rfl h2⟩, h3⟩

theorem translate_of {m : State} {c : CoreId} {va : Word} {w : Want} {x : Xlat} (P : State → Prop) (h : (m.translate c va w).2 = x)
    (h3 : P (m.translate c va w).1) : ∃ m2, m.translate c va w = (m2, x) ∧ P m2 := ⟨_, Prod.ext rfl h, h3⟩

/-! ### Hypotheses that concrete states meet -/

theorem witness_ByteAndCountOperationsWriteTheirResult :
    ∃ idx : Fin 8, (idx.val ≤ 4) :=
  ⟨0, by decide +kernel⟩

theorem witness_ImmediateOperationsWriteTheirResult :
    ∃ n, (n ≤ 39) :=
  ⟨0, by decide +kernel⟩

theorem witness_AccumulatorOperationsAreExact :
    (∃ rs1 : GReg, ∃ rs2 : GReg, (rs1.val < 31 ∧ rs2.val < 31)) ∧
    (∃ sh : Fin 128, (sh.val ≤ 56)) ∧
    (∃ sh : Fin 128, (sh.val ≤ 95)) :=
  ⟨⟨0, 0, by decide +kernel⟩,
   ⟨0, by decide +kernel⟩,
   ⟨0, by decide +kernel⟩⟩

theorem witness_RoundedOperationsWriteTheNearestInteger :
    (∃ sh : Fin 128, (sh.val ≤ 95)) ∧
    (∃ sh : Fin 128, (sh.val ≤ 79)) ∧
    (∃ sh : Fin 128, (sh.val ≤ 56)) ∧
    (∃ sh : Fin 128, (sh.val ≤ 39)) ∧
    (∃ d : Int, (0 < d)) ∧
    (∃ n : Int, ∃ d : Int, (0 < d) ∧ ((2 * (n - d * rhe n d) = d ∨ 2 * (n - d * rhe n d) = -d))) :=
  ⟨⟨0, by decide +kernel⟩,
   ⟨0, by decide +kernel⟩,
   ⟨0, by decide +kernel⟩,
   ⟨0, by decide +kernel⟩,
   ⟨1, by decide +kernel⟩,
   ⟨1, 2, by decide +kernel⟩⟩

theorem witness_FieldsOutOfRangeRaiseIllegal :
    (∃ c : CoreId, ∃ idx : Fin 8, (c.isEngine = false) ∧ (5 ≤ idx.val)) ∧
    (∃ c : CoreId, ∃ imm : BitVec 24, (c.isEngine = false) ∧ (39 < imm.toNat % 64 ∨ imm.toNat / 64 % 4 = 3 ∨ 256 ≤ imm.toNat)) ∧
    (∃ c : CoreId, ∃ rs1 : GReg, ∃ rs2 : GReg, (c.isEngine = false) ∧ (rs1.val = 31 ∨ rs2.val = 31)) ∧
    (∃ c : CoreId, ∃ sh : Fin 128, (c.isEngine = false) ∧ (56 < sh.val)) ∧
    (∃ c : CoreId, ∃ sh : Fin 128, (c.isEngine = false) ∧ (95 < sh.val)) ∧
    (∃ c : CoreId, ∃ sh : Fin 128, (c.isEngine = false) ∧ (2 < sh.val)) ∧
    (∃ c : CoreId, ∃ sh : Fin 128, (c.isEngine = false) ∧ (79 < sh.val)) ∧
    (∃ c : CoreId, ∃ sh : Fin 128, (c.isEngine = false) ∧ (39 < sh.val)) :=
  ⟨⟨.crest 0, 5, by decide +kernel⟩,
   ⟨.crest 0, 63, by decide +kernel⟩,
   ⟨.crest 0, 31, 0, by decide +kernel⟩,
   ⟨.crest 0, 57, by decide +kernel⟩,
   ⟨.crest 0, 96, by decide +kernel⟩,
   ⟨.crest 0, 3, by decide +kernel⟩,
   ⟨.crest 0, 80, by decide +kernel⟩,
   ⟨.crest 0, 40, by decide +kernel⟩⟩

theorem witness_BranchesAndCallsMoveThePc :
    ∃ c : CoreId, ∃ s : State, ∃ m : State, (s.Fetches c m) :=
  ⟨.crest 0, { hw := up }, (State.fetch ({ hw := up } : State) (.crest 0)).1, ⟨by decide +kernel,
    Prod.ext rfl (by decide +kernel)⟩⟩

theorem witness_GeneralRegistersHoldWhatIsWritten :
    (∃ r, (r ≠ 0)) ∧
    (∃ r : GReg, ∃ q : GReg, (q ≠ r)) :=
  ⟨⟨1, by decide +kernel⟩,
   ⟨0, 1, by decide +kernel⟩⟩

theorem witness_ControlRegisterInstructionsExchangeValues :
    (∃ c : CoreId, ∃ s : State, ∃ m : State, ∃ n : Fin 128, (s.Fetches c m) ∧ (m.hw.crUse c n false = .ok)) ∧
    (∃ c : CoreId, ∃ s : State, ∃ m : State, ∃ n : Fin 128, (s.Fetches c m) ∧ (m.hw.crUse c n true = .ok) ∧ (n.val ≠ 59)) ∧
    (∃ c : CoreId, ∃ s : State, ∃ m : State, ∃ n : Fin 128, (s.Fetches c m) ∧ (c.isEngine = false) ∧ (m.hw.crUse c n false = .privilege)) ∧
    (∃ c : CoreId, ∃ s : State, ∃ m : State, ∃ n : Fin 128, (s.Fetches c m) ∧ (c.isEngine = false) ∧ (m.hw.crUse c n true = .privilege)) ∧
    (∃ c : CoreId, ∃ s : State, ∃ m : State, ∃ n : Fin 128, (s.Fetches c m) ∧ (c.isEngine = false) ∧ (m.hw.crUse c n true = .illegal)) :=
  ⟨⟨.crest 0, { hw := up }, (State.fetch ({ hw := up } : State) (.crest 0)).1, 0, ⟨by decide +kernel,
     Prod.ext rfl (by decide +kernel)⟩, by decide +kernel⟩,
   ⟨.crest 0, { hw := up }, (State.fetch ({ hw := up } : State) (.crest 0)).1, 33, ⟨by decide +kernel,
     Prod.ext rfl (by decide +kernel)⟩, by decide +kernel, by decide +kernel⟩,
   ⟨.app 0, (on fun h => { h with app := [(0, { Core.appInit with inReset := false, status := 0 })] }),
     (State.fetch ((on fun h => { h with app := [(0, { Core.appInit with inReset := false, status := 0 })] }) : State) (.app 0)).1,
     33, ⟨by decide +kernel, Prod.ext rfl (by decide +kernel)⟩, by decide +kernel, by decide +kernel⟩,
   ⟨.app 0, (on fun h => { h with app := [(0, { Core.appInit with inReset := false, status := 0 })] }),
     (State.fetch ((on fun h => { h with app := [(0, { Core.appInit with inReset := false, status := 0 })] }) : State) (.app 0)).1,
     33, ⟨by decide +kernel, Prod.ext rfl (by decide +kernel)⟩, by decide +kernel, by decide +kernel⟩,
   ⟨.crest 0, { hw := up }, (State.fetch ({ hw := up } : State) (.crest 0)).1, 0, ⟨by decide +kernel,
     Prod.ext rfl (by decide +kernel)⟩, by decide +kernel, by decide +kernel⟩⟩

theorem witness_TrapsTakeTheirException :
    (∃ c : CoreId, ∃ s : State, ∃ m : State, (c.isEngine = false) ∧ (s.Fetches c m)) ∧
    (∃ m, (appAt 5 []).Fetches (.app 0) m ∧ (m.hw.coreOf (.app 0)).ns = true ∧ 1 ≤ (m.hw.coreOf (.app 0)).level ∧ m.invasive (.app 0) = false ∧ (m.hw.coreOf (.app 0)).rettOk false ((m.hw.coreOf (.app 0)).crAt (8 * (m.hw.coreOf (.app 0)).level + 4)) = false) ∧
    (∃ m, (appAt 1 []).Fetches (.app 0) m ∧ (m.hw.coreOf (.app 0)).ns = false ∧ 1 ≤ (m.hw.coreOf (.app 0)).level ∧ (m.hw.coreOf (.app 0)).rettOk false ((m.hw.coreOf (.app 0)).crAt (8 * (m.hw.coreOf (.app 0)).level + 4)) = true) ∧
    (∃ m, (appAt 4 []).Fetches (.app 0) m ∧ (m.hw.coreOf (.app 0)).ns = true ∧ (m.hw.coreOf (.app 0)).level = 0) ∧
    (∃ m, (({ hw := up } : State)).Fetches (.crest 0) m ∧ m.hw.members (.crest 0) = [.crest 0, .crest 1, .crest 2]) ∧
    (∃ m, (on fun h => h.setReg Reg.WLD_DBG (BitVec.allOnes 40)).Fetches (.app 0) m ∧ m.invasive (.app 0) = true) :=
  ⟨⟨.crest 0, { hw := up }, (State.fetch ({ hw := up } : State) (.crest 0)).1, by decide +kernel, ⟨by decide +kernel,
     Prod.ext rfl (by decide +kernel)⟩⟩,
   fetches_of _ (by decide +kernel) (by decide +kernel) (by decide +kernel),
   fetches_of _ (by decide +kernel) (by decide +kernel) (by decide +kernel),
   fetches_of _ (by decide +kernel) (by decide +kernel) (by decide +kernel),
   fetches_of _ (by decide +kernel) (by decide +kernel) (by decide +kernel),
   fetches_of _ (by decide +kernel) (by decide +kernel) (by decide +kernel)⟩

theorem witness_ExceptionEntrySavesAndVectors :
    ∃ code : Nat, (1 ≤ code) ∧ (code ≤ 0x0C) :=
  ⟨1, by decide +kernel⟩

theorem witness_ReturnRestoresTheSavedState :
    (∃ k : Core, k.level = 3 ∧ (k.crAt 28).getLsbD 2 = true ∧ k.shadow = none) ∧
    (∃ (k : Core) (b : Shadow), k.level = 3 ∧ (k.crAt 28).getLsbD 2 = true ∧ k.shadow = some b ∧ b.byTrap3 = false) ∧
    (∃ k : Core, ¬(k.level = 3 ∧ (k.crAt (8 * k.level + 4)).getLsbD 2 = true)) :=
  ⟨⟨{ Core.appInit with status := 3, cr := [(28, 4)] }, by decide +kernel⟩,
   ⟨{ Core.appInit with status := 3, cr := [(28, 4)], shadow := some { g := [], acc := [], flags := 0, byTrap3 := false } },
     _, by decide +kernel, by decide +kernel, rfl, rfl⟩,
   ⟨Core.appInit, by decide +kernel⟩⟩

theorem witness_BarriersIdleAndTranslationDrops :
    (∃ c : CoreId, ∃ s : State, ∃ m : State, (s.Fetches c m)) ∧
    (∃ m, (appAt 6 []).Fetches (.app 0) m ∧ 2 ≤ (m.hw.coreOf (.app 0)).level) ∧
    (∃ m, (appAt 5 []).Fetches (.app 0) m ∧ 1 ≤ (m.hw.coreOf (.app 0)).level ∧ (m.hw.coreOf (.app 0)).level < 2) ∧
    (∃ m, (appAt 4 []).Fetches (.app 0) m ∧ (m.hw.coreOf (.app 0)).level < 1) :=
  ⟨⟨.crest 0, { hw := up }, (State.fetch ({ hw := up } : State) (.crest 0)).1, ⟨by decide +kernel,
     Prod.ext rfl (by decide +kernel)⟩⟩,
   fetches_of _ (by decide +kernel) (by decide +kernel) (by decide +kernel),
   fetches_of _ (by decide +kernel) (by decide +kernel) (by decide +kernel),
   fetches_of _ (by decide +kernel) (by decide +kernel) (by decide +kernel)⟩

theorem witness_LoadsAndStoresOfApplicationCores :
    (∃ k : Fin 8, ∃ s : State, ∃ m : State, ∃ pa : Nat, (s.Fetches (.app k) m) ∧ (State.isPeripheral pa = false)) ∧
    (∃ m, (appAt 5 [(1, 0x100000000)]).Fetches (.app 0) m ∧ ∃ m2, m.translate (.app 0) ((m.hw.appCore 0).gpr 1) .load = (m2, .ok 0x100000000 false) ∧ m2.hw.memAllows (m2.hw.coreWho (.app 0)) false 0x100000000 = true ∧ m2.memRead 0x100000000 = .ok 0) ∧
    (∃ m, (appAt 5 [(1, 0x100000000)]).Fetches (.app 0) m ∧ ∃ m2, m.translate (.app 0) ((m.hw.appCore 0).gpr 1) .store = (m2, .ok 0x100000000 false) ∧ m2.hw.memAllows (m2.hw.coreWho (.app 0)) true 0x100000000 = true ∧ m2.hw.storable 0x100000000 = true) ∧
    (∃ m, (({ appAt 5 [(1, 0x100000000)] with hw := Hw.setReg (appAt 5 [(1, 0x100000000)]).hw (Reg.WLD_RGN_LIMIT 0) 0x4000 } : State)).Fetches (.app 0) m ∧ ∃ m2, m.translate (.app 0) ((m.hw.appCore 0).gpr 1) .load = (m2, .ok 0x100000000 false) ∧ m2.hw.memAllows (m2.hw.coreWho (.app 0)) false 0x100000000 = false) ∧
    (∃ m, (({ appAt 5 [(1, 0x100000000)] with hw := Hw.setReg (appAt 5 [(1, 0x100000000)]).hw (Reg.WLD_RGN_LIMIT 0) 0x4000 } : State)).Fetches (.app 0) m ∧ ∃ m2, m.translate (.app 0) ((m.hw.appCore 0).gpr 1) .store = (m2, .ok 0x100000000 false) ∧ m2.hw.memAllows (m2.hw.coreWho (.app 0)) true 0x100000000 = false) :=
  ⟨⟨0, { hw := up }, (State.fetch ({ hw := up } : State) (.app 0)).1, 0, ⟨by decide +kernel,
     Prod.ext rfl (by decide +kernel)⟩, by decide +kernel⟩,
   fetches_of _ (by decide +kernel) (by decide +kernel) (translate_of _ (by decide +kernel) (by decide +kernel)),
   fetches_of _ (by decide +kernel) (by decide +kernel) (translate_of _ (by decide +kernel) (by decide +kernel)),
   fetches_of _ (by decide +kernel) (by decide +kernel) (translate_of _ (by decide +kernel) (by decide +kernel)),
   fetches_of _ (by decide +kernel) (by decide +kernel) (translate_of _ (by decide +kernel) (by decide +kernel))⟩

theorem witness_AtomicsExchangeOneWord :
    (∃ k : Fin 8, ∃ s : State, ∃ m : State, (s.Fetches (.app k) m)) ∧
    (∃ m, (appAt 5 [(1, 0x100000000)]).Fetches (.app 0) m ∧ ∃ m2, m.translate (.app 0) ((m.hw.appCore 0).gpr 1) .atomic = (m2, .ok 0x100000000 false) ∧ m2.hw.memAllows (m2.hw.coreWho (.app 0)) true 0x100000000 = true ∧ m2.hw.storable 0x100000000 = true ∧ m2.memRead 0x100000000 = .ok 0 ∧ (m2.hw.appCore 0).gpr 2 = 0) ∧
    (∃ m, (appAt 5 [(1, 0x100000000), (2, 1)]).Fetches (.app 0) m ∧ ∃ m2, m.translate (.app 0) ((m.hw.appCore 0).gpr 1) .atomic = (m2, .ok 0x100000000 false) ∧ m2.hw.memAllows (m2.hw.coreWho (.app 0)) true 0x100000000 = true ∧ m2.hw.storable 0x100000000 = true ∧ m2.memRead 0x100000000 = .ok 0 ∧ (m2.hw.appCore 0).gpr 2 = 1) ∧
    (∃ m, (appAt 5 [(1, 0x10000000)]).Fetches (.app 0) m ∧ ∃ m2, m.translate (.app 0) ((m.hw.appCore 0).gpr 1) .atomic = (m2, .ok 0x10000000 true) ∧ True) :=
  ⟨⟨0, { hw := up }, (State.fetch ({ hw := up } : State) (.app 0)).1, ⟨by decide +kernel,
     Prod.ext rfl (by decide +kernel)⟩⟩,
   fetches_of _ (by decide +kernel) (by decide +kernel) (translate_of _ (by decide +kernel) (by decide +kernel)),
   fetches_of _ (by decide +kernel) (by decide +kernel) (translate_of _ (by decide +kernel) (by decide +kernel)),
   fetches_of _ (by decide +kernel) (by decide +kernel) (translate_of _ (by decide +kernel) (by decide +kernel))⟩

theorem witness_EnginePointInstructions :
    (∃ e : Fin 512, ∃ s : State, ∃ m : State, ∃ t : Task, (s.Fetches (.engine e) m) ∧ ((m.hw.engine e).task = some t)) ∧
    (∃ m, (engAt { kind := .audit } 0xFF).Fetches (.engine 0) m ∧ (m.hw.engine 0).task = some { kind := .audit } ∧ ((m.hw.engine 0).core.gpr 1).toNat < 0x100 ∧ (m.hw.ram (frameAddr 0 0 0xFF)).poisoned = false) ∧
    (∃ m, (engAt { kind := .step, spec := true, ckpt := true, wbound := 1 } 0).Fetches (.engine 0) m ∧ (m.hw.engine 0).task = some { kind := .step, spec := true, ckpt := true, wbound := 1 }) ∧
    (∃ m, (engAt { kind := .selftest } 0xFF).Fetches (.engine 0) m ∧ (m.hw.engine 0).task = some { kind := .selftest } ∧ (m.hw.ram (frameAddr 0 0 0xFF)).poisoned = false) :=
  ⟨⟨0, { hw := up }, (State.fetch ({ hw := up } : State) (.engine 0)).1, { kind := .step }, ⟨by decide +kernel,
     Prod.ext rfl (by decide +kernel)⟩, by decide +kernel⟩,
   fetches_of _ (by decide +kernel) (by decide +kernel) (by decide +kernel),
   fetches_of _ (by decide +kernel) (by decide +kernel) (by decide +kernel),
   fetches_of _ (by decide +kernel) (by decide +kernel) (by decide +kernel)⟩

theorem witness_EngineTaskInstructions :
    (∃ e : Fin 512, ∃ s : State, ∃ m : State, ∃ t : Task, (s.Fetches (.engine e) m) ∧ ((m.hw.engine e).task = some t)) ∧
    (∃ m, (engAt { kind := .step, cold := true } 0x7FF).Fetches (.engine 0) m ∧ (m.hw.engine 0).task = some { kind := .step, cold := true } ∧ m.hw.streamOk { kind := .step, cold := true } false 0 ((m.hw.engine 0).core.gpr 1).toNat 0x100 1 = none) ∧
    (∃ m, (engAt { kind := .step, cold := true } 0x7FF).Fetches (.engine 0) m ∧ (m.hw.engine 0).task = some { kind := .step, cold := true } ∧ m.hw.streamOk { kind := .step, cold := true } true 1 ((m.hw.engine 0).core.gpr 1).toNat 8191 1 = none ∧ m.hw.streamDrain 0 (m.hw.engine 0).streams.length = (m.hw, none)) ∧
    (∃ m, (engAt { kind := .rollback } 0).Fetches (.engine 0) m ∧ (m.hw.engine 0).task = some { kind := .rollback } ∧ poisonedUndo (m.hw.engine 0).undo (undoFrom 0 0 (m.hw.engine 0).undo).1 = none) ∧
    (∃ m, (engAt { kind := .release } 0).Fetches (.engine 0) m ∧ (m.hw.engine 0).task = some { kind := .release } ∧ (m.hw.engine 0).streams = []) :=
  ⟨⟨0, { hw := up }, (State.fetch ({ hw := up } : State) (.engine 0)).1, { kind := .step }, ⟨by decide +kernel,
     Prod.ext rfl (by decide +kernel)⟩, by decide +kernel⟩,
   fetches_of _ (by decide +kernel) (by decide +kernel) (by decide +kernel),
   fetches_of _ (by decide +kernel) (by decide +kernel) (by decide +kernel),
   fetches_of _ (by decide +kernel) (by decide +kernel) (by decide +kernel),
   fetches_of _ (by decide +kernel) (by decide +kernel) (by decide +kernel)⟩

theorem witness_EngineDataAccesses :
    (∃ e : Fin 512, ∃ s : State, ∃ m : State, ∃ t : Task, (s.Fetches (.engine e) m) ∧ ((m.hw.engine e).task = some t) ∧ ((m.hw.engine e).streams = [])) ∧
    (∃ m, (engAt { kind := .step } 0x7FF).Fetches (.engine 0) m ∧ (m.hw.engine 0).task = some { kind := .step } ∧ ((m.hw.engine 0).core.gpr 1).toNat < 0x800 ∧ (Tabs.get (fun _ => ({} : Container)) (m.hw.engine 0).work 0x7FF).poisoned = false) ∧
    (∃ m, (engAt { kind := .selftest } 0xE7FFF).Fetches (.engine 0) m ∧ (m.hw.engine 0).task = some { kind := .selftest } ∧ ((m.hw.engine 0).core.gpr 1).toNat = 0xE7FFF ∧ (m.hw.ram (ridgeWord 0 0x67FFF)).poisoned = false) ∧
    (∃ m, (engAt { kind := .step } 0x1000).Fetches (.engine 0) m ∧ (m.hw.engine 0).task = some { kind := .step } ∧ ((m.hw.engine 0).core.gpr 1).toNat = 0x1000) ∧
    (∃ m, (engAt { kind := .step } 0x100000).Fetches (.engine 0) m ∧ (m.hw.engine 0).task = some { kind := .step } ∧ ((m.hw.engine 0).core.gpr 1).toNat = 0x100000) :=
  ⟨⟨0, { hw := up }, (State.fetch ({ hw := up } : State) (.engine 0)).1, { kind := .step }, ⟨by decide +kernel,
     Prod.ext rfl (by decide +kernel)⟩, by decide +kernel, by decide +kernel⟩,
   fetches_of _ (by decide +kernel) (by decide +kernel) (by decide +kernel),
   fetches_of _ (by decide +kernel) (by decide +kernel) (by decide +kernel),
   fetches_of _ (by decide +kernel) (by decide +kernel) (by decide +kernel),
   fetches_of _ (by decide +kernel) (by decide +kernel) (by decide +kernel)⟩

theorem witness_ResetsBootTheDevice :
    (∃ s : State, (s.hw.booted = false) ∧ ((s.hw.bit Reg.PWR_RAIL_PG 0 && !s.hw.aoOn) = false)) ∧
    (∃ s : State, (s.hw.booted = true) ∧ (s.hw.pwr.gasp = true)) ∧
    (∃ s : State, (s.hw.bit Reg.PWR_RAIL_PG 0 = true)) ∧
    (∃ s : State, (s.hw.aoOn = false) ∧ (s.hw.bit Reg.PWR_RAIL_FAIL 1 = true) ∧ (s.hw.bit Reg.PWR_RAIL_PG 0 = true)) ∧
    (∃ s : State, (s.hw.booted = true) ∧ (s.hw.pwr.gold = true) ∧ (4 ≤ s.hw.pwr.failed) ∧ (s.hw.level < 2) ∧ ((s.hw.pwr.lockout = 0 ∨ s.hw.pwr.lockout + 60000 ≤ s.hw.poweredMs + 1))) ∧
    (∃ s : State, (s.hw.booted = true) ∧ (s.hw.sysOn = true) ∧ (s.debugPort = true) ∧ (bitN s.wldDbg.toNat 3 = true)) ∧
    (∃ s : State, (s.hw.booted = true) ∧ (s.hw.sysOn = true) ∧ (s.fuse.dbgLock = true)) ∧
    (∃ s : State, (s.hw.pwr.gasp = true)) :=
  ⟨⟨(on fun h => { h with pwr := { h.pwr with cause := 0 } }), by decide +kernel⟩,
   ⟨(on fun h => { h with pwr := { h.pwr with gasp := true } }), by decide +kernel⟩,
   ⟨(on fun h => h.setBit Reg.PWR_RAIL_PG 0), by decide +kernel⟩,
   ⟨(on fun h => let h : Hw := (h.setFld Reg.PWR_RAIL_PG Fld.PWR_RAIL_PG_VAO 0); let h : Hw := (h.setBit Reg.PWR_RAIL_FAIL 1); let h : Hw := (h.setBit Reg.PWR_RAIL_PG 0); h),
     by decide +kernel⟩,
   ⟨(on fun h => let h : Hw := ({ h with pwr := { h.pwr with gold := true } }); let h : Hw := ({ h with pwr := { h.pwr with failed := 4 } }); let h : Hw := (h.setFld Reg.PWR_STATE Fld.PWR_STATE_LEVEL 1); h),
     by decide +kernel⟩,
   ⟨(on fun h => h.setBit Reg.WLD_DBG 3), by decide +kernel⟩,
   ⟨{ hw := up, fuse := { dbgLock := true } }, by decide +kernel⟩,
   ⟨(on fun h => { h with pwr := { h.pwr with gasp := true } }), by decide +kernel⟩⟩

theorem witness_PowerAndClockEventsHaveTheirConsequences :
    (∃ s : State, (s.hw.booted = true) ∧ (s.hw.pstate ≠ psDusk) ∧ (s.hw.bit Reg.PWR_VHOLD 16 = true)) ∧
    (∃ r : Fin 25, ∃ s : State, (s.hw.aoOn = true) ∧ (3 ≤ r.val) ∧ (r.val < 8) ∧ (s.hw.bit Reg.PWR_RAIL_PG r = true) ∧ (s.hw.pstate ≠ psNight)) ∧
    (∃ r : Fin 25, ∃ s : State, (s.hw.aoOn = true) ∧ (9 ≤ r.val) ∧ (s.hw.islandOn (r - 9) = true)) ∧
    (∃ r : Fin 25, ∃ s : State, (s.hw.booted = true) ∧ (2 ≤ r.val) ∧ (s.hw.pstate ≠ psNight) ∧ (s.hw.pstate ≠ psDawn) ∧ (s.hw.bit Reg.PWR_RAIL_FAIL r = true)) ∧
    (∃ c : Fin 8, ∃ s : State, (s.hw.booted = true) ∧ (s.hw.pstate ≠ psNight) ∧ (c.val ≠ 0) ∧ (bitN s.hw.pwr.restarted c = false)) ∧
    (∃ c : Fin 8, ∃ s : State, (s.hw.booted = true) ∧ (s.hw.pstate ≠ psNight) ∧ (c.val ≠ 0) ∧ (bitN s.hw.pwr.restarted c = true)) ∧
    (∃ c : Fin 8, ∃ s : State, (s.hw.booted = true) ∧ (c.val ≠ 0) ∧ (s.hw.bit Reg.CLK_STAT c = true)) ∧
    (∃ s : State, (s.hw.booted = true) ∧ (s.hw.levelNow < s.hw.level)) ∧
    (∃ fail, ∃ s : State, (s.hw.booted = true) ∧ ((s.hw.pwr.stuck = false ∨ s.hw.level < s.hw.pwr.top)) ∧ ((s.hw.pstate = psBoot ∨ s.hw.pstate = psDay)) ∧ ((s.levelRise fail).hw.pstate ≠ psDawn)) ∧
    (∃ s : State, (s.hw.aoOn = true)) :=
  ⟨⟨(on fun h => h.setBit Reg.PWR_VHOLD 16), by decide +kernel⟩,
   ⟨3, (on fun h => h.setBit Reg.PWR_RAIL_PG 3), by decide +kernel⟩,
   ⟨9, (on fun h => h.setBit Reg.PWR_ISLAND_PG (9 - 9)), by decide +kernel⟩,
   ⟨2, (on fun h => h.setBit Reg.PWR_RAIL_FAIL 2), by decide +kernel⟩,
   ⟨1, { hw := up }, by decide +kernel⟩,
   ⟨1, (on fun h => { h with pwr := { h.pwr with restarted := 2 } }), by decide +kernel⟩,
   ⟨1, (on fun h => h.setBit Reg.CLK_STAT 1), by decide +kernel⟩,
   ⟨{ hw := up }, by decide +kernel⟩,
   ⟨default, { hw := up }, by decide +kernel⟩,
   ⟨{ hw := up }, by decide +kernel⟩⟩

theorem witness_NightAndDayCommandsMoveThePowerState :
    (∃ who : Who, ∃ s : State, (s.hw.MayWrite who Reg.PWR_CMD) ∧ ((who = .secure ∨ who = .crest)) ∧ (s.hw.pwrBusy = false) ∧ (s.hw.pstate = psDay)) ∧
    (∃ s : State, (s.hw.booted = true) ∧ (s.hw.pstate = psDay) ∧ (s.hw.cmdDue 2 0x03000100 = true)) ∧
    (∃ s : State, (s.hw.booted = true) ∧ (s.hw.pstate = psDay) ∧ (s.hw.cmdDue 2 0x03000100 = false) ∧ (s.hw.cmdDue 1 0x03000000 = true) ∧ (s.hw.dwelled = true) ∧ (s.hw.policy ≠ 0)) ∧
    (∃ s : State, (s.hw.booted = true) ∧ (s.hw.pstate = psDay) ∧ (s.hw.cmdDue 2 0x03000100 = false) ∧ (s.hw.cmdDue 1 0x03000000 = true) ∧ (s.hw.dwelled = false)) ∧
    (∃ d : Nat, ∃ s : State, (s.hw.pwr.dwellAt = some d) ∧ (s.hw.booted = true) ∧ (s.hw.pstate = psDay) ∧ (s.hw.policy = 2) ∧ (s.hw.dwelled = true) ∧ (d + 16 ≤ s.hw.lc) ∧ (s.hw.upd.act = none)) ∧
    (∃ s : State, (s.hw.booted = true) ∧ (s.hw.pstate = psDay) ∧ ((∃ n, s.hw.pwr.reset = some n ∧ n ≤ s.hw.lc))) ∧
    (∃ s : State, (s.hw.upd.install = false) ∧ (s.hw.booted = true) ∧ (s.hw.pstate = psDusk) ∧ (s.hw.pwr.gasp = false) ∧ (s.hw.duskCommitted = true) ∧ (s.hw.duskTarget = 1)) ∧
    (∃ s : State, (s.hw.upd.install = true) ∧ (s.hw.booted = true)) ∧
    (∃ s : State, (s.hw.booted = true) ∧ (s.hw.pstate = psNight) ∧ (s.hw.bit Reg.VNK_CTRL 1 = true) ∧ (s.hw.lc % 100 = 0) ∧ (s.hw.pwr.burstAt ≤ s.hw.lc) ∧ (s.hw.cycle ≠ s.hw.lc)) ∧
    (∃ src : BitVec 12, ∃ s : State, (s.hw.booted = true) ∧ (s.hw.pstate = psNight) ∧ ((s.hw.reg Reg.WAKE_TIMER).toNat = s.hw.lc) ∧ (s.hw.wakeable src.toNat ≠ [])) ∧
    (∃ fail : Fin 7, ∃ w : Hw, ∃ s : State, (s.hw.booted = true) ∧ (s.hw.pstate = psDawn) ∧ (s.hw.pwr.stuck = false) ∧ (fail.val = 0) ∧ (s.warm = some w) ∧ (s.hw.bit Reg.PWR_STATE 7 = true)) ∧
    (∃ fail : Fin 7, ∃ s : State, (s.hw.booted = true) ∧ (s.hw.pstate = psDawn) ∧ (s.hw.pwr.stuck = false) ∧ (fail.val ≠ 0)) :=
  ⟨⟨.secure, (on fun h => h.setFld Reg.PWR_STATE Fld.PWR_STATE_STATE psDay), ⟨by decide +kernel, by decide +kernel⟩,
     by decide +kernel, by decide +kernel, by decide +kernel⟩,
   ⟨(on fun h => let h : Hw := (h.setFld Reg.PWR_STATE Fld.PWR_STATE_STATE psDay); let h : Hw := ({ h with pwr := { h.pwr with cmds := [(2, 0)] } }); h),
     by decide +kernel⟩,
   ⟨(on fun h => let h : Hw := (h.setFld Reg.PWR_STATE Fld.PWR_STATE_STATE psDay); let h : Hw := ({ h with pwr := { h.pwr with cmds := [(1, 0)], quiet := 1000000 } }); let h : Hw := (h.setFld Reg.PWR_NIGHT_CFG Fld.PWR_NIGHT_CFG_POLICY 1); h),
     by decide +kernel⟩,
   ⟨(on fun h => let h : Hw := (h.setFld Reg.PWR_STATE Fld.PWR_STATE_STATE psDay); let h : Hw := ({ h with pwr := { h.pwr with cmds := [(1, 0)] } }); h),
     by decide +kernel⟩,
   ⟨0,
     (on fun h => let h : Hw := ({ h with pwr := { h.pwr with dwellAt := (some 0) } }); let h : Hw := (h.setFld Reg.PWR_STATE Fld.PWR_STATE_STATE psDay); let h : Hw := ({ h with upd := { h.upd with act := none } }); let h : Hw := (h.setFld Reg.PWR_NIGHT_CFG Fld.PWR_NIGHT_CFG_POLICY 2); let h : Hw := ({ h with pwr := { h.pwr with quiet := 1000000 } }); h),
     by decide +kernel⟩,
   ⟨(on fun h => let h : Hw := (h.setFld Reg.PWR_STATE Fld.PWR_STATE_STATE psDay); let h : Hw := ({ h with pwr := { h.pwr with reset := some 0 } }); h),
     by decide +kernel⟩,
   ⟨(on fun h => let h : Hw := ({ h with upd := { h.upd with install := false } }); let h : Hw := (h.setFld Reg.PWR_STATE Fld.PWR_STATE_STATE psDusk); let h : Hw := ({ h with pwr := { h.pwr with gasp := false } }); let h : Hw := (h.setFld Reg.PWR_STATE Fld.PWR_STATE_TARGET 1); h),
     by decide +kernel⟩,
   ⟨(on fun h => { h with upd := { h.upd with install := true } }), by decide +kernel⟩,
   ⟨(on fun h => let h : Hw := (h.setFld Reg.PWR_STATE Fld.PWR_STATE_STATE psNight); let h : Hw := (h.setBit Reg.VNK_CTRL 1); h),
     by decide +kernel⟩,
   ⟨1,
     (on fun h => let h : Hw := (h.setFld Reg.PWR_STATE Fld.PWR_STATE_STATE psNight); let h : Hw := (h.setReg Reg.WAKE_TIMER 1000); let h : Hw := (h.setBit Reg.WAKE_EN 0); h),
     by decide +kernel⟩,
   ⟨0, (up.setReg Reg.PWR_ISLAND_PG 0),
     { hw := (let h : Hw := up; let h : Hw := (h.setFld Reg.PWR_STATE Fld.PWR_STATE_STATE psDawn); let h : Hw := ({ h with pwr := { h.pwr with stuck := false } }); let h : Hw := (h.setBit Reg.PWR_STATE 7); h), warm := some (up.setReg Reg.PWR_ISLAND_PG 0) },
     by decide +kernel⟩,
   ⟨1,
     (on fun h => let h : Hw := (h.setFld Reg.PWR_STATE Fld.PWR_STATE_STATE psDawn); let h : Hw := ({ h with pwr := { h.pwr with stuck := false } }); h),
     by decide +kernel⟩⟩

theorem witness_GateRequestsActOrAreHeld :
    (∃ who : Who, ∃ block : Byte, ∃ s : State, (s.hw.MayWrite who Reg.PWR_GATE_REQ) ∧ (block.toNat ≤ 39) ∧ (whoCode who ≠ 0) ∧ (s.hw.gateOwner block.toNat = whoCode who) ∧ (s.hw.heldAgainst who block.toNat = false)) ∧
    (∃ who : Who, ∃ block : Byte, ∃ s : State, (s.hw.MayWrite who Reg.PWR_GATE_REQ) ∧ (block.toNat ≤ 39) ∧ (whoCode who ≠ 0) ∧ (s.hw.gateOwner block.toNat = whoCode who)) ∧
    (∃ who : Who, ∃ block : Byte, ∃ s : State, (s.hw.MayWrite who Reg.PWR_GATE_REQ) ∧ (block.toNat ≤ 39) ∧ (whoCode who ≠ 0) ∧ (s.hw.gateOwner block.toNat = whoCode who) ∧ (s.hw.heldAgainst who block.toNat = true)) :=
  ⟨⟨.secure, 39, { hw := up }, ⟨by decide +kernel, by decide +kernel⟩, by decide +kernel, by decide +kernel,
     by decide +kernel, by decide +kernel⟩,
   ⟨.secure, 39, { hw := up }, ⟨by decide +kernel, by decide +kernel⟩, by decide +kernel, by decide +kernel,
     by decide +kernel⟩,
   ⟨.secure, 39, (on fun h => h.setBit Reg.PWR_HOLD_CRS 39), ⟨by decide +kernel, by decide +kernel⟩,
     by decide +kernel, by decide +kernel, by decide +kernel, by decide +kernel⟩⟩

theorem witness_CheckpointsAreWrittenAndCommitted :
    (∃ s : State, (s.hw.norOn = true) ∧ (s.hw.ckpt = none)) ∧
    (∃ s : State, (s.hw.inState psDay = true) ∧ (s.hw.level = 3) ∧ (3600000 ≤ s.hw.fab.sinceCkpt) ∧ (s.hw.norOn = true) ∧ (s.hw.ckpt = none)) ∧
    (∃ k : Nat, ∃ s : State, (s.hw.ckpt = some k) ∧ (s.hw.norOn = true) ∧ (((List.range 16).filter fun j => ({ s with nor := s.nor.program (norCkpt + 0x110000 * k + 8 + 64 * (s.ckptWord k 5).toNat) (State.commitWord ((List.range (8 + 64 * (s.ckptWord k 5).toNat)).map fun w => s.ckptWord k w)), hw := { s.hw with ckpt := none } } : State).ckptWritten j).length ≤ 14)) :=
  ⟨⟨(on fun h => { h with ckpt := none }), by decide +kernel⟩,
   ⟨(on fun h => let h : Hw := (h.setFld Reg.PWR_STATE Fld.PWR_STATE_STATE psDay); let h : Hw := (h.setFld Reg.PWR_STATE Fld.PWR_STATE_LEVEL 3); let h : Hw := ({ h with fab := { h.fab with sinceCkpt := 3600000 } }); let h : Hw := ({ h with ckpt := none }); h),
     by decide +kernel⟩,
   ⟨0,
     { hw := (let h : Hw := up; let h : Hw := ({ h with ckpt := (some 0) }); h), nor := { words := [(norCkpt + 5, 0)] } },
     by decide +kernel⟩⟩

theorem witness_NorOperationsAndThePatrolComplete :
    (∃ who : Who, ∃ s : State, (s.hw.MayWrite who Reg.NOR_CMD) ∧ (State.norWho who ≠ 0) ∧ (s.hw.norOn = true) ∧ (s.hw.norOp = none) ∧ ((2 ≤ s.fuse.lifecycle → norActive ≤ s.hw.fld Reg.NOR_ADDR Fld.NOR_ADDR_WADDR)) ∧ (s.hw.fld Reg.NOR_LEN Fld.NOR_LEN_WORDS ≠ 0 ∧ s.hw.fld Reg.NOR_LEN Fld.NOR_LEN_WORDS ≤ 4194304 ∧ s.hw.fld Reg.NOR_ADDR Fld.NOR_ADDR_WADDR + s.hw.fld Reg.NOR_LEN Fld.NOR_LEN_WORDS ≤ norLast + 1) ∧ (s.hw.fld Reg.NOR_ADDR Fld.NOR_ADDR_WADDR % 0x10000 = 0 ∧ s.hw.fld Reg.NOR_LEN Fld.NOR_LEN_WORDS % 0x10000 = 0)) ∧
    (∃ who : Who, ∃ s : State, (s.hw.MayWrite who Reg.NOR_CMD) ∧ (State.norWho who ≠ 0) ∧ (s.hw.norOn = true) ∧ (s.hw.norOp = none) ∧ ((2 ≤ s.fuse.lifecycle → norActive ≤ s.hw.fld Reg.NOR_ADDR Fld.NOR_ADDR_WADDR)) ∧ (s.hw.fld Reg.NOR_LEN Fld.NOR_LEN_WORDS ≠ 0 ∧ s.hw.fld Reg.NOR_LEN Fld.NOR_LEN_WORDS ≤ 4194304 ∧ s.hw.fld Reg.NOR_ADDR Fld.NOR_ADDR_WADDR + s.hw.fld Reg.NOR_LEN Fld.NOR_LEN_WORDS ≤ norLast + 1) ∧ ((0x100000 ≤ s.hw.fld Reg.NOR_SRC Fld.NOR_SRC_SRC ∧ s.hw.fld Reg.NOR_SRC Fld.NOR_SRC_SRC + s.hw.fld Reg.NOR_LEN Fld.NOR_LEN_WORDS ≤ 0x180000) ∨ (dramBase ≤ s.hw.fld Reg.NOR_SRC Fld.NOR_SRC_SRC ∧ s.hw.fld Reg.NOR_SRC Fld.NOR_SRC_SRC + s.hw.fld Reg.NOR_LEN Fld.NOR_LEN_WORDS ≤ 0x180000000)) ∧ (s.hw.memAllows (if s.hw.masters.any (fun x => x.1 == Reg.NOR_SRC) then bitWho (Tabs.get (fun _ => 0) s.hw.masters Reg.NOR_SRC) else who) false (s.hw.fld Reg.NOR_SRC Fld.NOR_SRC_SRC) = true)) ∧
    (∃ who : Who, ∃ s : State, (s.hw.MayWrite who Reg.NOR_CMD) ∧ (State.norWho who ≠ 0) ∧ (s.hw.norOn = true) ∧ (s.hw.norOp = none) ∧ (2 ≤ s.fuse.lifecycle) ∧ (s.hw.fld Reg.NOR_ADDR Fld.NOR_ADDR_WADDR < norActive)) ∧
    (∃ who : Who, ∃ s : State, (s.hw.MayWrite who Reg.NOR_CMD) ∧ (State.norWho who ≠ 0) ∧ (s.hw.norOn = true)) ∧
    (∃ op : NorOp, ∃ s : State, (s.hw.norOp = some op) ∧ (s.hw.norOn = true) ∧ (op.erase = true)) ∧
    (∃ op : NorOp, ∃ s : State, (s.hw.norOp = some op) ∧ (s.hw.norOn = true) ∧ (op.erase = false)) ∧
    (∃ op : NorOp, ∃ s : State, (s.hw.norOp = some op) ∧ (s.hw.norOn = true)) ∧
    (∃ m : Scrubbed, ∃ s : State, ((s.hw.scrubbed m).2.2.2 = true) ∧ ((∀ e, m ≠ .localMem e))) ∧
    (∃ e, ∃ s : State, ((s.hw.scrubbed (.localMem e)).2.2.2 = true)) :=
  ⟨⟨.crest,
     (on fun h => let h : Hw := ({ h with norOp := none }); let h : Hw := (h.setFld Reg.NOR_LEN Fld.NOR_LEN_WORDS 65536); h),
     ⟨by decide +kernel, by decide +kernel⟩, by decide +kernel, by decide +kernel, by decide +kernel,
     by decide +kernel, by decide +kernel, by decide +kernel⟩,
   ⟨.crest,
     (on fun h => let h : Hw := ({ h with norOp := none }); let h : Hw := (h.setFld Reg.NOR_LEN Fld.NOR_LEN_WORDS 1); let h : Hw := (h.setFld Reg.NOR_SRC Fld.NOR_SRC_SRC 0x100000); h),
     ⟨by decide +kernel, by decide +kernel⟩, by decide +kernel, by decide +kernel, by decide +kernel,
     by decide +kernel, by decide +kernel, by decide +kernel, by decide +kernel⟩,
   ⟨.secure, { hw := (let h : Hw := up; let h : Hw := ({ h with norOp := none }); h), fuse := { lifecycle := 2 } },
     ⟨by decide +kernel, by decide +kernel⟩, by decide +kernel, by decide +kernel, by decide +kernel,
     by decide +kernel, by decide +kernel⟩,
   ⟨.secure, { hw := up }, ⟨by decide +kernel, by decide +kernel⟩, by decide +kernel, by decide +kernel⟩,
   ⟨({ erase := true, addr := 0, len := 65536, src := 0, who := 1 } : NorOp),
     (on fun h => { h with norOp := (some ((({ erase := true, addr := 0, len := 65536, src := 0, who := 1 } : NorOp)))) }),
     by decide +kernel⟩,
   ⟨({ erase := false, addr := 0x1800000, len := 4, src := 0x100000000, who := 1 } : NorOp),
     (on fun h => { h with norOp := (some ((({ erase := false, addr := 0x1800000, len := 4, src := 0x100000000, who := 1 } : NorOp)))) }),
     by decide +kernel⟩,
   ⟨({ erase := false, addr := 0, len := 65536, src := 0, who := 1 } : NorOp),
     (on fun h => { h with norOp := (some ((({ erase := false, addr := 0, len := 65536, src := 0, who := 1 } : NorOp)))) }),
     by decide +kernel⟩,
   ⟨.retentionSram, { hw := up }, by decide +kernel⟩,
   ⟨0, { hw := up }, by decide +kernel⟩⟩

theorem witness_TheSampleInstantAndTheCommitAdvanceTheCycle :
    (∃ s : State, (s.hw.booted = true) ∧ (s.hw.bit Reg.PWR_RAIL_PG 0 = true)) ∧
    (∃ h : Hw, ∃ w, (h.fab.ltCfg = some w)) ∧
    (∃ s : State, ∃ w : LcWrite, ∃ ob, (s.pendObj w = some ob)) ∧
    (∃ s : State, (s.hw.committable s.hw.commitNext = true)) ∧
    (∃ s : State, (s.hw.islandAuto = true) ∧ (s.hw.fab.evac = none) ∧ ((List.range 16).all (fun r => !s.hw.mayPowerOff r) = true)) ∧
    (∃ r : Nat, ∃ s : State, (s.hw.islandAuto = true) ∧ (s.hw.fab.evac = some r) ∧ (s.hw.bit Reg.FAB_ISLAND (16 + r) = true) ∧ (s.hw.islandOn r = true) ∧ (s.hw.islandPages r = [])) ∧
    (∃ r : Fin 16, ∃ s : State, (s.hw.fabOn = true) ∧ (s.hw.bit Reg.FAB_CTRL 0 = true) ∧ (s.hw.islandOn r = false) ∧ (s.hw.islandFailed r = false) ∧ ((s.hw.overloaded = true ∨ s.hw.unplaced = true ∨ s.hw.bit Reg.FAB_ISLAND (16 + r) = false))) ∧
    (∃ s : State, (s.hw.inState psDay = true) ∧ (s.hw.crestOn = true) ∧ (s.hw.carriesInputs s.hw.balCycle = true) ∧ (s.hw.crs.balAt ≠ s.hw.balCycle + 1) ∧ (s.hw.lcCommit ≠ 0)) :=
  ⟨⟨(on fun h => h.setBit Reg.PWR_RAIL_PG 0), by decide +kernel⟩,
   ⟨(let h : Hw := up; let h : Hw := ({ h with fab := { h.fab with ltCfg := (some default) } }); h), default,
     by decide +kernel⟩,
   by
      obtain ⟨ob,
        hob⟩ := Option.isSome_iff_exists.mp (by decide +kernel : (State.pendObj { hw := up } { oid := 0x03000100, acc := 0, lc := 0, type := 0, value := [], ticket := 0, session := 0 }).isSome = true)
      exact ⟨_, _, ob, hob⟩,
   ⟨(on fun h => let h : Hw := ({ h with fab := { h.fab with spanStart := 901 } }); let h : Hw := (h.setReg Reg.FAB_LC_COMMIT 900); h),
     by decide +kernel⟩,
   ⟨(on fun h => let h : Hw := ({ h with fab := { h.fab with evac := none } }); let h : Hw := (h.setBit Reg.FAB_CTRL 0); let h : Hw := (h.setBit Reg.FAB_CTRL 1); h),
     by decide +kernel⟩,
   ⟨0,
     (on fun h => let h : Hw := ({ h with fab := { h.fab with evac := (some 0) } }); let h : Hw := (h.setBit Reg.FAB_ISLAND (16 + 0)); let h : Hw := (h.setBit Reg.PWR_ISLAND_PG 0); let h : Hw := (h.setBit Reg.FAB_CTRL 0); let h : Hw := (h.setBit Reg.FAB_CTRL 1); h),
     by decide +kernel⟩,
   ⟨0, (on fun h => let h : Hw := (h.setBit Reg.FAB_CTRL 0); let h : Hw := (h.clearBit Reg.PWR_ISLAND_PG 0); h),
     by decide +kernel⟩,
   ⟨(on fun h => let h : Hw := (h.setFld Reg.PWR_STATE Fld.PWR_STATE_STATE psDay); let h : Hw := ({ h with fab := { h.fab with spanStart := 901 } }); let h : Hw := (h.setReg Reg.FAB_LC_COMMIT 1000); h),
     by decide +kernel⟩⟩

theorem witness_TheManagerDispatchesTasks :
    (∃ g : Fin 17744, ∃ s : State, ∃ m : Nat, ((s.hw.page g).restart = false) ∧ ((s.hw.page g).spec = []) ∧ (s.hw.ready g = .certain m)) ∧
    (Config.fmcBound 17728 < 1024 → ∃ g : Fin 17744, ∃ s : State, ∃ m, ((s.hw.page g).restart = false) ∧ ((s.hw.page g).spec = []) ∧ (s.hw.ready g = .spec m)) ∧
    (∃ g : Fin 17744, ∃ s : State, ((s.hw.page g).restart = false) ∧ ((s.hw.page g).spec = []) ∧ (s.hw.ready g = .stall)) ∧
    (∃ g : Fin 17744, ∃ s : State, ((s.hw.page g).restart = false) ∧ ((s.hw.page g).spec = []) ∧ (s.hw.ready g = .wait)) ∧
    (∃ g : Fin 17744, ∃ m : Nat, ∃ s : State, ((s.hw.page g).rollback = some m) ∧ (s.hw.ownerFree g = true)) ∧
    (∃ g : Fin 17744, ∃ s : State, ((s.hw.page g).spec = []) ∧ (s.hw.ownerFree g = true) ∧ (s.hw.releasable g = true)) ∧
    (∃ e : Fin 512, ∃ a : Audit, ∃ s : State, (s.hw.fab.audit = some a) ∧ (s.hw.engineFree e = true) ∧ (e.val / 32 ≠ a.owner / 32) ∧ (a.ownerSig ≠ none) ∧ (a.lc ≤ s.hw.lcCommit) ∧ (a.auditor = none)) ∧
    (∃ e : Fin 512, ∃ i : Fin 16, ∃ x : FiItem, ∃ s : State, ((s.hw.inst i).item = some x) ∧ (s.hw.engineFree e = true) ∧ ((∀ y ∈ s.hw.fab.pages, y.2.engine = e.val → s.hw.ready y.1 = .wait ∨ s.hw.ready y.1 = .stall)) ∧ ((s.hw.inst i).state = .busy) ∧ (x.run = true) ∧ (x.code = 0) ∧ (x.given < x.tasks) ∧ (0 < (s.hw.inst i).budget)) ∧
    (∃ e : Fin 512, ∃ s : State, (s.hw.engineFree e = true) ∧ (s.hw.pagesOn e = 0)) ∧
    (∃ (s : State) (t : Task), (s.hw.page 17728).restart = false ∧ (s.hw.page 17728).spec = [] ∧ s.hw.ready 17728 = .certain 900 ∧ ((s.hw.startStep 17728 900 false).engine ((s.hw.startStep 17728 900 false).page 17728).engine).task = some t) :=
  ⟨⟨17728,
     (on fun h => let h : Hw := (h.setPage 17728 { h.page 17728 with restart := false }); let h : Hw := (h.setPage 17728 { h.page 17728 with spec := [] }); let h : Hw := ({ h with fab := { h.fab with spanStart := 901 } }); let h : Hw := (h.setFld Reg.FAB_CTRL Fld.FAB_CTRL_EN 1); let h : Hw := (h.setEngine 0 { h.engine 0 with task := none }); let h : Hw := (h.setPage 17728 { h.page 17728 with state := .resident, engine := 0, frame := 1108 }); h),
     900, by decide +kernel⟩,
   by
      intro hb
      refine ⟨17728,
        (on fun h => let h : Hw := { h with fab := { h.fab with spanStart := 901 } }; let h : Hw := h.setFld Reg.FAB_CTRL Fld.FAB_CTRL_EN 1; let h : Hw := h.setEngine 0 { h.engine 0 with task := none }; let h : Hw := h.setPage 17728 { h.page 17728 with state := .resident, engine := 0, frame := 1108 }; let h : Hw := { h with cfg := { h.cfg with fab := { h.cfg.fab with pages := [(17728, some { inputs := [(0, Hw.extInput 0)], reductions := [], init := [] })] } } }; let h : Hw := h.setReg Reg.FAB_LC_COMMIT 900; h),
        900, by decide +kernel, by decide +kernel, ?_⟩
      unfold Hw.ready
      rw [if_neg (by decide +kernel), if_neg (by decide +kernel), if_neg (by decide +kernel), if_neg (by decide +kernel), if_neg ?_]
      · decide +kernel
      rw [show List.length _ = 0 from by decide +kernel]
      have : Config.fmcBound 17728 < 1024 := hb
      show ¬ 1024 < 0 + Config.fmcBound 17728 + 1
      omega,
   by
      refine ⟨17728,
        (on fun h => let h : Hw := { h with fab := { h.fab with spanStart := 901 } }; let h : Hw := h.setFld Reg.FAB_CTRL Fld.FAB_CTRL_EN 1; let h : Hw := h.setEngine 0 { h.engine 0 with task := none }; let h : Hw := h.setPage 17728 { h.page 17728 with state := .resident, engine := 0, frame := 1108 }; let h : Hw := { h with cfg := { h.cfg with fab := { h.cfg.fab with pages := [(17728, some { inputs := [(0, Hw.extInput 0)], reductions := [], init := [] })] } } }; let h : Hw := h.setReg Reg.FAB_LC_COMMIT 900; let h : Hw := h.setEngine 0 { h.engine 0 with undo := List.replicate 1024 { boundary := false, frame := 5, word := 0 } }; h),
        by decide +kernel, by decide +kernel, ?_⟩
      unfold Hw.ready
      rw [if_neg (by decide +kernel), if_neg (by decide +kernel), if_neg (by decide +kernel), if_neg (by decide +kernel), if_pos ?_]
      refine Nat.lt_of_lt_of_eq (m := 1024 + Config.fmcBound 17728 + 1) (by omega) ?_
      rw [show List.length _ = 1024 from by decide +kernel]
      rfl,
   ⟨0,
     (on fun h => let h : Hw := (h.setPage 0 { h.page 0 with restart := false }); let h : Hw := (h.setPage 0 { h.page 0 with spec := [] }); h),
     by decide +kernel⟩,
   ⟨17728, 0,
     (on fun h => let h : Hw := ({ h with fab := { h.fab with spanStart := 901 } }); let h : Hw := (h.setFld Reg.FAB_CTRL Fld.FAB_CTRL_EN 1); let h : Hw := (h.setEngine 0 { h.engine 0 with task := none }); let h : Hw := (h.setPage 17728 { h.page 17728 with state := .resident, engine := 0, frame := 1108 }); let h : Hw := (h.setPage 17728 { h.page 17728 with rollback := some 0 }); h),
     by decide +kernel⟩,
   ⟨17728,
     (on fun h => let h : Hw := (h.setPage 17728 { h.page 17728 with spec := [] }); let h : Hw := ({ h with fab := { h.fab with spanStart := 901 } }); let h : Hw := (h.setFld Reg.FAB_CTRL Fld.FAB_CTRL_EN 1); let h : Hw := (h.setEngine 0 { h.engine 0 with task := none }); let h : Hw := (h.setPage 17728 { h.page 17728 with state := .resident, engine := 0, frame := 1108 }); let h : Hw := (h.setPage 17728 { h.page 17728 with certain := 901, frame := 0 }); let h : Hw := (h.setEngine 0 { h.engine 0 with undo := [{ boundary := true, frame := 0, word := 0 }, { boundary := true, frame := 0, word := 901 }] }); h),
     by decide +kernel⟩,
   ⟨1, ({ page := 0, lc := 0, snapshot := [], owner := 100, ownerSig := some 0 } : Audit),
     (on fun h => { h with fab := { h.fab with audit := (some ((({ page := 0, lc := 0, snapshot := [], owner := 100, ownerSig := some 0 } : Audit)))) } }),
     by decide +kernel⟩,
   ⟨1, 0, ({ run := true, tasks := 1 } : FiItem),
     (on fun h => let h : Hw := (h.setInst 0 { h.inst 0 with item := (some ((({ run := true, tasks := 1 } : FiItem)))) }); let h : Hw := (h.setInst 0 { h.inst 0 with state := .busy }); let h : Hw := (h.setInst 0 { h.inst 0 with budget := 1 }); h),
     by decide +kernel⟩,
   ⟨1, { hw := up }, by decide +kernel⟩,
   ⟨on fun h => (((({ h with fab := { h.fab with spanStart := 901 } } : Hw).setFld Reg.FAB_CTRL Fld.FAB_CTRL_EN 1).setEngine 0 { h.engine 0 with task := none }).setPage 17728 { h.page 17728 with state := .resident, engine := 0, frame := 1108 }),
     _, by decide +kernel, by decide +kernel, by decide +kernel, Option.some_get (h := by decide +kernel) |>.symm⟩⟩

theorem witness_PagesMoveAreRebuiltAndReduced :
    (∃ h : Hw, ∃ g : Nat, ∃ e : Nat, ∃ homeOnly : Bool, ∃ f : Nat, (g < 17744) ∧ (h.pageDeclared g = true) ∧ ((h.page g).state = .resident) ∧ ((h.page g).moveTo = none) ∧ (h.migrations < 16) ∧ (h.pstate ≠ 4) ∧ (h.engineActive e = true) ∧ ((h.page g).engine ≠ e) ∧ (e ≠ (h.homeOf g).1) ∧ (homeOnly = false) ∧ ((h.freePool (e / 32)).2 = some f) ∧ (h.pageTask g = none)) ∧
    (∃ h : Hw, ∃ e : Nat, (h.quarOf e ≠ 0)) ∧
    (∃ g : Fin 17744, ∃ s : State, (17664 ≤ g.val) ∧ (s.hw.pageDeclared g = true) ∧ ((let n := s.hw.nextCycle (max (s.hw.page g).reduced s.hw.firstOwed); s.hw.carriesInputs n = true ∧ n ≤ s.hw.lc ∧ ∀ x ∈ s.hw.reductionSources g, n + 1 ≤ (s.hw.page x.1).certain))) ∧
    (∃ who : Who, ∃ s : State, (s.hw.MayWrite who Reg.FAB_MIG_REQ)) ∧
    (∃ g : Fin 17744, ∃ s : State, ((s.hw.page g).state = .transit)) ∧
    (∃ g : Fin 17744, ∃ s : State, ((s.hw.page g).restart = false) ∧ ((s.hw.page g).state = .rebuilding) ∧ ((s.hw.page g).rebuildTo ≤ (s.hw.page g).certain) ∧ (s.hw.pageTask g = none)) ∧
    (∃ e : Fin 512, ∃ t : Machine.Task, ∃ s : State, ((s.hw.engine e).task = some t) ∧ (t.kind = .step)) ∧
    (∃ g : Fin 17744, ∃ lc : Nat, ∃ s : State, (s.hw.flag Reg.FAB_CTRL Fld.FAB_CTRL_AUDIT_EN = true) ∧ (s.hw.flag Reg.FAB_CTRL Fld.FAB_CTRL_EN = true) ∧ (s.hw.fab.audit = none) ∧ (s.hw.fab.auditAt + s.hw.fld Reg.FAB_AUDIT_CFG Fld.FAB_AUDIT_CFG_PERIOD ≤ s.hw.lc + 1) ∧ ((s.hw.page g).state = .resident) ∧ (s.hw.stepCycle g ≤ lc) ∧ (s.hw.carriesInputs lc = true) ∧ ((lc + 17800 - g.val) % 100 ≠ 0) ∧ (s.hw.pstate ≠ 4)) :=
  ⟨⟨(let h : Hw := up; let h : Hw := (h.setPage 17728 { h.page 17728 with state := .resident }); let h : Hw := (h.setPage 17728 { h.page 17728 with moveTo := none }); let h : Hw := ({ h with fab := { h.fab with spanStart := 901 } }); let h : Hw := (h.setFld Reg.FAB_CTRL Fld.FAB_CTRL_EN 1); let h : Hw := (h.setEngine 0 { h.engine 0 with task := none }); let h : Hw := (h.setPage 17728 { h.page 17728 with state := .resident, engine := 0, frame := 1108 }); h),
     17728, 1, false, 1109, by decide +kernel⟩,
   ⟨(let h : Hw := up; let h : Hw := ({ h with fab := { h.fab with quar := [(0, 1)] } }); h), 0, by decide +kernel⟩,
   ⟨17728, (on fun h => { h with fab := { h.fab with spanStart := 901 } }), by decide +kernel⟩,
   ⟨.secure, { hw := up }, ⟨by decide +kernel, by decide +kernel⟩⟩,
   ⟨0, (on fun h => h.setPage 0 { h.page 0 with state := .transit }), by decide +kernel⟩,
   ⟨17728,
     (on fun h => let h : Hw := (h.setPage 17728 { h.page 17728 with restart := false }); let h : Hw := (h.setPage 17728 { h.page 17728 with state := .rebuilding }); h),
     by decide +kernel⟩,
   ⟨0, ({ kind := .step } : Machine.Task),
     (on fun h => h.setEngine 0 { h.engine 0 with task := (some ((({ kind := .step } : Machine.Task)))) }),
     by decide +kernel⟩,
   ⟨17728, 901,
     (on fun h => let h : Hw := (h.setFld Reg.FAB_CTRL Fld.FAB_CTRL_AUDIT_EN 1); let h : Hw := (h.setFld Reg.FAB_CTRL Fld.FAB_CTRL_EN 1); let h : Hw := ({ h with fab := { h.fab with audit := none } }); let h : Hw := (h.setPage 17728 { h.page 17728 with state := .resident }); let h : Hw := ({ h with fab := { h.fab with spanStart := 901 } }); let h : Hw := (h.setPage 17728 { h.page 17728 with state := .resident, engine := 0, frame := 1108 }); let h : Hw := (h.setFld Reg.FAB_AUDIT_CFG Fld.FAB_AUDIT_CFG_PERIOD 0); h),
     by decide +kernel⟩⟩

theorem witness_InputsArriveAndTheJournalIsExported :
    (∃ w : Word, (0 ≤ bitsOf w 39 32 ∧ bitsOf w 39 32 ≤ 64 ∧ 4 ≤ bitsOf w 25 16 ∧ bitsOf w 25 16 ≤ 1000 ∧ 20 ≤ bitsOf w 10 0 ∧ bitsOf w 10 0 ≤ 2000)) ∧
    (∃ n : Nat, ∃ s : State, (s.hw.journalOn = true) ∧ (s.hw.carriesInputs n = true) ∧ ((s.hw.pstate = 4 ∨ n + s.hw.horizon ≤ s.hw.lc))) ∧
    (∃ s : State, (s.hw.journalOn = true)) ∧
    (∃ who : Who, ∃ s : State, (s.hw.MayWrite who Reg.FAB_LT_CFG)) ∧
    (∃ n : Fin 290, ∃ v : Word, ∃ ws : List Word, ∃ s : State, (s.hw.exporterOn = true) ∧ ((s.hw.reg Reg.FAB_JNL_XPOS).toNat ≠ s.hw.wpos) ∧ ((s.hw.journalFound (s.hw.reg Reg.FAB_JNL_XPOS).toNat (n + 1)).journalHeld (s.hw.reg Reg.FAB_JNL_XPOS).toNat = true) ∧ ((s.hw.journalFound (s.hw.reg Reg.FAB_JNL_XPOS).toNat (n + 1)).journalRun (s.hw.reg Reg.FAB_JNL_XPOS).toNat (n + 1) = v :: ws)) ∧
    (∃ src : Nat, ∃ jpos : Word, ∃ s : State, (s.hw.exporterOn = true) ∧ (src ∈ s.hw.cfg.fab.collectors) ∧ (s.hw.journalHeld jpos.toNat = true)) ∧
    (∃ src, ∃ s : State, (src ∉ s.hw.cfg.fab.collectors)) :=
  ⟨⟨42956226660, by decide +kernel⟩,
   ⟨900,
     (on fun h => let h : Hw := ({ h with fab := { h.fab with spanStart := 901 } }); let h : Hw := ({ h with lc := 5000 }); h),
     by decide +kernel⟩,
   ⟨{ hw := up }, by decide +kernel⟩,
   ⟨.secure, { hw := up }, ⟨by decide +kernel, by decide +kernel⟩⟩,
   ⟨0, 7, [],
     (on fun h => let h : Hw := (h.setReg Reg.FAB_JNL_WPOS 1); let h : Hw := (h.setRam dramBase { data := 7 }); h),
     by decide +kernel⟩,
   ⟨5, 0, (on fun h => { h with cfg := { h.cfg with fab := { h.cfg.fab with collectors := [5] } } }),
     by decide +kernel⟩,
   ⟨0, { hw := up }, by decide +kernel⟩⟩

theorem witness_RingFramesAreAcceptedAndTakeEffect_1 :
    (∃ h0 : Hw, ∃ k : Nat, ∃ endB : Bool, (h0.receives k endB = true)) ∧
    (∃ type : Nat, ∃ f : RxFrame, (Hw.fType f.bytes ≠ type)) ∧
    (∃ p : Fin 16, ∃ s : State, (s.hw.vnkOn = true) ∧ ((s.hw.endOfPort p).isSome = true)) ∧
    (∃ p : Fin 16, ∃ s : State, (s.hw.vnkOn = true) ∧ (s.hw.bit (Reg.VNK_PORT_STAT p) 5 = true)) ∧
    (∃ k : Fin 16, ∃ endB : Bool, ∃ f : RxFrame, ∃ g, ∃ s : State, (s.hw.acceptType k endB 1 f = (g, true))) ∧
    (∃ k : Fin 16, ∃ endB : Bool, ∃ x : RxGd, ∃ g : Hw, ∃ s : State, (s.hw.passes k x.arr = g) ∧ (s.hw.receives k endB = true) ∧ (x.viol = 0) ∧ (2123 ≤ s.hw.place k endB x.arr) ∧ (x.pos.toNat < 160) ∧ (x.pos.toNat = ((s.hw.place k endB x.arr - 2123) / 5).toNat) ∧ (x.crc = crc8 [byte (g.fld (Reg.VNK_RING_CFG k) Fld.VNK_RING_CFG_RINGTAG), byte (g.ringLc k s.hw.cycle % 256), x.pos, x.flags]) ∧ (g.expected k x.pos.toNat = true)) ∧
    (∃ k : Fin 16, ∃ endB : Bool, ∃ f : RxFrame, ∃ g, ∃ s : State, (s.hw.acceptType k endB 3 f = (g, true))) ∧
    (∃ k : Fin 16, ∃ endB : Bool, ∃ f : RxFrame, ∃ g, ∃ s : State, (s.hw.acceptType k endB 4 f = (g, true))) :=
  ⟨⟨ringUp, 0, false, by decide +kernel⟩,
   ⟨3, (rx ringUp 1 0xF1 0 []), by decide +kernel⟩,
   ⟨0, { hw := ringUp }, by decide +kernel⟩,
   ⟨0, { hw := (let h : Hw := ringUp; let h : Hw := (h.setBit (Reg.VNK_PORT_STAT 0) 5); h) }, by decide +kernel⟩,
   by
      refine ⟨0, false, (rx ({ hw := (let h : Hw := ringUp; h) } : State).hw 1 241 0 (List.replicate 20 0)),
        (({ hw := (let h : Hw := ringUp; h) } : State).hw.acceptType 0 false 1 (rx ({ hw := (let h : Hw := ringUp; h) } : State).hw 1 241 0 (List.replicate 20 0))).1,
        { hw := (let h : Hw := ringUp; h) }, ?_⟩
      · exact Prod.ext rfl (by decide +kernel),
   ⟨0, false,
     (let h : Hw := ringUp; { arr := 320 * 2123, pos := 0, flags := 0, crc := crc8 [byte (h.fld (Reg.VNK_RING_CFG 0) Fld.VNK_RING_CFG_RINGTAG), byte (h.ringLc 0 h.cycle % 256), 0, 0], viol := 0 } : RxGd),
     ringUp, { hw := ringUp }, by decide +kernel⟩,
   by
      refine ⟨0, false, (rx ({ hw := (let h : Hw := ringUp; h) } : State).hw 3 0 2925 (List.replicate 68 0)),
        (({ hw := (let h : Hw := ringUp; h) } : State).hw.acceptType 0 false 3 (rx ({ hw := (let h : Hw := ringUp; h) } : State).hw 3 0 2925 (List.replicate 68 0))).1,
        { hw := (let h : Hw := ringUp; h) }, ?_⟩
      · exact Prod.ext rfl (by decide +kernel),
   by
      refine ⟨0, false, (rx ({ hw := (let h : Hw := ringUp; h) } : State).hw 4 128 3009 (List.replicate 26 0)),
        (({ hw := (let h : Hw := ringUp; h) } : State).hw.acceptType 0 false 4 (rx ({ hw := (let h : Hw := ringUp; h) } : State).hw 4 128 3009 (List.replicate 26 0))).1,
        { hw := (let h : Hw := ringUp; h) }, ?_⟩
      · exact Prod.ext rfl (by decide +kernel)⟩

theorem witness_RingFramesAreAcceptedAndTakeEffect_2 :
    (∃ k : Fin 16, ∃ endB : Bool, ∃ f : RxFrame, ∃ g, ∃ w, ∃ x, ∃ s : State, (s.hw.acceptType k endB 6 f = (g, true)) ∧ (s.hw.windowAt k (s.hw.place k endB f.arr) 68 = some w) ∧ ((g.relay k endB f.bytes).flightOf k w endB.not = some x)) ∧
    (∃ k : Fin 16, ∃ endB : Bool, ∃ f : RxFrame, ∃ g, ∃ s : State, (s.hw.acceptType k endB 7 f = (g, true))) ∧
    (∃ k : Fin 16, ∃ endB : Bool, ∃ f : RxFrame, ∃ g, ∃ s : State, (s.hw.acceptType k endB 10 f = (g, true)) ∧ (field (Hw.fPayload f.bytes) 0 1 = 1) ∧ (s.hw.lcKnown k = true)) ∧
    (∃ k : Fin 16, ∃ endB : Bool, ∃ f : RxFrame, ∃ g, ∃ s : State, (s.hw.acceptType k endB 10 f = (g, true)) ∧ (field (Hw.fPayload f.bytes) 0 1 = 2)) ∧
    (∃ k : Fin 16, ∃ endB : Bool, ∃ f : RxFrame, ∃ g, ∃ s : State, (s.hw.acceptType k endB 10 f = (g, true)) ∧ (field (Hw.fPayload f.bytes) 0 1 = 3)) ∧
    (∃ k : Fin 16, ∃ endB : Bool, ∃ f : RxFrame, ∃ g, ∃ s : State, (s.hw.acceptType k endB 9 f = (g, true)) ∧ (field (Hw.fPayload f.bytes) 0 1 = 1)) ∧
    (∃ k : Fin 16, ∃ endB : Bool, ∃ f : RxFrame, ∃ g, ∃ s : State, (s.hw.acceptType k endB 9 f = (g, true)) ∧ (field (Hw.fPayload f.bytes) 0 1 = 2) ∧ (g.leads k = true)) ∧
    (∃ k : Fin 16, ∃ endB : Bool, ∃ f : RxFrame, ∃ g, ∃ s : State, (s.hw.acceptType k endB 9 f = (g, true)) ∧ (field (Hw.fPayload f.bytes) 0 1 = 3) ∧ (g.takenOver k = true)) :=
  ⟨by
      refine ⟨0, false,
        (rx ({ hw := (let h : Hw := ringUp; let h : Hw := h.setRing 0 { h.ring 0 with dy := [({ idx := 0, ba := true, window := 1, lc := 99, hopAddr := false, target := 0, svc := 0, tag := 0 } : DyFlight)] }; h) } : State).hw 6 0 3793 (List.replicate 3 0)),
        (({ hw := (let h : Hw := ringUp; let h : Hw := h.setRing 0 { h.ring 0 with dy := [({ idx := 0, ba := true, window := 1, lc := 99, hopAddr := false, target := 0, svc := 0, tag := 0 } : DyFlight)] }; h) } : State).hw.acceptType 0 false 6 (rx ({ hw := (let h : Hw := ringUp; let h : Hw := h.setRing 0 { h.ring 0 with dy := [({ idx := 0, ba := true, window := 1, lc := 99, hopAddr := false, target := 0, svc := 0, tag := 0 } : DyFlight)] }; h) } : State).hw 6 0 3793 (List.replicate 3 0))).1,
        1,
        ({ idx := 0, ba := true, window := 1, lc := 99, hopAddr := false, target := 0, svc := 0, tag := 0 } : DyFlight),
        { hw := (let h : Hw := ringUp; let h : Hw := h.setRing 0 { h.ring 0 with dy := [({ idx := 0, ba := true, window := 1, lc := 99, hopAddr := false, target := 0, svc := 0, tag := 0 } : DyFlight)] }; h) },
        ?_, ?_, ?_⟩
      · exact Prod.ext rfl (by decide +kernel)
      · decide +kernel
      · decide +kernel,
   by
      refine ⟨0, false, (rx ({ hw := (let h : Hw := ringUp; h) } : State).hw 7 0 3469 (List.replicate 12 0)),
        (({ hw := (let h : Hw := ringUp; h) } : State).hw.acceptType 0 false 7 (rx ({ hw := (let h : Hw := ringUp; h) } : State).hw 7 0 3469 (List.replicate 12 0))).1,
        { hw := (let h : Hw := ringUp; h) }, ?_⟩
      · exact Prod.ext rfl (by decide +kernel),
   by
      refine ⟨0, false, (rx ({ hw := (let h : Hw := ringUp; h) } : State).hw 10 0 23500 (1 :: List.replicate 9 0)),
        (({ hw := (let h : Hw := ringUp; h) } : State).hw.acceptType 0 false 10 (rx ({ hw := (let h : Hw := ringUp; h) } : State).hw 10 0 23500 (1 :: List.replicate 9 0))).1,
        { hw := (let h : Hw := ringUp; h) }, ?_, ?_⟩
      · exact Prod.ext rfl (by decide +kernel)
      · decide +kernel,
   by
      refine ⟨0, false, (rx ({ hw := (let h : Hw := ringUp; h) } : State).hw 10 0 23500 (2 :: List.replicate 9 0)),
        (({ hw := (let h : Hw := ringUp; h) } : State).hw.acceptType 0 false 10 (rx ({ hw := (let h : Hw := ringUp; h) } : State).hw 10 0 23500 (2 :: List.replicate 9 0))).1,
        { hw := (let h : Hw := ringUp; h) }, ?_, ?_⟩
      · exact Prod.ext rfl (by decide +kernel)
      · decide +kernel,
   by
      refine ⟨0, false, (rx ({ hw := (let h : Hw := ringUp; h) } : State).hw 10 0 23600 (3 :: List.replicate 9 0)),
        (({ hw := (let h : Hw := ringUp; h) } : State).hw.acceptType 0 false 10 (rx ({ hw := (let h : Hw := ringUp; h) } : State).hw 10 0 23600 (3 :: List.replicate 9 0))).1,
        { hw := (let h : Hw := ringUp; h) }, ?_, ?_⟩
      · exact Prod.ext rfl (by decide +kernel)
      · decide +kernel,
   by
      refine ⟨0, false, (rx ({ hw := (let h : Hw := ringUp; h) } : State).hw 9 241 3421 (1 :: List.replicate 11 0)),
        (({ hw := (let h : Hw := ringUp; h) } : State).hw.acceptType 0 false 9 (rx ({ hw := (let h : Hw := ringUp; h) } : State).hw 9 241 3421 (1 :: List.replicate 11 0))).1,
        { hw := (let h : Hw := ringUp; h) }, ?_, ?_⟩
      · exact Prod.ext rfl (by decide +kernel)
      · decide +kernel,
   by
      refine ⟨0, false,
        (rx ({ hw := (let h : Hw := ringUp; let h : Hw := h.setBit (Reg.VNK_RING_STAT 0) 21; h) } : State).hw 9 241 3421 (2 :: List.replicate 11 0)),
        (({ hw := (let h : Hw := ringUp; let h : Hw := h.setBit (Reg.VNK_RING_STAT 0) 21; h) } : State).hw.acceptType 0 false 9 (rx ({ hw := (let h : Hw := ringUp; let h : Hw := h.setBit (Reg.VNK_RING_STAT 0) 21; h) } : State).hw 9 241 3421 (2 :: List.replicate 11 0))).1,
        { hw := (let h : Hw := ringUp; let h : Hw := h.setBit (Reg.VNK_RING_STAT 0) 21; h) }, ?_, ?_, ?_⟩
      · exact Prod.ext rfl (by decide +kernel)
      · decide +kernel
      · decide +kernel,
   by
      refine ⟨0, false,
        (rx ({ hw := (let h : Hw := ringUp; let h : Hw := h.setBit (Reg.VNK_RING_ROLE 0) 10; h) } : State).hw 9 241 3421 (3 :: List.replicate 11 0)),
        (({ hw := (let h : Hw := ringUp; let h : Hw := h.setBit (Reg.VNK_RING_ROLE 0) 10; h) } : State).hw.acceptType 0 false 9 (rx ({ hw := (let h : Hw := ringUp; let h : Hw := h.setBit (Reg.VNK_RING_ROLE 0) 10; h) } : State).hw 9 241 3421 (3 :: List.replicate 11 0))).1,
        { hw := (let h : Hw := ringUp; let h : Hw := h.setBit (Reg.VNK_RING_ROLE 0) 10; h) }, ?_, ?_, ?_⟩
      · exact Prod.ext rfl (by decide +kernel)
      · decide +kernel
      · decide +kernel⟩

theorem witness_RingFramesAreAcceptedAndTakeEffect_3 :
    (∃ k : Fin 16, ∃ hdr, ∃ g, ∃ s : State, (s.hw.peerAccept 2 hdr (s.hw.isPartner k hdr) = (g, true)) ∧ (g.standby k = true)) ∧
    (∃ k : Fin 16, ∃ hdr, ∃ g, ∃ s : State, (s.hw.peerAccept 3 hdr (s.hw.isPartner k hdr) = (g, true))) ∧
    (∃ f : RxFrame, f.viol ≠ 0) ∧
    (ringUp.slotAllows 0 1 0 1000 = false) ∧
    (∃ f : RxFrame, f.viol = 0 ∧ ringUp.slotAllows 0 (Hw.fType f.bytes) (f.bytes.getD 5 0).toNat (ringUp.place 0 false f.arr) = true ∧ f.bytes.length < 9) ∧
    (∃ f : RxFrame, f.viol = 0 ∧ ringUp.endHere 0 false = true ∧ ringUp.bit (Reg.VNK_PORT_STAT (ringUp.portOf 0 false)) 5 = true ∧ (ringUp.accept 0 false f).2 = true) :=
  ⟨by
      refine ⟨0, ({ declared := true, version := 1, tag := 0, src := 5, dst := 0, lc := 0, seq := 9 } : PeerHdr),
        (({ hw := (let h : Hw := ringUp; let h : Hw := h.setFld (Reg.VNK_RING_CFG 0) Fld.VNK_RING_CFG_TOPO 2; let h : Hw := h.setBit (Reg.VNK_RING_STAT 0) 20; h) } : State).hw.peerAccept 2 ({ declared := true, version := 1, tag := 0, src := 5, dst := 0, lc := 0, seq := 9 } : PeerHdr) (({ hw := (let h : Hw := ringUp; let h : Hw := h.setFld (Reg.VNK_RING_CFG 0) Fld.VNK_RING_CFG_TOPO 2; let h : Hw := h.setBit (Reg.VNK_RING_STAT 0) 20; h) } : State).hw.isPartner 0 ({ declared := true, version := 1, tag := 0, src := 5, dst := 0, lc := 0, seq := 9 } : PeerHdr))).1,
        { hw := (let h : Hw := ringUp; let h : Hw := h.setFld (Reg.VNK_RING_CFG 0) Fld.VNK_RING_CFG_TOPO 2; let h : Hw := h.setBit (Reg.VNK_RING_STAT 0) 20; h) },
        ?_, ?_⟩
      · exact Prod.ext rfl (by decide +kernel)
      · decide +kernel,
   by
      refine ⟨0, ({ declared := true, version := 1, tag := 0, src := 5, dst := 0, lc := 0, seq := 9 } : PeerHdr),
        (({ hw := (let h : Hw := ringUp; let h : Hw := h.setFld (Reg.VNK_RING_CFG 0) Fld.VNK_RING_CFG_TOPO 2; h) } : State).hw.peerAccept 3 ({ declared := true, version := 1, tag := 0, src := 5, dst := 0, lc := 0, seq := 9 } : PeerHdr) (({ hw := (let h : Hw := ringUp; let h : Hw := h.setFld (Reg.VNK_RING_CFG 0) Fld.VNK_RING_CFG_TOPO 2; h) } : State).hw.isPartner 0 ({ declared := true, version := 1, tag := 0, src := 5, dst := 0, lc := 0, seq := 9 } : PeerHdr))).1,
        { hw := (let h : Hw := ringUp; let h : Hw := h.setFld (Reg.VNK_RING_CFG 0) Fld.VNK_RING_CFG_TOPO 2; h) }, ?_⟩
      · exact Prod.ext rfl (by decide +kernel),
   ⟨{ arr := 0, bytes := [], viol := 1, eof := true }, by decide⟩,
   by decide +kernel,
   ⟨{ arr := 0, bytes := [0x10], viol := 0, eof := true }, by decide +kernel⟩,
   ⟨rx ringUp 1 0xF1 0 (List.replicate 20 0), by decide +kernel⟩⟩

theorem witness_RingsStartAndKeepTheirLeader :
    (∃ who : Who, ∃ s : State, (s.hw.MayWrite who Reg.VNK_CTRL)) ∧
    (∃ s : State, (s.hw.vnkOn = true) ∧ (s.hw.bit Reg.CLK_STAT 3 = true) ∧ (s.hw.cycle ≠ s.hw.lc + 1) ∧ (s.hw.bit Reg.VNK_CTRL 1 = false)) ∧
    (∃ k : Fin 16, ∃ s : State, (s.hw.phase k = 1) ∧ (s.hw.closedRing k = false) ∧ ((s.hw.ring k).c1 ≠ 0) ∧ ((s.hw.ring k).c1 + 4 ≤ s.hw.cycle + 1)) ∧
    (∃ k : Fin 16, ∃ s : State, (s.hw.phase k = 2) ∧ ((s.hw.ring k).c1 + 4 + (s.hw.ring k).backoff ≤ s.hw.cycle + 1)) ∧
    (∃ k : Fin 16, ∃ s : State, (s.hw.phase k = 3) ∧ ((s.hw.ring k).c1 + 7 + (s.hw.ring k).backoff ≤ s.hw.cycle + 1)) ∧
    (∃ k : Fin 16, ∃ s : State, (s.hw.closedRing k = true) ∧ (s.hw.cycling k = true) ∧ ((s.hw.ring k).judged = false) ∧ ((s.hw.ring k).lead ≠ 0) ∧ ((s.hw.ring k).lead + 2 = s.hw.cycle + 1)) ∧
    (∃ k : Fin 16, ∃ s : State, (s.hw.closedRing k = true) ∧ (s.hw.cycling k = true) ∧ ((s.hw.ring k).judged = true) ∧ (s.hw.portWorking (s.hw.portOf k (!(s.hw.ring k).leaderA)) = false)) ∧
    (∃ k : Fin 16, ∃ s : State, (s.hw.standby k = true) ∧ (2 ≤ (s.hw.ring k).leaderless)) ∧
    (∃ k : Fin 16, ∃ p : Fin 160, ∃ s : State, (s.hw.leads k = true) ∧ ((s.hw.assignOf k p).done = false) ∧ ((s.hw.assignOf k p).absent = false) ∧ ((s.hw.assignOf k p).due = false) ∧ (1 ≤ (s.hw.assignOf k p).sent) ∧ ((s.hw.assignOf k p).at_ + 2 ≤ s.hw.cycle)) ∧
    (∃ k : Fin 16, ∃ p : Fin 160, ∃ s : State, (s.hw.leads k = true) ∧ (3 ≤ s.hw.miss k p) ∧ ((match s.hw.spareFor k p with | some i => decide ((s.hw.spareOf k i).uid ≠ 0) | none => (s.hw.bound k p).isSome) = true) ∧ ((s.hw.assignOf k p).at_ + 8 ≤ s.hw.cycle)) ∧
    (∃ k : Fin 16, ∃ p : Fin 160, ∃ s : State, (p.val ∈ s.hw.senders k) ∧ ((s.hw.ring k).complete = true) ∧ (s.hw.missing k p = true)) :=
  ⟨⟨.secure, { hw := up }, ⟨by decide +kernel, by decide +kernel⟩⟩,
   ⟨{ hw := (let h : Hw := ringUp; let h : Hw := (h.setBit Reg.CLK_STAT 3); let h : Hw := (h.clearBit Reg.VNK_CTRL 1); h) },
     by decide +kernel⟩,
   ⟨0,
     { hw := (let h : Hw := ringUp; let h : Hw := (h.setPhase 0 1); let h : Hw := (h.setRing 0 { h.ring 0 with c1 := 1 }); let h : Hw := (h.setFld (Reg.VNK_RING_CFG 0) Fld.VNK_RING_CFG_TOPO 2); h) },
     by decide +kernel⟩,
   ⟨0,
     { hw := (let h : Hw := ringUp; let h : Hw := (h.setPhase 0 2); let h : Hw := (h.setRing 0 { h.ring 0 with c1 := 1, backoff := 0 }); h) },
     by decide +kernel⟩,
   ⟨0,
     { hw := (let h : Hw := ringUp; let h : Hw := (h.setPhase 0 3); let h : Hw := (h.setRing 0 { h.ring 0 with c1 := 1, backoff := 0 }); h) },
     by decide +kernel⟩,
   ⟨0,
     { hw := (let h : Hw := ringUp; let h : Hw := (h.setBit (Reg.VNK_RING_STAT 0) 22); let h : Hw := (h.setRing 0 { h.ring 0 with judged := false }); let h : Hw := (h.setRing 0 { h.ring 0 with lead := 1 }); let h : Hw := (h.setRing 0 { h.ring 0 with lead := 99 }); h) },
     by decide +kernel⟩,
   ⟨0,
     { hw := (let h : Hw := ringUp; let h : Hw := (h.setBit (Reg.VNK_RING_STAT 0) 22); let h : Hw := (h.setRing 0 { h.ring 0 with judged := true }); h) },
     by decide +kernel⟩,
   ⟨0,
     { hw := (let h : Hw := ringUp; let h : Hw := (h.setBit (Reg.VNK_RING_STAT 0) 20); let h : Hw := (h.setRing 0 { h.ring 0 with leaderless := 2 }); h) },
     by decide +kernel⟩,
   ⟨0, 0,
     { hw := (let h : Hw := ringUp; let h : Hw := (h.setBit (Reg.VNK_RING_STAT 0) 21); let h : Hw := (h.setAssign 0 0 { h.assignOf 0 0 with sent := 1 }); h) },
     by decide +kernel⟩,
   ⟨0, 0,
     { hw := (let h : Hw := ringUp; let h : Hw := (h.setBit (Reg.VNK_RING_STAT 0) 21); let h : Hw := (h.setFld (Reg.VNK_NODE_RX 0 0) Fld.VNK_NODE_RX_MISS 3); h) },
     by decide +kernel⟩,
   ⟨0, 0,
     { hw := (let h : Hw := ringUp; let h : Hw := (h.setRing 0 { h.ring 0 with complete := true }); let h : Hw := (h.setFld (Reg.VNK_NODE_RX 0 0) Fld.VNK_NODE_RX_MISS 15); h) },
     by decide +kernel⟩⟩

theorem witness_RingCommandsClaimsAndBreaksAct :
    (∃ who : Who, ∃ k : Fin 16, ∃ sp : Fin 16, ∃ s : State, (s.hw.MayWrite who (Reg.VNK_SPARE k sp)) ∧ (s.hw.spareState k sp = 2)) ∧
    (∃ k : Fin 16, ∃ sp : Fin 16, ∃ s : State, ∃ m : Nat, (s.hw.spareState k sp = 2) ∧ ((s.hw.spareOf k sp).mark = some m) ∧ (m + 2000 ≤ s.hw.cycle)) ∧
    (∃ k : Fin 16, ∃ sp : Fin 16, ∃ s : State, ∃ m : Nat, ((s.hw.spareOf k sp).mark = some m) ∧ (s.hw.cycle < m + 2000)) ∧
    (∃ h : Hw, ∃ k : Nat, ∃ c : Claim, ∃ sp : Nat, ((List.range (h.nSpare k)).find? (fun x => h.spareState k x ≠ 0 && (h.spareOf k x).uid == c.uid) = some sp)) ∧
    (∃ k : Fin 16, ∃ s : State, (s.hw.leads k = true) ∧ ((s.hw.ring k).gtSent = none) ∧ (s.hw.lc = s.hw.cycle) ∧ ((s.hw.ring k).claims.filter (fun c => decide (c.lc + 1 = s.hw.cycle)) = [])) ∧
    (∃ k : Fin 16, ∃ c : Claim, ∃ s : State, (s.hw.leads k = true) ∧ ((s.hw.ring k).gtSent = none) ∧ (s.hw.lc = s.hw.cycle) ∧ ((s.hw.ring k).claims.filter (fun c => decide (c.lc + 1 = s.hw.cycle)) = [c])) ∧
    (∃ who : Who, ∃ k : Fin 16, ∃ v : Word, ∃ s : State, (s.hw.MayWrite who (Reg.VNK_CMD_GO k)) ∧ (1 < bitsOf v 31 24) ∧ (bitsOf v 23 16 ≤ 32) ∧ (s.hw.cycling k = true) ∧ (bitsOf v 39 32 ∈ s.hw.declared k) ∧ ((s.hw.ring k).cmds.length < 16)) ∧
    (∃ who : Who, ∃ k : Fin 16, ∃ v : Word, ∃ s : State, (s.hw.MayWrite who (Reg.VNK_CMD_GO k)) ∧ ((bitsOf v 31 24 ≤ 1 ∨ 32 < bitsOf v 23 16))) ∧
    (∃ k : Fin 16, ∃ p : Fin 160, ∃ c : RingCmd, ∃ s : State, ((s.hw.ring k).cmds.find? (fun c => c.target == p.val && c.sent.any (· < s.hw.cycle) && decide (s.hw.fld Reg.VNK_CTRL Fld.VNK_CTRL_RETRY ≤ c.repeats)) = some c)) ∧
    (∃ who : Who, ∃ k : Fin 16, ∃ s : State, (s.hw.MayWrite who (Reg.VNK_DY_QCTL k))) ∧
    (∃ k : Fin 16, ∃ f : DyFlight, ∃ s : State, ((s.hw.ring k).dy.filter (fun f => decide (f.lc + 3 ≤ s.hw.lc)) = [f])) ∧
    (∃ k : Fin 16, ∃ endB : Bool, ∃ s : State, ((s.hw.cycling k = true ∨ s.hw.phase k = 7)) ∧ (s.hw.endHere k endB = true) ∧ (s.hw.bit (Reg.VNK_RING_ROLE k) 11 = false) ∧ ((s.hw.ring k).lead + (if s.hw.closedRing k then (if endB then 0 else 1) else 2) ≤ s.hw.cycle + 1) ∧ ((if endB then (s.hw.ring k).csB || (s.hw.ring k).accB else (s.hw.ring k).csA || (s.hw.ring k).accA) = false)) ∧
    (∃ k : Fin 16, ∃ s : State, (s.hw.broken k = true) ∧ (8 ≤ (s.hw.ring k).healed)) ∧
    (∃ p : Fin 16, ∃ k : Nat, ∃ endB : Bool, ∃ s : State, (s.hw.endOfPort p = some (k, endB)) ∧ (1000 ≤ (s.hw.port p).cycles)) :=
  ⟨⟨.secure, 0, 0,
     { hw := (let h : Hw := ringUp; let h : Hw := (h.setFld (Reg.VNK_SPARE 0 0) Fld.VNK_SPARE_STATE 2); h) },
     ⟨by decide +kernel, by decide +kernel⟩, by decide +kernel⟩,
   ⟨0, 0,
     { hw := (let h : Hw := ringUp; let h : Hw := (h.setFld (Reg.VNK_SPARE 0 0) Fld.VNK_SPARE_STATE 2); let h : Hw := (h.setSpare 0 0 { h.spareOf 0 0 with mark := some 10 }); let h : Hw := (h.setReg Reg.VNK_CYCLE 5000); h) },
     10, by decide +kernel⟩,
   ⟨0, 0, { hw := (let h : Hw := ringUp; let h : Hw := (h.setSpare 0 0 { h.spareOf 0 0 with mark := some 10 }); h) },
     10, by decide +kernel⟩,
   ⟨(let h : Hw := ringUp; let h : Hw := (h.setFld (Reg.VNK_SPARE 0 0) Fld.VNK_SPARE_STATE 1); let h : Hw := (h.setSpare 0 0 { h.spareOf 0 0 with uid := 7 }); h),
     0, ({ uid := 7, aux := false, hop := 0, lc := 99, relayed := false, ba := false } : Claim), 0, by decide +kernel⟩,
   ⟨0,
     { hw := (let h : Hw := ringUp; let h : Hw := (h.setBit (Reg.VNK_RING_STAT 0) 21); let h : Hw := (h.setRing 0 { h.ring 0 with gtSent := none }); let h : Hw := ({ h with lc := 100 }); h) },
     by decide +kernel⟩,
   ⟨0, ({ uid := 7, aux := false, hop := 0, lc := 99, relayed := false, ba := false } : Claim),
     { hw := (let h : Hw := ringUp; let h : Hw := (h.setBit (Reg.VNK_RING_STAT 0) 21); let h : Hw := (h.setRing 0 { h.ring 0 with gtSent := none }); let h : Hw := ({ h with lc := 100 }); let h : Hw := (h.setRing 0 { h.ring 0 with claims := [({ uid := 7, aux := false, hop := 0, lc := 99, relayed := false, ba := false } : Claim)] }); h) },
     by decide +kernel⟩,
   ⟨.secure, 0, 0x0002000000, { hw := (let h : Hw := ringUp; let h : Hw := (h.setBit (Reg.VNK_RING_STAT 0) 22); h) },
     ⟨by decide +kernel, by decide +kernel⟩, by decide +kernel, by decide +kernel, by decide +kernel,
     by decide +kernel, by decide +kernel⟩,
   ⟨.secure, 0, 0, { hw := ringUp }, ⟨by decide +kernel, by decide +kernel⟩, by decide +kernel⟩,
   ⟨0, 0, ({ target := 0, op := 5, args := [], seq := 0, ready := 0, sent := some 98, repeats := 255 } : RingCmd),
     { hw := (let h : Hw := ringUp; let h : Hw := (h.setRing 0 { h.ring 0 with cmds := [({ target := 0, op := 5, args := [], seq := 0, ready := 0, sent := some 98, repeats := 255 } : RingCmd)] }); h) },
     by decide +kernel⟩,
   ⟨.secure, 0, { hw := ringUp }, ⟨by decide +kernel, by decide +kernel⟩⟩,
   ⟨0,
     ({ idx := 0, ba := true, window := 1, lc := 99, hopAddr := false, target := 0, svc := 0, tag := 0 } : DyFlight),
     { hw := (let h : Hw := ringUp; let h : Hw := (h.setRing 0 { h.ring 0 with dy := [({ idx := 0, ba := true, window := 1, lc := 99, hopAddr := false, target := 0, svc := 0, tag := 0 } : DyFlight)] }); h) },
     by decide +kernel⟩,
   ⟨0, false,
     { hw := (let h : Hw := ringUp; let h : Hw := (h.clearBit (Reg.VNK_RING_ROLE 0) 11); let h : Hw := (h.setRing 0 { h.ring 0 with lead := 1 }); h) },
     by decide +kernel⟩,
   ⟨0,
     { hw := (let h : Hw := ringUp; let h : Hw := (h.setRing 0 { h.ring 0 with healed := 8 }); let h : Hw := (h.setBit (Reg.VNK_RING_STAT 0) 23); let h : Hw := (h.setRing 0 { h.ring 0 with healed := 8 }); h) },
     by decide +kernel⟩,
   ⟨1, 0, true,
     { hw := (let h : Hw := ringUp; let h : Hw := (h.setPort 1 { h.port 1 with cycles := 1000 }); let h : Hw := (h.setPort 1 { h.port 1 with cycles := 1000 }); h) },
     by decide +kernel⟩⟩

theorem witness_TheSnapshotClosesCalibratesAndWindows :
    (∃ n : Nat, ∃ s : State, (s.hw.snpOn = true) ∧ ((s.hw.reg Reg.SNP_CLOSED_LC).toNat < n) ∧ (n ≤ s.hw.lc) ∧ ((s.hw.carriesInputs (s.hw.nextCycle ((s.hw.reg Reg.SNP_CLOSED_LC).toNat + 1)) = true → n ≤ s.hw.nextCycle ((s.hw.reg Reg.SNP_CLOSED_LC).toNat + 1)))) ∧
    (∃ who : Who, ∃ s : State, (s.hw.MayWrite who Reg.SNP_CAL_DATA) ∧ (s.hw.bit Reg.SNP_CTRL 0 = true)) ∧
    (∃ who : Who, ∃ s : State, (s.hw.MayWrite who Reg.SNP_CAL_DATA) ∧ (s.hw.bit Reg.SNP_CTRL 0 = false)) ∧
    (∃ who : Who, ∃ s : State, (s.hw.MayWrite who Reg.SNP_CALQ_GO)) ∧
    (∃ who : Who, ∃ s : State, (s.hw.MayWrite who Reg.SNP_WIN_CMD) ∧ (Hw.winIdle (s.hw.win (s.hw.fld Reg.SNP_WIN_SEL Fld.SNP_WIN_SEL_WIN)) = true) ∧ (Hw.winSrcOk (s.hw.win (s.hw.fld Reg.SNP_WIN_SEL Fld.SNP_WIN_SEL_WIN)) = true) ∧ ((s.hw.reg Reg.SNP_CLOSED_LC).toNat < (s.hw.reg Reg.SNP_WIN_START).toNat)) ∧
    (∃ who : Who, ∃ s : State, (s.hw.MayWrite who Reg.SNP_WIN_CMD) ∧ ((s.hw.win (s.hw.fld Reg.SNP_WIN_SEL Fld.SNP_WIN_SEL_WIN)).state = 2) ∧ ((s.hw.win (s.hw.fld Reg.SNP_WIN_SEL Fld.SNP_WIN_SEL_WIN)).stop = none) ∧ ((s.hw.win (s.hw.fld Reg.SNP_WIN_SEL Fld.SNP_WIN_SEL_WIN)).start < (s.hw.reg Reg.SNP_WIN_STOP).toNat) ∧ ((s.hw.reg Reg.SNP_CLOSED_LC).toNat < (s.hw.reg Reg.SNP_WIN_STOP).toNat)) ∧
    (∃ who : Who, ∃ s : State, (s.hw.MayWrite who Reg.SNP_WIN_CMD)) ∧
    (∃ h : Hw, 64 ≤ (h.snp.calq.filter fun c => !(c.entry == 1 && c.lc == 5)).length) ∧
    (∃ h : Hw, (h.snp.calq.filter fun c => !(c.entry == 0 && c.lc == 0)).length < 64 ∧ 0 ≤ (h.reg Reg.SNP_CLOSED_LC).toNat) ∧
    (∃ (h : Hw) (ws : List Word), (h.reg Reg.SNP_CLOSED_LC).toNat < 1 ∧ bitsOf (ws.getD 7 0) 39 24 = bitsOf (Tabs.get (fun _ => (0 : Word)) h.snp.cal 7) 39 24) ∧
    (∃ (h : Hw) (ws : List Word), (h.reg Reg.SNP_CLOSED_LC).toNat < 1 ∧ bitsOf (ws.getD 7 0) 39 24 ≠ bitsOf (Tabs.get (fun _ => (0 : Word)) h.snp.cal 7) 39 24 ∧ h.snp.calq = [] ∧ Hw.calOk 0 ws = true) :=
  ⟨⟨901,
     (on fun h => let h : Hw := ({ h with fab := { h.fab with spanStart := 901 } }); let h : Hw := (h.setReg Reg.SNP_CLOSED_LC 900); h),
     by decide +kernel⟩,
   ⟨.secure, (on fun h => h.setBit Reg.SNP_CTRL 0), ⟨by decide +kernel, by decide +kernel⟩, by decide +kernel⟩,
   ⟨.secure, (on fun h => h.clearBit Reg.SNP_CTRL 0), ⟨by decide +kernel, by decide +kernel⟩, by decide +kernel⟩,
   ⟨.secure, { hw := up }, ⟨by decide +kernel, by decide +kernel⟩⟩,
   ⟨.secure,
     (on fun h => let h : Hw := (h.setReg Reg.SNP_WIN_START 2000); let h : Hw := (h.setWin 0 { src := 0x1000000100 }); h),
     ⟨by decide +kernel, by decide +kernel⟩, by decide +kernel, by decide +kernel, by decide +kernel⟩,
   ⟨.secure,
     (on fun h => let h : Hw := (h.setReg Reg.SNP_WIN_STOP 2000); let h : Hw := (h.setWin 0 { state := 2 }); h),
     ⟨by decide +kernel, by decide +kernel⟩, by decide +kernel, by decide +kernel, by decide +kernel,
     by decide +kernel⟩,
   ⟨.secure, { hw := up }, ⟨by decide +kernel, by decide +kernel⟩⟩,
   ⟨{ snp := { calq := List.replicate 64 { lc := 1, entry := 0, words := [] } } }, by decide +kernel⟩,
   ⟨{}, by decide +kernel⟩,
   ⟨{}, [], by decide +kernel⟩,
   ⟨{}, [0, 0, 0, 0, 0, 0, 0, 0x1000000], by decide +kernel⟩⟩

theorem witness_GuardEventsLatchesAndTheSafeState :
    (∃ h : Hw, ∃ e, (h.evActive e = true)) ∧
    (∃ h : Hw, ∃ e, (h.grdOn = true) ∧ (evExists e = true) ∧ (h.evActive e = true)) ∧
    (∃ p : Fin 160, ∃ kind : Fin 256, ∃ s : State, (2 ≤ s.hw.level) ∧ (kind.val ∈ Hw.kindsOf p) ∧ (128 ≤ p.val)) ∧
    (∃ k : Fin 16, ∃ x : Nat × Nat × List Byte, ∃ s : State, (s.hw.grd.failed.find? (fun x => x.1 == k.val) = some x)) ∧
    (∃ s : State, (s.hw.grd.stops ≠ 0)) ∧
    (∃ s : State, (s.hw.grd.stops = 0)) ∧
    (∃ e : Fin 928, ∃ s : State, (evWarning e = true) ∧ (s.hw.evActive e = true) ∧ (s.hw.evCond e = false) ∧ (s.hw.fld Reg.GRD_CTRL Fld.GRD_CTRL_WCLR ≤ Tabs.get (fun _ => 0) s.hw.grd.absent e)) ∧
    (∃ k : Fin 16, ∃ p : Fin 160, ∃ j : Fin 20, ∃ s : State, (s.hw.grdOn = true) ∧ (j.val < Hw.chansOf p) ∧ (s.hw.guarded_ k p j = true) ∧ (Hw.chanKey k p j ∉ s.hw.grd.measOut) ∧ (s.hw.fld Reg.GRD_CTRL Fld.GRD_CTRL_MEAS_LIMIT ≤ Tabs.get (fun _ => 0) s.hw.grd.meas (Hw.chanKey k p j))) ∧
    (∃ who : Who, ∃ e : Fin 928, ∃ s : State, (s.hw.MayWrite who (Reg.GRD_EVT_LATCH (e / 40))) ∧ (s.hw.evLatched e = true) ∧ (s.hw.evCond e = false)) ∧
    (∃ who : Who, ∃ e : Fin 928, ∃ s : State, (s.hw.MayWrite who (Reg.GRD_EVT_LATCH (e / 40))) ∧ (s.hw.evLatched e = true) ∧ (s.hw.evCond e = true)) ∧
    (∃ who : Who, ∃ s : State, (s.hw.MayWrite who Reg.GRD_SAFE) ∧ (Hw.grdOwner who = true) ∧ (s.hw.safe = false)) ∧
    (∃ who : Who, ∃ s : State, (s.hw.MayWrite who Reg.GRD_SAFE) ∧ (Hw.grdOwner who = true) ∧ (s.hw.tripOn = false)) ∧
    (∃ who : Who, ∃ s : State, (s.hw.MayWrite who Reg.GRD_SAFE) ∧ (Hw.grdOwner who = true) ∧ (s.hw.tripOn = true)) ∧
    (∃ i : Fin 2, ∃ s : State, (s.hw.aoOn = true) ∧ (s.hw.bit Reg.GRD_TRIPIN (16 + i) = true)) ∧
    (∃ who : Who, ∃ s : State, (s.hw.MayWrite who Reg.GRD_CRS_TRIP) ∧ (Hw.grdOwner who = true)) ∧
    (∃ who : Who, ∃ s : State, (s.hw.MayWrite who Reg.GRD_PEND_CTL) ∧ (Hw.grdOwner who = true)) ∧
    (∃ s : State, (s.hw.aoOn = true) ∧ (s.hw.bit Reg.GRD_PEND_CTL 2 = true) ∧ ((s.hw.reg Reg.GRD_PEND_LC).toNat ≤ s.hw.lc)) ∧
    (∃ i : Fin 2, ∃ s : State, (s.hw.aoOn = true) ∧ (s.hw.bit Reg.GRD_TRIPIN (16 + i) = false)) ∧
    (∃ p : Fin 160, ∃ kind : Fin 256, ∃ ch : Fin 16, ∃ s : State, (2 ≤ s.hw.level) ∧ (kind.val ∈ Hw.kindsOf p) ∧ (p.val < 128) ∧ (bitN (Hw.kindMask kind) ch = true)) :=
  ⟨⟨(let h : Hw := up; let h : Hw := (h.setBit (Reg.GRD_EVT_ACT (0 / 40)) (0 % 40)); h), 0, by decide +kernel⟩,
   ⟨(let h : Hw := up; let h : Hw := (h.setBit (Reg.GRD_EVT_ACT (0 / 40)) (0 % 40)); h), 0, by decide +kernel⟩,
   ⟨128, 16, (on fun h => h.setFld Reg.PWR_STATE Fld.PWR_STATE_LEVEL 2), by decide +kernel⟩,
   ⟨0, (0, 0, []), (on fun h => { h with grd := { h.grd with failed := [(0, 0, [])] } }), by decide +kernel⟩,
   ⟨(on fun h => { h with grd := { h.grd with stops := 1 } }), by decide +kernel⟩,
   ⟨(on fun h => { h with grd := { h.grd with stops := 0 } }), by decide +kernel⟩,
   ⟨0,
     (on fun h => let h : Hw := (h.setBit (Reg.GRD_EVT_ACT (0 / 40)) (0 % 40)); let h : Hw := ({ h with grd := { h.grd with absent := [(0, 1000)] } }); h),
     by decide +kernel⟩,
   ⟨0, 0, 0,
     (on fun h => let h : Hw := (h.setReg (Reg.GRD_NODE 0 0 1) (BitVec.allOnes 40)); let h : Hw := ({ h with grd := { h.grd with meas := [(0, 100000)] } }); h),
     by decide +kernel⟩,
   ⟨.secure, 0, (on fun h => h.setBit (Reg.GRD_EVT_LATCH (0 / 40)) (0 % 40)), ⟨by decide +kernel, by decide +kernel⟩,
     by decide +kernel, by decide +kernel⟩,
   ⟨.secure, 0,
     (on fun h => let h : Hw := (h.setBit (Reg.GRD_EVT_LATCH (0 / 40)) (0 % 40)); let h : Hw := ({ h with grd := { h.grd with cond := [(0, true)] } }); h),
     ⟨by decide +kernel, by decide +kernel⟩, by decide +kernel, by decide +kernel⟩,
   ⟨.secure, { hw := up }, ⟨by decide +kernel, by decide +kernel⟩, by decide +kernel, by decide +kernel⟩,
   ⟨.secure, { hw := up }, ⟨by decide +kernel, by decide +kernel⟩, by decide +kernel, by decide +kernel⟩,
   ⟨.secure, (on fun h => h.setBit (Reg.GRD_EVT_ACT 0) 1), ⟨by decide +kernel, by decide +kernel⟩, by decide +kernel,
     by decide +kernel⟩,
   ⟨0, (on fun h => h.setBit Reg.GRD_TRIPIN (16 + 0)), by decide +kernel⟩,
   ⟨.secure, { hw := up }, ⟨by decide +kernel, by decide +kernel⟩, by decide +kernel⟩,
   ⟨.secure, { hw := up }, ⟨by decide +kernel, by decide +kernel⟩, by decide +kernel⟩,
   ⟨(on fun h => h.setBit Reg.GRD_PEND_CTL 2), by decide +kernel⟩,
   ⟨0, (on fun h => h.clearBit Reg.GRD_TRIPIN (16 + 0)), by decide +kernel⟩,
   ⟨0, 1, 0, (on fun h => h.setFld Reg.PWR_STATE Fld.PWR_STATE_LEVEL 2), by decide +kernel⟩⟩

theorem witness_LoadDiesAnswerAndProtectThemselves :
    (∃ d : Fin 4, ∃ s : State, (s.hw.lsiOn = true) ∧ ((s.hw.die d).powered = true)) ∧
    (∃ who : Who, ∃ c : Fin 64, ∃ s : State, (s.hw.MayWrite who Reg.LSI_CMD) ∧ (s.hw.bit Reg.GRD_STAT 0 = false) ∧ (bitN s.hw.lsi.declared c = true) ∧ (s.hw.lsiLost (c / 16) = false) ∧ (s.hw.lsi.queue.length < 32)) ∧
    (∃ who : Who, ∃ s : State, (s.hw.MayWrite who Reg.LSI_CMD) ∧ (s.hw.bit Reg.GRD_STAT 0 = true)) ∧
    (∃ c : Fin 64, ∃ warm : Bool, ∃ s : State, ((s.hw.die (c / 16)).powered = true) ∧ ((s.hw.die (c / 16)).conducts ((s.hw.die (c / 16)).chan (c % 16)) = true) ∧ (((s.hw.die (c / 16)).chan (c % 16)).latch = 0) ∧ (warm = false)) ∧
    (∃ c : Fin 64, ∃ s : State, ((s.hw.die (c / 16)).powered = true) ∧ ((s.hw.die (c / 16)).conducts ((s.hw.die (c / 16)).chan (c % 16)) = true) ∧ (((s.hw.die (c / 16)).chan (c % 16)).latch = 0) ∧ ((s.hw.die (c / 16)).hardLine ((s.hw.die (c / 16)).chan (c % 16)) = false) ∧ (((s.hw.die (c / 16)).chan (c % 16)).mode = 1) ∧ (((s.hw.die (c / 16)).chan (c % 16)).retries < ((s.hw.die (c / 16)).chan (c % 16)).maxRetries)) ∧
    (∃ c : Fin 64, ∃ s : State, ((s.hw.die (c / 16)).powered = true)) ∧
    (∃ c : Fin 64, ∃ s : State, (((s.hw.die (c / 16)).chan (c % 16)).retry = true)) ∧
    (∃ d : Fin 4, ∃ us, ∃ s : State, (5 ≤ us) ∧ ((∀ p, p < 16 → ((s.hw.die d).chan p).mode ≠ 2))) ∧
    (∃ d : Fin 4, ∃ s : State, ((s.hw.die d).powered = true) ∧ ((s.hw.die d).running = true)) ∧
    (∃ d : Fin 4, ∃ s : State, (s.hw.lsiOn = true) ∧ (s.hw.lsiLost d = false)) ∧
    (∃ v : BitVec 16, ∃ s : State, (v.toNat < 10000) ∧ (s.hw.lsiOn = false)) ∧
    (∃ d : Fin 4, ∃ s : State, (s.hw.lsiOn = true) ∧ ((s.hw.die d).configured = false) ∧ ((s.hw.die d).powered = true)) ∧
    (∃ vls : BitVec 16, (16500 ≤ vls.toNat)) ∧
    (∃ v : BitVec 16, (v.toNat < 16000)) ∧
    (∃ data : Nat, (2 ≤ data / 256 % 256) ∧ (data / 256 % 256 ≤ 50) ∧ (150 ≤ data / 2 ^ 16 % 2048) ∧ (data / 2 ^ 16 % 2048 ≤ 2000)) ∧
    (∃ x : Die, (x.configured = false)) ∧
    (∃ x : Die, ∃ ch : Nat, ∃ tag : Nat, ∃ op : Nat, (op = 1 ∨ op = 2 ∨ op = 6) ∧ (x.configured = true) ∧ (tag ≠ 0) ∧ ((x.chan ch).tag = tag)) ∧
    (∃ x : Die, ∃ ch : Nat, ∃ tag : Nat, ∃ op : Nat, (op = 1 ∨ op = 2 ∨ op = 6) ∧ (x.configured = true) ∧ ((x.chan ch).tag ≠ tag)) ∧
    (∃ x : Die, ∃ data : Nat, (x.configured = true) ∧ (1 ≤ (data % 256 + 256 - x.wseq) % 256) ∧ ((data % 256 + 256 - x.wseq) % 256 ≤ 64)) ∧
    (∃ x : Die, ∃ data : Nat, (x.configured = true) ∧ (((data % 256 + 256 - x.wseq) % 256 = 0 ∨ 64 < (data % 256 + 256 - x.wseq) % 256))) :=
  ⟨⟨0, (on fun h => h.setDie 0 { h.die 0 with powered := true }), by decide +kernel⟩,
   ⟨.secure, 0,
     (on fun h => let h : Hw := (h.clearBit Reg.GRD_STAT 0); let h : Hw := ({ h with lsi := { h.lsi with declared := 1 } }); h),
     ⟨by decide +kernel, by decide +kernel⟩, by decide +kernel, by decide +kernel, by decide +kernel,
     by decide +kernel⟩,
   ⟨.secure, (on fun h => h.setBit Reg.GRD_STAT 0), ⟨by decide +kernel, by decide +kernel⟩, by decide +kernel⟩,
   ⟨0, false,
     (on fun h => let h : Hw := (h.setDie (0 / 16) { h.die (0 / 16) with powered := true }); let h : Hw := (h.setDie 0 { h.die 0 with powered := true, configured := true, hl := 0, chans := [(0, { mode := 1, cfg := 0x500000 })] }); h),
     by decide +kernel⟩,
   ⟨0,
     (on fun h => let h : Hw := (h.setDie (0 / 16) { h.die (0 / 16) with powered := true }); let h : Hw := (h.setDie 0 { h.die 0 with powered := true, configured := true, hl := 0, chans := [(0, { mode := 1, cfg := 0x500000 })] }); h),
     by decide +kernel⟩,
   ⟨0, (on fun h => h.setDie (0 / 16) { h.die (0 / 16) with powered := true }), by decide +kernel⟩,
   ⟨0,
     (on fun h => h.setDie 0 { h.die 0 with powered := true, configured := true, hl := 15, chans := [(0, { mode := 1, cfg := 0xFFFFFFFFFF, retry := true })] }),
     by decide +kernel⟩,
   ⟨0, 5, { hw := up }, by decide +kernel⟩,
   ⟨0,
     (on fun h => let h : Hw := (h.setDie 0 { h.die 0 with powered := true }); let h : Hw := (h.setDie 0 { h.die 0 with running := true }); h),
     by decide +kernel⟩,
   ⟨0, { hw := up }, by decide +kernel⟩,
   ⟨0, (on fun h => h.clearBit Reg.LSI_CTRL 0), by decide +kernel⟩,
   ⟨0,
     (on fun h => let h : Hw := (h.setDie 0 { h.die 0 with configured := false }); let h : Hw := (h.setDie 0 { h.die 0 with powered := true }); h),
     by decide +kernel⟩,
   ⟨16500, by decide +kernel⟩,
   ⟨0, by decide +kernel⟩,
   ⟨(150 * 65536 + 2 * 256), by decide +kernel⟩,
   ⟨({} : Die), by decide +kernel⟩,
   ⟨({ configured := true, chans := [(0, { tag := 1 })] } : Die), 0, 1, 1, by decide +kernel⟩,
   ⟨({ configured := true, chans := [(0, { tag := 1 })] } : Die), 0, 2, 1, by decide +kernel⟩,
   ⟨({ configured := true } : Die), 1, by decide +kernel⟩,
   ⟨({ configured := true } : Die), 0, by decide +kernel⟩⟩

theorem witness_CrestVotesAndChangesItsMode :
    (∃ x y : Nat, x ≠ y) ∧
    (∃ s : State, (s.hw.crestOn = true) ∧ (s.hw.crs.off = false) ∧ (s.hw.dutyHalted = false)) ∧
    (∃ s : State, (s.hw.crs.testing = none)) ∧
    (∃ k, ∃ s : State, (s.hw.crs.testing = some k) ∧ (s.hw.joining k = false)) ∧
    (∃ k, ∃ s : State, (s.hw.crs.testing = some k) ∧ (s.hw.joining k = false) ∧ (s.hw.compareWindow.2 = true)) ∧
    (∃ who : Who, ∃ k : Fin 4, ∃ s : State, (s.hw.MayWrite who Reg.CRS_MODE_REQ) ∧ ((who = .crest ∨ who = .secure)) ∧ (s.hw.crs.request = none) ∧ (k.val < 3) ∧ (s.hw.mode = 1) ∧ (bitN s.hw.dutyMask k = true) ∧ (s.hw.dutySize ≠ 1)) ∧
    (∃ who : Who, ∃ k : Fin 4, ∃ s : State, (s.hw.MayWrite who Reg.CRS_MODE_REQ) ∧ ((who = .crest ∨ who = .secure)) ∧ (s.hw.crs.request = none) ∧ (k.val < 3) ∧ (s.hw.mode = 3) ∧ (s.hw.isSingle k = true) ∧ (s.hw.bit Reg.CRS_READY 0 = true) ∧ (s.hw.dutySize ≠ 1)) ∧
    (∃ who : Who, ∃ k : Fin 4, ∃ s : State, (s.hw.MayWrite who Reg.CRS_MODE_REQ) ∧ ((who = .crest ∨ who = .secure)) ∧ (s.hw.crs.request = none) ∧ (k.val < 3) ∧ ((s.hw.mode = 4 ∨ s.hw.mode = 3 ∨ s.hw.mode = 2)) ∧ (bitN s.hw.dutyMask k = false) ∧ (s.hw.isRetired k = false) ∧ (s.hw.crs.testing ≠ some k.val) ∧ (s.hw.dutySize ≠ 1)) ∧
    (∃ who : Who, ∃ k : Fin 4, ∃ s : State, (s.hw.MayWrite who Reg.CRS_MODE_REQ) ∧ ((who = .crest ∨ who = .secure)) ∧ (s.hw.crs.request = none) ∧ (k.val < 3) ∧ (s.hw.mode ≠ 5) ∧ (s.hw.isRetired k = false) ∧ (s.hw.dutySize ≠ 1)) ∧
    (∃ who : Who, ∃ s : State, (s.hw.MayWrite who Reg.CRS_MODE_REQ) ∧ ((who = .crest ∨ who = .secure)) ∧ (s.hw.crs.request ≠ none)) ∧
    (∃ who : Who, ∃ k, ∃ s : State, (s.hw.MayWrite who Reg.CRS_MODE_REQ) ∧ ((who = .crest ∨ who = .secure)) ∧ (s.hw.crs.request = some (opHandover, k))) ∧
    (∃ k, ∃ s : State, (s.hw.crs.request = some (opHandover, k))) ∧
    (∃ s : State, (s.hw.MayWrite .crest Reg.CRS_ALIVE)) ∧
    (∃ s : State, (s.hw.crestOn = true) ∧ (s.hw.dutyHalted = false) ∧ (s.hw.crs.lapse = false) ∧ (s.hw.crs.off = false)) ∧
    (∃ s : State, (s.hw.crs.lapse = true) ∧ (s.hw.dutyHalted = false)) ∧
    (∃ who : Who, ∃ j, ∃ s : State, (s.hw.MayWrite who Reg.CRS_MODE_REQ) ∧ ((who = .crest ∨ who = .secure)) ∧ (s.hw.crs.request = some (opJoin, j))) ∧
    (∃ who : Who, ∃ k : Fin 4, ∃ s : State, (s.hw.MayWrite who Reg.CRS_MODE_REQ) ∧ ((who = .crest ∨ who = .secure)) ∧ (s.hw.crs.request = none) ∧ (k.val < 3) ∧ (s.hw.mode = 3) ∧ (s.hw.isSingle k = true) ∧ (s.hw.bit Reg.CRS_READY 0 = true) ∧ (s.hw.dutySize = 1)) ∧
    (∃ who : Who, ∃ k : Fin 4, ∃ s : State, (s.hw.MayWrite who Reg.CRS_MODE_REQ) ∧ ((who = .crest ∨ who = .secure)) ∧ (s.hw.crs.request = none) ∧ (k.val < 3) ∧ ((s.hw.mode = 4 ∨ s.hw.mode = 3 ∨ s.hw.mode = 2)) ∧ (bitN s.hw.dutyMask k = false) ∧ (s.hw.isRetired k = false) ∧ (s.hw.crs.testing ≠ some k.val) ∧ (s.hw.dutySize = 1)) ∧
    (∃ who : Who, ∃ k : Fin 4, ∃ s : State, (s.hw.MayWrite who Reg.CRS_MODE_REQ) ∧ ((who = .crest ∨ who = .secure)) ∧ (s.hw.crs.request = none) ∧ (k.val < 3) ∧ (s.hw.mode ≠ 5) ∧ (s.hw.isRetired k = false) ∧ (bitN s.hw.dutyMask k = false) ∧ (s.hw.dutySize = 1)) :=
  ⟨⟨0, 1, by decide⟩,
   ⟨(on fun h => { h with crs := { h.crs with off := false } }), by decide +kernel⟩,
   ⟨(on fun h => { h with crs := { h.crs with testing := none } }), by decide +kernel⟩,
   ⟨0, (on fun h => { h with crs := { h.crs with testing := (some 0) } }), by decide +kernel⟩,
   ⟨0, (on fun h => { h with crs := { h.crs with testing := (some 0) } }), by decide +kernel⟩,
   ⟨.secure, 0,
     (on fun h => let h : Hw := ({ h with crs := { h.crs with request := none } }); let h : Hw := (h.setFld Reg.CRS_STAT Fld.CRS_STAT_MODE 1); h),
     ⟨by decide +kernel, by decide +kernel⟩, by decide +kernel, by decide +kernel, by decide +kernel,
     by decide +kernel, by decide +kernel, by decide +kernel⟩,
   ⟨.secure, 2,
     (on fun h => let h : Hw := ({ h with crs := { h.crs with request := none } }); let h : Hw := (h.setFld Reg.CRS_STAT Fld.CRS_STAT_MODE 3); let h : Hw := (h.setBit Reg.CRS_READY 0); let h : Hw := (h.setFld Reg.CRS_STAT Fld.CRS_STAT_DUTY 3); h),
     ⟨by decide +kernel, by decide +kernel⟩, by decide +kernel, by decide +kernel, by decide +kernel,
     by decide +kernel, by decide +kernel, by decide +kernel, by decide +kernel⟩,
   ⟨.secure, 2,
     (on fun h => let h : Hw := ({ h with crs := { h.crs with request := none } }); let h : Hw := (h.setFld Reg.CRS_STAT Fld.CRS_STAT_DUTY 3); let h : Hw := (h.setFld Reg.CRS_STAT Fld.CRS_STAT_MODE 2); h),
     ⟨by decide +kernel, by decide +kernel⟩, by decide +kernel, by decide +kernel, by decide +kernel,
     by decide +kernel, by decide +kernel, by decide +kernel, by decide +kernel, by decide +kernel⟩,
   ⟨.secure, 0, (on fun h => { h with crs := { h.crs with request := none } }), ⟨by decide +kernel,
     by decide +kernel⟩, by decide +kernel, by decide +kernel, by decide +kernel, by decide +kernel,
     by decide +kernel, by decide +kernel⟩,
   ⟨.secure, (on fun h => { h with crs := { h.crs with request := some (1, 0) } }), ⟨by decide +kernel,
     by decide +kernel⟩, by decide +kernel, by decide +kernel⟩,
   ⟨.secure, 0, (on fun h => { h with crs := { h.crs with request := some (opHandover, 0) } }), ⟨by decide +kernel,
     by decide +kernel⟩, by decide +kernel, by decide +kernel⟩,
   ⟨0, (on fun h => { h with crs := { h.crs with request := some (opHandover, 0) } }), by decide +kernel⟩,
   ⟨{ hw := up }, ⟨by decide +kernel, by decide +kernel⟩⟩,
   ⟨(on fun h => let h : Hw := ({ h with crs := { h.crs with lapse := false } }); let h : Hw := ({ h with crs := { h.crs with off := false } }); h),
     by decide +kernel⟩,
   ⟨(on fun h => { h with crs := { h.crs with lapse := true } }), by decide +kernel⟩,
   ⟨.secure, 0, (on fun h => { h with crs := { h.crs with request := some (opJoin, 0) } }), ⟨by decide +kernel,
     by decide +kernel⟩, by decide +kernel, by decide +kernel⟩,
   ⟨.secure, 1,
     (on fun h => let h : Hw := ({ h with crs := { h.crs with request := none } }); let h : Hw := (h.setBit Reg.CRS_READY 0); let h : Hw := (h.setFld Reg.CRS_STAT Fld.CRS_STAT_DUTY 1); let h : Hw := (h.setFld Reg.CRS_STAT Fld.CRS_STAT_MODE 3); h),
     ⟨by decide +kernel, by decide +kernel⟩, by decide +kernel, by decide +kernel, by decide +kernel,
     by decide +kernel, by decide +kernel, by decide +kernel, by decide +kernel⟩,
   ⟨.secure, 1,
     (on fun h => let h : Hw := ({ h with crs := { h.crs with request := none } }); let h : Hw := (h.setFld Reg.CRS_STAT Fld.CRS_STAT_DUTY 1); let h : Hw := (h.setFld Reg.CRS_STAT Fld.CRS_STAT_MODE 3); h),
     ⟨by decide +kernel, by decide +kernel⟩, by decide +kernel, by decide +kernel, by decide +kernel,
     by decide +kernel, by decide +kernel, by decide +kernel, by decide +kernel, by decide +kernel⟩,
   ⟨.secure, 1,
     (on fun h => let h : Hw := ({ h with crs := { h.crs with request := none } }); let h : Hw := (h.setFld Reg.CRS_STAT Fld.CRS_STAT_DUTY 1); let h : Hw := (h.setFld Reg.CRS_STAT Fld.CRS_STAT_MODE 3); h),
     ⟨by decide +kernel, by decide +kernel⟩, by decide +kernel, by decide +kernel, by decide +kernel,
     by decide +kernel, by decide +kernel, by decide +kernel, by decide +kernel⟩⟩

theorem witness_DebugAndInterruptsReachTheCores :
    (∃ h : Hw, ∃ who : Who, ∃ i : Nat, (h.srcActive i = true) ∧ (whoCode who ≠ 0) ∧ (h.srcOwner i = whoCode who)) ∧
    (∃ h : Hw, ∃ i, (h.srcActive i = false)) ∧
    (∃ h : Hw, ∃ c : CoreId, ∃ i : Nat, (h.canTake i c = true)) ∧
    (∃ t, (t ≤ 3)) ∧
    (∃ c : CoreId, ∃ s : State, (s.debugPort = true) ∧ (c.isEngine = false) ∧ (s.hw.corePowered c = true) ∧ ((s.hw.coreOf c).inReset = false) ∧ (s.invasive c = true)) ∧
    (∃ c : CoreId, ∃ s : State, (s.debugPort = true) ∧ (c.isEngine = false) ∧ (s.hw.corePowered c = true) ∧ ((s.hw.coreOf c).inReset = false) ∧ (s.invasive c = false)) ∧
    (∃ c : CoreId, ∃ s : State, (s.debugPort = true) ∧ ((s.hw.coreOf c).halted = true)) ∧
    (∃ c : CoreId, ∃ s : State, (s.debugPort = true) ∧ (s.invasive c = true) ∧ ((s.hw.coreOf c).halted = true)) ∧
    (∃ c : CoreId, ∃ s : State, (s.debugPort = true) ∧ (c.isEngine = false) ∧ ((s.hw.coreOf c).halted = true) ∧ (s.invasive c = true)) ∧
    (∃ c : CoreId, ∃ s : State, ((s.hw.coreOf c).halted = false)) ∧
    (∃ e : Fin 512, ∃ g, ∃ s : State, (s.hw.streamNext e = (g, none))) ∧
    (∃ e : Fin 512, ∃ g, ∃ a, ∃ s : State, (s.hw.streamNext e = (g, some a))) ∧
    (∃ c : CoreId, ∃ s : State, ((s.hw.coreOf c).idle = true) ∧ (s.hw.wakes c = true)) ∧
    (∃ who : Who, ∃ src : Fin 1024, ∃ s : State, (s.hw.MayWrite who Reg.IRQ_SET) ∧ (0x200 ≤ src.val) ∧ (whoCode who ≠ 0) ∧ (s.hw.srcOwner src = whoCode who)) ∧
    (∃ who : Who, ∃ src : Fin 1024, ∃ s : State, (s.hw.MayWrite who Reg.IRQ_CLR) ∧ (0x200 ≤ src.val) ∧ (whoCode who ≠ 0) ∧ (s.hw.srcOwner src = whoCode who)) ∧
    (∃ who : Who, ∃ src : Fin 1024, ∃ s : State, (s.hw.MayWrite who Reg.IRQ_CLR) ∧ (0x200 ≤ src.val) ∧ (s.hw.srcOwner src ≠ whoCode who)) ∧
    (∃ c : CoreId, ∃ i : Nat, ∃ s : State, (s.hw.bit Reg.IRQ_CTRL 0 = true) ∧ (s.hw.corePowered c = true) ∧ (s.hw.coreClocked c = true) ∧ ((s.hw.coreOf c).inReset = false) ∧ ((s.hw.coreOf c).halted = false) ∧ (s.hw.takeNext c = some i)) ∧
    (∃ k : Fin 8, ∃ s : State, (s.hw.appOn k = true) ∧ ((s.hw.appCore k).inReset = false) ∧ ((s.hw.appCore k).ns = false) ∧ ((s.hw.appCore k).shadow.isSome = true)) ∧
    (∃ source : Bool, ∃ id : Nat, ∃ x : Handover, ∃ s : State, (s.hw.handovers.find? (fun x => x.source == source && x.id == id) = some x) ∧ (s.hw.sysOn = true)) ∧
    (∃ c : CoreId, ∃ n : Fin 128, ∃ s : State, (s.debugPort = true) ∧ (c.isEngine = false) ∧ ((s.hw.coreOf c).halted = true) ∧ (s.invasive c = true) ∧ ((crLevels c.isApp n).isNone = false)) ∧
    (∃ c : CoreId, ∃ n : Fin 128, ((crLevels c.isApp n).isNone = true)) ∧
    (∃ s : State, (s.fuse.dbgLock = true)) :=
  ⟨⟨(let h : Hw := up; let h : Hw := (h.setBit (Reg.IRQ_SRC 0) 2); let h : Hw := (h.setFld (Reg.IRQ_SRC 0) Fld.IRQ_SRC_OWNER 1); h),
     .secure, 0, by decide +kernel⟩,
   ⟨(let h : Hw := up; let h : Hw := (h.clearBit (Reg.IRQ_SRC 0) 2); h), 0, by decide +kernel⟩,
   ⟨(let h : Hw := up; let h : Hw := (h.setReg (Reg.IRQ_SRC 0x200) 0x0101000003); let h : Hw := ({ h with app := [(0, { Core.appInit with inReset := false, status := 0, cr := [(58, 255)] })] }); h),
     .app 0, 0x200, by decide +kernel⟩,
   ⟨default, by decide +kernel⟩,
   ⟨.crest 0, { hw := (let h : Hw := up; let h : Hw := (h.setBit Reg.WLD_DBG 5); h), fuse := { dbgLock := false } },
     by decide +kernel⟩,
   ⟨.crest 0, { hw := up }, by decide +kernel⟩,
   ⟨.crest 0, (on fun h => h.setCrestCore 0 { h.crestCore 0 with halted := true, idle := true }), by decide +kernel⟩,
   ⟨.crest 0,
     (on fun h => let h : Hw := (h.setCrestCore 0 { h.crestCore 0 with halted := true, idle := true }); let h : Hw := (h.setBit Reg.WLD_DBG 5); h),
     by decide +kernel⟩,
   ⟨.crest 0,
     { hw := (let h : Hw := up; let h : Hw := (h.setCrestCore 0 { h.crestCore 0 with halted := true, idle := true }); let h : Hw := (h.setBit Reg.WLD_DBG 5); h), fuse := { dbgLock := false } },
     by decide +kernel⟩,
   ⟨.crest 0, { hw := up }, by decide +kernel⟩,
   by
      refine ⟨0, (up.streamNext 0).1, { hw := up }, Prod.ext rfl (by decide +kernel)⟩,
   by
      refine ⟨0,
        (((on fun h => let h : Hw := h.setEngine 0 { h.engine 0 with task := some { kind := .inst }, streams := [{ write := false, tgt := 3, loc := 0, target := 0, words := 1 }] }; let h : Hw := h.setInst 0 { h.inst 0 with dramBase := 0x100000000, dramSize := 1000 }; let h : Hw := h.setRam 0x100000000 { data := 0, poisoned := true }; h) : State).hw.streamNext 0).1,
        0x100000000,
        (on fun h => let h : Hw := h.setEngine 0 { h.engine 0 with task := some { kind := .inst }, streams := [{ write := false, tgt := 3, loc := 0, target := 0, words := 1 }] }; let h : Hw := h.setInst 0 { h.inst 0 with dramBase := 0x100000000, dramSize := 1000 }; let h : Hw := h.setRam 0x100000000 { data := 0, poisoned := true }; h),
        Prod.ext rfl (by decide +kernel)⟩,
   ⟨.app 0,
     (on fun h => let h : Hw := (h.setReg (Reg.IRQ_SRC 0x200) 0x0101000003); let h : Hw := ({ h with app := [(0, { Core.appInit with inReset := false, status := 0, cr := [(58, 255)] })] }); let h : Hw := (h.setAppCore 0 { h.appCore 0 with idle := true }); h),
     by decide +kernel⟩,
   ⟨.secure, 0x200, (on fun h => h.setFld (Reg.IRQ_SRC 0x200) Fld.IRQ_SRC_OWNER 1), ⟨by decide +kernel,
     by decide +kernel⟩, by decide +kernel, by decide +kernel, by decide +kernel⟩,
   ⟨.secure, 0x200, (on fun h => h.setFld (Reg.IRQ_SRC 0x200) Fld.IRQ_SRC_OWNER 1), ⟨by decide +kernel,
     by decide +kernel⟩, by decide +kernel, by decide +kernel, by decide +kernel⟩,
   ⟨.secure, 512, { hw := up }, ⟨by decide +kernel, by decide +kernel⟩, by decide +kernel, by decide +kernel⟩,
   ⟨.app 0, 0x200,
     (on fun h => let h : Hw := (h.setBit Reg.IRQ_CTRL 0); let h : Hw := (h.setReg (Reg.IRQ_SRC 0x200) 0x0101000003); let h : Hw := ({ h with app := [(0, { Core.appInit with inReset := false, status := 0, cr := [(58, 255)] })] }); let h : Hw := (h.setBit Reg.IRQ_CTRL 0); h),
     by decide +kernel⟩,
   ⟨0,
     (on fun h => { h with app := [(0, { Core.appInit with inReset := false, status := 0, shadow := some { g := [], acc := [], flags := 0, byTrap3 := true } })] }),
     by decide +kernel⟩,
   ⟨false, 30, ({ source := false, id := 30, old := 1, new := 2, op := 1, who := 0 } : Handover),
     (on fun h => { h with handovers := [({ source := false, id := 30, old := 1, new := 2, op := 1, who := 0 } : Handover)] }),
     by decide +kernel⟩,
   ⟨.crest 0, 0,
     (on fun h => let h : Hw := (h.setCrestCore 0 { h.crestCore 0 with halted := true, idle := true }); let h : Hw := (h.setBit Reg.WLD_DBG 5); h),
     by decide +kernel⟩,
   ⟨.crest 0, 40, by decide +kernel⟩,
   ⟨{ hw := up, fuse := { dbgLock := true } }, by decide +kernel⟩⟩

theorem witness_UnitsChangeOwnersAndVmsChangeState :
    (∃ who : Who, ∃ owner : Nat, ∃ claim : Nat, (whoCode who ≠ 0) ∧ (bitN claim (whoBit who) = true) ∧ (whoCode who ≠ owner)) ∧
    (∃ who : Who, ∃ claim : Nat, (bitN claim (whoBit who) = false)) ∧
    (∃ who : Who, ∃ owner : Nat, (mayRelease who owner = false)) ∧
    (∃ h : Hw, ∃ who : Who, ∃ owner : Nat, ∃ new : Nat, ∃ grant : Nat, (mayRelease who owner = true) ∧ (h.newOwnerOk grant new = false)) ∧
    (∃ h : Hw, ∃ who : Who, ∃ owner : Nat, ∃ new : Nat, ∃ grant : Nat, (mayRelease who owner = true) ∧ (h.newOwnerOk grant new = true) ∧ (new ≠ owner)) ∧
    (∃ who : Who, ∃ owner : Nat, ∃ dflt : Nat, (mayRelease who owner = true) ∧ (dflt ≠ owner)) ∧
    (∃ who : Who, ∃ source : Bool, ∃ id : Nat, ∃ new : Nat, ∃ owner : Nat, ∃ dflt : Nat, ∃ grant : Nat, ∃ claim : Nat, ∃ n : Nat, ∃ s : State, (s.hw.MayWrite who Reg.WLD_HO_REQ) ∧ (id < 1024) ∧ ((if source then id < 0x1F8 ∨ 0x200 ≤ id else isUnit id = true)) ∧ ((source = true → sourceOfUnit id = false)) ∧ (s.hw.inHandover source id = false) ∧ (s.hw.hoAuth source id = (owner, dflt, grant, claim)) ∧ (new < 256) ∧ (s.hw.hoVerdict who 1 owner new dflt grant claim = .go n)) ∧
    (∃ who : Who, ∃ source : Bool, ∃ id : Nat, ∃ owner : Nat, ∃ dflt : Nat, ∃ grant : Nat, ∃ claim : Nat, ∃ n : Nat, ∃ s : State, (s.hw.MayWrite who Reg.WLD_HO_REQ) ∧ (id < 1024) ∧ ((if source then id < 0x1F8 ∨ 0x200 ≤ id else isUnit id = true)) ∧ ((source = true → sourceOfUnit id = false)) ∧ (s.hw.inHandover source id = false) ∧ (s.hw.hoAuth source id = (owner, dflt, grant, claim)) ∧ (s.hw.hoVerdict who 2 owner (whoCode who) dflt grant claim = .go n)) ∧
    (∃ who : Who, ∃ source : Bool, ∃ id : Nat, ∃ owner : Nat, ∃ dflt : Nat, ∃ grant : Nat, ∃ claim : Nat, ∃ n : Nat, ∃ s : State, (s.hw.MayWrite who Reg.WLD_HO_REQ) ∧ (id < 1024) ∧ ((if source then id < 0x1F8 ∨ 0x200 ≤ id else isUnit id = true)) ∧ ((source = true → sourceOfUnit id = false)) ∧ (s.hw.inHandover source id = false) ∧ (s.hw.hoAuth source id = (owner, dflt, grant, claim)) ∧ (s.hw.hoVerdict who 3 owner 0 dflt grant claim = .go n)) ∧
    (∃ who : Who, ∃ source : Bool, ∃ id : Nat, ∃ s : State, (s.hw.MayWrite who Reg.WLD_HO_REQ) ∧ (id < 1024) ∧ (isUnit id = true) ∧ (source = false) ∧ (s.hw.inHandover source id = true)) ∧
    (∃ s : State, ((s.hw.vmSlot 0).declared = true) ∧ ((s.hw.vmSlot 0).state = .empty) ∧ (s.hw.sysOn = true)) ∧
    (∃ who : Who, (Hw.vmCommander who = false)) ∧
    (∃ who : Who, ∃ v : Fin 16, ∃ s : State, (Hw.vmCommander who = true) ∧ ((s.hw.vmSlot v).state ≠ .empty)) ∧
    (∃ who : Who, ∃ v : Fin 16, ∃ s : State, (Hw.vmCommander who = true) ∧ ((s.hw.vmSlot v).state = .running)) ∧
    (∃ v : Fin 16, ∃ s : State, ((s.hw.vmSlot v).state = .running)) ∧
    (∃ v : Fin 16, ∃ s : State, ((s.hw.vmSlot v).state = .starting)) ∧
    (∃ v : Fin 16, ∃ s : State, ((s.hw.vmSlot v).state = .stopping) ∧ (s.hw.vmStopped v = true)) ∧
    (∃ s : State, ((s.hw.vmSlot 0).state = .running)) ∧
    (∃ who : Who, ∃ v : Fin 16, ∃ s : State, (Hw.vmCommander who = true) ∧ (v.val ≠ 0) ∧ ((s.hw.vmSlot v).declared = true) ∧ ((s.hw.vmSlot v).state = .empty) ∧ (s.hw.sysOn = true) ∧ (s.tenantGood (s.partImage norStaging 4 v) v = false)) :=
  ⟨⟨.secure, 4, (2 ^ 20 - 1), by decide +kernel⟩,
   ⟨.secure, 0, by decide +kernel⟩,
   ⟨.vm 3, 4, by decide +kernel⟩,
   ⟨up, .secure, 4, 1, 0, by decide +kernel⟩,
   ⟨up, .secure, 4, 1, (2 ^ 20 - 1), by decide +kernel⟩,
   ⟨.secure, 4, 1, by decide +kernel⟩,
   ⟨.secure, false, 30, 1, 4, 2, 1048575, 1048575, 1,
     (on fun h => let h : Hw := (h.setReg (Reg.WLD_UNIT_AUTH 30) (BitVec.allOnes 40)); let h : Hw := (h.setFld (Reg.WLD_UNIT_OWN 30) Fld.WLD_UNIT_OWN_OWNER 4); let h : Hw := (h.setFld (Reg.WLD_UNIT_OWN 30) Fld.WLD_UNIT_OWN_DEFAULT 2); h),
     ⟨by decide +kernel, by decide +kernel⟩, by decide +kernel, by decide +kernel, by decide +kernel,
     by decide +kernel, by decide +kernel, by decide +kernel, by decide +kernel⟩,
   ⟨.secure, false, 30, 4, 2, 1048575, 1048575, 1,
     (on fun h => let h : Hw := (h.setReg (Reg.WLD_UNIT_AUTH 30) (BitVec.allOnes 40)); let h : Hw := (h.setFld (Reg.WLD_UNIT_OWN 30) Fld.WLD_UNIT_OWN_OWNER 4); let h : Hw := (h.setFld (Reg.WLD_UNIT_OWN 30) Fld.WLD_UNIT_OWN_DEFAULT 2); h),
     ⟨by decide +kernel, by decide +kernel⟩, by decide +kernel, by decide +kernel, by decide +kernel,
     by decide +kernel, by decide +kernel, by decide +kernel⟩,
   ⟨.secure, false, 30, 4, 2, 1048575, 1048575, 2,
     (on fun h => let h : Hw := (h.setReg (Reg.WLD_UNIT_AUTH 30) (BitVec.allOnes 40)); let h : Hw := (h.setFld (Reg.WLD_UNIT_OWN 30) Fld.WLD_UNIT_OWN_OWNER 4); let h : Hw := (h.setFld (Reg.WLD_UNIT_OWN 30) Fld.WLD_UNIT_OWN_DEFAULT 2); h),
     ⟨by decide +kernel, by decide +kernel⟩, by decide +kernel, by decide +kernel, by decide +kernel,
     by decide +kernel, by decide +kernel, by decide +kernel⟩,
   ⟨.secure, false, 30,
     (on fun h => { h with handovers := [({ source := false, id := 30, old := 1, new := 2, op := 1, who := 0 } : Handover)] }),
     ⟨by decide +kernel, by decide +kernel⟩, by decide +kernel, by decide +kernel, by decide +kernel,
     by decide +kernel⟩,
   ⟨(on fun h => let h : Hw := (h.setVmSlot 0 { h.vmSlot 0 with declared := true }); let h : Hw := (h.setVmSlot 0 { h.vmSlot 0 with state := .empty }); h),
     by decide +kernel⟩,
   ⟨.system, by decide +kernel⟩,
   ⟨.secure, 0, { hw := up }, by decide +kernel⟩,
   ⟨.secure, 0, (on fun h => h.setVmSlot 0 { h.vmSlot 0 with state := .running }), by decide +kernel⟩,
   ⟨0, (on fun h => h.setVmSlot 0 { h.vmSlot 0 with state := .running }), by decide +kernel⟩,
   ⟨0, (on fun h => h.setVmSlot 0 { h.vmSlot 0 with state := .starting }), by decide +kernel⟩,
   ⟨0, (on fun h => h.setVmSlot 0 { h.vmSlot 0 with state := .stopping }), by decide +kernel⟩,
   ⟨(on fun h => h.setVmSlot 0 { h.vmSlot 0 with state := .running }), by decide +kernel⟩,
   ⟨.secure, 1,
     (on fun h => let h : Hw := (h.setVmSlot 1 { h.vmSlot 1 with declared := true }); let h : Hw := (h.setVmSlot 1 { h.vmSlot 1 with state := .empty }); h),
     by decide +kernel⟩⟩

theorem witness_MailboxMessagesAndChannelsMove :
    (∃ c : Channel, ∃ seq : Nat, ∃ l : Nat, (0 < seq) ∧ (seq < 65536) ∧ (c.last = some l) ∧ (1 ≤ (seq + 65536 - l) % 65536) ∧ ((seq + 65536 - l) % 65536 ≤ 32767)) ∧
    (∃ c : Channel, ∃ seq : Nat, (0 < seq) ∧ (c.last = some seq) ∧ (seq < 65536) ∧ ((∃ m ∈ c.queue, m.seq = seq))) ∧
    (∃ who : Who, ∃ n : Fin 64, ∃ seq : BitVec 16, ∃ s : State, (s.hw.MayWrite who (Reg.MBX_DOORBELL n)) ∧ (s.hw.channelOpen n = true) ∧ (s.hw.isSender who n = true) ∧ (s.hw.receiverOn (s.hw.chan n).recv = true) ∧ ((s.hw.chan n).classify seq.toNat = .fresh) ∧ (0 < (s.hw.chan n).credits)) ∧
    (∃ who : Who, ∃ n : Fin 64, ∃ seq : BitVec 16, ∃ s : State, (s.hw.MayWrite who (Reg.MBX_DOORBELL n)) ∧ (s.hw.channelOpen n = true) ∧ (s.hw.isSender who n = true) ∧ (s.hw.receiverOn (s.hw.chan n).recv = true) ∧ ((s.hw.chan n).classify seq.toNat = .pending)) ∧
    (∃ who : Who, ∃ n : Fin 64, ∃ s : State, (s.hw.MayWrite who (Reg.MBX_DOORBELL n)) ∧ (s.hw.isSender who n = false)) ∧
    (∃ who : Who, ∃ n : Fin 64, ∃ seq : BitVec 16, ∃ code : BitVec 16, ∃ m : MbxMsg, ∃ q : List MbxMsg, ∃ s : State, (s.hw.MayWrite who (Reg.MBX_ACK n)) ∧ (s.hw.channelOpen n = true) ∧ (s.hw.isReceiver who n = true) ∧ (code.toNat < 0xFF00) ∧ ((s.hw.chan n).queue = m :: q) ∧ (m.seq = seq.toNat)) ∧
    (∃ who : Who, ∃ n : Fin 64, ∃ s : State, (s.hw.MayWrite who (Reg.MBX_ACK n)) ∧ (s.hw.isReceiver who n = false)) ∧
    (∃ who : Who, ∃ n : Fin 64, ∃ s : State, (s.hw.MayRead who (Reg.MBX_DONE n)) ∧ (s.hw.isSender who n = true)) ∧
    (∃ who : Who, ∃ id : Fin 64, ∃ new : Nat, ∃ n : Nat, ∃ s : State, (s.hw.MayWrite who Reg.MBX_HO_REQ) ∧ (id.val < 48) ∧ (s.hw.hoVerdict who 1 (s.hw.chan id).recv new (s.hw.chan id).dfltRecv (s.hw.chan id).grant (s.hw.chan id).claim = .go n)) ∧
    (∃ who : Who, ∃ id : Fin 64, ∃ n : Nat, ∃ s : State, (s.hw.MayWrite who Reg.MBX_HO_REQ) ∧ (id.val < 48) ∧ (s.hw.hoVerdict who 2 (s.hw.chan id).sender (whoCode who) (s.hw.chan id).dfltSender (s.hw.chan id).grant (s.hw.chan id).claim = .go n)) ∧
    (∃ who : Who, ∃ id : Fin 64, ∃ n : Nat, ∃ s : State, (s.hw.MayWrite who Reg.MBX_HO_REQ) ∧ (id.val < 48) ∧ (s.hw.hoVerdict who 3 (s.hw.chan id).recv 0 (s.hw.chan id).dfltRecv (s.hw.chan id).grant (s.hw.chan id).claim = .go n)) ∧
    (∃ who : Who, ∃ id : Fin 64, ∃ new : Nat, ∃ n : Nat, ∃ s : State, (s.hw.MayWrite who Reg.MBX_HO_REQ) ∧ (id.val < 48) ∧ (s.hw.hoVerdict who 1 (s.hw.chan id).sender new (s.hw.chan id).dfltSender (s.hw.chan id).grant (s.hw.chan id).claim = .go n)) ∧
    (∃ who : Who, ∃ id : Fin 64, ∃ n : Nat, ∃ s : State, (s.hw.MayWrite who Reg.MBX_HO_REQ) ∧ (id.val < 48) ∧ (s.hw.hoVerdict who 2 (s.hw.chan id).recv (whoCode who) (s.hw.chan id).dfltRecv (s.hw.chan id).grant (s.hw.chan id).claim = .go n)) ∧
    (∃ who : Who, ∃ id : Fin 64, ∃ n : Nat, ∃ s : State, (s.hw.MayWrite who Reg.MBX_HO_REQ) ∧ (id.val < 48) ∧ (s.hw.hoVerdict who 3 (s.hw.chan id).sender 0 (s.hw.chan id).dfltSender (s.hw.chan id).grant (s.hw.chan id).claim = .go n)) ∧
    (∃ who : Who, ∃ id : Fin 64, ∃ new : Nat, ∃ n : Nat, ∃ s : State, (s.hw.MayWrite who Reg.MBX_HO_REQ) ∧ (id.val < 16) ∧ ((s.hw.inst id).item = none) ∧ ((s.hw.inst id).loaded = false) ∧ (((s.hw.inst id).state = .idle ∨ (s.hw.inst id).state = .drained)) ∧ (s.hw.hoVerdict who 1 (0x10 + (s.hw.inst id).vm) new (0x10 + (s.hw.inst id).dfltVm) (s.hw.inst id).grant (s.hw.inst id).claim = .go n) ∧ (codeIsVm n = true)) :=
  ⟨⟨({ last := some 1 } : Channel), 2, 1, by decide +kernel⟩,
   ⟨({ last := some 5, queue := [{ ptr := 0, len := 0, tag := 0, seq := 5 }] } : Channel), 5, by decide +kernel,
     by decide +kernel, by decide +kernel, (by exact ⟨_, List.mem_singleton.mpr rfl, rfl⟩)⟩,
   ⟨.secure, 0, 1,
     (on fun h => let h : Hw := (h.setChan 0 { h.chan 0 with credits := 1 }); let h : Hw := (h.setChan 0 { h.chan 0 with sender := 1, recv := 2, dfltRecv := 1, grant := 1048575, claim := 1048575 }); let h : Hw := (h.setBit Reg.MBX_CTRL 0); h),
     ⟨by decide +kernel, by decide +kernel⟩, by decide +kernel, by decide +kernel, by decide +kernel,
     by decide +kernel, by decide +kernel⟩,
   ⟨.secure, 0, 5,
     (on fun h => let h : Hw := (h.setChan 0 { h.chan 0 with sender := 1, recv := 2, dfltRecv := 1, grant := 1048575, claim := 1048575 }); let h : Hw := (h.setBit Reg.MBX_CTRL 0); let h : Hw := (h.setChan 0 { h.chan 0 with last := some 5, queue := [({ ptr := 0, len := 0, tag := 0, seq := 5 } : MbxMsg)] }); h),
     ⟨by decide +kernel, by decide +kernel⟩, by decide +kernel, by decide +kernel, by decide +kernel,
     by decide +kernel⟩,
   ⟨.secure, 0, { hw := up }, ⟨by decide +kernel, by decide +kernel⟩, by decide +kernel⟩,
   ⟨.crest, 0, 5, 0, ({ ptr := 0, len := 0, tag := 0, seq := 5 } : MbxMsg), [],
     (on fun h => let h : Hw := (h.setChan 0 { h.chan 0 with sender := 1, recv := 2, dfltRecv := 1, grant := 1048575, claim := 1048575 }); let h : Hw := (h.setBit Reg.MBX_CTRL 0); let h : Hw := (h.setChan 0 { h.chan 0 with queue := [({ ptr := 0, len := 0, tag := 0, seq := 5 } : MbxMsg)] }); h),
     ⟨by decide +kernel, by decide +kernel⟩, by decide +kernel, by decide +kernel, by decide +kernel,
     by decide +kernel, by decide +kernel⟩,
   ⟨.secure, 0, { hw := up }, ⟨by decide +kernel, by decide +kernel⟩, by decide +kernel⟩,
   ⟨.secure, 0,
     (on fun h => let h : Hw := (h.setChan 0 { h.chan 0 with sender := 1, recv := 2, dfltRecv := 1, grant := 1048575, claim := 1048575 }); let h : Hw := (h.setBit Reg.MBX_CTRL 0); h),
     ⟨by decide +kernel, by decide +kernel⟩, by decide +kernel⟩,
   ⟨.crest, 0, 1, 1,
     (on fun h => let h : Hw := (h.setChan 0 { h.chan 0 with sender := 1, recv := 2, dfltRecv := 1, grant := 1048575, claim := 1048575 }); let h : Hw := (h.setBit Reg.MBX_CTRL 0); h),
     ⟨by decide +kernel, by decide +kernel⟩, by decide +kernel, by decide +kernel⟩,
   ⟨.hypervisor, 0, 4,
     (on fun h => let h : Hw := (h.setChan 0 { h.chan 0 with sender := 1, recv := 2, dfltRecv := 1, grant := 1048575, claim := 1048575 }); let h : Hw := (h.setBit Reg.MBX_CTRL 0); h),
     ⟨by decide +kernel, by decide +kernel⟩, by decide +kernel, by decide +kernel⟩,
   ⟨.crest, 0, 1,
     (on fun h => let h : Hw := (h.setChan 0 { h.chan 0 with sender := 1, recv := 2, dfltRecv := 1, grant := 1048575, claim := 1048575 }); let h : Hw := (h.setBit Reg.MBX_CTRL 0); h),
     ⟨by decide +kernel, by decide +kernel⟩, by decide +kernel, by decide +kernel⟩,
   ⟨.secure, 0, 2, 2,
     (on fun h => let h : Hw := (h.setChan 0 { h.chan 0 with sender := 1, recv := 2, dfltSender := 2, dfltRecv := 1, grant := 1048575, claim := 1048575 }); let h : Hw := (h.setBit Reg.MBX_CTRL 0); h),
     ⟨by decide +kernel, by decide +kernel⟩, by decide +kernel, by decide +kernel⟩,
   ⟨.hypervisor, 0, 4,
     (on fun h => let h : Hw := (h.setChan 0 { h.chan 0 with sender := 1, recv := 2, dfltSender := 2, dfltRecv := 1, grant := 1048575, claim := 1048575 }); let h : Hw := (h.setBit Reg.MBX_CTRL 0); h),
     ⟨by decide +kernel, by decide +kernel⟩, by decide +kernel, by decide +kernel⟩,
   ⟨.secure, 0, 2,
     (on fun h => let h : Hw := (h.setChan 0 { h.chan 0 with sender := 1, recv := 2, dfltSender := 2, dfltRecv := 1, grant := 1048575, claim := 1048575 }); let h : Hw := (h.setBit Reg.MBX_CTRL 0); h),
     ⟨by decide +kernel, by decide +kernel⟩, by decide +kernel, by decide +kernel⟩,
   ⟨.secure, 0, 16, 16,
     (on fun h => let h : Hw := (h.setInst 0 { h.inst 0 with item := none }); let h : Hw := (h.setInst 0 { h.inst 0 with loaded := false }); let h : Hw := (h.setInst 0 { h.inst 0 with state := .idle, vm := 1, grant := 1048575, claim := 1048575 }); h),
     ⟨by decide +kernel, by decide +kernel⟩, by decide +kernel, by decide +kernel, by decide +kernel,
     by decide +kernel, by decide +kernel, by decide +kernel⟩⟩

theorem witness_FabricInstancesRunTheirItems :
    (∃ h : Hw, ∃ i : Nat, ∃ x : FiItem, ((h.inst i).item = some x)) ∧
    (∃ who : Who, ∃ i : Fin 16, ∃ s : State, (s.hw.MayWrite who (Reg.MBX_FI_CMD i)) ∧ (s.hw.fiMayCommand who i = true) ∧ ((s.hw.inst i).state = .busy)) ∧
    (∃ who : Who, ∃ i : Fin 16, ∃ s : State, (s.hw.MayWrite who (Reg.MBX_FI_CMD i)) ∧ (s.hw.fiMayCommand who i = false)) ∧
    (∃ who : Who, ∃ i : Fin 16, ∃ s : State, (s.hw.MayWrite who (Reg.MBX_FI_CMD i)) ∧ (s.hw.fiMayCommand who i = true) ∧ ((s.hw.inst i).state = .drained)) ∧
    (∃ i : Fin 16, ∃ m : MbxMsg, ∃ s : State, (s.hw.fiNext i = some m) ∧ ((s.hw.inst i).state = .idle) ∧ ((s.hw.inst i).item = none) ∧ ((s.hw.inst i).nextCode = none) ∧ (s.hw.fiDescOk i m = true) ∧ (bitsOf (s.peek m.ptr) 39 32 = 1) ∧ ((s.peek (m.ptr + 2)).toNat ≤ (s.hw.inst i).code) ∧ ((s.peek (m.ptr + 1)).toNat + (s.peek (m.ptr + 2)).toNat ≤ (s.hw.inst i).dramSize)) ∧
    (∃ i : Fin 16, ∃ m : MbxMsg, ∃ q : List MbxMsg, ∃ s : State, ((s.hw.chan (48 + i.val)).queue = m :: q) ∧ ((s.hw.inst i).state = .idle) ∧ ((s.hw.inst i).item = none) ∧ (s.hw.fiDescOk i m = true) ∧ (bitsOf (s.peek m.ptr) 39 32 = 2) ∧ ((s.hw.inst i).loaded = true) ∧ (bitsOf (s.peek (m.ptr + 1)) 15 0 < (s.hw.inst i).code)) ∧
    (∃ i : Fin 16, ∃ x : FiItem, ∃ s : State, ((s.hw.inst i).item = some x) ∧ ((s.hw.inst i).state = .busy) ∧ (x.finished = true) ∧ ((s.hw.inst i).nextCode = none)) ∧
    (∃ e : Fin 512, ∃ clocks : Nat, ∃ t : Machine.Task, ∃ s : State, ((s.hw.engine e).task = some t) ∧ (t.kind = .inst) ∧ ((s.hw.inst t.fi).taskMax < clocks)) ∧
    (∃ i : Fin 16, ∃ x : FiItem, ∃ s : State, ((s.hw.inst i).item = some x) ∧ ((s.hw.inst i).state = .quiescing) ∧ (x.ended = x.given)) :=
  ⟨⟨(let h : Hw := up; let h : Hw := (h.setInst 0 { h.inst 0 with item := (some ((({ run := true } : FiItem)))) }); h),
     0, ({ run := true } : FiItem), by decide +kernel⟩,
   ⟨.secure, 0, (on fun h => h.setInst 0 { h.inst 0 with state := .busy }), ⟨by decide +kernel, by decide +kernel⟩,
     by decide +kernel, by decide +kernel⟩,
   ⟨.crest, 0, { hw := up }, ⟨by decide +kernel, by decide +kernel⟩, by decide +kernel⟩,
   ⟨.secure, 0, (on fun h => h.setInst 0 { h.inst 0 with state := .drained }), ⟨by decide +kernel, by decide +kernel⟩,
     by decide +kernel, by decide +kernel⟩,
   ⟨0, ({ ptr := 0x100000000, len := 3, tag := 0, seq := 0 } : MbxMsg),
     (on fun h => let h : Hw := (h.setInst 0 { h.inst 0 with state := .idle }); let h : Hw := (h.setInst 0 { h.inst 0 with item := none }); let h : Hw := (h.setInst 0 { h.inst 0 with nextCode := none }); let h : Hw := (h.setChan 48 { h.chan 48 with queue := [({ ptr := 0x100000000, len := 3, tag := 0, seq := 0 } : MbxMsg)] }); let h : Hw := (h.setInst 0 { h.inst 0 with dramBase := 0x100000000, dramSize := 1000, code := 100, loaded := true }); let h : Hw := (h.setRam 0x100000000 { data := 4294967296 }); let h : Hw := (h.setRam 0x100000001 { data := 3 }); let h : Hw := (h.setRam 0x100000002 { data := 10 }); h),
     by decide +kernel⟩,
   ⟨0, ({ ptr := 0x100000000, len := 3, tag := 0, seq := 0 } : MbxMsg), [],
     (on fun h => let h : Hw := (h.setInst 0 { h.inst 0 with state := .idle }); let h : Hw := (h.setInst 0 { h.inst 0 with item := none }); let h : Hw := (h.setInst 0 { h.inst 0 with loaded := true }); let h : Hw := (h.setChan 48 { h.chan 48 with queue := [({ ptr := 0x100000000, len := 3, tag := 0, seq := 0 } : MbxMsg)] }); let h : Hw := (h.setInst 0 { h.inst 0 with dramBase := 0x100000000, dramSize := 1000, code := 100, loaded := true }); let h : Hw := (h.setRam 0x100000000 { data := 8589934592 }); let h : Hw := (h.setRam 0x100000001 { data := 0 }); let h : Hw := (h.setRam 0x100000002 { data := 0 }); h),
     by decide +kernel⟩,
   ⟨0, ({ run := true } : FiItem),
     (on fun h => let h : Hw := (h.setInst 0 { h.inst 0 with item := (some ((({ run := true } : FiItem)))) }); let h : Hw := (h.setInst 0 { h.inst 0 with state := .busy }); let h : Hw := (h.setInst 0 { h.inst 0 with nextCode := none }); h),
     by decide +kernel⟩,
   ⟨0, 1, ({ kind := .inst } : Machine.Task),
     (on fun h => h.setEngine 0 { h.engine 0 with task := (some ((({ kind := .inst } : Machine.Task)))) }),
     by decide +kernel⟩,
   ⟨0, ({ run := true } : FiItem),
     (on fun h => let h : Hw := (h.setInst 0 { h.inst 0 with item := (some ((({ run := true } : FiItem)))) }); let h : Hw := (h.setInst 0 { h.inst 0 with state := .quiescing }); h),
     by decide +kernel⟩⟩

theorem witness_SwitchFramesLinksAndPauses :
    (∃ p : Fin 8, ∃ head : List Byte, ∃ s : State, (s.hw.swOn = true) ∧ (s.hw.linkUp p = true) ∧ (s.hw.rxOf p = none) ∧ (60 ≤ head.length) ∧ (frameField head 12 2 = 0x8808)) ∧
    (∃ p : Fin 8, ∃ head, ∃ g, ∃ s : State, (s.hw.swOn = true) ∧ (s.hw.linkUp p = true) ∧ (s.hw.rxOf p = none) ∧ (60 ≤ head.length) ∧ (frameField head 12 2 ≠ 0x8808) ∧ (Hw.ptpEvent (Hw.untagged head) = false) ∧ ((s.hw.prpOn && decide (p.val < 2)) = false) ∧ (s.hw.stages p head = (g, none))) ∧
    (∃ p : Fin 8, ∃ l : List Byte, ∃ s : State, (s.hw.swOn = true) ∧ (s.hw.linkUp p = true) ∧ (s.hw.rxOf p = none) ∧ (l.length + 4 < 64)) ∧
    (∃ p : Fin 8, ∃ l : List Byte, ∃ fcs : Bool, ∃ code : Bool, ∃ r : SwRx, ∃ s : State, (s.hw.swOn = true) ∧ (s.hw.linkUp p = true) ∧ (s.hw.rxOf p = some r) ∧ (r.frame = none) ∧ (64 ≤ l.length + 4) ∧ (l.length + 4 ≤ 2000) ∧ (code = false) ∧ (fcs = false)) ∧
    (∃ p : Fin 8, ∃ l : List Byte, ∃ r : SwRx, ∃ s : State, (s.hw.swOn = true) ∧ (s.hw.linkUp p = true) ∧ (s.hw.rxOf p = some r) ∧ (64 ≤ l.length + 4) ∧ (l.length + 4 ≤ 2000) ∧ (r.ctl = false)) ∧
    (∃ q : Fin 11, ∃ g, ∃ s : State, (s.hw.swOn = true) ∧ (s.hw.sendingOf q = none) ∧ ((isEp q = true → s.hw.linkUp q = true ∧ s.hw.paused q = false)) ∧ (s.hw.choose q = (g, none))) ∧
    (∃ q : Fin 11, ∃ g, ∃ f, ∃ s : State, (s.hw.swOn = true) ∧ (s.hw.sendingOf q = none) ∧ ((isEp q = true → s.hw.linkUp q = true ∧ s.hw.paused q = false)) ∧ (s.hw.choose q = (g, some f)) ∧ (f.mirror ≠ none)) ∧
    (∃ q : Fin 11, ∃ s : State, (s.hw.sendingOf q = none)) ∧
    (∃ q : Fin 11, ∃ id : Nat, ∃ a : Bool, ∃ b : Bool, ∃ f : SwFrame, ∃ s : State, (s.hw.sendingOf q = some (id, a, b)) ∧ (s.hw.swFrame id = some f) ∧ (f.bad = true)) ∧
    (∃ p : Fin 8, ∃ s : State, (s.hw.swOn = true) ∧ (s.hw.bit (Reg.MAC_CTRL p) 0 = true) ∧ (s.hw.lineOn p = true) ∧ (2 ≤ p.val) ∧ ((s.hw.clearBit (Reg.MAC_STAT p) 6).linkUp p = false)) ∧
    (∃ p : Fin 8, ∃ s : State, (s.hw.swOn = true) ∧ (s.hw.bit (Reg.MAC_CTRL p) 0 = true) ∧ (s.hw.lineOn p = true) ∧ (2 ≤ p.val)) ∧
    (∃ s : State, (s.hw.sysOn = true)) ∧
    (∃ p : Fin 8, ∃ s : State, (s.hw.swOn = true) ∧ (s.hw.linkUp p = true) ∧ (s.hw.bit (Reg.MAC_CTRL p) 3 = true) ∧ ((s.hw.macCount p 16 1).bit (Reg.MAC_CTRL p) 3 = true) ∧ ((s.hw.macCount p 16 1).paused p = false)) ∧
    (∃ p : Fin 8, ∃ s : State, (s.hw.paused p = true)) ∧
    (∃ s : State, (s.hw.swOn = true) ∧ (s.hw.prpOn = true) ∧ (s.hw.cfg.sw.prpNodes = [])) ∧
    (∃ mac, ∃ s : State, (s.hw.swOn = true) ∧ (s.hw.prpOn = true) ∧ (s.hw.cfg.sw.prpNodes = [(mac, true)]) ∧ (s.hw.linkUp 0 = true) ∧ ((s.hw.nextSeq 0).1.linkUp 0 = true) ∧ (((s.hw.nextSeq 0).1.sentFrame 0 (Config.prpSupervision mac (s.hw.nextSeq 0).2 0xA)).linkUp 1 = false)) ∧
    (∃ p : Fin 8, ∃ s : State, (s.hw.swOn = true) ∧ (s.hw.epEnabled p = false)) ∧
    (∃ p : Fin 8, ∃ pins : BitVec 3, ∃ s : State, (s.hw.swOn = true) ∧ (s.hw.bit (Reg.MAC_CTRL p) 0 = true) ∧ (s.hw.lineOn p = true) ∧ (p.val < 2) ∧ (pins.getLsbD 1 = false)) :=
  ⟨⟨0, (List.replicate 12 0 ++ [0x88, 0x08] ++ List.replicate 60 0), (on fun h => h.setBit (Reg.MAC_STAT 0) 7),
     by decide +kernel⟩,
   by
      refine ⟨0, (List.replicate 80 0),
        (((on fun h => let h : Hw := h.setBit (Reg.MAC_STAT 0) 7; h) : State).hw.stages 0 (List.replicate 80 0)).1,
        (on fun h => let h : Hw := h.setBit (Reg.MAC_STAT 0) 7; h), ?_, ?_, ?_, ?_, ?_, ?_, ?_,
        Prod.ext rfl (by decide +kernel)⟩ <;> decide +kernel,
   ⟨0, [], (on fun h => h.setBit (Reg.MAC_STAT 0) 7), by decide +kernel⟩,
   ⟨0, (List.replicate 80 0), false, false, ({} : SwRx),
     (on fun h => let h : Hw := (h.setBit (Reg.MAC_STAT 0) 7); let h : Hw := (h.setRx 0 (some {})); h),
     by decide +kernel⟩,
   ⟨0, (List.replicate 80 0), ({} : SwRx),
     (on fun h => let h : Hw := (h.setBit (Reg.MAC_STAT 0) 7); let h : Hw := (h.setRx 0 (some {})); h),
     by decide +kernel⟩,
   by
      refine ⟨0, (((on fun h => let h : Hw := h.setBit (Reg.MAC_STAT 0) 7; h) : State).hw.choose 0).1,
        (on fun h => let h : Hw := h.setBit (Reg.MAC_STAT 0) 7; h), ?_, ?_, ?_,
        Prod.ext rfl (by decide +kernel)⟩ <;> decide +kernel,
   by
      refine ⟨0,
        (((on fun h => let h : Hw := h.setBit (Reg.MAC_STAT 0) 7; let h : Hw := { h with sw := { h.sw with frames := [({ id := 1, ingress := 1, cls := 7, bytes := [], egress := [0], whole := true, mirror := some (0, true) } : SwFrame)] } }; h) : State).hw.choose 0).1,
        ({ id := 1, ingress := 1, cls := 7, bytes := [], egress := [0], whole := true, mirror := some (0, true) } : SwFrame),
        (on fun h => let h : Hw := h.setBit (Reg.MAC_STAT 0) 7; let h : Hw := { h with sw := { h.sw with frames := [({ id := 1, ingress := 1, cls := 7, bytes := [], egress := [0], whole := true, mirror := some (0, true) } : SwFrame)] } }; h),
        ?_, ?_, ?_, Prod.ext rfl (by decide +kernel), ?_⟩ <;> decide +kernel,
   ⟨0, { hw := up }, by decide +kernel⟩,
   ⟨0, 1, false, false, ({ id := 1, ingress := 1, cls := 7, bytes := [], egress := [0], bad := true } : SwFrame),
     (on fun h => { h with sw := { h.sw with frames := [({ id := 1, ingress := 1, cls := 7, bytes := [], egress := [0], bad := true } : SwFrame)], sending := [(0, some (1, false, false))] } }),
     by decide +kernel⟩,
   ⟨2,
     (on fun h => let h : Hw := (h.setBit (Reg.MAC_CTRL 2) 0); let h : Hw := ({ h with cfg := { h.cfg with sw := { h.cfg.sw with ports := [2] } } }); h),
     by decide +kernel⟩,
   ⟨2,
     (on fun h => let h : Hw := (h.setBit (Reg.MAC_CTRL 2) 0); let h : Hw := ({ h with cfg := { h.cfg with sw := { h.cfg.sw with ports := [2] } } }); h),
     by decide +kernel⟩,
   ⟨{ hw := up }, by decide +kernel⟩,
   ⟨0, (on fun h => let h : Hw := (h.setBit (Reg.MAC_CTRL 0) 3); let h : Hw := (h.setBit (Reg.MAC_STAT 0) 7); h),
     by decide +kernel⟩,
   ⟨0, (on fun h => h.setBit (Reg.MAC_STAT 0) 5), by decide +kernel⟩,
   ⟨(on fun h => let h : Hw := ({ h with cfg := { h.cfg with sw := { h.cfg.sw with prpNodes := [] } } }); let h : Hw := (h.setBit Reg.SWC_PRP 39); h),
     by decide +kernel⟩,
   by
      have mc : ∀ (h : Hw) (j n : Nat),
        j < 64 → (h.macCount 0 j n).bit (Reg.MAC_STAT 1) 7 = h.bit (Reg.MAC_STAT 1) 7 := by
        intro h j n hj
        have h1 : Reg.MAC_STAT 1 ≠ Reg.MAC_CNT 0 j := by unfold Reg.MAC_STAT Reg.MAC_CNT; omega
        have h2 : Reg.MAC_STAT 1 ≠ Reg.MAC_HALF 0 := by decide
        have h3 : Reg.MAC_STAT 1 ≠ Reg.MAC_IRQ_STAT 0 := by decide
        unfold Hw.macCount
        rw [if_neg (by decide)]
        dsimp only
        split <;> simp only [Hw.bit, Hw.setBit, reg_setReg_ne _ _ _ _ h1, reg_setReg_ne _ _ _ _ h2, reg_setReg_ne _ _ _ _ h3]
      have key : ∀ (h : Hw) (l : List Byte), (h.sentFrame 0 l).bit (Reg.MAC_STAT 1) 7 = h.bit (Reg.MAC_STAT 1) 7 := by
        intro h l
        have hs : ∀ (g : Hw) (b : Link) (x : List Byte),
          (g.send b x).bit (Reg.MAC_STAT 1) 7 = g.bit (Reg.MAC_STAT 1) 7 := fun _ _ _ => rfl
        simp only [Hw.sentFrame]
        rw [hs]
        rw [mc _ _ _ (by split <;> (try split) <;> omega), mc _ _ _ (by omega), mc _ _ _ (by omega)]
      refine ⟨5,
        (on fun h => let h : Hw := (h.setBit Reg.SWC_PRP 39); let h : Hw := (h.setBit (Reg.MAC_STAT 0) 7); let h : Hw := ({ h with cfg := { h.cfg with sw := { h.cfg.sw with prpNodes := [(5, true)] } } }); h),
        by decide +kernel, by decide +kernel, by decide +kernel, by decide +kernel, by decide +kernel, ?_⟩
      exact (key _ _).trans (by decide +kernel),
   ⟨0, { hw := up }, by decide +kernel⟩,
   ⟨0, 0,
     (on fun h => let h : Hw := (h.setBit (Reg.MAC_CTRL 0) 0); let h : Hw := ({ h with cfg := { h.cfg with sw := { h.cfg.sw with ports := [0] } } }); h),
     by decide +kernel⟩⟩

theorem witness_ManagementWindowsRingsAndForwardingEntries :
    (∃ who : Who, ∃ n : Fin 6, ∃ s : State, (s.hw.MayWrite who (Reg.MAC_MGMT_CMD (2 + n.val))) ∧ (s.hw.flag (Reg.MAC_MGMT_STAT (2 + n.val)) Fld.MAC_MGMT_STAT_BUSY = false)) ∧
    (∃ who : Who, ∃ n : Fin 2, ∃ s : State, (s.hw.MayWrite who (Reg.MAC_MGMT_CMD n)) ∧ (s.hw.flag (Reg.MAC_MGMT_STAT n) Fld.MAC_MGMT_STAT_BUSY = false)) ∧
    (∃ who : Who, ∃ n : Fin 6, ∃ s : State, (s.hw.MayWrite who (Reg.MAC_MGMT_CMD (2 + n.val))) ∧ (s.hw.flag (Reg.MAC_MGMT_STAT (2 + n.val)) Fld.MAC_MGMT_STAT_BUSY = true)) ∧
    (∃ n : Fin 8, ∃ r : MgmtReq, ∃ s : State, (s.hw.sysOn = true) ∧ (2 ≤ n.val) ∧ (s.hw.mgmtCurrent n = some r)) ∧
    (∃ n : Fin 8, ∃ r : MgmtReq, ∃ s : State, (s.hw.sysOn = true) ∧ (n.val < 2) ∧ (s.hw.mgmtCurrent n = some r)) ∧
    (∃ who : Who, ∃ i : Fin 3, ∃ tail : BitVec 13, ∃ s : State, (s.hw.MayWrite who (Reg.HP_RX_CTL i)) ∧ (tail.toNat < s.hw.fld (Reg.HP_RX_CTL i) Fld.HP_RX_CTL_SIZE)) ∧
    (∃ who : Who, ∃ i : Fin 3, ∃ tail : BitVec 13, ∃ s : State, (s.hw.MayWrite who (Reg.HP_TX_CTL i)) ∧ (tail.toNat < s.hw.fld (Reg.HP_TX_CTL i) Fld.HP_TX_CTL_SIZE)) ∧
    (∃ who : Who, ∃ s : State, (s.hw.MayWrite who Reg.SWC_FDB_CMD)) ∧
    (∃ who : Who, ∃ s : State, (s.hw.MayWrite who Reg.SWC_FDB_CMD) ∧ (s.hw.sw.fdb = [])) :=
  ⟨⟨.secure, 0, (on fun h => h.setFld (Reg.MAC_MGMT_STAT (2 + 0)) Fld.MAC_MGMT_STAT_BUSY 0), ⟨by decide +kernel,
     by decide +kernel⟩, by decide +kernel⟩,
   ⟨.secure, 0, (on fun h => h.setFld (Reg.MAC_MGMT_STAT 0) Fld.MAC_MGMT_STAT_BUSY 0), ⟨by decide +kernel,
     by decide +kernel⟩, by decide +kernel⟩,
   ⟨.secure, 0, (on fun h => h.setFld (Reg.MAC_MGMT_STAT (2 + 0)) Fld.MAC_MGMT_STAT_BUSY 1), ⟨by decide +kernel,
     by decide +kernel⟩, by decide +kernel⟩,
   ⟨2, ({ port := 2, op := 1, reg := 2, addr := 3, data := 4 } : MgmtReq),
     (on fun h => h.onSw fun w => { w with mdio := [({ port := 2, op := 1, reg := 2, addr := 3, data := 4 } : MgmtReq)] }),
     by decide +kernel⟩,
   ⟨1, ({ port := 1, op := 1, reg := 2, addr := 3, data := 4 } : MgmtReq),
     (on fun h => h.onSw fun w => { w with wire := [(1, some ({ port := 1, op := 1, reg := 2, addr := 3, data := 4 } : MgmtReq))] }),
     by decide +kernel⟩,
   ⟨.secure, 0, 0, (on fun h => h.setFld (Reg.HP_RX_CTL 0) Fld.HP_RX_CTL_SIZE 64), ⟨by decide +kernel,
     by decide +kernel⟩, by decide +kernel⟩,
   ⟨.secure, 0, 0, (on fun h => h.setFld (Reg.HP_TX_CTL 0) Fld.HP_TX_CTL_SIZE 64), ⟨by decide +kernel,
     by decide +kernel⟩, by decide +kernel⟩,
   ⟨.secure, { hw := up }, ⟨by decide +kernel, by decide +kernel⟩⟩,
   ⟨.secure, (on fun h => { h with sw := { h.sw with fdb := [] } }), ⟨by decide +kernel, by decide +kernel⟩,
     by decide +kernel⟩⟩

theorem witness_TheTimeUnitCapturesPulsesAndKeepsTheCalendar :
    (∃ h : Hw, (64 ≤ h.tu.fifo.length)) ∧
    (∃ h : Hw, (h.tu.fifo.length < 64)) ∧
    (∃ who : Who, ∃ lo, ∃ x, ∃ s : State, (s.hw.MayWrite who Reg.TIME_MEAS_LO) ∧ (time80Val (s.hw.reg Reg.TIME_MEAS_HI) lo = some x)) ∧
    (∃ who : Who, ∃ lo : Word, ∃ s : State, (s.hw.MayWrite who Reg.TIME_MEAS_LO) ∧ (time80Val (s.hw.reg Reg.TIME_MEAS_HI) lo = none)) ∧
    (∃ e : Epoch, ∃ l : List Epoch, ∃ s : State, (s.hw.tu.epochs = e :: l) ∧ (s.hw.sysOn = true) ∧ (s.hw.rephasing = true) ∧ (e.startLc ≤ s.hw.lc)) ∧
    (∃ s : State, ((s.hw.lockState = tAcquiring ∨ s.hw.lockState = tLocked)) ∧ (s.hw.tu.lastSample + 100 * s.hw.fld Reg.TIME_CFG Fld.TIME_CFG_SYNC_TO ≤ s.hw.lc)) ∧
    (∃ s : State, (s.hw.lc < s.hw.tu.lastSample + 100 * s.hw.fld Reg.TIME_CFG Fld.TIME_CFG_SYNC_TO)) ∧
    (∃ s : State, (s.hw.sysOn = true) ∧ (s.hw.flag Reg.TIME_CTRL Fld.TIME_CTRL_CAP_EN = true)) ∧
    (∃ who : Who, ∃ c : Capture, ∃ l : List Capture, ∃ s : State, (s.hw.MayRead who Reg.TIME_CAP_INFO) ∧ (s.hw.tu.fifo = c :: l)) ∧
    (∃ who : Who, ∃ s : State, (s.hw.MayRead who Reg.TIME_CAP_INFO) ∧ (s.hw.tu.fifo = [])) ∧
    (∃ t : Int, ∃ x : Int, ∃ s : State, (s.hw.sysOn = true) ∧ (s.hw.fld Reg.TIME_PPS Fld.TIME_PPS_MODE = 1) ∧ (s.hw.netOf s.hw.tu.tSi = some t) ∧ (s.hw.secondIn t = some x) ∧ (s.hw.tu.ppsLc ≠ s.hw.lc + 1)) ∧
    (∃ k : Fin 16, ∃ s : State, (s.hw.sysOn = true) ∧ (bitN (s.hw.reg (Reg.TIME_TIM k 0)).toNat 39 = true) ∧ (Hw.timOk ((List.range 4).map fun w => s.hw.reg (Reg.TIME_TIM k w)) = true) ∧ ((s.hw.tim k).running = true)) ∧
    (∃ k : Fin 16, ∃ s : State, (s.hw.sysOn = true) ∧ (bitN (s.hw.reg (Reg.TIME_TIM k 0)).toNat 39 = false) ∧ ((s.hw.tim k).running = true)) ∧
    (∃ s : State, (s.hw.sysOn = true) ∧ (s.hw.utcValid = true) ∧ (s.hw.flag Reg.TIME_UTC Fld.TIME_UTC_LEAP61 = true) ∧ (s.hw.dayEnds 1 = true)) ∧
    (∃ peer : Fin 256, ∃ s : State, (s.hw.sysOn = true) ∧ (peer.val < s.hw.cfg.time.peers.length) ∧ (peer.val ∉ s.hw.tu.gone)) ∧
    (∃ s : State, (s.hw.sysOn = true) ∧ (s.hw.lockState = tHoldover) ∧ (s.hw.tu.heldSince + 1000 * s.hw.cfg.time.holdAnn ≤ s.hw.lc)) ∧
    (∃ d : Word, ∃ s : State, (s.hw.sysOn = true) ∧ (dateOk d = true)) ∧
    (∃ d, ∃ s : State, (s.hw.sysOn = true) ∧ (dateOk d = false)) ∧
    (∃ d : Word, ∃ s : State, (s.hw.crestOn = true) ∧ (dateOk d = true) ∧ (s.hw.utcValid = true) ∧ (s.hw.lc < (s.hw.dateLc d).2)) ∧
    (∃ d : Word, ∃ s : State, (s.hw.crestOn = true) ∧ (dateOk d = true) ∧ (s.hw.utcValid = false)) ∧
    (∃ who : Who, ∃ pair : Fin 3, ∃ s : State, (s.hw.MayRead who (Reg.TIME_DEV_LO + 2 * pair))) ∧
    (∃ k : Fin 16, ∃ s : State, (s.hw.sysOn = true) ∧ (bitN (s.hw.reg (Reg.TIME_TIM k 0)).toNat 39 = true) ∧ (Hw.timOk ((List.range 4).map fun w => s.hw.reg (Reg.TIME_TIM k w)) = true) ∧ ((s.hw.tim k).running = false) ∧ ((s.hw.reg (Reg.TIME_TIM k 3)).toNat ≤ s.hw.lc)) :=
  ⟨⟨(let h : Hw := up; let h : Hw := ({ h with tu := { h.tu with fifo := List.replicate 64 ({ input := 0, rise := true, seq := 0, time := 0 } : Capture) } }); h),
     by decide +kernel⟩,
   ⟨up, by decide +kernel⟩,
   ⟨.secure, default, default, { hw := up }, ⟨by decide +kernel, by decide +kernel⟩, by decide +kernel⟩,
   ⟨.secure, BitVec.allOnes 40, { hw := up }, ⟨by decide +kernel, by decide +kernel⟩, by decide +kernel⟩,
   ⟨({} : Epoch), [], (on fun h => h.setFld Reg.TIME_STAT Fld.TIME_STAT_REPHASE 1), by decide +kernel⟩,
   ⟨(on fun h => let h : Hw := (h.setFld Reg.TIME_STAT Fld.TIME_STAT_STATE 2); let h : Hw := ({ h with lc := 10000000 }); h),
     by decide +kernel⟩,
   ⟨{ hw := up }, by decide +kernel⟩,
   ⟨(on fun h => h.setFld Reg.TIME_CTRL Fld.TIME_CTRL_CAP_EN 1), by decide +kernel⟩,
   ⟨.secure, ({ input := 0, rise := true, seq := 0, time := 0 } : Capture), [],
     (on fun h => { h with tu := { h.tu with fifo := [({ input := 0, rise := true, seq := 0, time := 0 } : Capture)] } }),
     ⟨by decide +kernel, by decide +kernel⟩, by decide +kernel⟩,
   ⟨.secure, (on fun h => { h with tu := { h.tu with fifo := [] } }), ⟨by decide +kernel, by decide +kernel⟩,
     by decide +kernel⟩,
   ⟨0, 0,
     (on fun h => let h : Hw := (h.setFld Reg.TIME_PPS Fld.TIME_PPS_MODE 1); let h : Hw := (h.setFld Reg.TIME_STAT Fld.TIME_STAT_VALID 1); h),
     by decide +kernel⟩,
   ⟨0,
     (on fun h => let h : Hw := ({ h with tu := { h.tu with tims := [(0, { running := true })] } }); let h : Hw := (h.setBit (Reg.TIME_TIM 0 0) 39); let h : Hw := (h.setReg (Reg.TIME_TIM 0 1) 16); let h : Hw := (h.setReg (Reg.TIME_TIM 0 2) 8); h),
     by decide +kernel⟩,
   ⟨0, (on fun h => { h with tu := { h.tu with tims := [(0, { running := true })] } }), by decide +kernel⟩,
   ⟨(on fun h => let h : Hw := (h.setFld Reg.TIME_UTC Fld.TIME_UTC_LEAP61 1); let h : Hw := (h.setFld Reg.TIME_STAT Fld.TIME_STAT_VALID 1); let h : Hw := (h.setFld Reg.TIME_UTC Fld.TIME_UTC_VALID 1); let h : Hw := (h.setFld Reg.TIME_UTC Fld.TIME_UTC_OFFSET 0); let h : Hw := ({ h with tu := { h.tu with tSi := tSec } }); h),
     by decide +kernel⟩,
   ⟨0, (on fun h => { h with cfg := { h.cfg with time := { h.cfg.time with peers := [0] } } }), by decide +kernel⟩,
   ⟨(on fun h => let h : Hw := (h.setFld Reg.TIME_STAT Fld.TIME_STAT_STATE tHoldover); let h : Hw := ({ h with lc := 10000000 }); h),
     by decide +kernel⟩,
   ⟨52407828480, { hw := up }, by decide +kernel⟩,
   ⟨default, { hw := up }, by decide +kernel⟩,
   ⟨52407828480,
     (on fun h => let h : Hw := (h.setFld Reg.TIME_STAT Fld.TIME_STAT_VALID 1); let h : Hw := (h.setFld Reg.TIME_UTC Fld.TIME_UTC_VALID 1); h),
     by decide +kernel⟩,
   ⟨52407828480, { hw := up }, by decide +kernel⟩,
   ⟨.secure, 0, { hw := up }, ⟨by decide +kernel, by decide +kernel⟩⟩,
   ⟨0,
     (on fun h => let h : Hw := (h.setReg (Reg.TIME_TIM 0 0) 0x8000000000); let h : Hw := (h.setReg (Reg.TIME_TIM 0 1) 16); let h : Hw := (h.setReg (Reg.TIME_TIM 0 2) 8); h),
     by decide +kernel⟩⟩

theorem witness_KollosSessionsOpenServeAndClose :
    (Config.rootVerify (certNum cert0 54 2) (cert0.take 56) (cert0.drop 56) = true → ∃ (s : State) (path req : Nat) (cert : List Byte) (r : Nat), State.grantRole s path req cert = some r) ∧
    (∃ x : Session, ∃ seq : Nat, ∃ w : KopWait, (seq ≠ 0) ∧ (x.last ≠ none) ∧ (w ∈ x.waits) ∧ (w.seq = seq)) ∧
    (∃ via : Via, ∃ msg : List Byte, ∃ m : KopMsg, ∃ path : Nat, ∃ s : State, (s.hw.sysOn = true) ∧ (kopRead msg = some m) ∧ (m.type = mtHello) ∧ (m.body.length = 170) ∧ (s.helloPath (beNat ((m.body.drop 48).take 1)) via ((m.body.drop 50).take 120) = some path) ∧ (50 ≤ s.hw.recentHellos (path == 3))) ∧
    (∃ via : Via, ∃ msg : List Byte, ∃ m : KopMsg, ∃ path : Nat, ∃ s : State, (s.hw.sysOn = true) ∧ (kopRead msg = some m) ∧ (m.type = mtHello) ∧ (m.body.length = 170) ∧ (s.helloPath (beNat ((m.body.drop 48).take 1)) via ((m.body.drop 50).take 120) = some path) ∧ (s.hw.recentHellos (path == 3) < 50) ∧ (s.hw.kop.hands = []) ∧ (s.hw.kop.hellos = [])) ∧
    (∃ msg : List Byte, ∃ s : State, (s.hw.sysOn = true) ∧ (kopRead msg = none)) ∧
    (∃ msg : List Byte, ∃ m : KopMsg, ∃ x : Handshake, ∃ s : State, (s.hw.sysOn = true) ∧ (kopRead msg = some m) ∧ (m.type = mtFinish) ∧ (s.hw.kop.hands.find? (fun x => x.id == m.id) = some x) ∧ (s.hw.poweredMs ≤ x.at_ + 2000)) ∧
    (∃ msg : List Byte, ∃ m : KopMsg, ∃ s : State, (s.hw.sysOn = true) ∧ (kopRead msg = some m) ∧ (m.type = mtFinish) ∧ (s.hw.kop.hands.find? (fun x => x.id == m.id) = none)) ∧
    (∃ msg : List Byte, ∃ m : KopMsg, ∃ x : Session, ∃ s : State, (s.hw.sysOn = true) ∧ (kopRead msg = some m) ∧ (m.type = mtClose) ∧ (s.hw.session m.id = some x)) ∧
    (∃ id : BitVec 32, ∃ x : Session, ∃ s : State, (s.hw.session id.toNat = some x) ∧ (x.seen + 1000 * s.hw.idleTimeout x.role ≤ s.hw.poweredMs)) ∧
    (∃ msg : List Byte, ∃ m : KopMsg, ∃ x : Session, ∃ s : State, (s.hw.sysOn = true) ∧ (kopRead msg = some m) ∧ (m.type = mtRequest) ∧ (s.hw.session m.id = some x)) ∧
    (∃ id : BitVec 32, ∃ x : Session, ∃ w : KopWait, ∃ s : State, (s.hw.session id.toNat = some x) ∧ (x.waits.filter (fun w => decide (w.at_ + s.hw.reqTimeout ≤ s.hw.poweredMs)) = [w])) :=
  ⟨by
      intro hv
      refine ⟨{ hw := up, fuse := { keyValid := 1 } }, 3, 3, cert0, 3, ?_⟩
      unfold State.grantRole State.certCeiling
      dsimp only
      rw [hv]
      decide +kernel,
   ⟨({ path := 0, entry := 0, id := 0, role := 0, src := 0, last := some 1, waits := [{ seq := 3, items := [], heads := [], at_ := 0 }] } : Session),
     3, ({ seq := 3, items := [], heads := [], at_ := 0 } : KopWait), by decide +kernel⟩,
   ⟨({ transport := 2, port := 0, vlan := 0 } : Via), (kmsg mtHello 170), (kval mtHello 170), 0,
     (on fun h => let h : Hw := ({ h with cfg := { h.cfg with od := { h.cfg.od with vm0Ports := 1, rawOn := true } } }); let h : Hw := ({ h with kop := { h.kop with hellos := List.replicate 50 (false, 0) } }); h),
     by decide +kernel⟩,
   ⟨({ transport := 2, port := 0, vlan := 0 } : Via), (kmsg mtHello 170), (kval mtHello 170), 0,
     (on fun h => let h : Hw := ({ h with kop := { h.kop with hands := [] } }); let h : Hw := ({ h with kop := { h.kop with hellos := [] } }); let h : Hw := ({ h with cfg := { h.cfg with od := { h.cfg.od with vm0Ports := 1, rawOn := true } } }); h),
     by decide +kernel⟩,
   ⟨[], { hw := up }, by decide +kernel⟩,
   ⟨(kmsg mtFinish 4), (kval mtFinish 4),
     ({ path := 0, src := 0, id := 0, role := 0, cert := [], transport := 0, keys := {}, th := 0, at_ := 0 } : Handshake),
     (on fun h => { h with kop := { h.kop with hands := [({ path := 0, src := 0, id := 0, role := 0, cert := [], transport := 0, keys := {}, th := 0, at_ := 0 } : Handshake)] } }),
     by decide +kernel⟩,
   ⟨(kmsg mtFinish 4), (kval mtFinish 4), { hw := up }, by decide +kernel⟩,
   ⟨(kmsg mtClose 4), (kval mtClose 4),
     ({ path := 0, entry := 0, id := 0, role := 0, src := 0, last := some 1, waits := [{ seq := 3, items := [], heads := [], at_ := 0 }] } : Session),
     (on fun h => { h with poweredMs := 10000000, kop := { h.kop with sessions := [({ path := 0, entry := 0, id := 0, role := 0, src := 0, last := some 1, waits := [{ seq := 3, items := [], heads := [], at_ := 0 }] } : Session)] } }),
     by decide +kernel⟩,
   ⟨0,
     ({ path := 0, entry := 0, id := 0, role := 0, src := 0, last := some 1, waits := [{ seq := 3, items := [], heads := [], at_ := 0 }] } : Session),
     (on fun h => { h with poweredMs := 10000000, kop := { h.kop with sessions := [({ path := 0, entry := 0, id := 0, role := 0, src := 0, last := some 1, waits := [{ seq := 3, items := [], heads := [], at_ := 0 }] } : Session)] } }),
     by decide +kernel⟩,
   ⟨(kmsg mtRequest 4), (kval mtRequest 4),
     ({ path := 0, entry := 0, id := 0, role := 0, src := 0, last := some 1, waits := [{ seq := 3, items := [], heads := [], at_ := 0 }] } : Session),
     (on fun h => { h with poweredMs := 10000000, kop := { h.kop with sessions := [({ path := 0, entry := 0, id := 0, role := 0, src := 0, last := some 1, waits := [{ seq := 3, items := [], heads := [], at_ := 0 }] } : Session)] } }),
     by decide +kernel⟩,
   ⟨0,
     ({ path := 0, entry := 0, id := 0, role := 0, src := 0, last := some 1, waits := [{ seq := 3, items := [], heads := [], at_ := 0 }] } : Session),
     ({ seq := 3, items := [], heads := [], at_ := 0 } : KopWait),
     (on fun h => { h with poweredMs := 10000000, kop := { h.kop with sessions := [({ path := 0, entry := 0, id := 0, role := 0, src := 0, last := some 1, waits := [{ seq := 3, items := [], heads := [], at_ := 0 }] } : Session)] } }),
     by decide +kernel⟩⟩

theorem witness_ItemsReadWriteDescribeAndWalkTheDictionary :
    (∃ id : BitVec 32, ∃ s : State, ∃ x : Session, (s.hw.session id.toNat = some x)) ∧
    (∃ s : State, ∃ who : Asker, ∃ oid : Nat, (s.objAt who oid = none)) ∧
    (∃ s : State, ∃ who : Asker, ∃ oid : Nat, ∃ ob : Obj, (s.objAt who oid = some ob) ∧ (who.role < ob.wr)) ∧
    (∃ s : State, ∃ who : Asker, ∃ oid : Nat, ∃ type : Nat, ∃ v : List Byte, ∃ ob : Obj, (s.objAt who oid = some ob) ∧ (ob.access = 2) ∧ (ob.wr ≤ who.role) ∧ (ob.judge type v ≠ 0)) ∧
    (∃ s : State, ∃ who : Asker, ∃ oid : Nat, ∃ type : Nat, ∃ v : List Byte, ∃ ob : Obj, (s.objAt who oid = some ob) ∧ (ob.access = 2) ∧ (ob.wr ≤ who.role) ∧ (ob.judge type v = 0)) ∧
    (∃ s : State, ∃ who : Asker, ∃ oid : Nat, ∃ ob : Obj, ∃ v : List Byte, ∃ lc : Option Nat, ∃ s2 : State, (s.objAt who oid = some ob) ∧ (ob.access ≠ 3) ∧ (ob.rd ≤ who.role) ∧ (ob.read s = (s2, .value v lc))) ∧
    (∃ s : State, ∃ who : Asker, ∃ oid : Nat, ∃ ob : Obj, (s.objAt who oid = some ob) ∧ (who.role < ob.rd)) ∧
    (∃ s : State, s.tenantOf { path := 0, role := 2 } 0x38C00000 = none ∧ (s.itemRead { path := 0, role := 2 } 0 0x38C00000).2 ≠ [] ∧ (s.itemWriteLc { path := 0, role := 2 } 0x38C00000 1100 1 [1]).2.1 = stOk) ∧
    (∃ s : State, s.tenantOf { path := 0, role := 2 } 1 = none ∧ (s.itemWriteLc { path := 0, role := 2 } 1 1100 1 [1]).2.1 ≠ stOk) :=
  ⟨⟨0,
     (on fun h => { h with poweredMs := 10000000, kop := { h.kop with sessions := [({ path := 0, entry := 0, id := 0, role := 0, src := 0, last := some 1, waits := [{ seq := 3, items := [], heads := [], at_ := 0 }] } : Session)] } }),
     ({ path := 0, entry := 0, id := 0, role := 0, src := 0, last := some 1, waits := [{ seq := 3, items := [], heads := [], at_ := 0 }] } : Session),
     by decide +kernel⟩,
   ⟨{ hw := up }, ({ path := 0, role := 4 } : Asker), 0x99000000, by decide +kernel⟩,
   by
      obtain ⟨ob, h1,
        h2⟩ := Option.any_wit (p := fun (ob : Obj) => decide (0 < ob.wr)) (by decide +kernel : ((({ hw := up } : State).objAt ({ path := 0, role := 0 } : Asker) 0x50000000).any fun (ob : Obj) => decide (0 < ob.wr)) = true)
      simp only [decide_eq_true_eq] at h2
      refine ⟨{ hw := up }, ({ path := 0, role := 0 } : Asker), 0x50000000, ob, h1, h2⟩,
   by
      obtain ⟨ob, h1,
        h2⟩ := Option.any_wit (p := fun (ob : Obj) => decide (ob.access = 2) && (decide (ob.wr ≤ 4) && decide (ob.judge 0 [] ≠ 0))) (by decide +kernel : ((({ hw := up } : State).objAt ({ path := 0, role := 4 } : Asker) 0x50000100).any fun (ob : Obj) => decide (ob.access = 2) && (decide (ob.wr ≤ 4) && decide (ob.judge 0 [] ≠ 0))) = true)
      simp only [Bool.and_eq_true, decide_eq_true_eq] at h2
      refine ⟨{ hw := up }, ({ path := 0, role := 4 } : Asker), 0x50000100, 0, [], ob, h1, h2.1, h2.2.1, h2.2.2⟩,
   by
      obtain ⟨ob, h1,
        h2⟩ := Option.any_wit (p := fun (ob : Obj) => decide (ob.access = 2) && (decide (ob.wr ≤ 4) && decide (ob.judge 15 [1] = 0))) (by decide +kernel : ((({ hw := up } : State).objAt ({ path := 0, role := 4 } : Asker) 0x03000200).any fun (ob : Obj) => decide (ob.access = 2) && (decide (ob.wr ≤ 4) && decide (ob.judge 15 [1] = 0))) = true)
      simp only [Bool.and_eq_true, decide_eq_true_eq] at h2
      refine ⟨{ hw := up }, ({ path := 0, role := 4 } : Asker), 0x03000200, 15, [1], ob, h1, h2.1, h2.2.1, h2.2.2⟩,
   by
      obtain ⟨ob, h1,
        h2⟩ := Option.any_wit (p := fun (ob : Obj) => decide (ob.access ≠ 3) && (decide (ob.rd ≤ 4) && decide (ob.read { hw := up } = ((ob.read { hw := up }).1, .value (readsAs (ob.read { hw := up }).2).1 (readsAs (ob.read { hw := up }).2).2)))) (by decide +kernel : ((({ hw := up } : State).objAt ({ path := 0, role := 4 } : Asker) 0x50000000).any fun (ob : Obj) => decide (ob.access ≠ 3) && (decide (ob.rd ≤ 4) && decide (ob.read { hw := up } = ((ob.read { hw := up }).1, .value (readsAs (ob.read { hw := up }).2).1 (readsAs (ob.read { hw := up }).2).2)))) = true)
      simp only [Bool.and_eq_true, decide_eq_true_eq] at h2
      exact ⟨{ hw := up }, ({ path := 0, role := 4 } : Asker), 0x50000000, ob, _, _, _, h1, h2.1, h2.2.1, h2.2.2⟩,
   by
      obtain ⟨ob, h1,
        h2⟩ := Option.any_wit (p := fun (ob : Obj) => decide (0 < ob.rd)) (by decide +kernel : ((({ hw := up } : State).objAt ({ path := 0, role := 0 } : Asker) 0x18000000).any fun (ob : Obj) => decide (0 < ob.rd)) = true)
      simp only [decide_eq_true_eq] at h2
      refine ⟨{ hw := up }, ({ path := 0, role := 0 } : Asker), 0x18000000, ob, h1, h2⟩,
   ⟨{ hw := up }, by decide +kernel⟩,
   ⟨{ hw := up }, by decide +kernel⟩⟩

theorem witness_ControllersChangeModeQueueAndCountErrors :
    (∃ h : Hw, ∃ n : Nat, (64 ≤ (h.ctl n).q0.length)) ∧
    (∃ h : Hw, ∃ n : Nat, ∃ x : CanFrame, ∃ f : Nat, ∃ g : Nat, (h.filterHit n x = some f) ∧ (g < f)) ∧
    (∃ who : Who, ∃ n : Fin 4, ∃ s : State, (s.hw.MayWrite who (Reg.CAN_CTRL n)) ∧ (s.hw.canMode n = 1)) ∧
    (∃ who : Who, ∃ n : Fin 4, ∃ s : State, (s.hw.MayWrite who (Reg.CAN_CTRL n)) ∧ (s.hw.canMode n = 0) ∧ (s.hw.fld (Reg.CAN_CTRL n) Fld.CAN_CTRL_MODE = 0)) ∧
    (∃ who : Who, ∃ n : Fin 4, ∃ s : State, (s.hw.MayWrite who (Reg.CAN_CTRL n)) ∧ (s.hw.canMode n = 1) ∧ (s.hw.canState n = 3)) ∧
    (∃ who : Who, ∃ n : Fin 4, ∃ x : CanTx, ∃ l : List CanTx, ∃ s : State, (s.hw.MayWrite who (Reg.CAN_CTRL n)) ∧ (s.hw.canMode n = 1) ∧ ((s.hw.ctl n).tx = x :: l)) ∧
    (∃ who : Who, ∃ n : Fin 4, ∃ s : State, (s.hw.MayWrite who (Reg.CAN_TX_PUSH n)) ∧ (s.hw.canMode n ≠ 1)) ∧
    (∃ who : Who, ∃ n : Fin 4, ∃ s : State, (s.hw.MayWrite who (Reg.CAN_TX_PUSH n)) ∧ (s.hw.canMode n = 1) ∧ (s.hw.fld (Reg.CAN_CTRL n) Fld.CAN_CTRL_TX_LIMIT ≤ (s.hw.ctl n).tx.length)) ∧
    (∃ who : Who, ∃ n : Fin 4, ∃ s : State, (s.hw.MayWrite who (Reg.CAN_TX_PUSH n)) ∧ (s.hw.canMode n = 1) ∧ ((s.hw.ctl n).tx.length < s.hw.fld (Reg.CAN_CTRL n) Fld.CAN_CTRL_TX_LIMIT)) ∧
    (∃ who : Who, ∃ n : Fin 4, ∃ s : State, (s.hw.MayWrite who (Reg.CAN_RX_STAT n (0 : Fin 2)))) ∧
    (∃ who : Who, ∃ n : Fin 4, ∃ s : State, (s.hw.MayWrite who (Reg.CAN_RX_STAT n (1 : Fin 2)))) ∧
    (∃ n : Fin 4, ∃ x : CanTx, ∃ l : List CanTx, ∃ s : State, (s.hw.unitRuns (33 + n) = true) ∧ (s.hw.canLive n = true) ∧ ((s.hw.ctl n).leaving = none) ∧ ((s.hw.ctl n).tx = x :: l)) ∧
    (∃ n : Fin 4, ∃ hdr : Word, ∃ data : List Byte, ∃ f : Nat, ∃ s : State, (s.hw.canLive n = true) ∧ (s.hw.filterHit n (canFrame hdr data) = some f) ∧ (bitsOf (s.hw.filter n f 0) 35 33 = 1) ∧ ((s.hw.ctl n).last = none) ∧ (s.hw.rec_ n = 0) ∧ ((s.hw.ctl n).q0.length < 64)) ∧
    (∃ n : Fin 4, ∃ tec : Fin 512, ∃ s : State, (s.hw.canLive n = true) ∧ (255 < tec.val)) ∧
    (∃ n : Fin 4, ∃ tec : Fin 512, ∃ s : State, (s.hw.canLive n = true) ∧ (tec.val ≤ 255)) ∧
    (∃ n : Fin 4, ∃ s : State, (s.hw.unitRuns (33 + n) = true) ∧ (s.hw.canMode n = 1) ∧ (s.hw.canState n = 5)) ∧
    (∃ n : Fin 4, ∃ s : State, (s.hw.canLive n = true)) ∧
    (∃ n : Fin 4, ∃ s : State, (s.hw.unitRuns (33 + n) = true) ∧ ((s.hw.ctl n).leaving = none) ∧ ((s.hw.ctl n).abort = false)) ∧
    (∃ n : Fin 4, ∃ x : CanTx, ∃ l : List CanTx, ∃ s : State, (s.hw.unitRuns (33 + n) = true) ∧ ((s.hw.ctl n).leaving = none) ∧ ((s.hw.ctl n).abort = true) ∧ ((s.hw.ctl n).tx = x :: l)) :=
  ⟨⟨(let h : Hw := up; let h : Hw := (h.setCtl 0 { h.ctl 0 with q0 := List.replicate 64 { frame := ({ hdr := 0, data := [] } : CanFrame), info := 0, lc := 0, ofs := 0 } }); h),
     0, by decide +kernel⟩,
   ⟨(let h : Hw := up; let h : Hw := (h.setReg (Reg.CAN_FLT 0 1 0) 0x8200000000); h), 0,
     ({ hdr := 0, data := [] } : CanFrame), 1, 0, by decide +kernel⟩,
   ⟨.secure, 0, (on fun h => h.setFld (Reg.CAN_CTRL 0) Fld.CAN_CTRL_MODE 1), ⟨by decide +kernel, by decide +kernel⟩,
     by decide +kernel⟩,
   ⟨.secure, 0,
     (on fun h => let h : Hw := (h.setFld (Reg.CAN_CTRL 0) Fld.CAN_CTRL_MODE 0); let h : Hw := (h.setFld (Reg.CAN_CTRL 0) Fld.CAN_CTRL_MODE 0); h),
     ⟨by decide +kernel, by decide +kernel⟩, by decide +kernel, by decide +kernel⟩,
   ⟨.secure, 0,
     (on fun h => let h : Hw := (h.setFld (Reg.CAN_CTRL 0) Fld.CAN_CTRL_MODE 1); let h : Hw := (h.setFld (Reg.CAN_STAT 0) Fld.CAN_STAT_STATE 3); h),
     ⟨by decide +kernel, by decide +kernel⟩, by decide +kernel, by decide +kernel⟩,
   ⟨.secure, 0, ({ frame := { hdr := 0, data := [] }, tag := 0 } : CanTx), [],
     (on fun h => let h : Hw := (h.setFld (Reg.CAN_CTRL 0) Fld.CAN_CTRL_MODE 1); let h : Hw := (h.setCtl 0 { h.ctl 0 with tx := [({ frame := { hdr := 0, data := [] }, tag := 0 } : CanTx)] }); h),
     ⟨by decide +kernel, by decide +kernel⟩, by decide +kernel, by decide +kernel⟩,
   ⟨.secure, 0, (on fun h => h.setFld (Reg.CAN_CTRL 0) Fld.CAN_CTRL_MODE 0), ⟨by decide +kernel, by decide +kernel⟩,
     by decide +kernel⟩,
   ⟨.secure, 0,
     (on fun h => let h : Hw := (h.setFld (Reg.CAN_CTRL 0) Fld.CAN_CTRL_MODE 1); let h : Hw := (h.setFld (Reg.CAN_CTRL 0) Fld.CAN_CTRL_TX_LIMIT 0); h),
     ⟨by decide +kernel, by decide +kernel⟩, by decide +kernel, by decide +kernel⟩,
   ⟨.secure, 0,
     (on fun h => let h : Hw := (h.setFld (Reg.CAN_CTRL 0) Fld.CAN_CTRL_MODE 1); let h : Hw := (h.setFld (Reg.CAN_CTRL 0) Fld.CAN_CTRL_TX_LIMIT 8); h),
     ⟨by decide +kernel, by decide +kernel⟩, by decide +kernel, by decide +kernel⟩,
   ⟨.secure, 0, { hw := up }, ⟨by decide +kernel, by decide +kernel⟩⟩,
   ⟨.secure, 0, { hw := up }, ⟨by decide +kernel, by decide +kernel⟩⟩,
   ⟨0, ({ frame := { hdr := 0, data := [] }, tag := 0 } : CanTx), [],
     (on fun h => let h : Hw := (h.setCtl 0 { h.ctl 0 with leaving := none }); let h : Hw := (h.setCtl 0 { h.ctl 0 with tx := [({ frame := { hdr := 0, data := [] }, tag := 0 } : CanTx)] }); h),
     by decide +kernel⟩,
   ⟨0, 0, [], 0,
     (on fun h => let h : Hw := (h.setCtl 0 { h.ctl 0 with last := none }); let h : Hw := (h.setReg (Reg.CAN_FLT 0 0 0) 0x8200000000); h),
     by decide +kernel⟩,
   ⟨0, 256, { hw := up }, by decide +kernel⟩,
   ⟨0, 0, { hw := up }, by decide +kernel⟩,
   ⟨0,
     (on fun h => let h : Hw := (h.setFld (Reg.CAN_CTRL 0) Fld.CAN_CTRL_MODE 1); let h : Hw := (h.setFld (Reg.CAN_STAT 0) Fld.CAN_STAT_STATE 5); h),
     by decide +kernel⟩,
   ⟨0, { hw := up }, by decide +kernel⟩,
   ⟨0,
     (on fun h => let h : Hw := (h.setCtl 0 { h.ctl 0 with leaving := none }); let h : Hw := (h.setCtl 0 { h.ctl 0 with abort := false }); h),
     by decide +kernel⟩,
   ⟨0, ({ frame := { hdr := 0, data := [] }, tag := 0 } : CanTx), [],
     (on fun h => let h : Hw := (h.setCtl 0 { h.ctl 0 with leaving := none }); let h : Hw := (h.setCtl 0 { h.ctl 0 with abort := true }); let h : Hw := (h.setCtl 0 { h.ctl 0 with tx := [({ frame := { hdr := 0, data := [] }, tag := 0 } : CanTx)] }); h),
     by decide +kernel⟩⟩

theorem witness_TheGatewayRoutesStreamsAndProxies :
    (∃ h : Hw, ∃ i : Nat, ∃ d : List Byte, ((h.proxy i).seg = some (d.getD 4 0).toNat)) ∧
    (∃ h : Hw, ∃ i : Nat, ∃ d : List Byte, ((h.proxy i).seg = none) ∧ ((d.getD 4 0).toNat ≠ 0)) ∧
    (∃ h : Hw, ∃ i : Nat, ∃ d : List Byte, ((h.proxy i).seg = none) ∧ ((d.getD 4 0).toNat = 0) ∧ ((d.getD 5 0).toNat = 0)) ∧
    (∃ h : Hw, (h.colOn = false)) ∧
    (∃ h : Hw, (h.colOn = true) ∧ ((∀ e, e < 1024 → bitN (h.route e 0).toNat 39 = false))) ∧
    (∃ h : Hw, ∃ p : Nat, (h.portTakes p = true) ∧ ((h.outq p).length < 64)) ∧
    (∃ h : Hw, ∃ p : Nat, ((64 ≤ (h.outq p).length ∨ h.portTakes p = false))) ∧
    (∃ k : Fin 4, ∃ s : State, (s.hw.outq (4 + k) = [])) ∧
    (∃ k : Fin 4, ∃ s : State, (s.hw.colOn = true) ∧ (s.hw.outq (4 + k) ≠ []) ∧ (s.hw.portTakes (4 + k) = true) ∧ (State.hpHolds s.hw Reg.COL_ORING_CTL = false)) ∧
    (∃ s : State, (State.hpHolds s.hw Reg.COL_IRING_CTL = false)) ∧
    (∃ who : Who, ∃ s1, ∃ w0, ∃ w1, ∃ s2, ∃ ws, ∃ s : State, (s.hw.colOn = true) ∧ (State.hpHolds s.hw Reg.COL_IRING_CTL = true) ∧ (s.colWho = some who) ∧ (s.dmaReads who (s.hw.fld Reg.COL_IRING_BASE Fld.COL_IRING_BASE_BASE + 2 * s.hw.fld Reg.COL_IRING_CTL Fld.COL_IRING_CTL_HEAD) 2 = (s1, some [w0, w1])) ∧ (bitN w0.toNat 39 = true) ∧ (s1.dmaReads who (bitsOf w1 33 0) ((bitsOf w0 15 0 + 4) / 5) = (s2, some ws))) ∧
    (∃ n : Fin 4, ∃ hdr : Word, ∃ data : List Byte, ∃ i : Nat, ∃ c : ProxyCfg, ∃ s : State, (s.hw.canLive n = true) ∧ (s.hw.cfg.proxies.find? (s.hw.answersFetch n (canFrame hdr data)) = some (i, some c))) ∧
    (∃ n : Fin 4, ∃ hdr : Word, ∃ data, ∃ s : State, (s.hw.canLive n = true) ∧ (s.hw.cfg.proxies.find? (s.hw.answersFetch n (canFrame hdr data)) = none)) ∧
    (∃ i : Fin 256, ∃ s : State, (s.hw.sysOn = true) ∧ ((s.hw.proxy i).state = 1)) :=
  ⟨⟨(let h : Hw := up; let h : Hw := (h.setProxy 0 { h.proxy 0 with seg := some 0 }); h), 0, [], by decide +kernel⟩,
   ⟨(let h : Hw := up; let h : Hw := (h.setProxy 0 { h.proxy 0 with seg := none }); h), 0, [0, 0, 0, 0, 1],
     by decide +kernel⟩,
   ⟨(let h : Hw := up; let h : Hw := (h.setProxy 0 { h.proxy 0 with seg := none }); h), 0, [], by decide +kernel⟩,
   ⟨up, by decide +kernel⟩,
   ⟨(let h : Hw := up; let h : Hw := (h.setBit Reg.COL_CTRL 0); h), by decide +kernel⟩,
   ⟨up, 0, by decide +kernel⟩,
   ⟨up, 4, by decide +kernel⟩,
   ⟨0, { hw := up }, by decide +kernel⟩,
   ⟨0,
     (on fun h => let h : Hw := (h.setBit Reg.COL_CTRL 0); let h : Hw := (h.setBit (Reg.COL_STREAM 0 0) 39); let h : Hw := (h.setOutq 4 [({ frame := { hdr := 0, data := [] }, input := 0 } : ColOut)]); h),
     by decide +kernel⟩,
   ⟨{ hw := up }, by decide +kernel⟩,
   by
      refine ⟨.hypervisor,
        (((on fun h => let h : Hw := (h.setBit Reg.COL_CTRL 0); let h : Hw := (h.setReg Reg.COL_IRING_BASE 0x100000000); let h : Hw := (h.setFld Reg.COL_IRING_CTL Fld.COL_IRING_CTL_SIZE 8); let h : Hw := (h.setFld Reg.COL_IRING_CTL Fld.COL_IRING_CTL_TAIL 1); let h : Hw := (h.setFld (Reg.WLD_UNIT_OWN 37) Fld.WLD_UNIT_OWN_OWNER 4); let h : Hw := (h.setRam 0x100000000 { data := 0x8000000005 }); let h : Hw := (h.setRam 0x100000001 { data := 0x100000010 }); let h : Hw := (h.setRam 0x100000010 { data := 7 }); h) : State).dmaReads .hypervisor 0x100000000 2).1,
        0x8000000005, 0x100000010,
        ((((on fun h => let h : Hw := (h.setBit Reg.COL_CTRL 0); let h : Hw := (h.setReg Reg.COL_IRING_BASE 0x100000000); let h : Hw := (h.setFld Reg.COL_IRING_CTL Fld.COL_IRING_CTL_SIZE 8); let h : Hw := (h.setFld Reg.COL_IRING_CTL Fld.COL_IRING_CTL_TAIL 1); let h : Hw := (h.setFld (Reg.WLD_UNIT_OWN 37) Fld.WLD_UNIT_OWN_OWNER 4); let h : Hw := (h.setRam 0x100000000 { data := 0x8000000005 }); let h : Hw := (h.setRam 0x100000001 { data := 0x100000010 }); let h : Hw := (h.setRam 0x100000010 { data := 7 }); h) : State).dmaReads .hypervisor 0x100000000 2).1.dmaReads .hypervisor 0x100000010 1).1,
        [7],
        (on fun h => let h : Hw := (h.setBit Reg.COL_CTRL 0); let h : Hw := (h.setReg Reg.COL_IRING_BASE 0x100000000); let h : Hw := (h.setFld Reg.COL_IRING_CTL Fld.COL_IRING_CTL_SIZE 8); let h : Hw := (h.setFld Reg.COL_IRING_CTL Fld.COL_IRING_CTL_TAIL 1); let h : Hw := (h.setFld (Reg.WLD_UNIT_OWN 37) Fld.WLD_UNIT_OWN_OWNER 4); let h : Hw := (h.setRam 0x100000000 { data := 0x8000000005 }); let h : Hw := (h.setRam 0x100000001 { data := 0x100000010 }); let h : Hw := (h.setRam 0x100000010 { data := 7 }); h),
        ?_, ?_, ?_, ?_, ?_, ?_⟩ <;> decide +kernel,
   ⟨0, 0x400000000, [0x81, 0, 0, 0], 0,
     ({ can := 0, req := 0, rsp := 0, fd := false, obj := 0, type := 0, len := 4 } : ProxyCfg),
     (on fun h => let h : Hw := ({ h with cfg := { h.cfg with proxies := [(0, some ({ can := 0, req := 0, rsp := 0, fd := false, obj := 0, type := 0, len := 4 } : ProxyCfg))] } }); let h : Hw := (h.setProxy 0 { h.proxy 0 with state := 1, tag := 0 }); h),
     by decide +kernel⟩,
   ⟨0, 0, default, { hw := up }, by decide +kernel⟩,
   ⟨0, (on fun h => h.setProxy 0 { h.proxy 0 with state := 1 }), by decide +kernel⟩⟩

theorem witness_WakeSourcesDecodeJudgeAndBackOff :
    (∃ h : Hw, ∃ mask, (h.wakeable mask = [])) ∧
    (∃ h : Hw, ∃ mask : Nat, (h.wakeable mask ≠ []) ∧ (h.inState psNight = true)) ∧
    (∃ (h : Hw) (l : List Nat) (x y : Nat), y ∈ l ∧ h.firstWake l = some x ∧ h.wakeClass x ≠ 1) ∧
    (∃ n : Fin 4, ∃ hdr : Word, ∃ data : List Byte, ∃ s : State, (s.hw.decoderOn n = true) ∧ (s.hw.wakeFrame n (canFrame hdr data) = true)) ∧
    (∃ n : Fin 4, ∃ s : State, (s.hw.decoderOn n = false)) ∧
    (∃ n : Fin 4, ∃ s : State, (s.hw.decoderOn n = true)) ∧
    (∃ n : Fin 4, ∃ s : State, (s.hw.decoderOn n = true) ∧ (s.hw.fec n = 32) ∧ (bitN (s.hw.reg (Reg.CAN_SW_ID n)).toNat 32 = true)) ∧
    (∃ s : State, (s.hw.sysOn = true) ∧ (s.hw.bit Reg.GIO_WAKE_VAL 39 = true) ∧ (s.hw.pwr.judgeAt ≤ s.hw.lc)) ∧
    (∃ src : Fin 9, ∃ s : State, (s.hw.aoOn = true) ∧ (s.hw.inBackoff src = false)) ∧
    (∃ who : Who, ∃ s : State, (Hw.aoWriter who = true) ∧ (s.hw.aoOn = true)) ∧
    (∃ who : Who, (Hw.aoWriter who = false)) ∧
    (∃ i : Fin 32, ∃ s : State, (s.hw.unitRuns 38 = true) ∧ (s.hw.inState psDay = true) ∧ (bitN s.hw.cfg.di i = true) ∧ (s.hw.bit Reg.GIO_DI i = false)) ∧
    (∃ i : Fin 32, ∃ s : State, (s.hw.unitRuns 38 = true) ∧ (s.hw.inState psDay = true) ∧ (bitN s.hw.cfg.di i = true) ∧ (s.hw.bit Reg.GIO_DI i = true)) ∧
    (∃ s : State, (s.hw.inState psDay = true) ∧ (s.hw.level = 3) ∧ (s.hw.pwr.dispatch = false) ∧ ((s.hw.vmSlot 0).state = .running)) ∧
    (∃ s : State, (s.hw.pwr.dispatch = true)) :=
  ⟨⟨up, default, by decide +kernel⟩,
   ⟨(let h : Hw := up; let h : Hw := (h.setFld Reg.PWR_STATE Fld.PWR_STATE_STATE psNight); h), 512, by decide +kernel⟩,
   ⟨up, [1], 1, 1, by decide, by decide +kernel, by decide +kernel⟩,
   ⟨0, 0, [],
     (on fun h => let h : Hw := (h.setBit (Reg.CAN_SW_ID 0) 39); let h : Hw := (h.setFld (Reg.CAN_CTRL 0) Fld.CAN_CTRL_MODE 2); h),
     by decide +kernel⟩,
   ⟨0, { hw := up }, by decide +kernel⟩,
   ⟨0,
     (on fun h => let h : Hw := (h.setBit (Reg.CAN_SW_ID 0) 39); let h : Hw := (h.setFld (Reg.CAN_CTRL 0) Fld.CAN_CTRL_MODE 2); h),
     by decide +kernel⟩,
   ⟨0,
     (on fun h => let h : Hw := (h.setFld (Reg.CAN_SW_STAT 0) Fld.CAN_SW_STAT_FEC 32); let h : Hw := (h.setBit (Reg.CAN_SW_ID 0) 39); let h : Hw := (h.setFld (Reg.CAN_CTRL 0) Fld.CAN_CTRL_MODE 2); let h : Hw := (h.setBit (Reg.CAN_SW_ID 0) 32); h),
     by decide +kernel⟩,
   ⟨(on fun h => h.setBit Reg.GIO_WAKE_VAL 39), by decide +kernel⟩,
   ⟨0, { hw := up }, by decide +kernel⟩,
   ⟨.secure, { hw := up }, by decide +kernel⟩,
   ⟨.system, by decide +kernel⟩,
   ⟨0,
     (on fun h => let h : Hw := (h.setFld Reg.PWR_STATE Fld.PWR_STATE_STATE psDay); let h : Hw := (h.clearBit Reg.GIO_DI 0); let h : Hw := ({ h with cfg := { h.cfg with di := 1 } }); h),
     by decide +kernel⟩,
   ⟨0,
     (on fun h => let h : Hw := (h.setFld Reg.PWR_STATE Fld.PWR_STATE_STATE psDay); let h : Hw := (h.setBit Reg.GIO_DI 0); let h : Hw := ({ h with cfg := { h.cfg with di := 1 } }); h),
     by decide +kernel⟩,
   ⟨(on fun h => let h : Hw := (h.setFld Reg.PWR_STATE Fld.PWR_STATE_STATE psDay); let h : Hw := (h.setFld Reg.PWR_STATE Fld.PWR_STATE_LEVEL 3); let h : Hw := ({ h with pwr := { h.pwr with dispatch := false } }); let h : Hw := (h.setVmSlot 0 { h.vmSlot 0 with state := .running }); h),
     by decide +kernel⟩,
   ⟨(on fun h => { h with pwr := { h.pwr with dispatch := true } }), by decide +kernel⟩⟩

theorem witness_ImagesAreStagedActivatedProvenAndCopied :
    (∃ w : Nat → Word, (imgPresent w = false)) ∧
    (∃ s : State, ∃ type : Nat, (setOk (s.setWith [type]) = false)) ∧
    (∃ s : State, ∃ type : Nat, (setOk (s.setWith [type]) = true) ∧ (type = 1)) ∧
    (∃ role : Fin 5, ∃ s : State, (s.hw.servedPath ≠ none) ∧ (role.val < 3)) ∧
    (∃ role : Fin 5, ∃ v : BitVec 16, ∃ s : State, (s.hw.servedPath ≠ none) ∧ (3 ≤ role.val) ∧ (s.fuse.lifecycle ≠ 3) ∧ (State.stageable (v.toNat / 256) (v.toNat % 16) = true) ∧ (v.toNat / 16 % 16 = 0) ∧ (s.hw.upd.stage ≠ 2) ∧ (s.hw.upd.copies = []) ∧ (s.hw.upd.act = none) ∧ (s.hw.norOn = true)) ∧
    (∃ role : Fin 5, ∃ v : BitVec 16, ∃ s : State, (s.hw.servedPath ≠ none) ∧ (3 ≤ role.val) ∧ (s.fuse.lifecycle ≠ 3) ∧ (State.stageable (v.toNat / 256) (v.toNat % 16) = true) ∧ (v.toNat / 16 % 16 = 0) ∧ (s.hw.upd.stage = 2)) ∧
    (∃ role : Fin 5, ∃ ws : List Word, ∃ s : State, (s.hw.servedPath ≠ none) ∧ (3 ≤ role.val) ∧ (ws.length ≠ 240)) ∧
    (∃ role : Fin 5, ∃ ws : List Word, ∃ s : State, (s.hw.servedPath ≠ none) ∧ (3 ≤ role.val) ∧ (ws.length = 240) ∧ (s.hw.upd.stage ≠ 2)) ∧
    (∃ role : Fin 5, ∃ ofs : Word, ∃ ws : List Word, ∃ base : Nat, ∃ s : State, (s.hw.servedPath ≠ none) ∧ (3 ≤ role.val) ∧ (ws.length = 240) ∧ (s.hw.upd.stage = 2) ∧ (s.hw.norOn = true) ∧ (base = (s.stageTarget s.hw.upd.stageType s.hw.upd.stageSlot).1) ∧ (s.stagedImage s.hw.upd.stageType s.hw.upd.stageSlot s.hw.upd.held 4 = erased) ∧ (4 < ofs.toNat) ∧ (ofs.toNat + 240 ≤ (s.stageTarget s.hw.upd.stageType s.hw.upd.stageSlot).2) ∧ ((∀ i, ofs.toNat ≤ i → i < ofs.toNat + 240 → s.stagedImage s.hw.upd.stageType s.hw.upd.stageSlot s.hw.upd.held i = erased))) ∧
    (∃ role : Fin 5, ∃ s : State, (s.hw.servedPath ≠ none) ∧ (3 ≤ role.val) ∧ (s.hw.upd.stage = 2) ∧ (s.hw.norOn = true)) ∧
    (∃ role : Fin 5, ∃ v : BitVec 16, ∃ lc : Word, ∃ n : Nat, ∃ s : State, (s.hw.servedPath ≠ none) ∧ (3 ≤ role.val) ∧ (State.stageable (v.toNat / 256) 0 = true) ∧ (v.toNat % 256 = 0) ∧ (s.hw.upd.act = none) ∧ (s.isStaged (v.toNat / 256) = true) ∧ (s.hw.lcRefusal 0x70020400 lc.toNat 0 = 0) ∧ (s.hw.commitLc lc.toNat = some n) ∧ (v.toNat / 256 ≠ 3 ∨ s.hw.lc + 20 ≤ n)) ∧
    (∃ role : Fin 5, ∃ v : BitVec 16, ∃ a : Activation, ∃ s : State, (s.hw.servedPath ≠ none) ∧ (3 ≤ role.val) ∧ (State.stageable (v.toNat / 256) 0 = true) ∧ (v.toNat % 256 = 0) ∧ (s.hw.upd.act = some a)) ∧
    (∃ s : State, (s.hw.upd.act = none)) ∧
    (∃ a : Activation, ∃ s : State, (s.hw.upd.act = some a) ∧ (a.started = false) ∧ (a.lc ≤ s.hw.lc) ∧ (s.hw.level = 3) ∧ (a.type ≠ 3 ∨ State.spareFree s.hw = true)) ∧
    (∃ type : Fin 8, ∃ s : State, (s.hw.upd.act = none) ∧ (type.val = 1 ∨ type.val = 2) ∧ (2 ≤ s.hw.level) ∧ (s.setRegion type = norStaging)) ∧
    (∃ type : Fin 8, ∃ slot : Fin 16, ∃ s : State, (s.hw.norOn = true) ∧ (imgPresent (s.partImage norStaging type slot) = true) ∧ (s.partImage norStaging type slot 63 = markProven)) ∧
    (∃ role : Fin 5, ∃ mask : BitVec 16, ∃ s : State, (s.hw.servedPath ≠ none) ∧ (3 ≤ role.val) ∧ (s.fuse.lifecycle ≠ 3) ∧ (mask.toNat ≠ 0) ∧ (mask.toNat < 32) ∧ (s.hw.upd.act = none) ∧ (((List.range 6).all fun i => !(decide (1 ≤ i) && bitN mask.toNat (i - 1)) || s.isStaged i) = true)) ∧
    (∃ a : Activation, ∃ s : State, (s.hw.upd.act = some a) ∧ (a.started = false) ∧ (a.type = 3) ∧ (s.hw.level = 3) ∧ (State.spareFree s.hw = false) ∧ (a.lc ≤ s.hw.lc + 1)) :=
  ⟨⟨(fun _ => erased), by decide +kernel⟩,
   ⟨{ hw := up, nor := { words := [(norStaging + 0x100000, 0x200)] } }, 2, by decide +kernel⟩,
   ⟨{ hw := up }, 1, by decide +kernel⟩,
   ⟨0, { hw := up }, by decide +kernel⟩,
   ⟨3, 0x200,
     (on fun h => let h : Hw := ({ h with upd := { h.upd with copies := [] } }); let h : Hw := ({ h with upd := { h.upd with act := none } }); h),
     by decide +kernel⟩,
   ⟨3, 0x200,
     (on fun h => let h : Hw := ({ h with upd := { h.upd with stage := 2 } }); let h : Hw := ({ h with upd := { h.upd with stage := 2 } }); h),
     by decide +kernel⟩,
   ⟨3, [], { hw := up }, by decide +kernel⟩,
   ⟨3, (List.replicate 240 0), { hw := up }, by decide +kernel⟩,
   ⟨3, 5, (List.replicate 240 0), (norStaging + 0x100000),
     (on fun h => let h : Hw := ({ h with upd := { h.upd with stage := 2 } }); let h : Hw := ({ h with upd := { h.upd with stageType := 2 } }); h),
     by decide +kernel⟩,
   ⟨3, (on fun h => { h with upd := { h.upd with stage := 2 } }), by decide +kernel⟩,
   ⟨3, 0x200, 0, (up.lc + up.lead_),
     { hw := (let h : Hw := up; let h : Hw := ({ h with upd := { h.upd with act := none } }); h), nor := { words := [(norStaging + 0x100000, 0x200)] } },
     by decide +kernel⟩,
   ⟨3, 0x200, ({ type := 2, lc := 0 } : Activation),
     (on fun h => { h with upd := { h.upd with act := (some ((({ type := 2, lc := 0 } : Activation)))) } }),
     by decide +kernel⟩,
   ⟨(on fun h => { h with upd := { h.upd with act := none } }), by decide +kernel⟩,
   ⟨({ type := 2, lc := 0 } : Activation),
     (on fun h => let h : Hw := ({ h with upd := { h.upd with act := (some ((({ type := 2, lc := 0 } : Activation)))) } }); let h : Hw := (h.setFld Reg.PWR_STATE Fld.PWR_STATE_LEVEL 3); h),
     by decide +kernel⟩,
   ⟨2,
     (on fun h => let h : Hw := ({ h with upd := { h.upd with act := none } }); let h : Hw := (h.setFld Reg.PWR_STATE Fld.PWR_STATE_LEVEL 2); let h : Hw := ({ h with upd := { h.upd with inForce := [(2, norStaging + 0x100000 + 1)] } }); h),
     by decide +kernel⟩,
   ⟨2, 0, { hw := up, nor := { words := [(norStaging + 0x100000, 0x200), (norStaging + 0x100000 + 63, 0)] } },
     by decide +kernel⟩,
   ⟨3, 16, (on fun h => { h with upd := { h.upd with heldCfg := some default } }), by decide +kernel⟩,
   ⟨({ type := 3, lc := 0 } : Activation),
     (on fun h => let h : Hw := ({ h with upd := { h.upd with act := (some ((({ type := 3, lc := 0 } : Activation)))) } }); let h : Hw := (h.setFld Reg.PWR_STATE Fld.PWR_STATE_LEVEL 3); let h : Hw := (h.setFld Reg.FAB_MC_STAT Fld.FAB_MC_STAT_SPARE 1); h),
     by decide +kernel⟩⟩

theorem witness_MicrocodeAndConfigurationSwitchAtTheirCycle :
    (∃ h : Hw, (h.mcRelease ≠ h)) ∧
    (∃ (h : Hw) (p : Nat × Page), p ∈ h.fab.pages ∧ h.mcRelease ≠ h) ∧
    (∃ h : Hw, ∃ n : Nat, (n < h.fab.mcSince)) ∧
    (∃ h : Hw, ∃ n, (h.fab.mcSince ≤ n)) ∧
    (∃ s : State, (s.hw.MayWrite .secure Reg.FAB_MC_CTRL) ∧ (s.hw.mcSpare = 0 ∨ s.hw.mcSpare = 2) ∧ (s.hw.fab.mcSwitch = none)) ∧
    (∃ who : Who, ∃ s : State, (s.hw.MayWrite who Reg.FAB_MC_CTRL) ∧ (who ≠ .secure)) ∧
    (∃ s : State, (s.hw.MayWrite .secure Reg.FAB_MC_CTRL) ∧ (s.hw.fab.mcSwitch = none) ∧ (s.hw.mcSpare = 1 ∨ s.hw.mcSpare = 2) ∧ (s.hw.lc + s.hw.lead_ ≤ (s.hw.reg Reg.FAB_MC_LC).toNat)) ∧
    (∃ s : State, (s.hw.MayWrite .secure Reg.FAB_MC_CTRL) ∧ (s.hw.fab.mcSwitch = none)) ∧
    (∃ x : Switch, ∃ s : State, (s.hw.MayWrite .secure Reg.FAB_MC_CTRL) ∧ (s.hw.fab.mcSwitch = some x) ∧ (s.hw.mcSpare ≠ 3) ∧ (s.hw.upd.act = none)) ∧
    (∃ r : Fin 16, ∃ s : State, (s.hw.islandOn r = true) ∧ (s.hw.mcSpare = 1)) ∧
    (∃ x : Switch, ∃ s : State, (s.hw.fab.mcSwitch = some x) ∧ (x.lc ≤ s.hw.lc) ∧ (s.hw.spareLoaded = true)) ∧
    (∃ s : State, (s.hw.fab.mcSwitch = none)) ∧
    (∃ x : Switch, ∃ s : State, (s.hw.fab.mcSwitch = some x) ∧ (x.lc ≤ s.hw.lc + 1) ∧ (s.hw.spareLoaded = false)) ∧
    (∃ s : State, (s.hw.spareLoaded = true)) ∧
    (∃ x : Switch, ∃ s : State, (s.hw.fab.cfgSwitch = some x) ∧ (s.hw.upd.heldCfg = none) ∧ (s.hw.upd.act = none)) ∧
    (∃ s : State, (s.hw.fab.cfgSwitch = none)) ∧
    (∃ x : Switch, ∃ w0 : Word, ∃ s : State, (s.hw.fab.cfgSwitch = some x) ∧ (s.hw.upd.heldCfg = some w0) ∧ (x.lc ≤ s.hw.lc) ∧ (s.hw.norOn = true)) :=
  ⟨⟨(let h : Hw := up; let h : Hw := (h.setFld Reg.FAB_MC_STAT Fld.FAB_MC_STAT_SPARE 4); let h : Hw := (h.setReg Reg.FAB_LC_COMMIT 900); h),
     by decide +kernel⟩,
   ⟨(let h : Hw := up; let h : Hw := h.setFld Reg.FAB_MC_STAT Fld.FAB_MC_STAT_SPARE 4; let h : Hw := h.setReg Reg.FAB_LC_COMMIT 900; h.setPage 0 { shadowLc := 5 }),
     (0, { shadowLc := 5 }), by decide +kernel, by decide +kernel⟩,
   ⟨(let h : Hw := up; let h : Hw := ({ h with fab := { h.fab with mcSince := 5 } }); h), 0, by decide +kernel⟩,
   ⟨up, 0, by decide +kernel⟩,
   ⟨(on fun h => let h : Hw := ({ h with fab := { h.fab with mcSwitch := none } }); let h : Hw := (h.setFld (Reg.WLD_FIXED 7) Fld.WLD_FIXED_WRITE 1); h),
     ⟨by decide +kernel, by decide +kernel⟩, by decide +kernel, by decide +kernel⟩,
   ⟨.crest, { hw := up }, ⟨by decide +kernel, by decide +kernel⟩, by decide +kernel⟩,
   ⟨(on fun h => let h : Hw := ({ h with fab := { h.fab with mcSwitch := none } }); let h : Hw := (h.setFld (Reg.WLD_FIXED 7) Fld.WLD_FIXED_WRITE 1); let h : Hw := (h.setFld Reg.FAB_MC_STAT Fld.FAB_MC_STAT_SPARE 2); let h : Hw := (h.setReg Reg.FAB_MC_LC 100000); h),
     ⟨by decide +kernel, by decide +kernel⟩, by decide +kernel, by decide +kernel, by decide +kernel⟩,
   ⟨(on fun h => let h : Hw := ({ h with fab := { h.fab with mcSwitch := none } }); let h : Hw := (h.setFld (Reg.WLD_FIXED 7) Fld.WLD_FIXED_WRITE 1); h),
     ⟨by decide +kernel, by decide +kernel⟩, by decide +kernel⟩,
   ⟨({ lc := 0, build := 0, acc := 0, slot := 0 } : Switch),
     (on fun h => let h : Hw := ({ h with fab := { h.fab with mcSwitch := (some ((({ lc := 0, build := 0, acc := 0, slot := 0 } : Switch)))) } }); let h : Hw := ({ h with upd := { h.upd with act := none } }); let h : Hw := (h.setFld (Reg.WLD_FIXED 7) Fld.WLD_FIXED_WRITE 1); h),
     ⟨by decide +kernel, by decide +kernel⟩, by decide +kernel, by decide +kernel, by decide +kernel⟩,
   ⟨0,
     (on fun h => let h : Hw := (h.setBit Reg.PWR_ISLAND_PG 0); let h : Hw := (h.setFld Reg.FAB_MC_STAT Fld.FAB_MC_STAT_SPARE 1); h),
     by decide +kernel⟩,
   ⟨({ lc := 0, build := 0, acc := 0, slot := 0 } : Switch),
     (on fun h => let h : Hw := ({ h with fab := { h.fab with mcSwitch := (some ((({ lc := 0, build := 0, acc := 0, slot := 0 } : Switch)))) } }); let h : Hw := (h.setReg Reg.FAB_MC_STAT 0xFFFF0000); let h : Hw := (h.setFld Reg.FAB_MC_STAT Fld.FAB_MC_STAT_SPARE 2); h),
     by decide +kernel⟩,
   ⟨(on fun h => { h with fab := { h.fab with mcSwitch := none } }), by decide +kernel⟩,
   ⟨({ lc := 0, build := 0, acc := 0, slot := 0 } : Switch),
     (on fun h => { h with fab := { h.fab with mcSwitch := (some ((({ lc := 0, build := 0, acc := 0, slot := 0 } : Switch)))) } }),
     by decide +kernel⟩,
   ⟨(on fun h => let h : Hw := (h.setReg Reg.FAB_MC_STAT 0xFFFF0000); let h : Hw := (h.setFld Reg.FAB_MC_STAT Fld.FAB_MC_STAT_SPARE 2); h),
     by decide +kernel⟩,
   ⟨({ lc := 0, build := 0, acc := 0, slot := 0 } : Switch),
     (on fun h => let h : Hw := ({ h with fab := { h.fab with cfgSwitch := (some ((({ lc := 0, build := 0, acc := 0, slot := 0 } : Switch)))) } }); let h : Hw := ({ h with upd := { h.upd with heldCfg := none } }); let h : Hw := ({ h with upd := { h.upd with act := none } }); h),
     by decide +kernel⟩,
   ⟨(on fun h => { h with fab := { h.fab with cfgSwitch := none } }), by decide +kernel⟩,
   ⟨({ lc := 0, build := 0, acc := 0, slot := 0 } : Switch), 0,
     (on fun h => let h : Hw := ({ h with fab := { h.fab with cfgSwitch := (some ((({ lc := 0, build := 0, acc := 0, slot := 0 } : Switch)))) } }); let h : Hw := ({ h with upd := { h.upd with heldCfg := (some 0) } }); let h : Hw := ({ h with fab := { h.fab with cfgSwitch := some ({ lc := 0, build := 0, acc := 0, slot := 0 } : Switch) }, upd := { h.upd with heldCfg := some 0 } }); h),
     by decide +kernel⟩⟩

theorem witness_FuseOperationsStartFinishAndRaise :
    (∃ who : Who, ∃ sel : Fin 4, ∃ s : State, (s.hw.MayWrite who Reg.FUSE_PROG) ∧ (s.hw.upd.fuseOp = none) ∧ (s.hw.bit Reg.PWR_VHOLD 16 = true) ∧ (s.lifecycleRefusal sel = 0)) ∧
    (∃ who : Who, ∃ sel : Fin 4, ∃ s : State, (s.hw.MayWrite who Reg.FUSE_PROG) ∧ (s.hw.upd.fuseOp = none) ∧ (s.hw.bit Reg.PWR_VHOLD 16 = true) ∧ (s.fuse.keyValid.getLsbD sel = false)) ∧
    (∃ who : Who, ∃ sel : Fin 4, ∃ s : State, (s.hw.MayWrite who Reg.FUSE_PROG) ∧ (s.hw.upd.fuseOp = none) ∧ (s.hw.bit Reg.PWR_VHOLD 16 = true) ∧ (sel.val ≠ 0) ∧ ((∃ k, (k = 1 ∨ k = 2 ∨ k = 3) ∧ k ≠ sel.val ∧ s.fuse.keyGood k = true))) ∧
    (∃ who : Who, ∃ sel : Fin 4, ∃ s : State, (s.hw.MayWrite who Reg.FUSE_PROG) ∧ (s.hw.upd.fuseOp = none) ∧ (s.hw.bit Reg.PWR_VHOLD 16 = true) ∧ (State.arbField s.fuse sel < bitsOf (s.hw.reg (Reg.FUSE_PROG_DATA 0)) 6 0) ∧ (bitsOf (s.hw.reg (Reg.FUSE_PROG_DATA 0)) 6 0 ≤ 64)) ∧
    (∃ who : Who, ∃ s : State, (s.hw.MayWrite who Reg.FUSE_PROG) ∧ (s.hw.upd.fuseOp = none) ∧ (s.hw.bit Reg.PWR_VHOLD 16 = true)) ∧
    (∃ who : Who, ∃ x : FuseOp, ∃ s : State, (s.hw.MayWrite who Reg.FUSE_PROG) ∧ (s.hw.upd.fuseOp = some x)) ∧
    (∃ k, ∃ d, ∃ s : State, (s.hw.upd.fuseOp = some { op := 2, sel := k, data := d })) ∧
    (∃ k, ∃ d, ∃ s : State, (s.hw.upd.fuseOp = some { op := 3, sel := k, data := d })) ∧
    (∃ k, ∃ d, ∃ s : State, (s.hw.upd.fuseOp = some { op := 4, sel := k, data := d })) ∧
    (∃ k, ∃ d, ∃ s : State, (s.hw.upd.fuseOp = some { op := 5, sel := k, data := d })) ∧
    (∃ k, ∃ d, ∃ s : State, (s.hw.upd.fuseOp = some { op := 1, sel := k, data := d })) ∧
    (∃ s : State, (s.hw.upd.fuseOp = none)) ∧
    (∃ s : State, (s.hw.level ≠ 3)) ∧
    (∃ s : State, (s.hw.level = 3) ∧ (2 ≤ s.fuse.lifecycle) ∧ (s.hw.bit Reg.PWR_VHOLD 16 = true)) :=
  ⟨⟨.secure, 3,
     { hw := (let h : Hw := up; let h : Hw := ({ h with upd := { h.upd with fuseOp := none } }); let h : Hw := (h.setBit Reg.PWR_VHOLD 16); h), fuse := { lifecycle := 2 } },
     ⟨by decide +kernel, by decide +kernel⟩, by decide +kernel, by decide +kernel, by decide +kernel⟩,
   ⟨.secure, 0,
     (on fun h => let h : Hw := ({ h with upd := { h.upd with fuseOp := none } }); let h : Hw := (h.setBit Reg.PWR_VHOLD 16); h),
     ⟨by decide +kernel, by decide +kernel⟩, by decide +kernel, by decide +kernel, by decide +kernel⟩,
   ⟨.secure, 1,
     { hw := (let h : Hw := up; let h : Hw := ({ h with upd := { h.upd with fuseOp := none } }); let h : Hw := (h.setBit Reg.PWR_VHOLD 16); h), fuse := { keyValid := 4 } },
     ⟨by decide +kernel, by decide +kernel⟩, by decide +kernel, by decide +kernel, by decide +kernel,
     (by exact ⟨2, by decide +kernel⟩)⟩,
   ⟨.secure, 0,
     (on fun h => let h : Hw := ({ h with upd := { h.upd with fuseOp := none } }); let h : Hw := (h.setBit Reg.PWR_VHOLD 16); let h : Hw := (h.setReg (Reg.FUSE_PROG_DATA 0) 5); h),
     ⟨by decide +kernel, by decide +kernel⟩, by decide +kernel, by decide +kernel, by decide +kernel,
     by decide +kernel⟩,
   ⟨.secure,
     (on fun h => let h : Hw := ({ h with upd := { h.upd with fuseOp := none } }); let h : Hw := (h.setBit Reg.PWR_VHOLD 16); h),
     ⟨by decide +kernel, by decide +kernel⟩, by decide +kernel, by decide +kernel⟩,
   ⟨.secure, ({ op := 1, sel := 0, data := [] } : FuseOp),
     (on fun h => { h with upd := { h.upd with fuseOp := (some ((({ op := 1, sel := 0, data := [] } : FuseOp)))) } }),
     ⟨by decide +kernel, by decide +kernel⟩, by decide +kernel⟩,
   ⟨0, default, (on fun h => { h with upd := { h.upd with fuseOp := some { op := 2, sel := 0, data := default } } }),
     by decide +kernel⟩,
   ⟨0, default, (on fun h => { h with upd := { h.upd with fuseOp := some { op := 3, sel := 0, data := default } } }),
     by decide +kernel⟩,
   ⟨0, default, (on fun h => { h with upd := { h.upd with fuseOp := some { op := 4, sel := 0, data := default } } }),
     by decide +kernel⟩,
   ⟨0, default, (on fun h => { h with upd := { h.upd with fuseOp := some { op := 5, sel := 0, data := default } } }),
     by decide +kernel⟩,
   ⟨0, default, (on fun h => { h with upd := { h.upd with fuseOp := some { op := 1, sel := 0, data := default } } }),
     by decide +kernel⟩,
   ⟨(on fun h => { h with upd := { h.upd with fuseOp := none } }), by decide +kernel⟩,
   ⟨(on fun h => h.setFld Reg.PWR_STATE Fld.PWR_STATE_LEVEL 1), by decide +kernel⟩,
   ⟨{ hw := (let h : Hw := up; let h : Hw := (h.setFld Reg.PWR_STATE Fld.PWR_STATE_LEVEL 3); let h : Hw := (h.setBit Reg.PWR_VHOLD 16); h), fuse := { lifecycle := 2 } },
     by decide +kernel⟩⟩

theorem witness_PeersTripReportAndSummarise :
    (∃ s : State, (s.hw.grd.trips = [])) ∧
    (∃ e, ∃ r, ∃ l, ∃ s : State, (s.hw.grd.trips = (e, r) :: l)) ∧
    (∃ hdr : PeerHdr, ∃ s : State, (s.hw.sysOn = true) ∧ (s.hw.inTree = true) ∧ (hdr.declared = true ∧ hdr.version = 1 ∧ hdr.tag.toNat = s.hw.cfg.plantTag ∧ (hdr.dst.toNat = s.hw.cfg.deviceId ∨ hdr.dst.toNat = 0xFFFF)) ∧ ((Tabs.get (fun _ => ([] : List Nat)) s.hw.peerSeen (8 * hdr.src.toNat + 1)).contains hdr.seq.toNat = false)) ∧
    (∃ hdr : PeerHdr, ∃ s : State, (s.hw.sysOn = true) ∧ (s.hw.inTree = true) ∧ (hdr.declared = true ∧ hdr.version = 1 ∧ hdr.tag.toNat = s.hw.cfg.plantTag ∧ (hdr.dst.toNat = s.hw.cfg.deviceId ∨ hdr.dst.toNat = 0xFFFF)) ∧ ((Tabs.get (fun _ => ([] : List Nat)) s.hw.peerSeen (8 * hdr.src.toNat + 1)).contains hdr.seq.toNat = true)) ∧
    (∃ hdr : PeerHdr, ∃ s : State, (s.hw.sysOn = true) ∧ (s.hw.inTree = true) ∧ ((hdr.declared = false ∨ hdr.version ≠ 1 ∨ hdr.tag.toNat ≠ s.hw.cfg.plantTag))) ∧
    (∃ role : Fin 5, ∃ mask : Byte, ∃ s : State, (s.hw.servedPath ≠ none) ∧ (s.hw.inTree = true) ∧ (1 ≤ role.val) ∧ (s.hw.crestOn = true) ∧ ((Hw.groupsOf mask.toNat).any s.hw.tripRecent = true)) ∧
    (∃ role : Fin 5, ∃ mask : Byte, ∃ s : State, (s.hw.servedPath ≠ none) ∧ (s.hw.inTree = true) ∧ (1 ≤ role.val) ∧ (s.hw.crestOn = true) ∧ ((Hw.groupsOf mask.toNat).any s.hw.tripRecent = false)) ∧
    (∃ role : Fin 5, ∃ s : State, (s.hw.servedPath ≠ none) ∧ (s.hw.inTree = true) ∧ (role.val = 0)) ∧
    (∃ k : Fin 16, ∃ hdr : PeerHdr, ∃ s : State, (s.hw.sysOn = true) ∧ (s.hw.isPartner k hdr = true) ∧ (hdr.declared = true ∧ hdr.version = 1 ∧ hdr.tag.toNat = s.hw.cfg.plantTag ∧ (hdr.dst.toNat = s.hw.cfg.deviceId ∨ hdr.dst.toNat = 0xFFFF)) ∧ ((Tabs.get (fun _ => ([] : List Nat)) s.hw.peerSeen (8 * hdr.src.toNat + 4)).contains hdr.seq.toNat = false)) ∧
    (∃ k : Fin 16, ∃ hdr : PeerHdr, ∃ s : State, (s.hw.sysOn = true) ∧ (s.hw.isPartner k hdr = false)) ∧
    (∃ k : Fin 16, ∃ n, ∃ s : State, ((s.hw.ring k).partnerOk = some n) ∧ (n + 2 ≤ s.hw.lc)) ∧
    (∃ k : Fin 16, ∃ s : State, ((s.hw.ring k).partnerOk = none)) ∧
    (∃ hdr : PeerHdr, ∃ body : List Byte, ∃ s : State, (s.hw.sysOn = true) ∧ (s.hw.inTree = true) ∧ (s.hw.children.contains hdr.src.toNat = true) ∧ (hdr.declared = true ∧ hdr.version = 1 ∧ hdr.tag.toNat = s.hw.cfg.plantTag ∧ (hdr.dst.toNat = s.hw.cfg.deviceId ∨ hdr.dst.toNat = 0xFFFF)) ∧ ((Tabs.get (fun _ => ([] : List Nat)) s.hw.peerSeen (8 * hdr.src.toNat + 5)).contains hdr.seq.toNat = false) ∧ (60 ≤ body.length) ∧ (s.hw.lc ≤ beNat (body.take 5) + 5)) ∧
    (∃ n : Nat, ∃ s : State, (s.hw.nextCycle (max s.hw.tree.sent s.hw.firstOwed) = n) ∧ (s.hw.sysOn = true) ∧ (s.hw.inTree = true) ∧ ((s.hw.vmSlot 0).state = .running) ∧ (s.hw.carriesInputs n = true) ∧ (n ≤ s.hw.lcCommit) ∧ (n + 5 ≤ s.hw.lc) ∧ (s.hw.cfg.role = 0)) ∧
    (∃ n : Nat, ∃ s : State, (s.hw.nextCycle (max s.hw.tree.sent s.hw.firstOwed) = n) ∧ (s.hw.sysOn = true) ∧ (s.hw.inTree = true) ∧ ((s.hw.vmSlot 0).state = .running) ∧ (s.hw.carriesInputs n = true) ∧ (n ≤ s.hw.lcCommit) ∧ (n + 5 ≤ s.hw.lc) ∧ (s.hw.cfg.role ≠ 0)) ∧
    (∃ n : Nat, ∃ s : State, (s.hw.nextCycle (max s.hw.tree.sent s.hw.firstOwed) = n) ∧ (s.hw.lc < n + 5)) :=
  ⟨⟨(on fun h => { h with grd := { h.grd with trips := [] } }), by decide +kernel⟩,
   ⟨0, 0, default, (on fun h => { h with grd := { h.grd with trips := [default] } }), by decide +kernel⟩,
   ⟨({ declared := true, version := 1, tag := 0, src := 5, dst := 0, lc := 0, seq := 9 } : PeerHdr),
     (on fun h => { h with cfg := { h.cfg with role := 1 } }), by decide +kernel⟩,
   ⟨({ declared := true, version := 1, tag := 0, src := 5, dst := 0, lc := 0, seq := 9 } : PeerHdr),
     (on fun h => let h : Hw := ({ h with cfg := { h.cfg with role := 1 } }); let h : Hw := ({ h with peerSeen := [(41, [9])] }); h),
     by decide +kernel⟩,
   ⟨({ declared := true, version := 2, tag := 0, src := 5, dst := 0, lc := 0, seq := 9 } : PeerHdr),
     (on fun h => { h with cfg := { h.cfg with role := 1 } }), by decide +kernel⟩,
   ⟨1, 1,
     (on fun h => let h : Hw := ({ h with cfg := { h.cfg with role := 1 } }); let h : Hw := ({ h with tripAt := [(0, 1000), (1, 1000)] }); h),
     by decide +kernel⟩,
   ⟨1, 0, (on fun h => { h with cfg := { h.cfg with role := 1 } }), by decide +kernel⟩,
   ⟨0, (on fun h => { h with cfg := { h.cfg with role := 1 } }), by decide +kernel⟩,
   ⟨0, ({ declared := true, version := 1, tag := 0, src := 5, dst := 0, lc := 0, seq := 9 } : PeerHdr),
     { hw := (let h : Hw := ringUp; let h : Hw := (h.setFld (Reg.VNK_RING_CFG 0) Fld.VNK_RING_CFG_TOPO 2); h) },
     by decide +kernel⟩,
   ⟨0, ({ declared := true, version := 1, tag := 0, src := 0, dst := 0, lc := 0, seq := 0 } : PeerHdr), { hw := up },
     by decide +kernel⟩,
   ⟨0, 0, (on fun h => h.setRing 0 { h.ring 0 with partnerOk := (some 0) }), by decide +kernel⟩,
   ⟨0, (on fun h => h.setRing 0 { h.ring 0 with partnerOk := none }), by decide +kernel⟩,
   ⟨({ declared := true, version := 1, tag := 0, src := 5, dst := 0, lc := 0, seq := 9 } : PeerHdr),
     (List.replicate 60 0),
     (on fun h => let h : Hw := ({ h with cfg := { h.cfg with role := 1 } }); let h : Hw := ({ h with lc := 3, cfg := { h.cfg with sw := { h.cfg.sw with neighbours := [{ dev := 5, mac := 0, rel := 1 }] } } }); h),
     by decide +kernel⟩,
   ⟨900,
     (on fun h => let h : Hw := (h.setVmSlot 0 { h.vmSlot 0 with state := .running }); let h : Hw := ({ h with cfg := { h.cfg with role := 0 } }); let h : Hw := ({ h with fab := { h.fab with spanStart := 901 } }); let h : Hw := (h.setReg Reg.FAB_LC_COMMIT 900); let h : Hw := ({ h with cfg := { h.cfg with role := 0 } }); h),
     by decide +kernel⟩,
   ⟨900,
     (on fun h => let h : Hw := (h.setVmSlot 0 { h.vmSlot 0 with state := .running }); let h : Hw := ({ h with cfg := { h.cfg with role := 1 } }); let h : Hw := ({ h with fab := { h.fab with spanStart := 901 } }); let h : Hw := (h.setReg Reg.FAB_LC_COMMIT 900); let h : Hw := ({ h with cfg := { h.cfg with role := 1 } }); h),
     by decide +kernel⟩,
   ⟨900,
     (on fun h => let h : Hw := ({ h with fab := { h.fab with spanStart := 901 } }); let h : Hw := (h.setReg Reg.FAB_LC_COMMIT 900); let h : Hw := ({ h with lc := 901 }); h),
     by decide +kernel⟩⟩

theorem witness_RegistersReadAndWriteByTheirAccessCode :
    (∃ (a i : Nat) (c : Card), cardOf a = some c ∧ c.legal = [] ∧ i < 40) ∧
    (∃ a : Nat, ∃ b : Nat, (b ≠ a)) ∧
    (∃ (a i : Nat) (c : Card), cardOf a = some c ∧ i < 40) ∧
    (∃ who : Who, ∃ a : BitVec 34, ∃ s : State, (regionOf a.toNat = .peripheral) ∧ (s.hw.regOn a.toNat = true) ∧ (s.hw.regAllows who false a.toNat = true) ∧ (Hw.loPair a.toNat = none) ∧ (a.toNat ≠ Reg.TIME_CAP_INFO)) ∧
    (∃ a : BitVec 34, ∃ s : State, (regionOf a.toNat = .peripheral) ∧ (s.hw.regOn a.toNat = false)) ∧
    (∃ who : Who, ∃ a : BitVec 34, ∃ s : State, (regionOf a.toNat = .peripheral) ∧ (s.hw.regOn a.toNat = true) ∧ (s.hw.regAllows who false a.toNat = false)) ∧
    (∃ who : Who, ∃ a : BitVec 34, ∃ w : Word, ∃ s : State, (regionOf a.toNat ≠ .peripheral) ∧ (s.hw.memAllows who false a.toNat = true) ∧ (s.memRead a.toNat = .ok w)) ∧
    (∃ who : Who, ∃ a : BitVec 34, ∃ s : State, (regionOf a.toNat = .unmapped) ∧ (s.hw.memAllows who false a.toNat = true)) ∧
    (∃ who : Who, ∃ a : BitVec 34, ∃ s : State, (regionOf a.toNat = .peripheral) ∧ (s.hw.regOn a.toNat = true) ∧ (s.hw.regAllows who true a.toNat = false)) ∧
    (∃ who : Who, ∃ a : BitVec 34, ∃ s : State, (regionOf a.toNat = .peripheral) ∧ (a.toNat / 0x10000 = 0x1001 ∨ a.toNat / 0x10000 = 0x10F0) ∧ (s.hw.regOn a.toNat = true) ∧ (s.hw.regAllows who true a.toNat = true)) ∧
    (∃ who : Who, ∃ a : BitVec 34, ∃ s : State, (regionOf a.toNat ≠ .peripheral) ∧ (s.hw.memAllows who true a.toNat = true) ∧ (s.hw.storable a.toNat = true)) ∧
    (∃ who : Who, ∃ a : BitVec 34, ∃ s : State, (regionOf a.toNat ≠ .peripheral) ∧ (s.hw.memAllows who true a.toNat = true) ∧ (s.hw.storable a.toNat = false)) :=
  ⟨by
      obtain ⟨c, h1,
        h2⟩ := Option.any_wit (p := fun c : Card => decide (c.legal = [])) (by decide +kernel : ((cardOf Reg.GIO_IRQ_EN).any fun c => decide (c.legal = [])) = true)
      exact ⟨Reg.GIO_IRQ_EN, 0, c, h1, of_decide_eq_true h2, by decide⟩,
   ⟨0, 1, by decide +kernel⟩,
   by
      obtain ⟨c, h1⟩ := Option.isSome_iff_exists.mp (by decide +kernel : (cardOf Reg.GIO_IRQ_EN).isSome = true)
      exact ⟨Reg.GIO_IRQ_EN, 0, c, h1, by decide⟩,
   ⟨.secure, 0x10C00000, { hw := up }, by decide +kernel⟩,
   ⟨0x10C00000, (on fun h => h.setFld Reg.PWR_RAIL_PG Fld.PWR_RAIL_PG_VSYS 0), by decide +kernel⟩,
   ⟨.vm 3, 0x10C00000, { hw := up }, by decide +kernel⟩,
   ⟨.system, 0x100000000, 7, (on fun h => h.setRam 0x100000000 { data := 7 }), by decide +kernel⟩,
   ⟨.secure, 0x30000000, { hw := up }, by decide +kernel⟩,
   ⟨.vm 3, 0x10C00000, { hw := up }, by decide +kernel⟩,
   ⟨.secure, 0x10010010, { hw := up }, by decide +kernel⟩,
   ⟨.system, 0x100000000, { hw := up }, by decide +kernel⟩,
   ⟨.secure, 0x30000000, { hw := up }, by decide +kernel⟩⟩

theorem witness_StepCarriesOutTheCommandAtTheFront :
    ∃ s : State, (s.pending = []) :=
  ⟨{ hw := up }, by decide +kernel⟩

theorem witness_TheQueueIsFirstInFirstOut :
    ∃ s : State, ∃ t : State, (step s = .next t) :=
  ⟨{ hw := up }, { hw := up }, rfl⟩

theorem witness_ProgrammedFusesStayProgrammed :
    ∃ s : State, ∃ t : State, (step s = .next t) :=
  ⟨{ hw := up }, { hw := up }, rfl⟩

theorem witness_TheFlashKeepsItsCanonicalForm :
    ∃ s : State, ∃ t : State, (Nor.wf s.nor = true) ∧ (step s = .next t) :=
  ⟨{ hw := up }, { hw := up }, by decide +kernel, rfl⟩

theorem witness_DeniedAccessesAreCountedAndChangeNothingElse :
    (∃ h : Hw, ∃ who : Who, ∃ write : Bool, ∃ a : Nat, (h.blockOn (blockOf a) = true) ∧ (h.blockAllows who write (blockOf a) = false)) ∧
    (∃ h : Hw, ∃ who : Who, (who ≠ .system) ∧ (who ≠ .crest) ∧ (h.bit Reg.WLD_CTRL 0 = false)) ∧
    (∃ h : Hw, ∃ who : Who, ∃ a : Nat, (who ≠ .system) ∧ (h.bit Reg.WLD_CTRL 0 = true) ∧ ((∀ i, i < 64 → h.fwRegionHolds i a = false))) ∧
    (∃ h : Hw, ∃ who : Who, ∃ a : Nat, ∃ i : Nat, (who ≠ .system) ∧ (h.bit Reg.WLD_CTRL 0 = true) ∧ (i < 64) ∧ (h.fwRegionHolds i a = true) ∧ ((∀ j, j < i → h.fwRegionHolds j a = false))) :=
  ⟨⟨(let h : Hw := up; let h : Hw := (h.setReg (Reg.WLD_FIXED 3) 0); h), .vm 3, true, 0x10030000, by decide +kernel⟩,
   ⟨(let h : Hw := up; let h : Hw := (h.clearBit Reg.WLD_CTRL 0); h), .vm 3, by decide +kernel⟩,
   ⟨(let h : Hw := up; let h : Hw := (h.setBit Reg.WLD_CTRL 0); let h : Hw := (h.clearBit (Reg.WLD_RGN_BASE 0) 39); h),
     .vm 3, 0x100000000, by decide +kernel⟩,
   ⟨(let h : Hw := up; let h : Hw := (h.setBit Reg.WLD_CTRL 0); h), .vm 3, 0x100000000, 0, by decide +kernel⟩⟩

/-! ### Well-formed commands: each check refuses a term that breaks it -/

/-- A sense fact of a channel. -/
def senseOf (k : Fin 64) (code : Nat) : Fin 64 × Nat × Bool × Bool := (k, code, false, false)

/-- A sample instant with load facts. -/
def instant (x : LoadFacts) : Instr := .sampleInstant { loads := x, ai := [], din := 0 }

theorem test_wf_sense_key_once : (instant { sense := [senseOf 3 0, senseOf 3 1], mute := [] }).wf = false := by decide
theorem test_wf_sense_code : (instant { sense := [senseOf 3 0x1000000], mute := [] }).wf = false := by decide
theorem test_wf_sense_code_bound : (instant { sense := [senseOf 3 0xFFFFFF], mute := [] }).wf = true := by decide
theorem test_wf_supply_key_once : (instant { sense := [], mute := [], supply := [(1, 0, 0), (1, 1, 0)] }).wf = false := by decide
theorem test_wf_mute_once : (instant { sense := [], mute := [2, 2] }).wf = false := by decide
theorem test_wf_ai_key_once :
    (Instr.sampleInstant { loads := { sense := [], mute := [] }, ai := [(4, 0), (4, 1)], din := 0 }).wf = false := by decide
theorem test_wf_closure_lc : (Instr.snpClosure 0x10000000000).wf = false := by decide
theorem test_wf_audit_lc : (Instr.auditStart 0 0x10000000000).wf = false := by decide
theorem test_wf_absent_lc : (Instr.absentMarking 0x10000000000).wf = false := by decide
theorem test_wf_ext_lc : (Instr.extIn 0 0x10000000000 0 0).wf = false := by decide
theorem test_wf_handover_id : (Instr.unitRelease .secure false 1024 1).wf = false := by decide
theorem test_wf_handover_owner : (Instr.unitRelease .secure false 25 256).wf = false := by decide
theorem test_wf_can_data : (Instr.canFrameReceived 0 0 (List.replicate 65 0) false).wf = false := by decide
theorem test_wf_kop_value : (Instr.kopWrite 0 0 1 (List.replicate 65536 0)).wf = false := by
  rw [Instr.wf, List.length_replicate]
  decide

/-! ### Worked examples of the spec -/

/-- R26: cell 6 000 is at home on E187, frame 880. -/
theorem test_home_of_cell_6000 : up.homeOf 6000 = (187, 880) := by decide +kernel

/-- R26: its fused state of charge stands at point address 0x0BB_8040. -/
theorem test_point_address : pointAddr 6000 0x40 = 0xBB8040 := by decide

/-- R285 to R287: the frame of cell 6 000 starts at 0x0_0543_7000. -/
theorem test_frame_address : frameAddr 187 880 0 = 0x5437000 := by decide

/-- R239: NCELL 120, NAUX 20 and NSPARE 4 put P0 at 13 805 and C0 at 14 141. -/
theorem test_ring_segments :
    let h := ((up.setFld (Reg.VNK_RING_SEG 5) Fld.VNK_RING_SEG_NCELL 120).setFld (Reg.VNK_RING_SEG 5) Fld.VNK_RING_SEG_NAUX 20).setFld
      (Reg.VNK_RING_SEG 5) Fld.VNK_RING_SEG_NSPARE 4
    h.p0 5 = 13805 ∧ h.c0 5 = 14141 := by decide +kernel

/-- R260: the cell voltage of code 5 557 465 at 31.250 °C is 3 312 487 917 nV. -/
theorem test_calibrated_value :
    calValue 0xC8000 625000000 25000000 (-2097152) 0x1000000 5557465 (some 31250000) = 3312487917 := by decide +kernel

/-- R329: NRWS takes the tie 3 312 490 938.5 to the even integer. -/
theorem test_nrws_tie :
    (match exec (.nrws (.app 0) 8 1 32) (on fun h => { h with app :=
        [(0, { Core.appInit with inReset := false, acc := [(1, BitVec.ofNat 96 (2 ^ 30 * 13249963754))] })] }) with
      | .next t => (t.hw.appCore 0).gpr 8
      | _ => 0) = 0xC57099BA := by decide +kernel

/-- R609: 2100-02-29 is no date; the query keeps the one before. -/
theorem test_cal_query_refuses :
    (up.calQuery 0x3217400000).status = stBadValue ∧ (up.calQuery 0x3217400000).tu.query = up.tu.query := by decide +kernel

/-- R609: 2100-03-01 is TAI second 0x00_F4D4_1FA5 with an offset of 37 s. -/
theorem test_cal_query_answers :
    ((up.setFld Reg.TIME_UTC Fld.TIME_UTC_OFFSET 37).calQuery 0x3218400000).tu.result.1 = 0xF4D41FA5 := by decide +kernel

/-- R461: channel ON at 2.000 A, code 4 000. -/
theorem test_sample_word : Die.sampleWord { powered := true } { mode := 1 } 4000 false false = 0x1000000FA0 := by decide +kernel

/-- R8: −250 000 µA as an I40 word. -/
theorem test_rack_current_word : (BitVec.ofInt 40 (-250000)) = 0xFFFFFC2F70 := by decide

/-! ### Single steps -/

/-- R341: the queue's front is carried out and leaves the queue. -/
theorem test_step_takes_the_front :
    (match step { hw := up, pending := [.vinLoss, .activateCheck] } with
      | .next t => t.pending
      | _ => []) = [.activateCheck] := by decide +kernel

/-- An empty queue idles. -/
theorem test_step_idles : step { hw := up } = .next { hw := up } := rfl

/-- PWR_RAIL_PG and CLK_STAT have the reset values of their cards (R105, R106), and VIN_START boots the reset state. -/
theorem test_reset_rails : State.reset.hw.reg Reg.PWR_RAIL_PG = 3 ∧ State.reset.hw.reg Reg.CLK_STAT = 1 := by decide +kernel
theorem test_reset_can_boot : State.reset.hw.booted = false ∧ (State.reset.hw.bit Reg.PWR_RAIL_PG 0 && !State.reset.hw.aoOn) = false := by
  decide +kernel

/-- The reset state's memories are in their canonical form. -/
theorem test_reset_memories : Memory.wf State.reset.hw.mem = true ∧ Nor.wf State.reset.nor = true := by decide +kernel

/-- The table gives no row bits: no word spells a command. -/
theorem test_no_word_decodes : decodeTableWord 24 0x123456 = none := rfl

end Sys2Proof.Tests
end

section
/-! PROOFS. What the operations of the units leave of the queue, the fuses and the flash (`Laws.Keeps`). -/

namespace Sys2Proof.Proofs

open Sys2Proof.Machine Sys2Proof.Laws

/-! ### How `Keeps` composes -/

/-- Any new hardware beside the same queue, fuses and flash. -/
theorem keeps_hw (s : State) (h : Hw) : Keeps s { s with hw := h } := ⟨rfl, le_refl _, id⟩

/-- The warm state that Night saves is no part of what is kept. -/
theorem keeps_warm (s : State) (w : Option Hw) (h : Hw) : Keeps s { s with hw := h, warm := w } := ⟨rfl, le_refl _, id⟩

theorem keeps_ite {s t u : State} {p : Prop} [Decidable p] (a : Keeps s t) (b : Keeps s u) : Keeps s (if p then t else u) := by
  split
  · exact a
  · exact b

/-- A change made only under a condition. -/
theorem keeps_when {s t : State} {p : Prop} [Decidable p] (a : Keeps s t) : Keeps s (if p then t else s) :=
  keeps_ite a (keeps_refl s)

theorem keeps_unless {s t : State} {p : Prop} [Decidable p] (a : Keeps s t) : Keeps s (if p then s else t) :=
  keeps_ite (keeps_refl s) a

/-! ### Host ports -/

theorem keeps_hpError (s : State) (i : Nat) : Keeps s (s.hpError i) := keeps_onHw s _

theorem keeps_hpDone (s : State) (i ctl b : Nat) : Keeps s (s.hpDone i ctl b) := keeps_onHw s _

theorem keeps_hpDeliver (s : State) (i : Nat) (f : SwFrame) (bytes : List Byte) : Keeps s (s.hpDeliver i f bytes) := by
  unfold State.hpDeliver
  extract_lets ctl noBuf d ts mirrorLen sample low r0
  clear_value r0 ts
  split
  · exact keeps_refl s
  · rename_i who _
    have hno : Keeps s noBuf := keeps_onHw s _
    refine keeps_ite hno ?_
    have hread := keeps_dmaReads s who d 2
    split <;> rename_i e <;> rw [e] at hread
    · rename_i s1 w0 w1
      refine keeps_ite hno (keeps_trans hread ?_)
      have hdata := keeps_dmaWrites s1 who (w1.toNat % 2 ^ 34) (Hw.packBytes bytes)
      split <;> rename_i e2 <;> rw [e2] at hdata
      · exact keeps_trans hdata (keeps_trans (keeps_hpError _ i) (keeps_hpDone _ i _ _))
      · rename_i s2
        extract_lets t
        have ht : Keeps s2 t.1 := by
          simp only [t]
          split
          · exact keeps_dmaWrites s2 who _ _
          · exact keeps_refl s2
        have hend := keeps_dmaWrites t.1 who d [r0]
        refine keeps_trans hdata (keeps_trans ht ?_)
        split
        rename_i e3
        rw [e3] at hend
        exact keeps_trans hend (keeps_trans (keeps_ite (keeps_refl _) (keeps_hpError _ i)) (keeps_hpDone _ i _ _))
    · exact keeps_trans hread (keeps_hpError _ i)

theorem keeps_hpStamp (s : State) (i idx : Nat) (t : Int) : Keeps s (s.hpStamp i idx t) := by
  unfold State.hpStamp
  split
  · exact keeps_refl s
  · rename_i who _
    extract_lets d
    have hw := keeps_dmaWrites s who (d + 2) [(time80 t).1, (time80 t).2]
    split <;> rename_i e <;> rw [e] at hw
    · exact hw
    · exact keeps_trans hw (keeps_hpError _ i)

theorem keeps_hpSendOne (s : State) (i : Nat) : Keeps s (s.hpSendOne i).1 := by
  unfold State.hpSendOne
  extract_lets ctl idx d
  split
  · exact keeps_refl s
  · rename_i who _
    have hread := keeps_dmaReads s who d 2
    split <;> rename_i e <;> rw [e] at hread
    · rename_i s1 w0 w1
      extract_lets len fin
      have hfin (u : State) : Keeps u (fin u).1 := by
        simp only [fin]
        have hw := keeps_dmaWrites u who d [withBits w0 39 39 0]
        split <;> rename_i e2 <;> rw [e2] at hw
        · exact keeps_trans hw (keeps_hpDone _ i ctl 1)
        · exact keeps_trans hw (keeps_trans (keeps_hpError _ i) (keeps_hpDone _ i ctl 1))
      split
      · exact hread
      · split
        · exact keeps_trans hread (keeps_trans (keeps_hpError s1 i) (hfin _))
        · have hbody := keeps_dmaReads s1 who (w1.toNat % 2 ^ 34) ((len + 4) / 5)
          split <;> rename_i e3 <;> rw [e3] at hbody
          · exact keeps_trans hread (keeps_trans hbody (keeps_trans (keeps_hpError _ i) (hfin _)))
          · exact keeps_trans hread (keeps_trans hbody (keeps_trans (keeps_onHw _ _) (hfin _)))
    · exact keeps_trans hread (keeps_trans (keeps_hpError _ i) (keeps_hpDone _ i ctl 1))

theorem keeps_hpSend (s : State) (i n : Nat) : Keeps s (s.hpSend i n) := by
  induction n generalizing s with
  | zero => exact keeps_refl s
  | succ n ih =>
    unfold State.hpSend
    have h := keeps_hpSendOne s i
    split
    · split <;> rename_i e <;> rw [e] at h
      · exact keeps_trans h (ih _)
      · exact h
    · exact keeps_refl s

theorem keeps_egressDone (s : State) (q : Nat) : Keeps s (s.egressDone q) := by
  unfold State.egressDone
  split
  · exact keeps_refl s
  · split
    · exact keeps_onHw s _
    · rename_i f _
      refine keeps_unless ?_
      extract_lets fin c l t
      refine keeps_ite (keeps_onHw s _) (keeps_then ?_ _)
      refine keeps_ite ?_ (keeps_trans (keeps_hw s _) (keeps_hpDeliver _ _ f l))
      have hsent : Keeps s { s with hw := c.1.sentFrame q (Hw.padded l) } := keeps_hw s _
      split
      · exact keeps_trans (keeps_trans hsent (keeps_hw _ _)) (keeps_hpStamp _ _ _ _)
      · exact hsent

/-! ### The gateway's rings -/

theorem keeps_closePdu (s : State) (k : Nat) : Keeps s (s.closePdu k) := by
  unfold State.closePdu
  extract_lets h q fit seq bytes s1 lost ctl d
  have h1 : Keeps s s1 := keeps_onHw s _
  have hlost (u : State) : Keeps u (lost u) := keeps_onHw u _
  refine keeps_unless (keeps_ite (keeps_trans h1 (hlost s1)) ?_)
  split
  · exact keeps_trans h1 (hlost s1)
  · rename_i who _
    have hread := keeps_trans h1 (keeps_dmaReads s1 who d 2)
    split <;> rename_i e <;> rw [e] at hread
    · rename_i s2 w0 w1
      extract_lets r r2
      have hr : Keeps s r.1 := keeps_trans hread (keeps_dmaWrites s2 who _ _)
      refine keeps_ite (keeps_trans hread (hlost _)) (keeps_ite (keeps_trans hr (hlost _)) ?_)
      exact keeps_then (keeps_trans hr (keeps_dmaWrites _ who _ _)) _
    · exact keeps_trans hread (hlost _)

theorem keeps_takePdu (s : State) : Keeps s s.takePdu := by
  unfold State.takePdu
  extract_lets h ctl d
  refine keeps_unless ?_
  split
  · exact keeps_refl s
  · rename_i who _
    have hread := keeps_dmaReads s who d 2
    split <;> rename_i e <;> rw [e] at hread
    · rename_i s1 w0 w1
      extract_lets n done
      have hdone (u : State) : Keeps u (done u) := keeps_then (keeps_dmaWrites u who _ _) _
      refine keeps_ite hread (keeps_trans hread ?_)
      have hbody := keeps_dmaReads s1 who (bitsOf w1 33 0) ((n + 4) / 5)
      split <;> rename_i e2 <;> rw [e2] at hbody
      · exact keeps_trans (keeps_then hbody _) (hdone _)
      · exact keeps_trans (keeps_then hbody _) (hdone _)
    · exact hread

end Sys2Proof.Proofs
end

section
/-! PROOFS. What the power commands, the boot and the NOR programming keep. -/

namespace Sys2Proof.Proofs

open Sys2Proof.Machine Sys2Proof.Laws

/-! ### Boot -/

theorem keeps_readLog (s : State) : Keeps s s.readLog := keeps_onHw s _

theorem keeps_owedEntries (s : State) (cause : Nat) : Keeps s (s.owedEntries cause) := by
  unfold State.owedEntries
  split
  · exact keeps_refl s
  · extract_lets lost cut last s1
    have h1 : Keeps s s1 := keeps_when (keeps_logEntry s _ _)
    exact keeps_ite (keeps_then (keeps_trans h1 (keeps_logEntry s1 _ _)) _) h1

/-- The fuse operations that a reset applies raise the lifecycle and revoke key 1 at most. -/
theorem keeps_applyFuses (s : State) : Keeps s s.applyFuses := by
  unfold State.applyFuses
  split
  · exact keeps_refl s
  · refine keeps_fuse s _ { le_refl s.fuse with
      lifecycle := Nat.le_max_left _ _
      revoked := fun i e => ?_ }
    dsimp only
    split
    · show (s.fuse.revoked ||| 2#4).getLsbD i.val = true
      rw [BitVec.getLsbD_or, show s.fuse.revoked.getLsbD i.val = true from e, Bool.true_or]
    · exact e

theorem keeps_retiredErase (s : State) : Keeps s s.retiredErase := by
  unfold State.retiredErase
  exact keeps_when (keeps_nor_only s _ fun w => erase_wf _ _ _ (erase_wf _ _ _ (erase_wf _ _ _ w)))

theorem keeps_bootStart (s : State) (cause : Nat) (straps : BitVec 2) : Keeps s (s.bootStart cause straps) :=
 by
  unfold State.bootStart
  extract_lets s1 old s2 s3 lc
  have h2 : Keeps s s2 := keeps_trans (keeps_applyFuses s) (keeps_warm s1 _ _)
  exact keeps_then (keeps_trans h2 (keeps_readLog s2)) _

theorem keeps_bootRails (s : State) : Keeps s s.bootRails := keeps_onHw s _

theorem keeps_bootCrest (s : State) (pass : BitVec 3) : Keeps s (s.bootCrest pass) := keeps_onHw s _

theorem keeps_bootFails (s : State) (n : Nat) : Keeps s (s.bootFails n) := keeps_then (keeps_logEntry s _ _) _

theorem keeps_eraseActivated (s : State) : Keeps s s.eraseActivated :=
  keeps_foldl _ _ (fun s _ => keeps_when (keeps_nor_only s _ fun w => erase_wf _ _ _ w)) s

theorem keeps_takeSet (s : State) (region : Nat → Nat) (gold : Bool) : Keeps s (s.takeSet region gold) := by
  unfold State.takeSet
  exact keeps_onHw s _

theorem keeps_takeCfg (s : State) (b : Bool) : Keeps s (s.takeCfg b) := by
  unfold State.takeCfg
  exact keeps_onHw s _

theorem keeps_cfgReject (s : State) (b : Bool) (f : Option (Nat × Nat)) : Keeps s (s.cfgReject b f) := by
  unfold State.cfgReject
  split
  · exact keeps_logEntry s _ _
  · exact keeps_refl s

theorem keeps_loadRegs (s : State) (n : Nat) : Keeps s (s.loadRegs n) := by
  unfold State.loadRegs
  exact keeps_onHw s _

theorem keeps_bootLogs (s : State) (cause : Nat) : Keeps s (s.bootLogs cause) :=
  keeps_trans (keeps_copyRetLog s) (keeps_owedEntries _ cause)

theorem keeps_bootSelect (s : State) (cause : Nat) : Keeps s (s.bootSelect cause) := by
  unfold State.bootSelect
  extract_lets ignored s1 locked s2 s3 r s4 first f1 f2 none_ b code s5 s6 s7 d s8 s9 s10
  have h1 : Keeps s s1 := keeps_when (keeps_then (keeps_logEntry s _ _) _)
  have h2 : Keeps s s2 := keeps_trans h1 (keeps_when (keeps_then (keeps_logEntry s1 _ _) _))
  have h4 : Keeps s s4 := keeps_trans h2 (keeps_trans (keeps_retiredErase s2) (keeps_takeSet _ _ _))
  have h6 : Keeps s s6 := keeps_trans (keeps_then h4 _) (keeps_unless (keeps_takeCfg s5 b))
  have h8 : Keeps s s8 := keeps_trans (keeps_then h6 _) (keeps_logEntry s7 _ _)
  have h9 : Keeps s s9 := keeps_trans h8 (keeps_trans (keeps_cfgReject s8 _ _) (keeps_cfgReject _ _ _))
  have h10 : Keeps s s10 := by
    simp only [s10]
    split
    · exact keeps_then (keeps_trans h9 (keeps_logEntry s9 _ _)) _
    · exact h9
  exact keeps_trans h10 (keeps_when (keeps_eraseActivated s10))

theorem keeps_bootGuard (s : State) : Keeps s s.bootGuard := by
  unfold State.bootGuard
  exact keeps_then (keeps_loadRegs s 6) _

theorem keeps_startRecovery (s : State) : Keeps s s.startRecovery := keeps_unless (keeps_onHw s _)

theorem keeps_boot (s : State) (cause : Nat) (b : BootFacts) : Keeps s (s.boot cause b) := by
  unfold State.boot
  extract_lets s1 s2 s3 s4 s5
  have h1 : Keeps s s1 := keeps_bootStart s cause b.straps
  have h2 : Keeps s s2 := keeps_trans h1 (keeps_trans (keeps_bootRails s1) (keeps_bootCrest _ _))
  have h3 : Keeps s s3 := keeps_trans h2 (keeps_bootLogs s2 cause)
  have h4 : Keeps s s4 := keeps_trans h3 (keeps_trans (keeps_bootSelect s3 cause) (keeps_startRecovery _))
  have h5 : Keeps s s5 := keeps_trans h4 (keeps_bootGuard s4)
  have fails {t : State} (h : Keeps s t) (n : Nat) : Keeps s (t.bootFails n) := keeps_trans h (keeps_bootFails t n)
  refine keeps_ite (fails h1 1) (keeps_ite (fails ?_ 2) (keeps_ite (fails h2 3) (keeps_ite (fails h3 4) ?_)))
  · exact keeps_ite (keeps_then h1 _) h1
  · exact keeps_ite h4 (keeps_ite (fails h4 6) (keeps_ite (fails h5 7) h5))

/-! ### Service levels -/

theorem keeps_provenSet (s : State) (types : List Nat) : Keeps s (s.provenSet types) :=
  keeps_foldl _ _ (fun s t => keeps_proven s t 0) s

theorem keeps_copyProven (s : State) : Keeps s s.copyProven := by
  unfold State.copyProven
  refine keeps_foldl _ _ ?_ s
  intro s x
  exact keeps_copyActive s x.1 x.2

theorem keeps_proveSet (s : State) : Keeps s s.proveSet.1 := by
  unfold State.proveSet
  split
  · exact keeps_refl s
  · split
    · exact keeps_refl s
    · rename_i r t _
      extract_lets s1
      have h1 : Keeps s s1 := keeps_then (keeps_logEntry s _ _) _
      split
      · exact h1
      · split
        · dsimp only
          exact keeps_then h1 _
        · dsimp only
          exact keeps_trans h1 (keeps_takeSet s1 _ _)

theorem keeps_loadWorlds (s : State) : Keeps s s.loadWorlds := keeps_onHw s _

theorem keeps_crestTakes (s : State) : Keeps s s.crestTakes := keeps_onHw s _

theorem keeps_startControl (s : State) (fail : Bool) : Keeps s (s.startControl fail) := by
  unfold State.startControl
  extract_lets r s1 s2 s3 s4
  have h1 : Keeps s s1 := keeps_trans (keeps_copyProven s) (keeps_proveSet _)
  have h3 : Keeps s s3 := keeps_trans (keeps_then h1 _) (keeps_when (keeps_bootCrest s2 _))
  have h4 : Keeps s s4 :=
    keeps_trans h3 (keeps_trans (keeps_loadRegs s3 8) (keeps_trans (keeps_loadWorlds _) (keeps_crestTakes _)))
  have hfail : Keeps s (s1.bootFails 8) := keeps_trans h1 (keeps_bootFails s1 8)
  refine keeps_unless (keeps_ite ?_ (keeps_ite hfail (keeps_then h4 _)))
  exact keeps_ite (keeps_trans h1 (keeps_startRecovery s1)) hfail

theorem keeps_loadPage (s : State) (g : Nat) : Keeps s (s.loadPage g) := by
  unfold State.loadPage
  exact keeps_onHw s _

theorem keeps_pageRestart (s : State) (g : Nat) : Keeps s (s.pageRestart g) := by
  unfold State.pageRestart
  exact keeps_then (keeps_loadPage s g) _

theorem keeps_placeFresh (s : State) (g : Nat) : Keeps s (s.placeFresh g) := by
  unfold State.placeFresh
  split
  · exact keeps_onHw s _
  · exact keeps_then (keeps_trans (keeps_onHw s _) (keeps_loadPage _ g)) _

theorem keeps_coldRestart (s : State) : Keeps s s.coldRestart :=
  keeps_trans (keeps_then (keeps_logEntry s _ _) _) (keeps_foldl _ _ keeps_placeFresh _)

theorem keeps_loadFmc (s : State) : Keeps s s.loadFmc := by
  unfold State.loadFmc
  exact keeps_onHw s _

theorem keeps_startApps (s : State) : Keeps s s.startApps := keeps_onHw s _

theorem keeps_startFull (s : State) (fail : Bool) : Keeps s (s.startFull fail) := by
  unfold State.startFull
  extract_lets s1 s2
  have h1 : Keeps s s1 := keeps_onHw s _
  have h2 : Keeps s s2 := keeps_then (keeps_trans h1 (keeps_loadRegs s1 9)) _
  refine keeps_ite (keeps_trans h1 (keeps_bootFails s1 9)) (keeps_trans h2 ?_)
  exact keeps_trans (keeps_loadFmc s2) (keeps_trans (keeps_coldRestart _) (keeps_startApps _))

theorem keeps_reachFull (s : State) : Keeps s s.reachFull := keeps_trans (keeps_onHw s _) (keeps_provenSet _ _)

theorem keeps_levelRise (s : State) (fail : Bool) : Keeps s (s.levelRise fail) := by
  unfold State.levelRise
  extract_lets s1 l
  have h1 : Keeps s s1 :=
    keeps_ite (keeps_startControl s fail) (keeps_ite (keeps_startFull s fail) (keeps_when (keeps_startApps s)))
  refine keeps_ite h1 (keeps_ite (keeps_then h1 _) (keeps_ite ?_ ?_))
  · exact keeps_trans (keeps_then h1 _) (keeps_provenSet _ _)
  · exact keeps_trans h1 (keeps_reachFull s1)

/-! ### Dusk, Night and Dawn -/

theorem keeps_toOff (s : State) : Keeps s s.toOff := keeps_warm s _ _

theorem keeps_nightStep3 (s : State) : Keeps s s.nightStep3 := keeps_warm s _ _

theorem keeps_duskNight (s : State) : Keeps s s.duskNight := by
  unfold State.duskNight
  exact keeps_then (keeps_then (keeps_trans (keeps_norEnds s 6) (keeps_nightStep3 _)) _) _

theorem keeps_duskOff (s : State) (b : BootFacts) : Keeps s (s.duskOff b) := by
  unfold State.duskOff
  extract_lets s1 s2
  have h2 : Keeps s s2 := keeps_trans (keeps_norEnds s 6) (keeps_logEntry s1 _ _)
  exact keeps_trans h2 (keeps_ite (keeps_boot s2 4 b) (keeps_toOff s2))

theorem keeps_duskGasp (s : State) (b : BootFacts) : Keeps s (s.duskGasp b) := by
  unfold State.duskGasp
  extract_lets s1 cut s2 back s3
  have h1 : Keeps s s1 := keeps_then (keeps_norEnds s 6) _
  have h2 : Keeps s s2 := keeps_trans h1 (keeps_trans (keeps_copyRetLog s1) (keeps_logEntry _ _ _))
  have h3 : Keeps s s3 := keeps_trans h2 (keeps_toOff s2)
  exact keeps_trans h3 (keeps_when (keeps_boot s3 1 b))

theorem keeps_vinLost (s : State) : Keeps s s.vinLost := keeps_onHw s _

theorem keeps_railFails (s : State) (r : Nat) : Keeps s (s.railFails r) := by
  unfold State.railFails
  extract_lets h good s1 s2
  have h1 : Keeps s s1 := keeps_onHw s _
  have hend : Keeps s (s1.norEnds 6) := keeps_trans h1 (keeps_norEnds s1 6)
  refine keeps_unless (keeps_ite h1 (keeps_ite ?_ (keeps_ite (keeps_then hend _) ?_)))
  · exact keeps_then (keeps_trans hend (keeps_toOff _)) _
  · exact keeps_ite (keeps_then hend _) (keeps_then h1 _)

theorem keeps_railBack (s : State) (r : Nat) : Keeps s (s.railBack r) := keeps_onHw s _

theorem keeps_commandedDusk (s : State) (thenReset : Bool) : Keeps s (s.commandedDusk thenReset) := by
  unfold State.commandedDusk
  refine keeps_then (keeps_when ?_) _
  exact keeps_trans (keeps_commitCheckpoint s) (keeps_trans (keeps_writeCheckpoint _) (keeps_commitCheckpoint _))

theorem keeps_dawnCold (s : State) : Keeps s s.dawnCold := by
  unfold State.dawnCold
  extract_lets s1 s2 s3
  have h2 : Keeps s s2 := keeps_trans (keeps_onHw s _) (keeps_warm s1 _ _)
  have h3 : Keeps s s3 := keeps_trans h2 (keeps_trans (keeps_levelRise s2 false) (keeps_levelRise _ false))
  exact keeps_trans h3 (keeps_when (keeps_onHw s3 _))

theorem keeps_dawnFails (s : State) (n : Nat) : Keeps s (s.dawnFails n) := keeps_onHw s _

/-! ### NOR operations -/

theorem keeps_norBegin (s : State) (who : Who) (erase : Bool) : Keeps s (s.norBegin who erase) := by
  unfold State.norBegin
  exact keeps_onHw s _

theorem keeps_norCommand (s : State) (who : Who) (op : Nat) : Keeps s (s.norCommand who op) := by
  unfold State.norCommand
  extract_lets g s1
  have h1 : Keeps s s1 := keeps_ite (keeps_norEnds s 6) (keeps_unless (keeps_norBegin s who _))
  exact keeps_ite (keeps_onHw s _) (keeps_then h1 _)

end Sys2Proof.Proofs
end

section
/-! PROOFS. What register and memory accesses, fuse programming, updates and a VM's start keep. -/

namespace Sys2Proof.Proofs

open Sys2Proof.Machine Sys2Proof.Laws

/-! ### Virtual machines and updates -/

theorem keeps_reply (s : State) (st : Nat) : Keeps s (s.reply st) := keeps_onHw s _

theorem keeps_vmStart (s : State) (v : Nat) : Keeps s (s.vmStart v) := by
  unfold State.vmStart
  extract_lets x go from_
  have hgo {t : State} (h : Keeps s t) : Keeps s (go t) := keeps_then h _
  have hfrom {t : State} (h : Keeps s t) (region : Nat) : Keeps s (go (from_ t region)) := hgo (keeps_then h _)
  refine keeps_ite (keeps_onHw s _) (keeps_ite (hgo (keeps_refl s)) (keeps_ite (hfrom ?_ _) ?_))
  · exact keeps_when (keeps_setMark s _ _ _)
  · exact keeps_ite (hfrom (keeps_refl s) _) (keeps_onHw s _)

/-- Consecutive programming of words keeps the form of the flash. -/
theorem foldl_program_wf {α : Type} (l : List α) (addr : α → Nat) (val : α → Word) (n : Nor) (w : Nor.wf n = true) :
    Nor.wf (l.foldl (fun (n : Nor) x => n.program (addr x) (val x)) n) = true := by
  induction l generalizing n with
  | nil => exact w
  | cons x l ih => exact ih _ (program_wf _ _ _ w)

theorem keeps_updGate (s : State) (role need : Nat) (f : State → State) (hf : Keeps s (f s)) :
    Keeps s (s.updGate role need f) :=
  keeps_ite (keeps_reply s _) (keeps_ite (keeps_reply s _) hf)

theorem keeps_stageOpen (s : State) (v : Nat) : Keeps s (s.stageOpen v) := by
  unfold State.stageOpen
  extract_lets type slot u t
  refine keeps_ite (keeps_reply s _) (keeps_ite (keeps_reply s _) (keeps_ite (keeps_reply s _) (keeps_ite (keeps_reply s _) ?_)))
  exact keeps_then (keeps_nor_only s _ fun w => erase_wf _ _ _ w) _

theorem keeps_stageData (s : State) (ofs : Nat) (ws : List Word) : Keeps s (s.stageData ofs ws) := by
  unfold State.stageData
  extract_lets u t img chunk top l nor held
  refine keeps_ite (keeps_reply s _) (keeps_ite (keeps_reply s _) (keeps_ite (keeps_reply s _) ?_))
  exact keeps_then (keeps_nor_only s _ fun w => foldl_program_wf _ _ _ _ w) _

theorem keeps_stageClose (s : State) : Keeps s s.stageClose := by
  unfold State.stageClose
  extract_lets u t code
  refine keeps_ite (keeps_reply s _) (keeps_ite (keeps_onHw s _) (keeps_ite (keeps_onHw s _) ?_))
  exact keeps_then (keeps_nor_only s _ fun w => program_wf _ _ _ w) _

theorem keeps_activate (s : State) (v lc sess : Nat) : Keeps s (s.activate v lc sess) := by
  unfold State.activate
  extract_lets type refuse st
  have hrefuse (res st : Nat) : Keeps s (refuse s res st) := keeps_onHw s _
  refine keeps_ite (keeps_reply s _) (keeps_ite (hrefuse _ _) (keeps_ite (hrefuse _ _) (keeps_ite (keeps_reply s _) ?_)))
  split
  · exact keeps_reply s _
  · exact keeps_ite (keeps_reply s _) (keeps_onHw s _)

theorem keeps_startCrestUpdate (s : State) : Keeps s s.startCrestUpdate := keeps_onHw s _

theorem keeps_startMicrocode (s : State) (a : Activation) : Keeps s (s.startMicrocode a) := by
  unfold State.startMicrocode
  exact keeps_onHw s _

theorem keeps_startCfg (s : State) (a : Activation) : Keeps s (s.startCfg a) := by
  unfold State.startCfg
  exact keeps_onHw s _

theorem keeps_restartNormal (s : State) : Keeps s s.restartNormal := keeps_onHw s _

theorem keeps_hvfStep (s : State) : Keeps s s.hvfStep := by
  unfold State.hvfStep
  extract_lets any
  refine keeps_ite (keeps_unless ?_) ?_
  · split
    · exact keeps_onHw s _
    · split
      · exact keeps_onHw s _
      · exact keeps_when (keeps_then (keeps_restartNormal s) _)
  · split
    · exact keeps_refl s
    · exact keeps_unless (keeps_then (keeps_vmStart s _) _)

theorem keeps_activateCheck (s : State) : Keeps s s.activateCheck := by
  unfold State.activateCheck
  split
  · exact keeps_refl s
  · rename_i a _
    extract_lets f s1
    have h1 : Keeps s s1 := keeps_onHw s _
    refine keeps_unless (keeps_ite (keeps_when (keeps_onHw s _)) (keeps_ite (keeps_onHw s _) ?_))
    refine keeps_ite (keeps_trans h1 (keeps_startCrestUpdate s1)) (keeps_ite (keeps_trans h1 (keeps_startMicrocode s1 a)) ?_)
    exact keeps_ite (keeps_trans h1 (keeps_startCfg s1 a)) (keeps_trans (keeps_then h1 _) (keeps_hvfStep _))

theorem keeps_changedRegs (s : State) (old new : List Word) : Keeps s (s.changedRegs old new) := by
  unfold State.changedRegs
  exact keeps_foldl _ _ (fun s _ => keeps_onHw s _) s

theorem keeps_configSwitch (s : State) : Keeps s s.configSwitch := by
  unfold State.configSwitch
  split
  · extract_lets b old was s1 s2 new s3
    have h1 : Keeps s s1 := keeps_nor_only s _ fun w => program_wf _ _ _ w
    have h3 : Keeps s s3 := keeps_trans h1 (keeps_trans (keeps_takeCfg s1 b) (keeps_changedRegs s2 old new))
    exact keeps_unless (keeps_then h3 _)
  · exact keeps_refl s

theorem keeps_provenNow (s : State) (type : Nat) : Keeps s (s.provenNow type) := by
  unfold State.provenNow
  exact keeps_then (keeps_setMark s type 0 markProven) _

theorem keeps_imageProven (s : State) (type slot : Nat) : Keeps s (s.imageProven type slot) := by
  unfold State.imageProven
  extract_lets h act tenantRuns
  clear_value act
  split
  · refine keeps_ite (keeps_when (keeps_provenNow s 2)) (keeps_ite (keeps_when (keeps_provenNow s 3)) ?_)
    refine keeps_when (keeps_when ?_)
    exact keeps_trans (keeps_provenNow s 4) (keeps_trans (keeps_restartNormal _) (keeps_hvfStep _))
  · refine keeps_ite (keeps_when (keeps_provenSet s _)) (keeps_ite (keeps_when (keeps_provenSet s _)) ?_)
    exact keeps_when (keeps_proven s 4 slot)

theorem keeps_arbRaise (s : State) : Keeps s s.arbRaise := by
  unfold State.arbRaise
  extract_lets arb f
  exact keeps_unless (keeps_fuse s _ { le_refl s.fuse with
    arb0 := Nat.le_max_left _ _, arb1 := Nat.le_max_left _ _, arb2 := Nat.le_max_left _ _, arb3 := Nat.le_max_left _ _ })

theorem keeps_install (s : State) (mask : Nat) : Keeps s (s.install mask) := by
  unfold State.install
  extract_lets types refuse good s1 s2 s3
  have hrefuse (res st : Nat) : Keeps s (refuse s res st) := keeps_onHw s _
  have h1 : Keeps s s1 := keeps_foldl _ _ (fun s t => keeps_setMark s t 0 markActivated) s
  have h2 : Keeps s s2 := by
    simp only [s2]
    split
    · exact keeps_then (keeps_trans h1 (keeps_nor_only s1 _ fun w => program_wf _ _ _ w)) _
    · exact h1
  have h3 : Keeps s s3 := keeps_then h2 _
  refine keeps_ite (keeps_reply s _) (keeps_ite (keeps_reply s _) (keeps_ite (hrefuse _ _) (keeps_ite (hrefuse _ _) ?_)))
  refine keeps_ite (hrefuse _ _) (keeps_ite (keeps_then h3 _) ?_)
  exact keeps_then (keeps_trans h3 (keeps_logEntry s3 _ _)) _

/-! ### Fuse operations -/

theorem keeps_fuseResult (s : State) (r : Nat) : Keeps s (s.fuseResult r) := keeps_onHw s _

theorem keeps_fuseStart (s : State) (op sel refusal : Nat) : Keeps s (s.fuseStart op sel refusal) :=
  keeps_ite (keeps_fuseResult s 3) (keeps_ite (keeps_fuseResult s 1)
    (keeps_ite (keeps_fuseResult s refusal) (keeps_then (keeps_fuseResult s 0) _)))

theorem keeps_fuseOpStart (s : State) (op sel : Nat) : Keeps s (s.fuseOpStart op sel) :=
  keeps_ite (keeps_fuseStart s _ _ _) (keeps_ite (keeps_fuseStart s _ _ _) (keeps_ite (keeps_fuseStart s _ _ _)
    (keeps_ite (keeps_fuseStart s _ _ _) (keeps_when (keeps_fuseStart s _ _ _)))))

theorem keeps_fuseProg (s : State) (who : Who) (op sel : Nat) : Keeps s (s.fuseProg who op sel) := by
  unfold State.fuseProg
  exact keeps_ite (keeps_trans (keeps_onHw s _) (keeps_fuseOpStart _ op sel)) (keeps_onHw s _)

/-! ### Register and memory accesses -/

theorem keeps_readReg (s : State) (who : Who) (a : Nat) : Keeps s (s.readReg who a) := by
  unfold State.readReg
  extract_lets h v
  refine keeps_ite (keeps_onHw s _) (keeps_ite (keeps_onHw s _) ?_)
  split
  · exact keeps_hw s _
  · exact keeps_onHw s _

theorem keeps_readMem (s : State) (who : Who) (a : Nat) : Keeps s (s.readMem who a) := by
  unfold State.readMem
  exact keeps_then (keeps_dmaRead s who a) _

theorem keeps_writeMcCtrl (s : State) (who : Who) (op : Nat) : Keeps s (s.writeMcCtrl who op) := by
  unfold State.writeMcCtrl
  exact keeps_onHw s _

theorem keeps_writeReg (s : State) (who : Who) (a : Nat) (v : Word) : Keeps s (s.writeReg who a v) := by
  unfold State.writeReg
  extract_lets h op s1
  have h1 : Keeps s s1 := keeps_onHw s _
  have hsend (i : Nat) : Keeps s (s1.hpSend i 4096) := keeps_trans h1 (keeps_hpSend s1 i 4096)
  refine keeps_ite (keeps_onHw s _) (keeps_ite (keeps_onHw s _) (keeps_ite ?_ (keeps_ite (keeps_fuseProg s who _ _) ?_)))
  · exact keeps_ite (keeps_norCommand s who op) (keeps_onHw s _)
  · exact keeps_ite (keeps_writeMcCtrl s who _) (keeps_ite (hsend 0) (keeps_ite (hsend 1) (keeps_ite (hsend 2) h1)))

theorem keeps_writeMem (s : State) (who : Who) (a : Nat) (v : Word) : Keeps s (s.writeMem who a v) := by
  unfold State.writeMem
  exact keeps_then (keeps_dmaWrites s who a [v]) _

end Sys2Proof.Proofs
end

section
/-! PROOFS. What the instructions of a core and of an engine, and the debug unit, keep. -/

namespace Sys2Proof.Proofs

open Sys2Proof.Machine Sys2Proof.Laws

/-! ### Translation and fetch -/

/-- The walk through the tables, where the translation of table addresses keeps them. -/
theorem keeps_walkFrom (c : CoreId) (find : State → Nat → State × Except (Nat × Word × Option Word) Nat)
    (hfind : ∀ s a, Keeps s (find s a).1) (stage2 : Bool) (vpage : Nat) (s : State) (n level table : Nat) :
    Keeps s (s.walkFrom c find stage2 vpage n level table).1 := by
  induction n generalizing s level table with
  | zero => exact keeps_refl s
  | succ n ih =>
    unfold State.walkFrom
    have h1 := hfind s (table + pageIndex vpage level)
    split <;> rename_i e <;> rw [e] at h1
    · exact h1
    · rename_i s1 pa
      have h2 := keeps_trans h1 (keeps_walkRead s1 c pa)
      split <;> rename_i e2 <;> rw [e2] at h2
      · exact h2
      · split
        · exact h2
        · exact h2
        · exact keeps_trans h2 (ih _ _ _)

theorem keeps_stage (c : CoreId) (t : State.Tags) (ttb vpage : Nat)
    (find : State → Nat → State × Except (Nat × Word × Option Word) Nat) (hfind : ∀ s a, Keeps s (find s a).1) (s : State) :
    Keeps s (s.stage c t ttb vpage find).1 := by
  unfold State.stage
  split
  · exact keeps_refl s
  · have h := keeps_walkFrom c find hfind t.stage2 vpage s 4 0 ttb
    split
    · rename_i e
      rw [e] at h
      dsimp only
      exact keeps_then h _
    · exact h

theorem keeps_stage2Of (s : State) (c : CoreId) (va : Word) (ipa : Nat) : Keeps s (s.stage2Of c va ipa).1 := by
  unfold State.stage2Of
  extract_lets x t
  have h := keeps_stage c t (bitsOf (x.crAt 44) 39 7 * 128) (ipa / 4096)
    (fun s a => (s, if a < 2 ^ 34 then .ok a else .error (0x07, va, some (word ipa)))) (fun s _ => keeps_refl s) s
  split <;> rename_i e <;> rw [e] at h <;> exact h

theorem keeps_translate (s : State) (c : CoreId) (va : Word) (w : Want) : Keeps s (s.translate c va w).1 := by
  unfold State.translate
  extract_lets x lvl reg ttb en two done last t find
  have hdone (s : State) (pa : Nat) (dev : Bool) : Keeps s (done s pa dev).1 := by
    simp only [done]
    split <;> exact keeps_refl s
  have hlast (s : State) (ipa : Nat) (dev : Bool) : Keeps s (last s ipa dev).1 := by
    simp only [last]
    split
    · have h := keeps_stage2Of s c va ipa
      split <;> rename_i e <;> rw [e] at h
      · exact h
      · split
        · exact h
        · exact keeps_trans h (hdone _ _ _)
    · exact hdone s _ _
  have hfind (s : State) (a : Nat) : Keeps s (find s a).1 := by
    simp only [find]
    split
    · have h := keeps_stage2Of s c va a
      split <;> rename_i e <;> rw [e] at h
      · exact h
      · split <;> exact h
    · exact keeps_refl s
  split
  · split
    · exact keeps_refl s
    · exact hlast s _ _
  · have h := keeps_stage c t (bitsOf (x.crAt ttb) 39 7 * 128) (va.toNat / 4096) find hfind s
    split <;> rename_i e <;> rw [e] at h
    · exact h
    · exact h
    · split
      · exact h
      · extract_lets out
        split
        · exact h
        · exact keeps_trans h (hlast _ _ _)

theorem keeps_fetchSystem (s : State) (c : CoreId) : Keeps s (s.fetchSystem c).1 := by
  unfold State.fetchSystem
  extract_lets pc
  have h := keeps_translate s c pc .fetch
  split <;> rename_i e <;> rw [e] at h
  · exact h
  · rename_i s1 pa _
    extract_lets who
    split
    · dsimp only
      exact keeps_then h _
    · have h2 := keeps_trans h (keeps_memLoad s1 pa)
      split <;> rename_i e2 <;> rw [e2] at h2 <;> exact h2

theorem keeps_fetchEngine (s : State) (e : Nat) : Keeps s (s.fetchEngine e).1 := by
  unfold State.fetchEngine
  extract_lets g pc
  split
  · exact keeps_refl s
  · extract_lets f w
    clear_value w
    split
    · exact keeps_refl s
    · exact keeps_hw s _

theorem keeps_fetch (s : State) (c : CoreId) : Keeps s (s.fetch c).1 := by
  unfold State.fetch
  split
  · exact keeps_fetchEngine s _
  · exact keeps_fetchSystem s c

/-! ### The frame of an instruction -/

theorem keeps_afterInstr (s : State) (c : CoreId) : Keeps s (s.afterInstr c) := by
  unfold State.afterInstr
  exact keeps_when (keeps_onHw s _)

/-- An instruction keeps what its body keeps. -/
theorem keeps_instr (s : State) (c : CoreId) (body : State → State) (hbody : ∀ t, Keeps t (body t)) :
    Keeps s (s.instr c body) := by
  unfold State.instr
  refine keeps_unless ?_
  have h := keeps_fetch s c
  split <;> rename_i e <;> rw [e] at h
  · exact keeps_trans (keeps_then h _) (keeps_afterInstr _ c)
  · exact keeps_trans h (keeps_trans (hbody _) (keeps_afterInstr _ c))

theorem keeps_illegal (s : State) (c : CoreId) (w : Word) : Keeps s (s.illegal c w) := keeps_onHw s _

theorem keeps_privilege (s : State) (c : CoreId) (w : Word) : Keeps s (s.privilege c w) := keeps_onHw s _

theorem keeps_retireQuiet (s : State) (c : CoreId) : Keeps s (s.retireQuiet c) := keeps_onHw s _

theorem keeps_xflDrop (s : State) (c : CoreId) (p : CachedXlat → Bool) : Keeps s (s.xflDrop c p) :=
  keeps_trans (keeps_onHw s _) (keeps_retireQuiet _ c)

theorem keeps_dataFault (s : State) (c : CoreId) (code : Nat) (va : Word) (ipa : Option Word) :
    Keeps s (s.dataFault c code va ipa) := keeps_onHw s _

/-! ### The memory accesses of cores -/

theorem keeps_quietBus (old s : State) : Keeps s (State.quietBus old s) := keeps_onHw s _

theorem keeps_issue (s : State) (c : CoreId) (w : Want) (out : Core → Word × Word × Word)
    (k : State → CoreId → Nat → Bool → State) (hk : ∀ t m pa dev, Keeps t (k t m pa dev)) : Keeps s (s.issue c w out k) := by
  unfold State.issue
  extract_lets r s1
  have h1 : Keeps s s1 := keeps_hw s _
  split
  · exact h1
  · rename_i m _
    extract_lets va
    have h := keeps_trans h1 (keeps_translate s1 m va w)
    split <;> rename_i e <;> rw [e] at h
    · exact keeps_trans h (keeps_dataFault _ _ _ _ _)
    · exact keeps_trans h (hk _ _ _ _)

theorem keeps_loadAt (s : State) (c : CoreId) (rd : GReg) (va : Word) (pa : Nat) (flaw : Flaw) :
    Keeps s (s.loadAt c rd va pa flaw) := by
  unfold State.loadAt
  extract_lets who take t v s1
  have htake (u : State) (v : Word) : Keeps u (take u v) := keeps_onHw u _
  have ht : Keeps s (State.quietBus s t) := keeps_trans (keeps_readReg s who pa) (keeps_quietBus s t)
  have h1 : Keeps s s1 := keeps_onHw s _
  refine keeps_ite (keeps_ite (keeps_trans ht (keeps_dataFault _ _ _ _ _)) (keeps_trans ht (htake _ _))) ?_
  refine keeps_ite (keeps_trans (keeps_onHw s _) (keeps_dataFault _ _ _ _ _)) ?_
  split
  · exact keeps_trans h1 (htake _ _)
  · exact keeps_trans h1 (keeps_dataFault _ _ _ _ _)
  · exact keeps_trans h1 (keeps_dataFault _ _ _ _ _)

theorem keeps_storeAt (s : State) (c : CoreId) (rd : GReg) (ofs : Core → Word) (va v : Word) (pa : Nat) :
    Keeps s (s.storeAt c rd ofs va v pa) := by
  unfold State.storeAt
  extract_lets who done
  have hdone (u : State) : Keeps u (done u) := keeps_onHw u _
  have hwrite (u : State) : Keeps u (State.quietBus s (u.writeReg who pa v)) :=
    keeps_trans (keeps_writeReg u who pa v) (keeps_quietBus s _)
  refine keeps_ite (keeps_ite (keeps_trans (hdone s) (hwrite _)) (keeps_trans (hwrite s) (keeps_dataFault _ _ _ _ _))) ?_
  refine keeps_ite (keeps_trans (keeps_onHw s _) (keeps_dataFault _ _ _ _ _)) (keeps_ite (keeps_dataFault s _ _ _ _) ?_)
  exact keeps_trans (keeps_onHw s _) (hdone _)

theorem keeps_atomicAt (s : State) (c : CoreId) (rd : GReg) (va : Word) (pa : Nat) (dev : Bool) (flaw : Flaw) (rs1 : GReg)
    (new : Core → Word → Option Word) : Keeps s (s.atomicAt c rd va pa dev flaw rs1 new) := by
  unfold State.atomicAt
  extract_lets who s1
  have h1 : Keeps s s1 := keeps_onHw s _
  have hfault {u : State} (h : Keeps s u) (code : Nat) : Keeps s (u.dataFault c code va) :=
    keeps_trans h (keeps_dataFault _ _ _ _ _)
  refine keeps_ite (hfault (keeps_refl s) _) (keeps_ite (hfault (keeps_onHw s _) _) (keeps_ite (hfault (keeps_refl s) _) ?_))
  split
  · exact keeps_then h1 _
  · exact hfault h1 _
  · exact hfault h1 _

theorem keeps_engAccess (s : State) (c : CoreId) (e : Nat) (f : Task → EngRes) : Keeps s (s.engAccess c e f) := by
  unfold State.engAccess
  split
  · exact keeps_refl s
  · split
    · exact keeps_hw s _
    · exact keeps_onHw s _

theorem keeps_debugStore (s : State) (c : CoreId) (pa : Nat) (v : Word) : Keeps s (s.debugStore c pa v) := by
  unfold State.debugStore
  extract_lets who
  refine keeps_ite ?_ (keeps_ite (keeps_onHw s _) (keeps_onHw s _))
  exact keeps_trans (keeps_writeReg s who pa v) (keeps_quietBus s _)

end Sys2Proof.Proofs
end

section
/-! PROOFS. What reading and writing each object of the dictionary keeps. -/

namespace Sys2Proof.Proofs

open Sys2Proof.Machine Sys2Proof.Laws

/-! ### Objects of the dictionary -/

/-- Reading, writing and applying an object keep the queue, the fuses and the flash. -/
structure ObjKeeps (o : Obj) : Prop where
  read : ∀ s, Keeps s (o.read s).1
  write : ∀ s v, Keeps s (o.write s v).1
  accept : ∀ s v n, Keeps s (o.accept s v n).1
  apply : ∀ s v n, Keeps s (o.apply s v n).1

/-- An object that a place of the dictionary holds, if any, keeps them. -/
def AllKeep (x : Option Obj) : Prop := ∀ o, x = some o → ObjKeeps o

@[simp] theorem allKeep_none : AllKeep none := fun _ h => nomatch h

@[simp] theorem allKeep_some (o : Obj) : AllKeep (some o) ↔ ObjKeeps o :=
  ⟨fun h => h o rfl, fun h _ e => Option.some.inj e ▸ h⟩

theorem allKeep_ite {p : Prop} [Decidable p] {x y : Option Obj} (hx : AllKeep x) (hy : AllKeep y) :
    AllKeep (if p then x else y) := by
  split
  · exact hx
  · exact hy

/-- What a write answers under a condition. -/
@[simp] theorem keeps_ite_fst {β : Type} {p : Prop} [Decidable p] (s : State) (x y : State × β) :
    Keeps s (if p then x else y).1 ↔ (p → Keeps s x.1) ∧ (¬p → Keeps s y.1) := by
  by_cases h : p <;> simp [h]

/-! The shapes of objects. -/

/-- An object of which reading alone does anything. -/
theorem objKeeps_read (type len rd : Nat) (dflt : List Byte) (read : State → State × ObjRead)
    (h : ∀ s, Keeps s (read s).1) : ObjKeeps { type := type, len := len, rd := rd, dflt := dflt, read := read } :=
  ⟨h, fun s _ => keeps_refl s, fun s _ _ => keeps_refl s, fun s _ _ => keeps_refl s⟩

@[simp] theorem objKeeps_get (type len : Nat) (f : State → List Byte) : ObjKeeps (Obj.get type len f) :=
  objKeeps_read _ _ _ _ _ fun s => keeps_refl s

@[simp] theorem objKeeps_bool (f : State → Bool) : ObjKeeps (Obj.bool f) := objKeeps_get _ _ _
@[simp] theorem objKeeps_u8 (f : State → Nat) : ObjKeeps (Obj.u8 f) := objKeeps_get _ _ _
@[simp] theorem objKeeps_u16 (f : State → Nat) : ObjKeeps (Obj.u16 f) := objKeeps_get _ _ _
@[simp] theorem objKeeps_enum (f : State → Nat) : ObjKeeps (Obj.enum f) := objKeeps_get _ _ _
@[simp] theorem objKeeps_u40 (f : State → Word) : ObjKeeps (Obj.u40 f) := objKeeps_get _ _ _
@[simp] theorem objKeeps_bytes (n : Nat) (f : State → List Byte) : ObjKeeps (Obj.bytes n f) := objKeeps_get _ _ _
@[simp] theorem objKeeps_words (n : Nat) (f : State → List Word) : ObjKeeps (Obj.words n f) := objKeeps_get _ _ _

@[simp] theorem objKeeps_str (n : Nat) (t : String) : ObjKeeps (Obj.str n t) :=
  objKeeps_read _ _ _ _ _ fun s => keeps_refl s

@[simp] theorem objKeeps_typed (o : Obj) (type : Nat) : ObjKeeps (o.typed type) ↔ ObjKeeps o :=
  ⟨fun h => { h with }, fun h => { h with }⟩

@[simp] theorem objKeeps_dfl (o : Obj) (v : Nat) : ObjKeeps (o.dfl v) ↔ ObjKeeps o :=
  ⟨fun h => { h with }, fun h => { h with }⟩

@[simp] theorem objKeeps_reader (o : Obj) (role : Nat) : ObjKeeps (o.reader role) ↔ ObjKeeps o :=
  ⟨fun h => { h with }, fun h => { h with }⟩

@[simp] theorem objKeeps_rw {o : Obj} (h : ObjKeeps o) (role : Nat) (legal : Nat → Bool) (f : State → Nat → Written) :
    ObjKeeps (o.rw role legal f) ↔ ∀ s v, Keeps s (f s (beNat v)).1 :=
  ⟨fun k => k.write, fun k => { h with write := k }⟩

@[simp] theorem objKeeps_cmd (type len role : Nat) (f : State → List Byte → Written) (legal : Nat → Bool) :
    ObjKeeps (Obj.cmd type len role f legal) ↔ ∀ s v, Keeps s (f s v).1 :=
  ⟨fun k => k.write, fun k => ⟨fun s => keeps_refl s, k, fun s _ _ => keeps_refl s, fun s _ _ => keeps_refl s⟩⟩

@[simp] theorem objKeeps_lc {o : Obj} (h : ObjKeeps o) (role : Nat) (legal : Nat → Bool)
    (accept apply : State → List Byte → Nat → Written) :
    ObjKeeps (o.lc role legal accept apply) ↔ (∀ s v n, Keeps s (accept s v n).1) ∧ ∀ s v n, Keeps s (apply s v n).1 :=
  ⟨fun k => ⟨k.accept, k.apply⟩, fun k => { h with accept := k.1, apply := k.2 }⟩

theorem keeps_putReg (s : State) (a : Nat) (v : Word) : Keeps s (s.putReg a v).1 := by
  unfold State.putReg
  simp [keeps_onHw, keeps_refl]

@[simp] theorem objKeeps_rc (a : Nat) : ObjKeeps (Obj.rc a) := objKeeps_read _ _ _ _ _ fun s => keeps_onHw s _

@[simp] theorem objKeeps_reg (a : Nat) : ObjKeeps (Obj.reg a) := by
  unfold Obj.reg
  split
  · exact objKeeps_rc a
  · exact objKeeps_u40 _

@[simp] theorem objKeeps_rwFld (type len role a : Nat) (f : BitField) : ObjKeeps (Obj.rwFld type len role a f) :=
  (objKeeps_rw (objKeeps_get _ _ _) _ _ _).mpr fun s _ => keeps_putReg s _ _

@[simp] theorem objKeeps_rwReg (role a : Nat) : ObjKeeps (Obj.rwReg role a) :=
  (objKeeps_rw (objKeeps_u40 _) _ _ _).mpr fun s _ => keeps_putReg s _ _

/-! ### Areas 0x00 to 0x03 -/

theorem allKeep_identity (i b : Nat) : AllKeep (Objects.identity i b) := by
  unfold Objects.identity
  repeat' with_reducible apply allKeep_ite
  all_goals simp

/-- The path number of a session that the device's own software serves is free. -/
theorem objKeeps_pathNumber (who : Asker) : ObjKeeps (if who.path < 3 then Obj.enum fun _ => who.path else
    { type := 0x0F, len := 1, read := fun s => let d := s.hw.draw 256; ({ s with hw := d.2 }, .value [byte d.1] none) }) := by
  split
  · exact objKeeps_enum _
  · exact objKeeps_read _ _ _ _ _ fun s => keeps_hw s _

theorem allKeep_kop (who : Asker) (i b : Nat) : AllKeep (Objects.kop who i b) := by
  unfold Objects.kop
  repeat' with_reducible apply allKeep_ite
  all_goals simp [objKeeps_pathNumber, keeps_onHw]

theorem allKeep_switch (s : State) (i b : Nat) : AllKeep (Objects.switch s i b) := by
  unfold Objects.switch
  repeat' with_reducible apply allKeep_ite
  all_goals simp

theorem allKeep_tree (s : State) (i b : Nat) : AllKeep (Objects.tree s i b) := by
  unfold Objects.tree
  extract_lets h
  repeat' with_reducible apply allKeep_ite
  all_goals simp [keeps_onHw, keeps_refl]

theorem allKeep_communication (s : State) (who : Asker) (i b : Nat) : AllKeep (Objects.communication s who i b) := by
  unfold Objects.communication
  repeat' with_reducible apply allKeep_ite
  all_goals simp [allKeep_kop, allKeep_tree, allKeep_switch]

@[simp] theorem objKeeps_time80Obj (pair : Nat) : ObjKeeps (Objects.time80Obj pair) :=
  objKeeps_read _ _ _ _ _ fun s => keeps_hw s _

/-- The state that an operation answers, by what the operation is equal to: a case split of that equation does not make
the kernel evaluate the calendar, which a split of the goal does. -/
theorem keeps_fst_of_eq {β : Type} {s : State} {x : State × β} (h : ∀ r, x = r → Keeps s r.1) : Keeps s x.1 := h x rfl

@[simp] theorem objKeeps_utcNow : ObjKeeps Objects.utcNow := by
  refine objKeeps_read _ _ _ _ _ fun s => keeps_fst_of_eq fun r h => ?_
  split at h
  · exact h ▸ keeps_refl s
  · extract_lets -underBinder v secs at h
    clear_value secs
    split at h
    · exact h ▸ keeps_hw s _
    · exact h ▸ keeps_hw s _

@[simp] theorem objKeeps_capture : ObjKeeps Objects.capture := objKeeps_read _ _ _ _ _ fun s => keeps_hw s _

@[simp] theorem objKeeps_tim (k w : Nat) : ObjKeeps (Objects.tim k w) := by
  simp [Objects.tim, Obj.takes, keeps_onHw, keeps_refl]

theorem allKeep_time (i b : Nat) : AllKeep (Objects.time i b) := by
  unfold Objects.time
  repeat' with_reducible apply allKeep_ite
  all_goals simp [Obj.takes, keeps_onHw, keeps_refl]

@[simp] theorem objKeeps_powerCmd (role : Nat) : ObjKeeps (Objects.powerCmd role) := by
  have h : ObjKeeps ((Obj.bool fun _ => false).dfl 0) := by simp
  refine { h with accept := fun s v _ => ?_, apply := fun s _ _ => keeps_refl s }
  simp [Objects.powerCmd, Obj.lc, keeps_onHw, keeps_refl]

@[simp] theorem objKeeps_resetCmd : ObjKeeps Objects.resetCmd := by
  have h : ObjKeeps ((Obj.bool fun _ => false).dfl 0) := by simp
  exact { h with accept := fun s _ _ => keeps_refl s, apply := fun s _ _ => keeps_refl s }

theorem allKeep_power (i b : Nat) : AllKeep (Objects.power i b) := by
  unfold Objects.power
  repeat' with_reducible apply allKeep_ite
  all_goals simp

/-! ### Areas 0x10 to 0x30, and the points -/

theorem allKeep_node (s : State) (k p b : Nat) : AllKeep (Objects.node s k p b) := by
  unfold Objects.node
  repeat' with_reducible apply allKeep_ite
  all_goals simp

theorem allKeep_vanik (s : State) (i b : Nat) : AllKeep (Objects.vanik s i b) := by
  unfold Objects.vanik
  extract_lets h k n q k2
  repeat' with_reducible apply allKeep_ite
  any_goals split
  all_goals simp [allKeep_node, keeps_onHw, keeps_when]

@[simp] theorem objKeeps_calEntryObj (e : Nat) : ObjKeeps (Objects.calEntryObj e) := by
  simp [Objects.calEntryObj, keeps_hw, keeps_refl]

theorem allKeep_window (w b : Nat) : AllKeep (Objects.window w b) := by
  unfold Objects.window
  extract_lets req
  repeat' with_reducible apply allKeep_ite
  all_goals simp [req, keeps_onHw, keeps_hw, keeps_refl, keeps_when]

theorem allKeep_snapshot (i b : Nat) : AllKeep (Objects.snapshot i b) := by
  unfold Objects.snapshot
  repeat' with_reducible apply allKeep_ite
  all_goals simp [allKeep_window]

theorem allKeep_page (s : State) (g b : Nat) : AllKeep (Objects.page s g b) := by
  unfold Objects.page
  repeat' with_reducible apply allKeep_ite
  all_goals simp

@[simp] theorem objKeeps_ltField (type len : Nat) (f : BitField) : ObjKeeps (Objects.ltField type len f) := by
  have h : ObjKeeps (Obj.get type len fun s => beBytes len (bitsOf (Objects.ltWord s) f.hi f.lo)) := objKeeps_get _ _ _
  refine { h with write := fun s v => ?_ }
  simp [Objects.ltField, keeps_onHw, keeps_refl]

@[simp] theorem objKeeps_switchPending (get : Fab → Option Switch) : ObjKeeps (Objects.switchPending get) := by
  refine objKeeps_read _ _ _ _ _ fun s => ?_
  split
  · exact keeps_refl s
  · exact keeps_hw s _

@[simp] theorem objKeeps_extIn (c role : Nat) : ObjKeeps (Objects.extIn c role) := by
  simp [Objects.extIn, keeps_hw]

@[simp] theorem objKeeps_migrate : ObjKeeps Objects.migrate := by
  simp [Objects.migrate, keeps_onHw, keeps_refl]

@[simp] theorem objKeeps_fiCmd (i role : Nat) : ObjKeeps (Objects.fiCmd i role) := by
  simp [Objects.fiCmd, keeps_onHw]

theorem allKeep_instance (s : State) (i b : Nat) : AllKeep (Objects.instance_ s i b) := by
  unfold Objects.instance_
  repeat' with_reducible apply allKeep_ite
  all_goals simp

theorem allKeep_fabricOne (s : State) (i b : Nat) : AllKeep (Objects.fabricOne s i b) := by
  unfold Objects.fabricOne
  repeat' with_reducible apply allKeep_ite
  any_goals split
  all_goals simp

theorem allKeep_fabric (s : State) (i b : Nat) : AllKeep (Objects.fabric s i b) := by
  unfold Objects.fabric
  repeat' with_reducible apply allKeep_ite
  all_goals simp [allKeep_page, allKeep_fabricOne, allKeep_instance]

@[simp] theorem objKeeps_guardObj (type a : Nat) : ObjKeeps (Objects.guardObj type a) := by
  have h : ObjKeeps ((Obj.u40 fun s => s.mirror a).typed type) := by simp
  exact { h with accept := fun s _ _ => keeps_refl s, apply := fun s _ _ => keeps_refl s }

@[simp] theorem objKeeps_latched (e : Nat) : ObjKeeps (Objects.latched e) := by
  simp [Objects.latched, keeps_onHw, keeps_refl]

theorem allKeep_protection (s : State) (i b : Nat) : AllKeep (Objects.protection s i b) := by
  unfold Objects.protection
  extract_lets h e k p a
  repeat' with_reducible apply allKeep_ite
  all_goals simp [keeps_onHw, keeps_refl]

@[simp] theorem objKeeps_loadCmd (c : Nat) : ObjKeeps (Objects.loadCmd c) := by
  simp [Objects.loadCmd, keeps_onHw, keeps_refl]

@[simp] theorem objKeeps_lsiReg (a : Nat) : ObjKeeps (Objects.lsiReg a) := by
  simp [Objects.lsiReg, Obj.takes, keeps_refl, keeps_putReg]

theorem allKeep_loads (s : State) (i b : Nat) : AllKeep (Objects.loads s i b) := by
  have hcmd (c : Nat) : ObjKeeps { Objects.loadCmd c with load := some c } := { objKeeps_loadCmd c with }
  unfold Objects.loads
  extract_lets c cmd
  repeat' with_reducible apply allKeep_ite
  all_goals simp [cmd, hcmd]

theorem allKeep_point (s : State) (p : Nat) : AllKeep (Objects.point s p) := by
  unfold Objects.point
  extract_lets g o x
  have hx : ObjKeeps x := by
    refine objKeeps_read _ _ _ _ _ fun s => ?_
    simp [keeps_refl]
  repeat' with_reducible apply allKeep_ite
  all_goals simp [hx, keeps_onHw, keeps_refl]

/-! ### Areas 0x38 to 0x7F -/

theorem keeps_proxyRead (i : Nat) (c : ProxyCfg) (s : State) : Keeps s (Objects.proxyRead i c s).1 := by
  simp [Objects.proxyRead, keeps_onHw, keeps_refl]

theorem allKeep_canArea (s : State) (i b : Nat) : AllKeep (Objects.canArea s i b) := by
  have hproxy (i : Nat) (c : ProxyCfg) : ObjKeeps { type := c.type, len := c.len, rd := c.role, read := Objects.proxyRead i c } :=
    objKeeps_read _ _ _ _ _ (keeps_proxyRead i c)
  unfold Objects.canArea
  repeat' with_reducible apply allKeep_ite
  any_goals split
  repeat' with_reducible apply allKeep_ite
  all_goals simp [Obj.takes, hproxy, keeps_onHw, keeps_refl, keeps_when]

@[simp] theorem objKeeps_modeReq : ObjKeeps Objects.modeReq := by
  simp [Objects.modeReq, keeps_onHw, keeps_refl]

@[simp] theorem objKeeps_balObj (i type len : Nat) (legal : Nat → Bool) : ObjKeeps (Objects.balObj i type len legal) := by
  simp [Objects.balObj, Obj.takes, keeps_onHw, keeps_refl]

theorem allKeep_crest (i b : Nat) : AllKeep (Objects.crest i b) := by
  unfold Objects.crest
  repeat' with_reducible apply allKeep_ite
  all_goals simp

@[simp] theorem objKeeps_vmCmd (v : Nat) : ObjKeeps (Objects.vmCmd v) := by
  simp [Objects.vmCmd, keeps_vmStart, keeps_onHw, keeps_refl]

@[simp] theorem objKeeps_unitHandover (u : Nat) : ObjKeeps (Objects.unitHandover u) := by
  simp [Objects.unitHandover, keeps_onHw, keeps_refl]

theorem allKeep_worlds (i b : Nat) : AllKeep (Objects.worlds i b) := by
  unfold Objects.worlds
  repeat' with_reducible apply allKeep_ite
  all_goals simp

theorem keeps_fuseRun (s : State) (op sel : Nat) : Keeps s (Objects.fuseRun s op sel).1 := keeps_fuseOpStart s op sel

@[simp] theorem objKeeps_keyProg : ObjKeeps Objects.keyProg := by
  have h (s : State) (f : Hw → Hw) (k : Nat) : Keeps s (Objects.fuseRun (s.onHw f) 2 k).1 :=
    keeps_trans (keeps_onHw s f) (keeps_fuseRun _ 2 k)
  simp [Objects.keyProg, h, keeps_fuseRun, keeps_refl]

/-- An object whose write acts keeps what the write keeps. -/
@[simp] theorem objKeeps_acts (type len role : Nat) (f : State → List Byte → State) :
    ObjKeeps (Objects.acts type len role f) ↔ ∀ s v, Keeps s (f s v) := objKeeps_cmd _ _ _ _ _

theorem allKeep_update (i b : Nat) : AllKeep (Objects.update i b) := by
  unfold Objects.update
  repeat' with_reducible apply allKeep_ite
  all_goals simp [Obj.takes, keeps_fuseRun, keeps_stageOpen, keeps_stageData, keeps_stageClose, keeps_install, keeps_reply, keeps_refl,
    keeps_ite]

@[simp] theorem objKeeps_logSelect : ObjKeeps Objects.logSelect := by
  simp [Objects.logSelect, keeps_onHw, keeps_refl]

@[simp] theorem objKeeps_logWordObj (n : Nat) : ObjKeeps (Objects.logWordObj n) := by
  refine objKeeps_read _ _ _ _ _ fun s => ?_
  split
  · exact keeps_refl s
  · exact keeps_refl s

@[simp] theorem objKeeps_eccCount (m k : Nat) : ObjKeeps (Objects.eccCount m k) :=
  objKeeps_read _ _ _ _ _ fun s => keeps_onHw s fun h => h.clearEcc (.vm 0) m

theorem allKeep_diagnostics (i b : Nat) : AllKeep (Objects.diagnostics i b) := by
  unfold Objects.diagnostics
  extract_lets m
  repeat' with_reducible apply allKeep_ite
  all_goals simp

/-! ### The dictionary -/

theorem allKeep_objAt (s : State) (who : Asker) (oid : Nat) : AllKeep (s.objAt who oid) := by
  unfold State.objAt
  extract_lets area i b
  repeat' with_reducible apply allKeep_ite
  all_goals simp [allKeep_identity, allKeep_communication, allKeep_time, allKeep_power, allKeep_vanik, allKeep_snapshot,
    allKeep_fabric, allKeep_protection, allKeep_loads, allKeep_canArea, allKeep_point, allKeep_crest, allKeep_worlds,
    allKeep_update, allKeep_diagnostics]

end Sys2Proof.Proofs
end

section
/-! PROOFS. What fabric items, requests, sessions and the sample instant keep. -/

namespace Sys2Proof.Proofs

open Sys2Proof.Machine Sys2Proof.Laws

/-! ### Items of a request -/

theorem keeps_itemRead (s : State) (who : Asker) (tag oid : Nat) : Keeps s (s.itemRead who tag oid).1 := by
  unfold State.itemRead
  split
  · exact keeps_refl s
  · rename_i o ho
    have hread : Keeps s (o.read s).1 := (allKeep_objAt s who oid o ho).read s
    split
    · exact keeps_refl s
    · extract_lets r
      split
      · exact hread
      · exact hread
      · exact hread
      · dsimp only
        exact keeps_then hread _

theorem keeps_itemWrite (s : State) (who : Asker) (oid type : Nat) (v : List Byte) :
    Keeps s (s.itemWrite who oid type v).1 := by
  unfold State.itemWrite
  split
  · exact keeps_refl s
  · rename_i o ho
    simp [keeps_refl, (allKeep_objAt s who oid o ho).write s v]

theorem keeps_itemWriteLc (s : State) (who : Asker) (oid lc type : Nat) (v : List Byte) :
    Keeps s (s.itemWriteLc who oid lc type v).1 := by
  unfold State.itemWriteLc
  split
  · exact keeps_refl s
  · rename_i o ho
    have haccept (n : Nat) : Keeps s (o.accept s v n).1 := (allKeep_objAt s who oid o ho).accept s v n
    split
    · exact keeps_refl s
    · split
      · exact keeps_refl s
      · split
        · exact keeps_activate s _ _ _
        · split
          · exact keeps_refl s
          · split
            · exact keeps_refl s
            · extract_lets r
              split
              · exact haccept _
              · dsimp only
                exact keeps_then (haccept _) _

theorem keeps_itemTenant (s : State) (who : Asker) (t : TenantArea) (x : KopItem) : Keeps s (s.itemTenant who t x).1 := by
  simp [State.itemTenant, keeps_onHw, keeps_refl]

theorem keeps_runItem (s : State) (who : Asker) (tag : Nat) (x : KopItem) : Keeps s (s.runItem who tag x).1 := by
  unfold State.runItem
  split
  · exact keeps_itemTenant s _ _ _
  · simp [keeps_itemRead, keeps_itemWrite, keeps_itemWriteLc, keeps_refl]

theorem keeps_runItems (who : Asker) (seq : Nat) (items : List KopItem) (s : State) (idx used : Nat) (big : Bool) :
    Keeps s (State.runItems who seq s idx used big items).1 := by
  induction items generalizing s idx used big with
  | nil => exact keeps_refl s
  | cons x rest ih =>
    unfold State.runItems
    extract_lets big' r a size fits item r2
    split
    · exact ih s _ _ _
    · exact keeps_trans (keeps_runItem s who _ x) (ih _ _ _ _)

theorem keeps_execute (s : State) (x : Session) (seq : Nat) (items : List KopItem) : Keeps s (s.execute x seq items) := by
  unfold State.execute
  exact keeps_then (keeps_runItems _ seq items s 0 0 false) _

theorem keeps_oneItem (s : State) (id : Nat) (i : KopItem) : Keeps s (s.oneItem id i) := by
  unfold State.oneItem
  split
  · exact keeps_refl s
  · rename_i x _
    extract_lets s1 r t
    have ht : Keeps s t := keeps_then (keeps_trans (keeps_onHw s _) (keeps_runItem s1 (State.asker x) 0 i)) _
    exact keeps_ite (keeps_then ht _) ht

theorem keeps_request (s : State) (x : Session) (seq : Nat) (body : List Byte) : Keeps s (s.request x seq body) := by
  unfold State.request
  extract_lets parsed bad all dlt isNew y s1
  have h1 : Keeps s s1 := keeps_onHw s _
  clear_value parsed
  refine keeps_ite (keeps_onHw s _) (keeps_unless ?_)
  split
  · exact keeps_onHw s _
  · refine keeps_ite (keeps_ite (keeps_then h1 _) ?_) (keeps_onHw s _)
    split
    · exact keeps_then h1 _
    · exact keeps_trans h1 (keeps_execute s1 y seq _)

/-! ### Sessions -/

theorem keeps_hello (s : State) (src : Nat) (via : Via) (m : KopMsg) : Keeps s (s.hello src via m) := by
  unfold State.hello
  extract_lets b req cert
  refine keeps_ite (keeps_onHw s _) ?_
  split
  · exact keeps_refl s
  · extract_lets sec mine others s1
    have h1 : Keeps s s1 := keeps_onHw s _
    refine keeps_ite (keeps_onHw s _) ?_
    split
    · exact keeps_then h1 _
    · exact keeps_then h1 _

theorem keeps_finish (s : State) (src : Nat) (m : KopMsg) : Keeps s (s.finish src m) := by
  unfold State.finish
  split
  · exact keeps_onHw s _
  · rename_i x _
    refine keeps_ite (keeps_onHw s _) ?_
    split
    · exact keeps_onHw s _
    · extract_lets s1 key good
      have h1 : Keeps s s1 := keeps_onHw s _
      split
      · exact keeps_then h1 _
      · exact keeps_then h1 _

theorem keeps_heard (s : State) (src : Nat) (m : KopMsg) (f : Session → List Byte → State → State)
    (hf : ∀ x l t, Keeps t (f x l t)) : Keeps s (s.heard src m f) := by
  unfold State.heard
  split
  · exact keeps_onHw s _
  · split
    · exact keeps_onHw s _
    · exact keeps_trans (keeps_onHw s _) (hf _ _ _)

theorem keeps_onMessage (s : State) (msg : List Byte) (type : Nat) (f : KopMsg → State) (hf : ∀ m, Keeps s (f m)) :
    Keeps s (s.onMessage msg type f) := by
  unfold State.onMessage
  refine keeps_unless ?_
  split
  · exact keeps_onHw s _
  · exact keeps_when (hf _)

/-! ### The sample instant -/

theorem keeps_settled (s : State) (w : LcWrite) (st : Nat) : Keeps s (s.settled w st) := keeps_onHw s _

theorem keeps_applyWrite (s : State) (w : LcWrite) (n : Nat) : Keeps s (s.applyWrite w n) := by
  unfold State.applyWrite
  split
  · exact keeps_settled s w _
  · rename_i o ho
    exact keeps_trans ((allKeep_objAt s _ _ o ho).apply s w.value n) (keeps_settled _ w _)

theorem keeps_applyGuards (s : State) (l : List (LcWrite × Nat)) : Keeps s (s.applyGuards l) := by
  unfold State.applyGuards
  exact keeps_unless (keeps_trans (keeps_onHw s _) (keeps_foldl _ _ (fun s (x : LcWrite × Nat) => keeps_settled s x.1 _) _))

theorem keeps_applyDue (s : State) (n : Nat) : Keeps s (s.applyDue n) := by
  unfold State.applyDue
  exact keeps_trans (keeps_foldl _ _ (fun s w => keeps_applyWrite s w n) s) (keeps_applyGuards _ _)

theorem keeps_loadsAt (s : State) (n : Nat) (x : LoadFacts) : Keeps s (s.loadsAt n x) := by
  unfold State.loadsAt
  extract_lets due s1 s2
  have h1 : Keeps s s1 := by
    refine keeps_foldl _ _ (fun s w => ?_) s
    split
    · rename_i o ho
      exact (allKeep_objAt s _ _ o ho).apply s w.1.value n
    · exact keeps_refl s
  have h2 : Keeps s s2 := keeps_then h1 _
  exact keeps_unless (keeps_trans h2 (keeps_foldl _ _ (fun s (w : LcWrite × Nat) => keeps_settled s w.1 _) s2))

theorem keeps_sampleInstant (s : State) (x : SiFacts) : Keeps s (s.sampleInstant x) := by
  unfold State.sampleInstant
  extract_lets n s1 s2 s3 s4
  have h2 : Keeps s s2 := keeps_then (keeps_onHw s _) _
  have h3 : Keeps s s3 := keeps_trans h2 (keeps_when (keeps_applyDue s2 n))
  have h4 : Keeps s s4 := keeps_trans h3 (keeps_loadsAt s3 n x.loads)
  exact keeps_unless (keeps_trans (keeps_then h4 _) (keeps_hvfStep _))

end Sys2Proof.Proofs
end

section
/-! PROOFS. Each command answers a next state that keeps the queue, the fuses and the flash: command by command. -/

namespace Sys2Proof.Proofs

open Sys2Proof.Machine Sys2Proof.Laws

/-! ### What commands answer -/

/-- A meaning answers a next state that keeps the queue, the fuses and the flash. -/
def Answers (s : State) (r : Result) : Prop := ∃ t, r = .next t ∧ Keeps s t

theorem answers_next {s t : State} (h : Keeps s t) : Answers s (.next t) := ⟨t, rfl, h⟩

theorem answers_onHw (s : State) (f : Hw → Hw) : Answers s (.next (s.onHw f)) := answers_next (keeps_onHw s f)

/-! The frames of the instructions of chapter 10. -/

theorem answers_compute (s : State) (c : CoreId) (f : Core → Ret) : Answers s (s.compute c f) :=
  answers_next (keeps_instr s c _ fun t => keeps_onHw t _)

theorem answers_computeIf (s : State) (c : CoreId) (ok : Bool) (w : Word) (f : Core → Ret) :
    Answers s (s.computeIf c ok w f) :=
  answers_next (keeps_instr s c _ fun t => keeps_ite (keeps_onHw t _) (keeps_illegal t c w))

theorem answers_crExchange (s : State) (c : CoreId) (rd rs1 : GReg) (n : Nat) (w : Word) (f : Word → Word → Word) :
    Answers s (s.crExchange c rd rs1 n w f) := by
  refine answers_next (keeps_instr s c _ fun t => ?_)
  split
  · exact keeps_illegal t c w
  · exact keeps_privilege t c w
  · exact keeps_onHw t _

theorem answers_sysInstr (s : State) (c : CoreId) (legal : Core → Bool) (lvl : Nat) (w : Word) (body : State → State)
    (hbody : ∀ t, Keeps t (body t)) : Answers s (s.sysInstr c legal lvl w body) :=
  answers_next (keeps_instr s c _ fun t =>
    keeps_ite (keeps_illegal t c w) (keeps_ite (keeps_privilege t c w) (hbody t)))

theorem answers_engInstr (s : State) (c : CoreId) (w : Word) (body : Hw → Nat → Task → EngRes) :
    Answers s (s.engInstr c w body) := by
  refine answers_next (keeps_instr s c _ fun t => ?_)
  split
  · split
    · exact keeps_refl t
    · split
      · exact keeps_hw t _
      · exact keeps_onHw t _
  · exact keeps_illegal t _ w

theorem answers_stream (s : State) (c : CoreId) (write : Bool) (rs1 rs2 : GReg) (tgt : Nat) (len : BitVec 12) (w : Word) :
    Answers s (s.stream c write rs1 rs2 tgt len w) := answers_engInstr s c w _

theorem answers_atomic (s : State) (c : CoreId) (rd rs1 rs2 : GReg) (fn : BitVec 8) (flaw : Flaw)
    (new : Core → Word → Option Word) : Answers s (s.atomic c rd rs1 rs2 fn flaw new) := by
  refine answers_next (keeps_instr s c _ fun t => ?_)
  split
  · exact keeps_illegal t _ _
  · exact keeps_issue t _ _ _ _ fun u m pa dev => keeps_atomicAt u m rd _ pa dev flaw rs1 new

theorem answers_ld (c : CoreId) (rd rs1 : GReg) (imm : BitVec 24) (flaw : Flaw) (s : State) :
    Answers s (execLd c rd rs1 imm flaw s) := by
  refine answers_next (keeps_instr s c _ fun t => ?_)
  split
  · exact keeps_engAccess t _ _ _
  · exact keeps_issue t _ _ _ _ fun u m pa _ => keeps_loadAt u m rd _ pa flaw

theorem answers_st (c : CoreId) (rd rs1 : GReg) (imm : BitVec 24) (s : State) : Answers s (execSt c rd rs1 imm s) := by
  refine answers_next (keeps_instr s c _ fun t => ?_)
  split
  · exact keeps_engAccess t _ _ _
  · exact keeps_issue t _ _ _ _ fun u m pa _ => keeps_storeAt u m rd _ _ _ pa

theorem answers_crrd (c : CoreId) (rd : GReg) (cr : Fin 128) (s : State) : Answers s (execCrrd c rd cr s) := by
  refine answers_next (keeps_instr s c _ fun t => ?_)
  split
  · exact keeps_illegal t c _
  · exact keeps_privilege t c _
  · exact keeps_onHw t _

theorem answers_dstop (c : CoreId) (s : State) : Answers s (execDstop c s) :=
  answers_next (keeps_instr s c _ fun t => keeps_ite (keeps_onHw t _) (keeps_onHw t _))

theorem answers_order (c : CoreId) (s : State) : Answers s (execOrder c s) :=
  answers_next (keeps_instr s c _ fun t => keeps_retireQuiet t c)

/-! Power, resets and the NOR flash. -/

theorem answers_vinStart (b : BootFacts) (s : State) : Answers s (execVinStart b s) :=
  answers_next (keeps_ite (keeps_unless (keeps_boot s 1 b)) (keeps_when (keeps_onHw s _)))

theorem answers_vholdExhausted (s : State) : Answers s (execVholdExhausted s) :=
  answers_next (keeps_when (keeps_then (keeps_trans (keeps_norEnds s 6) (keeps_toOff _)) _))

theorem answers_resetNPulse (b : BootFacts) (s : State) : Answers s (execResetNPulse b s) :=
  answers_next (keeps_when (keeps_trans (keeps_norEnds s 6) (keeps_boot _ 2 b)))

theorem answers_vaoRecovery (b : BootFacts) (s : State) : Answers s (execVaoRecovery b s) :=
  answers_next (keeps_when (keeps_boot s 3 b))

theorem answers_lockoutReset (b : BootFacts) (s : State) : Answers s (execLockoutReset b s) :=
  answers_next (keeps_when (keeps_trans (keeps_onHw s _) (keeps_boot _ 5 b)))

theorem answers_serviceLevelRise (fail : Bool) (s : State) : Answers s (execServiceLevelRise fail s) :=
  answers_next (keeps_when (keeps_trans (keeps_levelRise s fail) (keeps_when (keeps_onHw _ _))))

theorem answers_powerCommandCommit (s : State) : Answers s (execPowerCommandCommit s) :=
  answers_next (keeps_ite (keeps_onHw s _) (keeps_unless (keeps_ite
    (keeps_trans (keeps_onHw s _) (keeps_commandedDusk _ false)) (keeps_when (keeps_ite (keeps_onHw s _) (keeps_onHw s _))))))

theorem answers_duskComplete (b : BootFacts) (s : State) : Answers s (execDuskComplete b s) := by
  refine answers_next (keeps_ite (keeps_trans (keeps_norEnds s 6) (keeps_boot _ 4 b)) (keeps_unless ?_))
  refine keeps_ite (keeps_duskGasp s b) (keeps_unless (keeps_trans (keeps_onHw s fun h => h.handoversEnd) ?_))
  exact keeps_ite (keeps_duskGasp _ b) (keeps_ite (keeps_duskNight _) (keeps_duskOff _ b))

theorem answers_dawnComplete (fail : Fin 7) (s : State) : Answers s (execDawnComplete fail s) := by
  refine answers_next (keeps_unless (keeps_ite (keeps_dawnFails s _) ?_))
  split
  · exact keeps_ite (keeps_warm s _ _) (keeps_dawnCold s)
  · exact keeps_dawnCold s

theorem answers_resetCommandCommit (s : State) : Answers s (execResetCommandCommit s) :=
  answers_next (keeps_when (keeps_trans (keeps_onHw s _) (keeps_commandedDusk _ true)))

theorem answers_debugReset (b : BootFacts) (s : State) : Answers s (execDebugReset b s) :=
  answers_next (keeps_when (keeps_ite (keeps_trans (keeps_norEnds s 6) (keeps_boot _ 6 b)) (keeps_onHw s _)))

/-! The fabric, debugging and interrupts. -/

theorem answers_taskDispatchStep (g : Fin 17744) (run : Bool) (s : State) : Answers s (execTaskDispatchStep g run s) :=
  answers_next (keeps_then (keeps_when (keeps_pageRestart s g)) _)

theorem answers_rebuildDone (g : Fin 17744) (s : State) : Answers s (execRebuildDone g s) :=
  answers_next (keeps_then (keeps_when (keeps_pageRestart s g)) _)

theorem answers_debugHalt (c : CoreId) (s : State) : Answers s (execDebugHalt c s) :=
  answers_next (keeps_unless (keeps_ite (keeps_onHw s _) (keeps_onHw s _)))

theorem answers_debuggerWrite (c : CoreId) (t : DbgTarget) (v : Word) (s : State) : Answers s (execDebuggerWrite c t v s) := by
  refine answers_next (keeps_unless ?_)
  split
  · exact keeps_debugStore s c _ v
  · exact keeps_onHw s _
  · exact keeps_onHw s _
  · exact keeps_unless (keeps_onHw s _)

theorem answers_interruptTake (c : CoreId) (s : State) : Answers s (execInterruptTake c s) := by
  refine answers_next (keeps_unless ?_)
  split
  · exact keeps_refl s
  · exact keeps_trans (keeps_hw s _) (keeps_afterInstr _ c)

theorem answers_fiLoad (i : Fin 16) (s : State) : Answers s (execFiLoad i s) := by
  unfold execFiLoad
  refine answers_next ?_
  extract_lets h f
  split
  · exact keeps_refl s
  · refine keeps_unless (keeps_unless (keeps_ite (keeps_ite (keeps_onHw s _) (keeps_onHw s _)) ?_))
    exact keeps_unless (keeps_ite (keeps_onHw s _) (keeps_ite (keeps_onHw s _) (keeps_onHw s _)))

theorem answers_fiRun (i : Fin 16) (s : State) : Answers s (execFiRun i s) := by
  unfold execFiRun
  refine answers_next ?_
  extract_lets h f
  split
  · exact keeps_refl s
  · refine keeps_unless (keeps_ite (keeps_onHw s _) (keeps_unless (keeps_ite (keeps_onHw s _) ?_)))
    exact keeps_ite (keeps_onHw s _) (keeps_ite (keeps_onHw s _) (keeps_onHw s _))

theorem answers_hpTxTail (who : Who) (i : Fin 3) (tail : BitVec 13) (s : State) : Answers s (execHpTxTail who i tail s) :=
  answers_next (keeps_trans (keeps_onHw s _) (keeps_unless (keeps_hpSend _ i 4096)))

/-! Sessions and register accesses. -/

theorem answers_hello (src : Nat) (via : Via) (msg : List Byte) (s : State) : Answers s (execHello src via msg s) :=
  answers_next (keeps_onMessage s msg mtHello _ fun m => keeps_hello s src via m)

theorem answers_finish (src : Nat) (msg : List Byte) (s : State) : Answers s (execFinish src msg s) :=
  answers_next (keeps_onMessage s msg mtFinish _ fun m => keeps_finish s src m)

theorem answers_kopClose (src : Nat) (msg : List Byte) (s : State) : Answers s (execKopClose src msg s) :=
  answers_next (keeps_onMessage s msg mtClose _ fun m => keeps_heard s src m _ fun _ _ t => keeps_onHw t _)

theorem answers_kopRequest (src : Nat) (msg : List Byte) (s : State) : Answers s (execKopRequest src msg s) :=
  answers_next (keeps_onMessage s msg mtRequest _ fun m => keeps_heard s src m _ fun x l t => keeps_request t x m.seq l)

theorem answers_readClearCounter (who : Who) (a : BitVec 34) (s : State) : Answers s (execReadClearCounter who a s) :=
  answers_next (keeps_ite (keeps_readReg s who _) (keeps_readMem s who _))

theorem answers_registerWrite (who : Who) (a : BitVec 34) (v : Word) (s : State) : Answers s (execRegisterWrite who a v s) :=
  answers_next (keeps_ite (keeps_writeReg s who _ v) (keeps_writeMem s who _ v))

end Sys2Proof.Proofs
end

section
/-! PROOFS. Every command answers a next state that keeps the queue, the fuses and the flash. -/

namespace Sys2Proof.Proofs

open Sys2Proof.Machine Sys2Proof.Laws

/-! ### Every command -/

/-- Every command answers a next state that keeps the queue, the fuses and the flash: the commands named here by what
their meanings keep, and each other command because it changes the hardware alone. -/
theorem answers_exec (c : Instr) (s : State) : Answers s (exec c s) := by
  cases c
  case add | sub | adds | subs | and | or | xor | andn | shl | shr | asr | lt | ltu | min | max | minu | maxu | mul |
      mulhi | mulhiu | div | divu | rem | remu | clz | popc | abss | bext | bins | addk | ltk | ltku | andk | iork |
      xork | hik | pcrel | macs | msubs | macu | aclr | aadd | asub | jeq | jne | jlt | jge | jltu | jgeu | call |
      callr =>
    exact answers_compute s _ _
  case bexti | binsi | shk | mac2 | msub2 | ald | asra | aget | aput | nrws | nrww | nrwu | fmuls | fmulw | divr |
      rshr =>
    exact answers_computeIf s _ _ _ _
  case crxw | crsb | crcb =>
    unfold exec
    exact answers_crExchange s _ _ _ _ _ _
  case ldp | stp | ldtg | pwait | ckpt | rbk | cmt | endt | rdlc | sigr =>
    unfold exec
    exact answers_engInstr s _ _ _
  case psr | psw => exact answers_stream s _ _ _ _ _ _ _
  case cas | swap | xadd => exact answers_atomic s _ _ _ _ _ _ _
  case trap1 | trap2 | trap3 | rett | idle =>
    unfold exec
    refine answers_sysInstr s _ _ _ _ _ ?_
    exact fun t => keeps_onHw t _
  case orderX =>
    unfold exec
    refine answers_sysInstr s _ _ _ _ _ ?_
    exact fun t => keeps_retireQuiet t _
  case xflVa | xflAs | xflAll | xflIpa | xflVm =>
    unfold exec
    refine answers_sysInstr s _ _ _ _ _ ?_
    exact fun t => keeps_xflDrop t _ _
  case vinStart => exact answers_vinStart _ s
  case vholdExhausted => exact answers_vholdExhausted s
  case resetNPulse => exact answers_resetNPulse _ s
  case vaoRecovery => exact answers_vaoRecovery _ s
  case lockoutReset => exact answers_lockoutReset _ s
  case serviceLevelRise => exact answers_serviceLevelRise _ s
  case powerCommandCommit => exact answers_powerCommandCommit s
  case duskComplete => exact answers_duskComplete _ s
  case dawnComplete => exact answers_dawnComplete _ s
  case resetCommandCommit => exact answers_resetCommandCommit s
  case debugReset => exact answers_debugReset _ s
  case taskDispatchStep => exact answers_taskDispatchStep _ _ s
  case rebuildDone => exact answers_rebuildDone _ s
  case ld => exact answers_ld _ _ _ _ _ s
  case st => exact answers_st _ _ _ _ s
  case crrd => exact answers_crrd _ _ _ s
  case dstop => exact answers_dstop _ s
  case order => exact answers_order _ s
  case debugHalt => exact answers_debugHalt _ s
  case debuggerWrite => exact answers_debuggerWrite _ _ _ s
  case interruptTake c => exact answers_interruptTake c s
  case fiLoad => exact answers_fiLoad _ s
  case fiRun => exact answers_fiRun _ s
  case hpTxTail => exact answers_hpTxTail _ _ _ s
  case hello => exact answers_hello _ _ _ s
  case finish => exact answers_finish _ _ s
  case kopClose => exact answers_kopClose _ _ s
  case kopRequest => exact answers_kopRequest _ _ s
  case readClearCounter => exact answers_readClearCounter _ _ s
  case registerWrite => exact answers_registerWrite _ _ _ s
  case vinLoss => exact answers_next (keeps_vinLost s)
  case railFailure => exact answers_next (keeps_railFails s _)
  case checkpointDue => exact answers_next (keeps_when (keeps_writeCheckpoint s))
  case checkpointCommit => exact answers_next (keeps_commitCheckpoint s)
  case norErase | norProgram | norAbort => exact answers_next (keeps_norCommand s _ _)
  case norOperationDone => exact answers_next (keeps_norDone s _)
  case sampleInstant => exact answers_next (keeps_sampleInstant s _)
  case railRecovery => exact answers_next (keeps_railBack s _)
  case debugResume | debugStep => exact answers_next (keeps_when (keeps_onHw s _))
  case vmStart => exact answers_next (keeps_ite (keeps_vmStart s _) (keeps_onHw s _))
  case egressFrameDone => exact answers_next (keeps_egressDone s _)
  case kopRead | kopWrite | kopWriteLc | kopDescribe | kopNext => exact answers_next (keeps_oneItem s _ _)
  case streamPduClose => exact answers_next (keeps_closePdu s _)
  case streamRxDescriptor => exact answers_next (keeps_takePdu s)
  case stageOpen => exact answers_next (keeps_updGate s _ _ _ (keeps_stageOpen s _))
  case stageData => exact answers_next (keeps_updGate s _ _ _ (keeps_stageData s _ _))
  case stageClose => exact answers_next (keeps_updGate s _ _ _ (keeps_stageClose s))
  case activate => exact answers_next (keeps_updGate s _ _ _ (keeps_activate s _ _ _))
  case activateCheck => exact answers_next (keeps_activateCheck s)
  case configSwitch => exact answers_next (keeps_configSwitch s)
  case install => exact answers_next (keeps_updGate s _ _ _ (keeps_install s _))
  case imageProven => exact answers_next (keeps_imageProven s _ _)
  case activeCopy => exact answers_next (keeps_copyActive s _ _)
  case arbRaise => exact answers_next (keeps_arbRaise s)
  case fuseLifecycle | fuseKeyProgram | fuseKeyRevoke | fuseRaiseField | fuseDbgLock =>
    exact answers_next (keeps_fuseProg s _ _ _)
  case fuseProgDone => exact answers_next (keeps_fuseDone s _)
  all_goals exact answers_onHw s _

end Sys2Proof.Proofs
end

section
/-! PROOFS. The queue and the commands: what the obligations of the first step say (O54, O55, O60). -/

namespace Sys2Proof.Proofs

open Sys2Proof.Machine Sys2Proof.Laws

/-- A step takes the first command off the queue, keeps the rest, and keeps fuses and flash as every command does. -/
theorem step_keeps {s t : State} (h : step s = .next t) : Keeps { s with pending := s.pending.tail } t := by
  unfold step at h
  split at h
  case h_1 e =>
    obtain rfl : s = t := Host.Outcome.next.inj h
    rw [e]
    exact ⟨e, le_refl _, id⟩
  case h_2 c rest e =>
    obtain ⟨u, hu, keeps⟩ := answers_exec c { s with pending := rest }
    obtain rfl : u = t := Host.Outcome.next.inj (hu.symm.trans h)
    rwa [e]

/-- Settles O54: both clauses are the two branches of `step`. -/
theorem stepCarriesOutTheCommandAtTheFront : Obligations.StepCarriesOutTheCommandAtTheFront := by
  unfold Obligations.StepCarriesOutTheCommandAtTheFront
  exact ⟨fun _ _ _ => rfl, fun s h => by unfold step; rw [h]⟩

/-- Settles O60, by `answers_exec`: every command answers a next state. -/
theorem everyCommandAnswersANextState : Obligations.EveryCommandAnswersANextState := by
  unfold Obligations.EveryCommandAnswersANextState
  intro c s
  obtain ⟨t, e, _⟩ := answers_exec c s
  exact ⟨t, e⟩

/-- Settles O55, by `step_keeps`: no command touches the queue behind it. -/
theorem theQueueIsFirstInFirstOut : Obligations.TheQueueIsFirstInFirstOut := by
  unfold Obligations.TheQueueIsFirstInFirstOut
  intro s t h
  exact (step_keeps h).pending

end Sys2Proof.Proofs
end

section
/-! PROOFS. A read of memory corrects the container that it meets, which the statement of register accesses leaves out (O53). -/

namespace Sys2Proof.Proofs

open Sys2Proof.Machine Sys2Proof.Laws

/-! ### A read leaves a sound container (R147, R148) -/

@[simp] theorem eccRead_flaw (h : Hw) (a : Nat) : ((h.eccRead a).ram a).flaw = .sound := by
  unfold Hw.eccRead
  dsimp only
  split
  · assumption
  · rw [Hw.ram, mem_eccFound]
    exact congrArg Container.flaw (ram_setRam_same h a _)

theorem memLoad_flaw (s : State) (a : Nat) (on : s.hw.regionOn (regionOf a) = true) :
    ((s.memLoad a).1.hw.ram a).flaw = .sound := by
  simp [State.memLoad, State.onHw, on]

theorem readMem_flaw (s : State) (who : Who) (a : Nat) (allowed : s.hw.memAllows who false a = true)
    (on : s.hw.regionOn (regionOf a) = true) : ((s.readMem who a).hw.ram a).flaw = .sound := by
  have load : (s.dmaRead who a).1 = (s.memLoad a).1 := by
    rw [State.dmaRead, if_neg (by simp [allowed])]
    split <;> rename_i e <;> rw [e]
  have bus : (s.readMem who a).hw.mem = (s.dmaRead who a).1.hw.mem := by
    unfold State.readMem State.onHw
    dsimp only
    split <;> rfl
  rw [Hw.ram, bus, load]
  exact memLoad_flaw s a on

/-! ### The counterexample -/

/-- Every rail good, and at the first word of the retention SRAM a container that holds 7 and has taken a single bit error. -/
def struckRetention : State :=
  { hw := { regs := [(Reg.PWR_RAIL_PG, BitVec.allOnes 40)], mem := [(0x200000, { data := 7, flaw := .single })] } }

/-- Refutes O53, at its clause of a memory read: Crest reads the word 7 of `struckRetention`, and the read corrects the
container in place (R147), where the clause leaves all but the bus as it was. -/
theorem not_registersReadAndWriteByTheirAccessCode : ¬ Obligations.RegistersReadAndWriteByTheirAccessCode := by
  unfold Obligations.RegistersReadAndWriteByTheirAccessCode
  rintro ⟨-, -, -, -, -, -, -, -, memoryRead, -⟩
  have allowed : struckRetention.hw.memAllows .crest false 0x200000 = true := by decide +kernel
  have on : struckRetention.hw.regionOn (regionOf 0x200000) = true := by decide +kernel
  have holds7 : struckRetention.memRead 0x200000 = .ok 7 := by decide +kernel
  have struck : (struckRetention.hw.ram 0x200000).flaw = .single := by decide +kernel
  have claim := memoryRead .crest 0x200000 7 struckRetention (by decide) allowed holds7
  have same : struckRetention.readMem .crest 0x200000 = struckRetention.onHw fun h => h.busOk 7 :=
    Host.Outcome.next.inj claim
  have corrected := readMem_flaw struckRetention .crest 0x200000 allowed on
  rw [same] at corrected
  exact Flaw.noConfusion (struck.symm.trans corrected)

end Sys2Proof.Proofs
end

section
/-! PROOFS. The sample instant, the commit of a cycle, islands and balancing (O26). -/

namespace Sys2Proof.Proofs

open Sys2Proof.Machine Sys2Proof.Laws

/-- What every step of a fold leaves as it was, the fold leaves as it was. -/
theorem foldl_keeps {α β : Type} (view : Hw → β) (op : Hw → α → Hw) (step : ∀ h x, view (op h x) = view h)
    (l : List α) (h : Hw) : view (l.foldl op h) = view h :=
  List.foldlRecOn l op (motive := fun g => view g = view h) rfl fun g hg x _ => (step g x).trans hg

/-- Two changes of the hardware that agree on a state answer the same. -/
theorem next_onHw (s : State) {f g : Hw → Hw} (e : f s.hw = g s.hw) :
    (.next (s.onHw f) : Result) = .next (s.onHw g) :=
  congrArg (fun h => (.next { s with hw := h } : Result)) e

/-! ### The sample instant: time and the settings of logical time (R22, R26, R367) -/

@[simp] theorem timeAt_lc (h : Hw) (n : Nat) : (h.timeAt n).lc = n := by
  unfold Hw.timeAt
  dsimp only
  split <;> rfl

@[simp] theorem timeAt_poweredMs (h : Hw) (n : Nat) : (h.timeAt n).poweredMs = h.poweredMs + 1 := by
  unfold Hw.timeAt
  dsimp only
  split <;> rfl

@[simp] theorem timeAt_tSi (h : Hw) (n : Nat) : (h.timeAt n).tu.tSi = h.tu.tSi + h.cycleLen := by
  unfold Hw.timeAt
  dsimp only
  split <;> rfl

@[simp] theorem ppsFall_fab (h : Hw) : h.ppsFall.fab = h.fab := by
  unfold Hw.ppsFall
  dsimp only
  split <;> rfl

@[simp] theorem ppsFall_reg (h : Hw) (a : Nat) : h.ppsFall.reg a = h.reg a := by
  unfold Hw.ppsFall
  dsimp only
  split <;> rfl

@[simp] theorem setNoplant_fab (h : Hw) : h.setNoplant.fab = h.fab := rfl

theorem setNoplant_reg_ne (h : Hw) (a : Nat) (ne : a ≠ Reg.SNP_STAT) : h.setNoplant.reg a = h.reg a :=
  reg_setReg_ne h _ a _ ne

/-- A written FAB_LT_CFG is no longer pending once it has taken effect. -/
theorem settingsAt_ltCfg (h : Hw) (w : Word) (written : h.fab.ltCfg = some w) : h.settingsAt.fab.ltCfg = none := by
  simp [Hw.settingsAt, written, Hw.setFld]

/-- A written FAB_LT_CFG reads as written once it has taken effect: what else happens then is in FAB_STAT and SNP_STAT. -/
theorem settingsAt_reg_ltCfg (h : Hw) (w : Word) (written : h.fab.ltCfg = some w) :
    h.settingsAt.reg Reg.FAB_LT_CFG = w := by
  unfold Hw.settingsAt
  rw [written, setNoplant_reg_ne _ _ (by decide), ppsFall_reg, Hw.setFld, reg_setReg_ne _ _ _ _ (by decide)]
  exact reg_setReg_same h _ w

/-! ### The commit: what leaves LC and FAB_LC_COMMIT as they were (R27, R299) -/

/-- The cycle in progress and the last committed one. -/
def cycleView (h : Hw) : Nat × Word := (h.lc, h.reg Reg.FAB_LC_COMMIT)

theorem cycleView_setReg (h : Hw) (a : Nat) (v : Word) (ne : Reg.FAB_LC_COMMIT ≠ a) :
    cycleView (h.setReg a v) = cycleView h := by
  simp [cycleView, reg_setReg_ne h a _ v ne]

@[simp] theorem cycleView_writeRamList (h : Hw) (a : Nat) (l : List Word) :
    cycleView (h.writeRamList a l) = cycleView h := by
  induction l generalizing h a with
  | nil => rfl
  | cons w l ih => exact ih (h.writeRam a w) (a + 1)

@[simp] theorem cycleView_journalWords (h : Hw) (ws : List Word) : cycleView (h.journalWords ws) = cycleView h := by
  unfold Hw.journalWords
  dsimp only
  rw [cycleView_setReg _ _ _ (by decide)]
  split
  · exact cycleView_writeRamList h _ ws
  · exact cycleView_writeRamList h _ ws

@[simp] theorem cycleView_note (h : Hw) (rt sub : Nat) (body : List Word) : cycleView (h.note rt sub body) = cycleView h := by
  unfold Hw.note Hw.record
  dsimp only
  split
  · rfl
  · rw [cycleView_journalWords]
    split
    · exact cycleView_journalWords h _
    · rfl

@[simp] theorem cycleView_winState (h : Hw) (w : Nat) (x : Win) (s lc : Nat) :
    cycleView (h.winState w x s lc) = cycleView h := by
  have noted : cycleView ((h.setWin w { x with state := s }).winNote w 4 { x with state := s } lc) = cycleView h :=
    cycleView_note _ _ _ _
  unfold Hw.winState
  dsimp only
  split
  · exact (cycleView_setReg _ _ _ (by decide)).trans noted
  · exact noted

@[simp] theorem cycleView_winCommitted (h : Hw) : cycleView h.winCommitted = cycleView h := by
  refine foldl_keeps cycleView _ (fun h w => ?_) _ h
  dsimp only
  split
  · rfl
  · split
    · exact cycleView_winState h _ _ _ _
    · split
      · exact cycleView_winState h _ _ _ _
      · rfl

@[simp] theorem cycleView_dwellStep (h : Hw) (n : Nat) : cycleView (h.dwellStep n) = cycleView h := by
  unfold Hw.dwellStep
  extract_lets quiet counted holds
  have same : cycleView counted = cycleView h := rfl
  split
  · exact (cycleView_setReg _ _ _ (by decide)).trans same
  · split
    · exact same
    · exact same

@[simp] theorem cycleView_mcRelease (h : Hw) : cycleView h.mcRelease = cycleView h := by
  unfold Hw.mcRelease
  split
  · rw [cycleView_setReg _ _ _ (by decide), Hw.setFld, cycleView_setReg _ _ _ (by decide), Hw.setFld,
      cycleView_setReg _ _ _ (by decide)]
  · rfl

@[simp] theorem cycleView_settleWait (h : Hw) (x : Session) (w : KopWait) : cycleView (h.settleWait x w) = cycleView h := by
  unfold Hw.settleWait
  dsimp only
  split
  · rfl
  · split <;> rfl

@[simp] theorem cycleView_answerRead (h : Hw) (r : PointRead) (m : Nat) (v : Word) :
    cycleView (h.answerRead r m v) = cycleView h := by
  unfold Hw.answerRead
  split
  · rfl
  · split
    · rfl
    · exact cycleView_settleWait h _ _

@[simp] theorem cycleView_releaseReads (h : Hw) : cycleView h.releaseReads = cycleView h := by
  unfold Hw.releaseReads
  dsimp only
  rw [foldl_keeps cycleView]
  · rfl
  · intro h r
    split
    · exact cycleView_answerRead h r _ _
    · rfl

@[simp] theorem cycleView_endDay (h : Hw) : cycleView h.endDay = cycleView h := by
  unfold Hw.endDay
  split
  · exact cycleView_note h _ _ _
  · rfl

@[simp] theorem cycleView_sendSummary (h : Hw) (body : List Byte) : cycleView (h.sendSummary body) = cycleView h := by
  unfold Hw.sendSummary
  split <;> rfl

@[simp] theorem cycleView_makeSummary (h : Hw) (n : Nat) : cycleView (h.makeSummary n) = cycleView h := by
  unfold Hw.makeSummary
  dsimp only
  split
  · rfl
  · exact cycleView_sendSummary _ _

@[simp] theorem cycleView_summariesTo (h : Hw) (fuel : Nat) : cycleView (h.summariesTo fuel) = cycleView h := by
  induction fuel generalizing h with
  | zero => rfl
  | succ fuel ih =>
    unfold Hw.summariesTo
    split
    · rw [ih, cycleView_makeSummary]
    · rfl

/-- After the commit of cycle n and its summaries LC stands as before, and FAB_LC_COMMIT shows n. -/
theorem cycleView_commit_summaries (h : Hw) (n : Nat) : cycleView (h.commit n).summaries = (h.lc, word n) := by
  calc cycleView (h.commit n).summaries
    _ = cycleView (h.setReg Reg.FAB_LC_COMMIT (word n)) := by simp [Hw.summaries, Hw.commit]
    _ = (h.lc, word n) := by simp [cycleView]

/-! ### Islands (R313, R314) -/

/-- With no island being emptied and none that may be powered off, ISLAND_AUTO_OFF changes nothing. -/
theorem islandAutoOff_of_none {h : Hw} (auto : h.islandAuto = true) (evac : h.fab.evac = none)
    (noneMay : (List.range 16).all (fun r => !h.mayPowerOff r) = true) : h.islandAutoOff = h := by
  have noPick : (List.range 16).reverse.find? (fun r => h.mayPowerOff r) = none := by
    simpa using noneMay
  have same : { h with fab := { h.fab with evac := none } } = h := by rw [← evac]
  simp only [Hw.islandAutoOff, auto, evac, noPick, same, Bool.not_true, Bool.false_eq_true, if_false]

/-- The island that was being emptied is powered off once it is empty. -/
theorem islandAutoOff_of_empty {h : Hw} {r : Nat} (auto : h.islandAuto = true) (evac : h.fab.evac = some r)
    (allowed : h.bit Reg.FAB_ISLAND (16 + r) = true) (on : h.islandOn r = true) (empty : h.islandPages r = []) :
    h.islandAutoOff = h.requestOff r := by
  simp [Hw.islandAutoOff, auto, evac, allowed, on, empty]

/-- A sound island that is off is powered on where a load, a page without a place or ALLOW_OFF asks for it. -/
theorem islandPowerOn_of_needed {h : Hw} {r : Nat} (fab : h.fabOn = true) (enabled : h.bit Reg.FAB_CTRL 0 = true)
    (off : h.islandOn r = false) (sound : h.islandFailed r = false)
    (needed : h.overloaded = true ∨ h.unplaced = true ∨ h.bit Reg.FAB_ISLAND (16 + r) = false) :
    h.islandPowerOn r = ({ h with fab := { h.fab with evac := none } } : Hw).gate .hypervisor r 3 := by
  refine if_pos ?_
  simpa [fab, enabled, off, sound, or_assoc] using needed

/-! ### Balancing (R420, R421) -/

/-- What the masks of the rings' nodes are no part of: Crest's record, RAM, and the cycle in progress. -/
def balView (h : Hw) : Crest × Tab Container × Nat := (h.crs, h.mem, h.lc)

@[simp] theorem balView_freezeBal (h : Hw) : balView h.freezeBal = balView h := by
  refine foldl_keeps balView _ (fun h k => ?_) _ h
  rfl

@[simp] theorem balView_cut (h : Hw) : balView h.cut = balView h := by
  unfold Hw.cut
  split
  · rfl
  · exact balView_freezeBal h

@[simp] theorem balView_cutFree (h : Hw) : balView h.cutFree = balView h := by
  unfold Hw.cutFree
  dsimp only
  split
  · rfl
  · split
    · exact balView_cut h
    · split
      · exact balView_cut _
      · rfl

@[simp] theorem balView_writeMasks (h : Hw) (l : List (Nat × Bool)) : balView (h.writeMasks l) = balView h := by
  unfold Hw.writeMasks
  dsimp only
  rw [foldl_keeps balView, balView_cutFree]
  intro h x
  split <;> rfl

@[simp] theorem writeMasks_crs (h : Hw) (l : List (Nat × Bool)) : (h.writeMasks l).crs = h.crs :=
  congrArg (·.1) (balView_writeMasks h l)

@[simp] theorem writeMasks_mem (h : Hw) (l : List (Nat × Bool)) : (h.writeMasks l).mem = h.mem :=
  congrArg (·.2.1) (balView_writeMasks h l)

@[simp] theorem writeMasks_lc (h : Hw) (l : List (Nat × Bool)) : (h.writeMasks l).lc = h.lc :=
  congrArg (·.2.2) (balView_writeMasks h l)

@[simp] theorem balance_balAt (h : Hw) (m : Nat) : (h.balance m).crs.balAt = m + 1 := by simp [Hw.balance]

/-- Where no rack is declared for balancing no request changes. -/
theorem balance_balReq_of_none (h : Hw) (m : Nat) (noneDeclared : h.cfg.fab.balance = []) :
    (h.balance m).crs.balReq = h.crs.balReq := by
  simp [Hw.balance, noneDeclared]

@[simp] theorem balance_mem (h : Hw) (m : Nat) : (h.balance m).mem = h.mem := by simp [Hw.balance]

@[simp] theorem balance_lc (h : Hw) (m : Nat) : (h.balance m).lc = h.lc := by simp [Hw.balance]

/-! ### The obligation -/

/-- Settles O26, clause by clause: the cycle of SAMPLE_INSTANT, time, FAB_LT_CFG and pending writes, the commit
(`cycleView_commit_summaries`), the islands, and the balancing decision. -/
theorem theSampleInstantAndTheCommitAdvanceTheCycle : Obligations.TheSampleInstantAndTheCommitAdvanceTheCycle := by
  unfold Obligations.TheSampleInstantAndTheCommitAdvanceTheCycle
  refine ⟨?instant, ?time, ?settings, ?pending, ?commit, ?noIsland, ?emptyIsland, ?neededIsland, ?balancing⟩
  case instant =>
    intro x s booted vin
    exact congrArg Host.Outcome.next (if_neg (by simp [booted, vin]))
  case time => exact fun h n => ⟨timeAt_lc h n, timeAt_poweredMs h n, timeAt_tSi h n⟩
  case settings => exact fun h w written => ⟨settingsAt_ltCfg h w written, settingsAt_reg_ltCfg h w written⟩
  case pending =>
    intro s n w ob known
    unfold State.applyWrite
    rw [known]
  case commit =>
    intro s may
    obtain ⟨lc, committed⟩ := Prod.mk.inj (cycleView_commit_summaries s.hw s.hw.commitNext)
    exact ends_of_next (next_onHw s (if_pos may)) ⟨rfl, committed, lc⟩
  case noIsland =>
    intro s auto evac noneMay
    exact next_onHw s (g := id) (islandAutoOff_of_none auto evac noneMay)
  case emptyIsland =>
    intro r s auto evac allowed on empty
    exact next_onHw s (islandAutoOff_of_empty auto evac allowed on empty)
  case neededIsland =>
    intro r s fab enabled off sound needed
    exact next_onHw s (islandPowerOn_of_needed fab enabled off sound needed)
  case balancing =>
    intro s day crest carries fresh started
    exact ends_of_next (next_onHw s (if_pos (by simp [day, crest, carries, fresh, started])))
      ⟨rfl, balance_balAt _ _, balance_balReq_of_none _ _, balance_mem _ _, balance_lc _ _⟩

end Sys2Proof.Proofs
end

section
/-! PROOFS. Gate requests (O23): each is the matching branch of `Hw.gate`, behind the guard of a register write. -/

namespace Sys2Proof.Proofs

open Sys2Proof.Machine Sys2Proof.Laws

/-! ### PWR_GATE_REQ (R100 to R104) -/

/-- PWR_GATE_STAT of an identity reads a value: the block from bit 8 on, and the result below it. -/
def gateAnswer (h : Hw) (who : Who) (v : Nat) : Hw :=
  { h with gateStat := Tabs.set (fun _ => (0 : Word)) h.gateStat (whoBit who) (word v) }

/-- What an operation on PWR_GATE_REQ does to a block: OP 0 clock-gate, 1 ungate, 2 power off, 3 power on. -/
def gateEffect (h : Hw) (b op : Nat) : Hw :=
  if op = 0 then
    (let h := h.setBit Reg.PWR_CLK_GATED b
     if 25 ≤ b ∧ b ≤ 32 then h.linkFall (b - 25) else h)
  else if op = 1 then h.clearBit Reg.PWR_CLK_GATED b
  else if op = 2 then ((h.blockOff b).mbxDomainOff).levelFall
  else h.blockOn_ b

section
variable {h : Hw} {who : Who} {b : Nat} (known : b ≤ 39) (owner : whoCode who ≠ 0) (owned : h.gateOwner b = whoCode who)
include known owner owned

/-- The owner's request passes the checks of range and owner: it is refused with HELD or takes effect. -/
theorem gate_eq_of_owner (op : Nat) :
    h.gate who b op =
      if (op == 0 || op == 2) && h.heldAgainst who b then
        gateAnswer ((h.count Reg.PWR_HELD_CNT).heldNotices who b op) who (b * 2 ^ 8 + 1)
      else gateAnswer (gateEffect h b op) who (b * 2 ^ 8) := by
  rw [← Nat.add_zero (b * 2 ^ 8)]
  exact (if_neg (by omega)).trans (if_neg (by simp [owner, owned]))

/-- Ungating and powering on always take effect, gating and powering off where no other holder holds the block. -/
theorem gate_of_owner {op : Nat} (free : op = 0 ∨ op = 2 → h.heldAgainst who b = false) :
    h.gate who b op = gateAnswer (gateEffect h b op) who (b * 2 ^ 8) := by
  rw [gate_eq_of_owner known owner owned, if_neg]
  intro stopped
  rw [Bool.and_eq_true, Bool.or_eq_true, beq_iff_eq, beq_iff_eq] at stopped
  exact Bool.noConfusion ((free stopped.1).symm.trans stopped.2)

/-- Powering off a block that another holder holds is refused with HELD. -/
theorem gatePowerOff_of_held (held : h.heldAgainst who b = true) :
    h.gate who b 2 = gateAnswer ((h.count Reg.PWR_HELD_CNT).heldNotices who b 2) who (b * 2 ^ 8 + 1) :=
  (gate_eq_of_owner known owner owned 2).trans (if_pos held)

end

/-- A request that may be written has the effect of `Hw.gate`. -/
theorem next_gate (s : State) {who : Who} (may : s.hw.MayWrite who Reg.PWR_GATE_REQ) {b op : Nat} (g : Hw → Hw)
    (effect : s.hw.gate who b op = g s.hw) :
    (.next (s.onHw fun h => h.guarded who Reg.PWR_GATE_REQ fun h => h.gate who b op) : Result) =
      .next (s.onHw fun h => (g h).busOk 0) :=
  next_onHw s ((guarded_of_mayWrite may _).trans (congrArg (Hw.busOk · 0) effect))

/-- Settles O23: each clause is `gate_of_owner` at its operation, and the refusal is `gatePowerOff_of_held`. -/
theorem gateRequestsActOrAreHeld : Obligations.GateRequestsActOrAreHeld := by
  unfold Obligations.GateRequestsActOrAreHeld
  refine ⟨?clock, ?ungate, ?powerOff, ?powerOn, ?held⟩
  case clock =>
    intro who block s may known owner owned free
    exact next_gate s may (fun h => gateAnswer (gateEffect h block.toNat 0) who (block.toNat * 2 ^ 8))
      (gate_of_owner known owner owned fun _ => free)
  case ungate =>
    intro who block s may known owner owned
    exact next_gate s may (fun h => gateAnswer (gateEffect h block.toNat 1) who (block.toNat * 2 ^ 8))
      (gate_of_owner known owner owned fun stops => absurd stops (by decide))
  case powerOff =>
    intro who block s may known owner owned free
    exact next_gate s may (fun h => gateAnswer (gateEffect h block.toNat 2) who (block.toNat * 2 ^ 8))
      (gate_of_owner known owner owned fun _ => free)
  case powerOn =>
    intro who block s may known owner owned
    exact next_gate s may (fun h => gateAnswer (gateEffect h block.toNat 3) who (block.toNat * 2 ^ 8))
      (gate_of_owner known owner owned fun stops => absurd stops (by decide))
  case held =>
    intro who block s may known owner owned held
    exact next_gate s may
      (fun h => gateAnswer ((h.count Reg.PWR_HELD_CNT).heldNotices who block.toNat 2) who (block.toNat * 2 ^ 8 + 1))
      (gatePowerOff_of_held known owner owned held)

end Sys2Proof.Proofs
end

section
/-! PROOFS. A power command before any boot, which the statement of Night and day commands does not leave out (O22). -/

namespace Sys2Proof.Proofs

open Sys2Proof.Machine Sys2Proof.Laws

/-! ### PWR_CMD (R77, R105) -/

/-- A Night or a shutdown command of the secure world or of Crest to a device that is not busy is accepted in Day of a booted device,
and is refused with STATE otherwise, whatever PWR_STATE reads. -/
theorem pwrCommand_of_writer {h : Hw} {who : Who} (writer : who = .secure ∨ who = .crest) (free : h.pwrBusy = false) (cmd : Nat) :
    h.pwrCommand who cmd =
      if h.inState psDay then h.pwrAccept cmd (h.reg Reg.PWR_CMD_LC).toNat else h.setReg Reg.PWR_CMD_STAT 1 := by
  have isWriter : Hw.pwrWriter who = true := by rcases writer with rfl | rfl <;> rfl
  cases day : h.inState psDay <;> simp [Hw.pwrCommand, isWriter, free, day]

/-! ### The counterexample -/

/-- VAO is good and PWR_STATE reads Day, but no reset cause is recorded: no boot has begun. -/
def dayBeforeBoot : State := { hw := { regs := [(Reg.PWR_STATE, 3), (Reg.PWR_RAIL_PG, 2)] } }

/-- Refutes O22, at its clause of PWR_CMD_ENTER_NIGHT: in `dayBeforeBoot` Crest's command meets every hypothesis of the clause and is
refused with STATE, where the clause has it accepted. Of what `pwrCommand_of_writer` asks for, the clause leaves out `Hw.booted`. -/
theorem not_nightAndDayCommandsMoveThePowerState : ¬ Obligations.NightAndDayCommandsMoveThePowerState := by
  unfold Obligations.NightAndDayCommandsMoveThePowerState
  rintro ⟨enterNight, -⟩
  have may : dayBeforeBoot.hw.MayWrite .crest Reg.PWR_CMD := by unfold Hw.MayWrite; decide +kernel
  have free : dayBeforeBoot.hw.pwrBusy = false := by decide +kernel
  have reads : dayBeforeBoot.hw.pstate = psDay := by decide +kernel
  have notDay : ¬ dayBeforeBoot.hw.inState psDay = true := by decide +kernel
  have claim := Host.Outcome.next.inj (enterNight .crest dayBeforeBoot may (.inr rfl) free reads)
  have refused : dayBeforeBoot.hw.guarded .crest Reg.PWR_CMD (fun h => h.pwrCommand .crest 1) =
      (dayBeforeBoot.hw.setReg Reg.PWR_CMD_STAT 1).busOk 0 := by
    rw [guarded_of_mayWrite may, pwrCommand_of_writer (.inr rfl) free, if_neg notDay]
  have pending : [(1, 1)] = ([] : List (Nat × Nat)) := congrArg (·.pwr.cmds) ((congrArg State.hw claim).symm.trans refused)
  exact List.cons_ne_nil _ _ pending

end Sys2Proof.Proofs
end

section
/-! PROOFS. What a boot leaves of its cause, of the cycle that it starts from and of the warm state, and the end of a last gasp (O20). -/

namespace Sys2Proof.Proofs

open Sys2Proof.Machine Sys2Proof.Laws

/-! ### The power controller and the cycle in progress

Steps 2 to 7 of R118 work on registers, memories, cores, dies, rings and the switch; none changes LC or, in the hardware alone, the
power controller's own state. -/

/-- LC, and the power controller beyond its registers. -/
def powerView (h : Hw) : Nat × Power := (h.lc, h.pwr)

theorem powerView_congr {h g : Hw} (lc : h.lc = g.lc) (pwr : h.pwr = g.pwr) : powerView h = powerView g :=
  Prod.ext lc pwr

theorem powerView_inj {h g : Hw} (e : powerView h = powerView g) : h.lc = g.lc ∧ h.pwr = g.pwr := Prod.mk.inj e

@[simp] theorem powerView_setReg (h : Hw) (a : Nat) (v : Word) : powerView (h.setReg a v) = powerView h := powerView_congr rfl rfl

@[simp] theorem powerView_setFld (h : Hw) (a : Nat) (f : BitField) (v : Nat) : powerView (h.setFld a f v) = powerView h :=
  powerView_setReg h a _

@[simp] theorem powerView_setBit (h : Hw) (a i : Nat) : powerView (h.setBit a i) = powerView h := powerView_setReg h a _
@[simp] theorem powerView_clearBit (h : Hw) (a i : Nat) : powerView (h.clearBit a i) = powerView h := powerView_setReg h a _

@[simp] theorem powerView_count (h : Hw) (a : Nat) : powerView (h.count a) = powerView h := by
  simp [Hw.count, Hw.countFld, apply_ite powerView]

@[simp] theorem powerView_railsOn (h : Hw) (l : List Nat) : powerView (h.railsOn l) = powerView h := by
  refine foldl_keeps powerView _ (fun h i => ?_) l h
  exact powerView_setBit h _ i

@[simp] theorem powerView_clocksOn (h : Hw) (l : List Nat) : powerView (h.clocksOn l) = powerView h := by
  refine foldl_keeps powerView _ (fun h i => ?_) l h
  exact powerView_setBit h _ i

/-! Memory: what is read, written and recorded. -/

@[simp] theorem powerView_eccFound (h : Hw) (m a : Nat) (f : Flaw) : powerView (h.eccFound m a f) = powerView h := by
  cases f with
  | sound => rfl
  | single => exact powerView_congr rfl rfl
  | double =>
    unfold Hw.eccFound Hw.eccUncorrectable
    dsimp only
    split <;> exact powerView_congr rfl rfl

@[simp] theorem powerView_eccRead (h : Hw) (a : Nat) : powerView (h.eccRead a) = powerView h := by
  unfold Hw.eccRead
  dsimp only
  split
  · rfl
  · exact (powerView_eccFound _ _ _ _).trans (powerView_congr rfl rfl)

@[simp] theorem powerView_foundIn (h : Hw) (a n : Nat) : powerView (h.foundIn a n) = powerView h :=
  foldl_keeps powerView _ (fun h _ => powerView_eccRead h _) _ h

@[simp] theorem powerView_writeRamList (h : Hw) (a : Nat) (l : List Word) : powerView (h.writeRamList a l) = powerView h := by
  induction l generalizing h a with
  | nil => rfl
  | cons w l ih => exact (ih (h.writeRam a w) (a + 1)).trans (powerView_congr rfl rfl)

@[simp] theorem powerView_ltCountBy (h : Hw) (i n : Nat) : powerView (h.ltCountBy i n) = powerView h := powerView_congr rfl rfl

@[simp] theorem powerView_journalWords (h : Hw) (ws : List Word) : powerView (h.journalWords ws) = powerView h := by
  simp [Hw.journalWords, apply_ite powerView]

@[simp] theorem powerView_note (h : Hw) (rt sub : Nat) (body : List Word) : powerView (h.note rt sub body) = powerView h := by
  simp [Hw.note, Hw.record, apply_ite powerView]

@[simp] theorem powerView_retEntry (h : Hw) (code : Nat) (data : Word) : powerView (h.retEntry code data) = powerView h := by
  unfold Hw.retEntry
  split
  · rfl
  · refine Eq.trans (powerView_congr ?_ ?_) (powerView_writeRamList h (retention + 0x100 + 8 * h.retLog) (0 :: h.entryBody code data))
    · rfl
    · rfl

/-! The Crest cores. -/

@[simp] theorem powerView_noteMode (h : Hw) : powerView h.noteMode = powerView h := powerView_setFld h _ _ _
@[simp] theorem powerView_startCore (h : Hw) (k : Nat) (vec : Word) : powerView (h.startCore k vec) = powerView h :=
  powerView_congr rfl rfl
@[simp] theorem powerView_holdCore (h : Hw) (k : Nat) : powerView (h.holdCore k) = powerView h :=
  (powerView_clearBit _ _ _).trans (powerView_congr rfl rfl)

@[simp] theorem powerView_setDuty (h : Hw) (k : Nat) (b : Bool) : powerView (h.setDuty k b) = powerView h := by
  cases b
  · exact powerView_clearBit h _ k
  · exact powerView_setBit h _ k

/-! Frames that the injector sends. -/

@[simp] theorem powerView_onSw (h : Hw) (f : Switcher → Switcher) : powerView (h.onSw f) = powerView h :=
  powerView_congr rfl rfl

@[simp] theorem powerView_setFree (h : Hw) (n : Nat) : powerView (h.setFree n) = powerView h := by simp [Hw.setFree]

@[simp] theorem powerView_joinSw (h : Hw) (f : SwFrame) : powerView (h.joinSw f).1 = powerView h := by
  simp [Hw.joinSw]

@[simp] theorem powerView_swNote (h : Hw) (r i : Nat) : powerView (h.swNote r i) = powerView h := by simp [Hw.swNote]

@[simp] theorem powerView_macCount (h : Hw) (p j n : Nat) : powerView (h.macCount p j n) = powerView h := by
  simp [Hw.macCount, apply_ite powerView]

@[simp] theorem powerView_dropFrame (h : Hw) (f : SwFrame) : powerView (h.dropFrame f) = powerView h := by
  simp [Hw.dropFrame, apply_ite powerView]

/-- A reservation takes cells, and with them frames of lower classes. -/
@[simp] theorem powerView_reserve (h : Hw) (p c : Nat) (unicast : Bool) (mask : List Nat) :
    powerView (h.reserve p c unicast mask).1 = powerView h := by
  unfold Hw.reserve
  split
  · rfl
  · split
    · exact powerView_setFree h _
    · split
      · split
        · rfl
        · split
          · rfl
          · dsimp only
            rw [powerView_setFree]
            exact foldl_keeps powerView _ (fun h v => by simp) _ h
      · rfl

@[simp] theorem powerView_inject (h : Hw) (bytes : List Byte) (ports : List Nat) : powerView (h.inject bytes ports) = powerView h := by
  simp [Hw.inject, apply_ite powerView]

@[simp] theorem powerView_inject6 (h : Hw) (bytes : List Byte) (ports : List Nat) : powerView (h.inject6 bytes ports) = powerView h := by
  simp [Hw.inject6, apply_ite powerView]

@[simp] theorem powerView_sendPeerTo (h : Hw) (kind dst mac : Nat) (body : List Byte) :
    powerView (h.sendPeerTo kind dst mac body) = powerView h := by
  unfold Hw.sendPeerTo
  refine (foldl_keeps powerView _ (fun h x => ?_) _ _).trans (powerView_congr rfl rfl)
  simp [apply_ite powerView]

/-! Guard events. -/

@[simp] theorem powerView_sendStop (h : Hw) : powerView h.sendStop = powerView h := by
  simp [Hw.sendStop, apply_ite powerView]

@[simp] theorem powerView_startStop (h : Hw) : powerView h.startStop = powerView h := by
  refine Eq.trans (powerView_congr ?_ ?_) (powerView_sendStop h)
  · rfl
  · rfl

@[simp] theorem powerView_peerCountUp (h : Hw) (i : Nat) : powerView (h.peerCountUp i) = powerView h := powerView_congr rfl rfl

@[simp] theorem powerView_sendTrip (h : Hw) (e rep : Nat) : powerView (h.sendTrip e rep) = powerView h := by
  simp [Hw.sendTrip, apply_ite powerView]

@[simp] theorem powerView_startTrip (h : Hw) (e : Nat) : powerView (h.startTrip e) = powerView h := by
  refine Eq.trans (powerView_congr ?_ ?_) (powerView_sendTrip h e 0)
  · rfl
  · rfl

@[simp] theorem powerView_setHardLines (h : Hw) (hl : Nat) : powerView (h.setHardLines hl) = powerView h := by
  refine foldl_keeps powerView _ (fun h d => ?_) _ h
  split
  · rfl
  · exact powerView_congr rfl rfl

@[simp] theorem powerView_applyMatrix (h : Hw) : powerView h.applyMatrix = powerView h := by simp [Hw.applyMatrix]

@[simp] theorem powerView_enterSafe (h : Hw) (e : Nat) : powerView (h.enterSafe e) = powerView h := by
  simp [Hw.enterSafe, apply_ite powerView]

@[simp] theorem powerView_guardNote (h : Hw) (e action : Nat) : powerView (h.guardNote e action) = powerView h := by
  simp [Hw.guardNote, apply_ite powerView]

@[simp] theorem powerView_firstEvent (h : Hw) (e ring pos : Nat) (node : Bool) : powerView (h.firstEvent e ring pos node) = powerView h := by
  unfold Hw.firstEvent
  split
  · rfl
  · dsimp only
    rw [powerView_setReg, powerView_setReg, powerView_setReg]
    exact powerView_congr rfl rfl

@[simp] theorem powerView_rowActions (h : Hw) (e : Nat) : powerView (h.rowActions e) = powerView h := by
  simp [Hw.rowActions, apply_ite powerView]

@[simp] theorem powerView_setCond (h : Hw) (e : Nat) (v : Bool) : powerView (h.setCond e v) = powerView h :=
  powerView_congr rfl rfl

@[simp] theorem powerView_raiseEvent (h : Hw) (e ring pos : Nat) (node : Bool) : powerView (h.raiseEvent e ring pos node) = powerView h := by
  simp [Hw.raiseEvent, apply_ite powerView]

@[simp] theorem powerView_dropCond (h : Hw) (e : Nat) : powerView (h.dropCond e) = powerView h := by
  simp [Hw.dropCond, Hw.endEvent, apply_ite powerView]

@[simp] theorem powerView_follow (h : Hw) (e ring pos : Nat) (v : Bool) : powerView (h.follow e ring pos v) = powerView h := by
  simp [Hw.follow, apply_ite powerView]

@[simp] theorem powerView_arm (h : Hw) : powerView h.arm = powerView h := by
  unfold Hw.arm
  dsimp only
  rw [foldl_keeps powerView _ fun h i => powerView_follow h _ _ _ _]
  simp [Hw.tripIn]

/-! The start of the rings. -/

@[simp] theorem powerView_ringStat (h : Hw) (k b : Nat) (v : Bool) : powerView (h.ringStat k b v) = powerView h := by
  simp [Hw.ringStat, apply_ite powerView]

@[simp] theorem powerView_setIdle (h : Hw) (k : Nat) (v : Bool) : powerView (h.setIdle k v) = powerView h :=
  foldl_keeps powerView _ (fun h e => by simp [apply_ite powerView]) _ h

@[simp] theorem powerView_onRing (h : Hw) (k : Nat) (f : Ring → Ring) : powerView (h.onRing k f) = powerView h :=
  powerView_congr rfl rfl

@[simp] theorem powerView_setPhase (h : Hw) (k p : Nat) : powerView (h.setPhase k p) = powerView h :=
  powerView_setFld h _ _ _

@[simp] theorem powerView_vnkStart (h : Hw) : powerView h.vnkStart = powerView h := by
  unfold Hw.vnkStart
  split
  · rfl
  · dsimp only
    rw [foldl_keeps powerView, powerView_setBit]
    intro h k
    simp [apply_ite powerView]

/-! ### What a boot keeps from its start on (R111, R118, R587) -/

/-- The cause of the last reset, LC and the warm state. -/
def bootView (s : State) : Nat × Nat × Option Hw := (s.hw.pwr.cause, s.hw.lc, s.warm)

theorem bootView_congr {s t : State} (cause : s.hw.pwr.cause = t.hw.pwr.cause) (lc : s.hw.lc = t.hw.lc) (warm : s.warm = t.warm) :
    bootView s = bootView t :=
  Prod.ext cause (Prod.ext lc warm)

/-- A change of the hardware that keeps LC and the power controller's state keeps them. -/
theorem bootView_onHw (s : State) (f : Hw → Hw) (kept : powerView (f s.hw) = powerView s.hw) : bootView (s.onHw f) = bootView s := by
  obtain ⟨lc, pwr⟩ := powerView_inj kept
  exact bootView_congr (congrArg Power.cause pwr) lc rfl

/-- A change of the power controller that keeps the cause keeps them. -/
theorem bootView_onPwr (s : State) (f : Power → Power) (kept : (f s.hw.pwr).cause = s.hw.pwr.cause) :
    bootView (s.onHw fun h => h.onPwr f) = bootView s :=
  bootView_congr kept rfl rfl

/-- What every step of a fold over the whole state keeps, the fold keeps. -/
theorem bootView_foldl {α : Type} (f : State → α → State) (l : List α) (s : State) (step : ∀ s x, bootView (f s x) = bootView s) :
    bootView (l.foldl f s) = bootView s :=
  List.foldlRecOn l f (motive := fun t => bootView t = bootView s) rfl fun t ht x _ => (step t x).trans ht

@[simp] theorem bootView_logWords (s : State) (body : List Word) : bootView (s.logWords body) = bootView s := by
  unfold State.logWords
  split
  · rfl
  · exact bootView_congr rfl rfl rfl

@[simp] theorem bootView_logEntry (s : State) (code : Nat) (data : Word) : bootView (s.logEntry code data) = bootView s :=
  bootView_logWords s _

@[simp] theorem bootView_copyRetLog (s : State) : bootView s.copyRetLog = bootView s := by
  refine (bootView_onHw _ _ (powerView_congr rfl rfl)).trans (bootView_foldl _ _ s fun s i => ?_)
  exact (bootView_logWords _ _).trans (bootView_onHw s _ (powerView_foundIn _ _ _))

@[simp] theorem bootView_owedEntries (s : State) (cause : Nat) : bootView (s.owedEntries cause) = bootView s := by
  have setTime (t : State) : bootView (t.onHw fun h => h.setBit Reg.TIME_STAT 7) = bootView t :=
    bootView_onHw t _ (powerView_setBit _ _ _)
  unfold State.owedEntries
  split
  · rfl
  · simp [apply_ite bootView, setTime]

@[simp] theorem bootView_bootRails (s : State) : bootView s.bootRails = bootView s :=
  bootView_onHw s _ (by simp [apply_ite powerView])

@[simp] theorem bootView_bootCrest (s : State) (pass : BitVec 3) : bootView (s.bootCrest pass) = bootView s := by
  refine bootView_onHw s _ ?_
  dsimp only
  rw [powerView_noteMode, foldl_keeps powerView]
  · exact (powerView_setReg _ _ _).trans (powerView_congr rfl rfl)
  · intro h k
    simp [apply_ite powerView]

@[simp] theorem bootView_bootFails (s : State) (n : Nat) : bootView (s.bootFails n) = bootView s :=
  (bootView_onPwr _ _ rfl).trans (bootView_logEntry s _ _)

@[simp] theorem bootView_retiredErase (s : State) : bootView s.retiredErase = bootView s := by
  unfold State.retiredErase
  split
  · exact bootView_congr rfl rfl rfl
  · rfl

@[simp] theorem bootView_takeSet (s : State) (region : Nat → Nat) (gold : Bool) : bootView (s.takeSet region gold) = bootView s :=
  bootView_congr rfl rfl rfl

@[simp] theorem bootView_takeCfg (s : State) (b : Bool) : bootView (s.takeCfg b) = bootView s := bootView_congr rfl rfl rfl

@[simp] theorem bootView_cfgReject (s : State) (b : Bool) (f : Option (Nat × Nat)) : bootView (s.cfgReject b f) = bootView s := by
  cases f with
  | none => rfl
  | some x => exact bootView_logEntry s _ _

@[simp] theorem bootView_eraseActivated (s : State) : bootView s.eraseActivated = bootView s := by
  refine bootView_foldl _ _ s fun s x => ?_
  dsimp only
  split
  · exact bootView_congr rfl rfl rfl
  · rfl

/-- The selection of the firmware set and of the configuration changes the power controller's mode, GOLD, checks and recovery. -/
@[simp] theorem bootView_bootSelect (s : State) (cause : Nat) : bootView (s.bootSelect cause) = bootView s := by
  unfold State.bootSelect
  extract_lets ignored s1 locked s2 s3 r s4 first f1 f2 none_ b code s5 s6 s7 d s8 s9 s10
  have h1 : bootView s1 = bootView s := by
    simp only [s1]
    split
    · exact (bootView_onPwr _ _ rfl).trans (bootView_logEntry s _ _)
    · rfl
  have h2 : bootView s2 = bootView s1 := by
    simp only [s2]
    split
    · exact (bootView_onPwr _ _ rfl).trans (bootView_logEntry s1 _ _)
    · rfl
  have h5 : bootView s5 = bootView s2 := by
    calc bootView s5
      _ = bootView s4 := bootView_onPwr s4 _ rfl
      _ = bootView s2 := by simp [s4, s3]
  have h7 : bootView s7 = bootView s5 := by
    calc bootView s7
      _ = bootView s6 := bootView_onPwr s6 _ rfl
      _ = bootView s5 := by simp [s6, apply_ite bootView]
  have h9 : bootView s9 = bootView s7 := by simp [s9, s8]
  have h10 : bootView s10 = bootView s9 := by
    simp only [s10]
    split
    · exact (bootView_congr rfl rfl rfl).trans (bootView_logEntry s9 _ _)
    · rfl
  have h11 : bootView (if locked then s10.eraseActivated else s10) = bootView s10 := by simp [apply_ite bootView]
  rw [h11, h10, h9, h7, h5, h2, h1]

@[simp] theorem bootView_startRecovery (s : State) : bootView s.startRecovery = bootView s := by
  unfold State.startRecovery
  split
  · rfl
  · refine bootView_onHw s _ ?_
    dsimp only
    rw [powerView_setBit, powerView_setBit, powerView_setBit, powerView_clocksOn]
    exact powerView_congr rfl rfl

@[simp] theorem bootView_loadRegs (s : State) (n : Nat) : bootView (s.loadRegs n) = bootView s := by
  refine bootView_onHw s _ (foldl_keeps powerView _ (fun h x => ?_) _ _)
  exact powerView_setReg h _ _

@[simp] theorem bootView_bootGuard (s : State) : bootView s.bootGuard = bootView s := by
  refine (bootView_onHw _ _ ?_).trans (bootView_loadRegs s 6)
  dsimp only
  rw [powerView_vnkStart, powerView_applyMatrix, powerView_arm, powerView_setBit, powerView_setBit, powerView_setBit]
  exact powerView_congr rfl rfl

/-- From the end of step 1 on a boot keeps the cause, LC and the warm state. -/
theorem bootView_boot (s : State) (cause : Nat) (b : BootFacts) : bootView (s.boot cause b) = bootView (s.bootStart cause b.straps) := by
  have rails (t : State) : bootView (t.onHw fun h => h.railsOn [8]) = bootView t := bootView_onHw t _ (powerView_railsOn _ _)
  simp [State.boot, State.bootLogs, apply_ite bootView, rails]

/-! ### The start of a boot -/

/-- The highest LC recorded is a fact about the NOR flash alone. -/
theorem highestLc_congr {s t : State} (same : s.nor = t.nor) : s.highestLc = t.highestLc := by
  unfold State.highestLc State.ckptCommitted State.ckptWritten State.ckptWord
  rw [same]

@[simp] theorem applyFuses_nor (s : State) : s.applyFuses.nor = s.nor := by
  unfold State.applyFuses
  split <;> rfl

@[simp] theorem readLog_cause (s : State) : s.readLog.hw.pwr.cause = s.hw.pwr.cause := by
  unfold State.readLog State.onHw
  dsimp only
  split <;> rfl

@[simp] theorem readLog_warm (s : State) : s.readLog.warm = s.warm := by simp only [State.readLog, onHw_warm]

@[simp] theorem resetHw_cause (old : Hw) (cause : Nat) : (State.resetHw old cause).pwr.cause = cause := by
  have lines (h : Hw) : powerView (h.floatHardLines.setHardLines 0) = powerView h :=
    (powerView_setHardLines _ 0).trans (powerView_setHardLines h 0xFFFF)
  unfold State.resetHw
  dsimp only
  rw [(powerView_inj (lines _)).2]

/-- Step 1 of a boot: the cause, the straps and no warm state; LC is one above the highest LC that the flash records. -/
theorem bootStart_spec (s : State) (cause : Nat) (straps : BitVec 2) :
    (s.bootStart cause straps).hw.pwr.cause = cause ∧ (s.bootStart cause straps).warm = none ∧
      (s.bootStart cause straps).hw.lc = s.highestLc + 1 ∧ (s.bootStart cause straps).hw.pwr.straps = straps.toNat := by
  unfold State.bootStart
  extract_lets s1 old s2 s3 lc
  have causeRead : s3.hw.pwr.cause = cause := by
    have reset : s2.hw = State.resetHw old cause := by simp only [s2]
    simp only [s3, readLog_cause]
    rw [reset, resetHw_cause]
  have sameNor : s3.nor = s.nor := applyFuses_nor s
  have lcRead : lc = s.highestLc + 1 := by simp only [lc, highestLc_congr sameNor]
  simp only [State.onHw, Hw.onTu]
  exact ⟨causeRead, readLog_warm s2, lcRead, trivial⟩

/-- What a boot leaves: its cause, LC one above the highest LC recorded, no warm state, and the commands that wait. -/
theorem boot_spec (s : State) (cause : Nat) (b : BootFacts) :
    (s.boot cause b).hw.pwr.cause = cause ∧ (s.boot cause b).hw.lc = s.highestLc + 1 ∧ (s.boot cause b).warm = none ∧
      (s.boot cause b).pending = s.pending := by
  obtain ⟨startCause, startWarm, startLc, -⟩ := bootStart_spec s cause b.straps
  obtain ⟨keptCause, keptRest⟩ := Prod.mk.inj (bootView_boot s cause b)
  obtain ⟨keptLc, keptWarm⟩ := Prod.mk.inj keptRest
  exact ⟨keptCause.trans startCause, keptLc.trans startLc, keptWarm.trans startWarm, (keeps_boot s cause b).pending⟩

/-- A command that boots the device ends as `boot_spec` says; `s` is the state that it answers for, `m` the one that boots. -/
theorem ends_of_boot {i : Instr} {s m : State} {cause : Nat} {b : BootFacts} (answer : exec i s = .next (m.boot cause b))
    (queue : m.pending = s.pending) :
    Ends i s fun t => t = m.boot cause b ∧ t.hw.pwr.cause = cause ∧ t.hw.lc = m.highestLc + 1 ∧ t.warm = none ∧ t.pending = s.pending := by
  obtain ⟨bootCause, bootLc, bootWarm, bootQueue⟩ := boot_spec m cause b
  exact ends_of_next answer ⟨rfl, bootCause, bootLc, bootWarm, bootQueue.trans queue⟩

/-! ### The end of a last gasp (R98, R99) -/

/-- The registers, the RAM and the recorded cause of a reset: what Off says of them no line of a load die changes. -/
def offView (h : Hw) : Tab Word × Tab Container × Nat := (h.regs, h.mem, h.pwr.cause)

theorem offView_congr {h g : Hw} (regs : h.regs = g.regs) (mem : h.mem = g.mem) (cause : h.pwr.cause = g.pwr.cause) :
    offView h = offView g :=
  Prod.ext regs (Prod.ext mem cause)

theorem offView_inj {h g : Hw} (e : offView h = offView g) : h.regs = g.regs ∧ h.mem = g.mem ∧ h.pwr.cause = g.pwr.cause :=
  ⟨(Prod.mk.inj e).1, Prod.mk.inj (Prod.mk.inj e).2⟩

@[simp] theorem offView_setHardLines (h : Hw) (hl : Nat) : offView (h.setHardLines hl) = offView h := by
  refine foldl_keeps offView _ (fun h d => ?_) _ h
  split
  · rfl
  · exact offView_congr rfl rfl rfl

@[simp] theorem offView_linesDown (h : Hw) (p : Nat → Nat → Bool) : offView (h.linesDown p) = offView h := by
  refine foldl_keeps offView _ (fun h d => ?_) _ h
  exact offView_congr rfl rfl rfl

theorem toOff_hw (s : State) : s.toOff.hw = s.hw.off := by simp only [State.toOff]

/-- Off: of the rails VIN alone may read good, no clock runs, no memory holds anything, and no reset cause is recorded. -/
theorem off_spec (h : Hw) :
    h.off.reg Reg.PWR_RAIL_PG = word (b2n (h.bit Reg.PWR_RAIL_PG 0)) ∧ h.off.reg Reg.CLK_STAT = 0 ∧ h.off.mem = [] ∧
      h.off.pwr.cause = 0 := by
  unfold Hw.off Hw.floatHardLines
  extract_lets p blank
  obtain ⟨-, lowMem, lowCause⟩ := offView_inj (offView_linesDown blank fun _ _ => true)
  generalize blank.linesDown (fun _ _ => true) = low at lowMem lowCause ⊢
  obtain ⟨regs, mem, cause⟩ := offView_inj
    (offView_setHardLines ((low.setReg Reg.PWR_RAIL_PG (word (b2n (h.bit Reg.PWR_RAIL_PG 0)))).setReg Reg.CLK_STAT 0) 0xFFFF)
  refine ⟨?_, ?_, mem.trans lowMem, cause.trans lowCause⟩
  · rw [Hw.reg, regs]
    exact (reg_setReg_ne _ _ _ _ (by decide)).trans (reg_setReg_same _ _ _)
  · rw [Hw.reg, regs]
    exact reg_setReg_same _ _ _

/-- The end of a last gasp: VIN does not read good either, and the device is not booted. -/
theorem off_clearVin_spec (h : Hw) :
    (h.off.clearBit Reg.PWR_RAIL_PG 0).reg Reg.PWR_RAIL_PG = 0 ∧ (h.off.clearBit Reg.PWR_RAIL_PG 0).reg Reg.CLK_STAT = 0 ∧
      (h.off.clearBit Reg.PWR_RAIL_PG 0).booted = false ∧ (h.off.clearBit Reg.PWR_RAIL_PG 0).mem = [] := by
  obtain ⟨rails, clocks, mem, cause⟩ := off_spec h
  generalize h.off = off at rails clocks mem cause ⊢
  refine ⟨?_, ?_, ?_, mem⟩
  · refine (reg_setReg_same _ _ _).trans ?_
    rw [rails]
    cases h.bit Reg.PWR_RAIL_PG 0 <;> decide
  · exact (reg_setReg_ne _ _ _ _ (by decide)).trans clocks
  · have noCause : (off.clearBit Reg.PWR_RAIL_PG 0).pwr.cause = 0 := cause
    simp [Hw.booted, noCause]

/-! ### The obligation -/

/-- A NOR operation that a reset ends leaves the commands that wait. -/
theorem norEnds_pending (s : State) (result : Nat) : (s.norEnds result).pending = s.pending := (keeps_norEnds s result).pending

/-- Settles O20: the boots by `boot_spec`, the start of one by `bootStart_spec`, the end of a last gasp by `off_clearVin_spec`. -/
theorem resetsBootTheDevice : Obligations.ResetsBootTheDevice := by
  unfold Obligations.ResetsBootTheDevice
  refine ⟨bootStart_spec, ?vin, ?vinInGasp, ?resetN, ?vao, ?lockout, ?debug, ?debugLocked, ?exhausted⟩
  case vin =>
    intro b s notBooted gone
    exact ends_of_boot (congrArg Host.Outcome.next (by simp [notBooted, gone])) rfl
  case vinInGasp =>
    intro b s booted gasp
    exact congrArg Host.Outcome.next (by simp [booted, gasp])
  case resetN =>
    intro b s vin
    exact ends_of_boot (congrArg Host.Outcome.next (if_pos vin)) (norEnds_pending s 6)
  case vao =>
    intro b s off failed vin
    exact ends_of_boot (congrArg Host.Outcome.next (if_pos (by simp [off, failed, vin]))) rfl
  case lockout =>
    intro b s booted gold failed level once
    refine ends_of_boot (congrArg Host.Outcome.next (if_pos ?_)) rfl
    have spaced : (s.hw.pwr.lockout == 0 || decide (s.hw.pwr.lockout + 60000 ≤ s.hw.poweredMs + 1)) = true := by
      simpa using once
    simp only [booted, gold, decide_eq_true failed, decide_eq_true level, spaced, Bool.and_self]
  case debug =>
    intro b s booted sys port enabled
    exact ends_of_boot (congrArg Host.Outcome.next (by simp [booted, sys, port, enabled])) (norEnds_pending s 6)
  case debugLocked =>
    intro b s booted sys locked
    have closed : s.debugPort = false := by simp [State.debugPort, locked]
    exact congrArg Host.Outcome.next (by simp [booted, sys, closed])
  case exhausted =>
    intro s gasp
    refine ends_of_next (congrArg Host.Outcome.next (if_pos gasp)) ⟨rfl, ?_⟩
    generalize s.norEnds 6 = m
    obtain ⟨rails, clocks, booted, mem⟩ := off_clearVin_spec m.hw
    rw [onHw_hw, toOff_hw]
    exact ⟨rails, clocks, booted, mem, rfl⟩

end Sys2Proof.Proofs
end

section
/-! PROOFS. The bits and fields of a register word, as `withBits` writes them and `bitsOf` reads them (R9). -/

namespace Sys2Proof.Proofs

open Sys2Proof.Machine Sys2Proof.Laws

/-! ### Words -/

/-- A number below 2^n with the field of width k at bit `lo` replaced. -/
theorem testBit_replace (w k lo v j : Nat) :
    (w - w / 2 ^ lo % 2 ^ k * 2 ^ lo + v % 2 ^ k * 2 ^ lo).testBit j =
      if lo ≤ j ∧ j < lo + k then v.testBit (j - lo) else w.testBit j := by
  have split : w = 2 ^ lo * (2 ^ k * (w / 2 ^ lo / 2 ^ k) + w / 2 ^ lo % 2 ^ k) + w % 2 ^ lo := by
    rw [Nat.div_add_mod, Nat.div_add_mod]
  have low : w % 2 ^ lo < 2 ^ lo := Nat.mod_lt _ (Nat.two_pow_pos lo)
  have fieldOf (x : Nat) : x % 2 ^ k < 2 ^ k := Nat.mod_lt _ (Nat.two_pow_pos k)
  have replaced : w - w / 2 ^ lo % 2 ^ k * 2 ^ lo + v % 2 ^ k * 2 ^ lo =
      2 ^ lo * (2 ^ k * (w / 2 ^ lo / 2 ^ k) + v % 2 ^ k) + w % 2 ^ lo := by
    have e := split
    generalize w / 2 ^ lo / 2 ^ k = q at *
    generalize w / 2 ^ lo % 2 ^ k = f at *
    rw [Nat.mul_add] at e ⊢
    rw [Nat.mul_comm f, Nat.mul_comm (v % 2 ^ k)]
    omega
  rw [replaced, Nat.testBit_two_pow_mul_add _ low, Nat.testBit_two_pow_mul_add _ (fieldOf v)]
  conv => rhs; rw [split, Nat.testBit_two_pow_mul_add _ low, Nat.testBit_two_pow_mul_add _ (fieldOf _)]
  by_cases below : j < lo
  · simp [below, Nat.not_le.mpr below]
  · have inside : j - lo < k ↔ j < lo + k := by omega
    by_cases within : j < lo + k
    · simp [below, inside, within, Nat.not_lt.mp below, Nat.testBit_mod_two_pow]
    · simp [below, inside, within]

theorem testBit_withBits (w : Word) (hi lo v j : Nat) (j40 : j < 40) :
    (withBits w hi lo v).toNat.testBit j = if lo ≤ j ∧ j ≤ hi then v.testBit (j - lo) else w.toNat.testBit j := by
  unfold withBits bitsOf
  rw [BitVec.toNat_ofNat, Nat.testBit_mod_two_pow, testBit_replace]
  have width : (lo ≤ j ∧ j < lo + (hi + 1 - lo)) ↔ (lo ≤ j ∧ j ≤ hi) := by omega
  simp [j40, width]

theorem testBit_bitsOf (w : Word) (hi lo j : Nat) :
    (bitsOf w hi lo).testBit j = (decide (j < hi + 1 - lo) && w.toNat.testBit (lo + j)) := by
  unfold bitsOf
  rw [Nat.testBit_mod_two_pow, Nat.testBit_div_two_pow, Nat.add_comm j lo]

/-- A field reads as written, modulo its width. -/
theorem bitsOf_withBits_same (w : Word) (hi lo v : Nat) (inWord : hi < 40) :
    bitsOf (withBits w hi lo v) hi lo = v % 2 ^ (hi + 1 - lo) := by
  refine Nat.eq_of_testBit_eq fun j => ?_
  rw [testBit_bitsOf, Nat.testBit_mod_two_pow]
  by_cases within : j < hi + 1 - lo
  · rw [testBit_withBits _ _ _ _ _ (by omega), if_pos (by omega), Nat.add_sub_cancel_left]
  · simp [within]

/-- A field that lies apart from the one written keeps its value. -/
theorem bitsOf_withBits_apart (w : Word) (hi lo v hi' lo' : Nat) (inWord : hi' < 40) (apart : hi' < lo ∨ hi < lo') :
    bitsOf (withBits w hi lo v) hi' lo' = bitsOf w hi' lo' := by
  refine Nat.eq_of_testBit_eq fun j => ?_
  rw [testBit_bitsOf, testBit_bitsOf]
  by_cases within : j < hi' + 1 - lo'
  · rw [testBit_withBits _ _ _ _ _ (by omega), if_neg (by omega)]
  · simp [within]

/-! ### Registers -/

section
variable (h : Hw) (a b : Nat)

theorem reg_setFld_ne (f : BitField) (v : Nat) (ne : b ≠ a) : (h.setFld a f v).reg b = h.reg b := reg_setReg_ne h a b _ ne
theorem reg_setBit_ne (i : Nat) (ne : b ≠ a) : (h.setBit a i).reg b = h.reg b := reg_setReg_ne h a b _ ne
theorem reg_clearBit_ne (i : Nat) (ne : b ≠ a) : (h.clearBit a i).reg b = h.reg b := reg_setReg_ne h a b _ ne

theorem reg_count_ne (ne : b ≠ a) : (h.count a).reg b = h.reg b := by
  unfold Hw.count Hw.countFld
  split
  · exact reg_setFld_ne h a b _ _ ne
  · rfl

theorem reg_countBy_ne (n : Nat) (ne : b ≠ a) : (h.countBy a n).reg b = h.reg b := reg_setReg_ne h a b _ ne

theorem fld_congr {h g : Hw} {a : Nat} (same : h.reg a = g.reg a) (f : BitField) : h.fld a f = g.fld a f :=
  congrArg (bitsOf · f.hi f.lo) same

theorem bit_congr {h g : Hw} {a : Nat} (same : h.reg a = g.reg a) (i : Nat) : h.bit a i = g.bit a i :=
  congrArg (fun w : Word => bitN w.toNat i) same

theorem fld_setFld_same (f : BitField) (v : Nat) (inWord : f.hi < 40) : (h.setFld a f v).fld a f = v % 2 ^ (f.hi + 1 - f.lo) := by
  unfold Hw.fld Hw.setFld
  rw [reg_setReg_same]
  exact bitsOf_withBits_same _ _ _ _ inWord

theorem fld_setFld_apart (f g : BitField) (v : Nat) (inWord : g.hi < 40) (apart : g.hi < f.lo ∨ f.hi < g.lo) :
    (h.setFld a f v).fld a g = h.fld a g := by
  unfold Hw.fld Hw.setFld
  rw [reg_setReg_same]
  exact bitsOf_withBits_apart _ _ _ _ _ _ inWord apart

/-- A bit is the field of one bit. -/
theorem bit_eq_fld (i : Nat) : h.bit a i = (h.fld a ⟨i, i⟩ == 1) := by
  unfold Hw.bit Hw.fld bitN bitsOf
  rw [Nat.add_sub_cancel_left, Nat.pow_one]

theorem bit_setFld_apart (f : BitField) (v i : Nat) (inWord : i < 40) (apart : i < f.lo ∨ f.hi < i) :
    (h.setFld a f v).bit a i = h.bit a i := by
  rw [bit_eq_fld, bit_eq_fld, fld_setFld_apart h a f ⟨i, i⟩ v inWord apart]

theorem fld_setBit_apart (f : BitField) (i : Nat) (inWord : f.hi < 40) (apart : i < f.lo ∨ f.hi < i) :
    (h.setBit a i).fld a f = h.fld a f :=
  fld_setFld_apart h a ⟨i, i⟩ f 1 inWord apart.symm

theorem bit_setBit_same (i : Nat) (inWord : i < 40) : (h.setBit a i).bit a i = true := by
  have one : (h.setBit a i).fld a ⟨i, i⟩ = 1 := by
    refine (fld_setFld_same h a ⟨i, i⟩ 1 inWord).trans ?_
    rw [Nat.add_sub_cancel_left, Nat.pow_one]
  rw [bit_eq_fld, one]
  rfl

theorem bit_setBit_ne (i j : Nat) (inWord : j < 40) (ne : j ≠ i) : (h.setBit a i).bit a j = h.bit a j :=
  bit_setFld_apart h a ⟨i, i⟩ 1 j inWord (Nat.lt_or_gt_of_ne ne)

/-- A bit after another one, or itself, was set. -/
theorem bit_setBit (i j : Nat) (inWord : j < 40) : (h.setBit a i).bit a j = (decide (j = i) || h.bit a j) := by
  by_cases same : j = i
  · subst same
    simp [bit_setBit_same h a j inWord]
  · simp [bit_setBit_ne h a i j inWord same, same]

end

end Sys2Proof.Proofs
end

section
/-! PROOFS. Wake sources: what a wake leaves of the registers, Dawn, the decoders, validation and back-off (O48). -/

namespace Sys2Proof.Proofs

open Sys2Proof.Machine Sys2Proof.Laws

/-! ### What the journal and the retention log leave of registers and of the dictionary (R140, R379) -/

@[simp] theorem regs_writeRamList (h : Hw) (a : Nat) (l : List Word) : (h.writeRamList a l).regs = h.regs := by
  induction l generalizing h a with
  | nil => rfl
  | cons w l ih => exact ih (h.writeRam a w) (a + 1)

@[simp] theorem reg_retEntry (h : Hw) (code : Nat) (data : Word) (a : Nat) : (h.retEntry code data).reg a = h.reg a := by
  unfold Hw.retEntry
  split
  · rfl
  · unfold Hw.reg
    dsimp only
    rw [regs_writeRamList]

/-- What the sessions and the dictionary hold, which no record of the journal touches. -/
def kopView (h : Hw) : Kop := h.kop

theorem kopView_congr {h g : Hw} (kop : h.kop = g.kop) : kopView h = kopView g := kop

@[simp] theorem kopView_setReg (h : Hw) (a : Nat) (v : Word) : kopView (h.setReg a v) = kopView h := kopView_congr rfl

@[simp] theorem kopView_writeRamList (h : Hw) (a : Nat) (l : List Word) : kopView (h.writeRamList a l) = kopView h := by
  induction l generalizing h a with
  | nil => rfl
  | cons w l ih => exact (ih (h.writeRam a w) (a + 1)).trans (kopView_congr rfl)

@[simp] theorem kopView_ltCountBy (h : Hw) (i n : Nat) : kopView (h.ltCountBy i n) = kopView h := kopView_congr rfl

@[simp] theorem kopView_journalWords (h : Hw) (ws : List Word) : kopView (h.journalWords ws) = kopView h := by
  simp [Hw.journalWords, apply_ite kopView]

@[simp] theorem kopView_note (h : Hw) (rt sub : Nat) (body : List Word) : kopView (h.note rt sub body) = kopView h := by
  simp [Hw.note, Hw.record, apply_ite kopView]

theorem kop_journalCommand (h : Hw) (commit obj : Nat) (value : List Byte) : (h.journalCommand commit obj value).kop = h.kop := by
  have kept : kopView (h.journalCommand commit obj value) = kopView h := by simp [Hw.journalCommand]
  exact kept

theorem lc_journalCommand (h : Hw) (commit obj : Nat) (value : List Byte) : (h.journalCommand commit obj value).lc = h.lc := by
  have kept : powerView (h.journalCommand commit obj value) = powerView h := by simp [Hw.journalCommand]
  exact (powerView_inj kept).1

/-! ### The state, the domains and the sources after a register write (R19, R74, R661) -/

theorem booted_congr {h g : Hw} (rails : h.reg Reg.PWR_RAIL_PG = g.reg Reg.PWR_RAIL_PG) (cause : h.pwr.cause = g.pwr.cause) :
    h.booted = g.booted := by
  simp only [Hw.booted, Hw.aoOn, Hw.flag, fld_congr rails, cause]

theorem inState_congr {h g : Hw} (rails : h.reg Reg.PWR_RAIL_PG = g.reg Reg.PWR_RAIL_PG)
    (state : h.reg Reg.PWR_STATE = g.reg Reg.PWR_STATE) (cause : h.pwr.cause = g.pwr.cause) (x : Nat) : h.inState x = g.inState x := by
  simp only [Hw.inState, booted_congr rails cause, Hw.pstate, fld_congr state]

theorem wakeable_congr {h g : Hw} (enables : h.reg Reg.WAKE_EN = g.reg Reg.WAKE_EN) (pwr : h.pwr = g.pwr)
    (time : h.poweredMs = g.poweredMs) (mask : Nat) : h.wakeable mask = g.wakeable mask := by
  have backoff (s : Nat) : h.inBackoff s = g.inBackoff s := by
    unfold Hw.inBackoff Hw.backoffEnd
    rw [pwr, time]
  simp only [Hw.wakeable, bit_congr enables, backoff]

/-! ### The start of Dawn (R89, R661, R662) -/

/-- A source is taken first wherever there is one. -/
theorem firstWake_isSome {h : Hw} {l : List Nat} (some_ : l ≠ []) : ∃ x, h.firstWake l = some x := by
  unfold Hw.firstWake
  split
  · exact ⟨_, rfl⟩
  · exact ⟨_, List.head?_eq_some_head some_⟩

/-- A service source is taken first only where no plant source is there. -/
theorem firstWake_service {h : Hw} {l : List Nat} {x : Nat} (first : h.firstWake l = some x) (service : h.wakeClass x ≠ 1) :
    ∀ y ∈ l, h.wakeClass y ≠ 1 := by
  unfold Hw.firstWake at first
  split at first
  case h_1 s found =>
    obtain rfl : s = x := Option.some.inj first
    exact absurd (by simpa using List.find?_some found) service
  case h_2 none_ => simpa using none_

@[simp] theorem reg_addWakes_ne (h : Hw) (l : List Nat) (a : Nat) (ne : a ≠ Reg.WAKE_SRC) : (h.addWakes l).reg a = h.reg a := by
  refine foldl_keeps (fun h => h.reg a) _ (fun h i => ?_) l h
  exact reg_setBit_ne h _ a i ne

@[simp] theorem powerView_addWakes (h : Hw) (l : List Nat) : powerView (h.addWakes l) = powerView h := by
  refine foldl_keeps powerView _ (fun h i => ?_) l h
  exact powerView_setBit h _ i

/-- The registers as Dawn's start leaves them: WAKE_SRC with its sources and their class, PWR_STATE at Dawn with cause WAKE. -/
def dawnRegs (h : Hw) (l : List Nat) (cls : Nat) : Hw :=
  ((((((h.setReg Reg.WAKE_SRC 0).addWakes l).setFld Reg.WAKE_SRC Fld.WAKE_SRC_CLASS cls).setFld Reg.PWR_STATE Fld.PWR_STATE_STATE psDawn).setFld
    Reg.PWR_STATE Fld.PWR_STATE_CAUSE 3).setFld Reg.PWR_STATE Fld.PWR_STATE_TARGET 0)

theorem reg_onPwr (h : Hw) (f : Power → Power) (a : Nat) : (h.onPwr f).reg a = h.reg a := rfl

theorem reg_dawnRegs_ne (h : Hw) (l : List Nat) (cls a : Nat) (src : a ≠ Reg.WAKE_SRC) (state : a ≠ Reg.PWR_STATE) :
    (dawnRegs h l cls).reg a = h.reg a := by
  unfold dawnRegs
  rw [reg_setFld_ne _ _ _ _ _ state, reg_setFld_ne _ _ _ _ _ state, reg_setFld_ne _ _ _ _ _ state, reg_setFld_ne _ _ _ _ _ src,
    reg_addWakes_ne _ _ _ src, reg_setReg_ne _ _ _ _ src]

@[simp] theorem powerView_dawnRegs (h : Hw) (l : List Nat) (cls : Nat) : powerView (dawnRegs h l cls) = powerView h := by
  simp [dawnRegs]

theorem pstate_dawnRegs (h : Hw) (l : List Nat) (cls : Nat) : (dawnRegs h l cls).pstate = psDawn := by
  unfold dawnRegs Hw.pstate
  rw [fld_setFld_apart _ _ _ _ _ (by decide) (by decide), fld_setFld_apart _ _ _ _ _ (by decide) (by decide),
    fld_setFld_same _ _ _ _ (by decide)]
  rfl

/-- Beyond the registers Dawn's start makes an entry of the retention log, and keeps the cause of the last reset. -/
theorem startDawn_eq {h : Hw} {l : List Nat} {x : Nat} (first : h.firstWake l = some x) :
    ∃ code data f, h.startDawn l = ((dawnRegs h l (h.wakeClass x)).retEntry code data).onPwr f ∧ ∀ p, (f p).cause = p.cause := by
  unfold Hw.startDawn
  rw [first]
  exact ⟨_, _, _, rfl, fun _ => rfl⟩

/-- What `startDawn` leaves of registers and cause. -/
theorem startDawn_spec {h : Hw} {l : List Nat} {x : Nat} (first : h.firstWake l = some x) :
    (∀ a, (h.startDawn l).reg a = (dawnRegs h l (h.wakeClass x)).reg a) ∧ (h.startDawn l).pwr.cause = h.pwr.cause := by
  obtain ⟨code, data, f, eq, causeKept⟩ := startDawn_eq first
  rw [eq]
  constructor
  · intro a
    rw [reg_onPwr, reg_retEntry]
  · have kept : powerView ((dawnRegs h l (h.wakeClass x)).retEntry code data) = powerView h := by simp
    exact (causeKept _).trans (congrArg Power.cause (powerView_inj kept).2)

/-- Dawn writes WAKE_SRC and PWR_STATE. -/
theorem reg_startDawn_ne (h : Hw) (l : List Nat) (a : Nat) (src : a ≠ Reg.WAKE_SRC) (state : a ≠ Reg.PWR_STATE) :
    (h.startDawn l).reg a = h.reg a := by
  cases first : h.firstWake l with
  | none =>
    unfold Hw.startDawn
    rw [first]
  | some x => exact ((startDawn_spec first).1 a).trans (reg_dawnRegs_ne h l _ a src state)

/-- Of a booted device that some source wakes, the state is Dawn. -/
theorem inState_startDawn {h : Hw} {l : List Nat} (some_ : l ≠ []) (booted : h.booted = true) : (h.startDawn l).inState psDawn = true := by
  obtain ⟨x, first⟩ := firstWake_isSome (h := h) some_
  obtain ⟨regs, cause⟩ := startDawn_spec first
  have stays : (h.startDawn l).booted = true :=
    (booted_congr (reg_startDawn_ne h l _ (by decide) (by decide)) cause).trans booted
  have dawn : (h.startDawn l).pstate = psDawn := (fld_congr (regs _) _).trans (pstate_dawnRegs h l _)
  simp [Hw.inState, stays, dawn]

/-! ### A wake (R89, R131, R661) -/

theorem countUnwakeable_view {β : Type} (view : Hw → β) (kept : ∀ h : Hw, view (h.undeclare 10) = view h) (h : Hw) (mask : Nat) :
    view (h.countUnwakeable mask) = view h := by
  unfold Hw.countUnwakeable
  split
  · exact foldl_keeps view _ (fun h _ => kept h) _ h
  · rfl

theorem reg_countUnwakeable (h : Hw) (mask a : Nat) : (h.countUnwakeable mask).reg a = h.reg a :=
  countUnwakeable_view (fun h => h.reg a) (fun _ => rfl) h mask

theorem powerView_countUnwakeable (h : Hw) (mask : Nat) : powerView (h.countUnwakeable mask) = powerView h :=
  countUnwakeable_view powerView (fun _ => powerView_congr rfl rfl) h mask

theorem inState_countUnwakeable (h : Hw) (mask x : Nat) : (h.countUnwakeable mask).inState x = h.inState x :=
  inState_congr (reg_countUnwakeable h mask _) (reg_countUnwakeable h mask _)
    (congrArg Power.cause (powerView_inj (powerView_countUnwakeable h mask)).2) x

/-- Without a source that can wake, an attempt is counted at most. -/
theorem wake_of_none {h : Hw} {mask : Nat} (none_ : h.wakeable mask = []) : h.wake mask = h.countUnwakeable mask := by
  simp [Hw.wake, none_]

/-- In Night a source that can wake starts Dawn. -/
theorem wake_of_night {h : Hw} {mask : Nat} (some_ : h.wakeable mask ≠ []) (night : h.inState psNight = true) :
    h.wake mask = (h.countUnwakeable mask).startDawn (h.wakeable mask) := by
  have night' : (h.countUnwakeable mask).inState psNight = true := (inState_countUnwakeable h mask _).trans night
  simp [Hw.wake, some_, night']

/-- A wake writes WAKE_SRC and PWR_STATE at most. -/
theorem reg_wake_ne (h : Hw) (mask a : Nat) (src : a ≠ Reg.WAKE_SRC) (state : a ≠ Reg.PWR_STATE) : (h.wake mask).reg a = h.reg a := by
  refine Eq.trans ?_ (reg_countUnwakeable h mask a)
  unfold Hw.wake
  dsimp only
  split
  · rfl
  · split
    · exact reg_startDawn_ne _ _ a src state
    · split
      · exact reg_onPwr _ _ a
      · split
        · exact reg_addWakes_ne _ _ a src
        · rfl

/-! ### The decoders (R660, R665) -/

@[simp] theorem reg_setOutq (h : Hw) (p : Nat) (l : List ColOut) (a : Nat) : (h.setOutq p l).reg a = h.reg a := rfl

theorem reg_enqueue_ne (h : Hw) (p : Nat) (o : ColOut) (a : Nat) (drop : a ≠ Reg.COL_CNT_DROP) (irq : a ≠ Reg.COL_IRQ_STAT) :
    (h.enqueue p o).1.reg a = h.reg a := by
  unfold Hw.enqueue
  split
  · exact reg_setOutq h p _ a
  · unfold Hw.colDrop
    rw [if_neg Nat.one_ne_zero]
    exact (reg_setBit_ne _ _ a _ irq).trans (reg_countBy_ne h _ a _ drop)

/-- A side-band event writes registers of the gateway alone. -/
theorem reg_sideBand_ne (h : Hw) (n code a : Nat) (drop : a ≠ Reg.COL_CNT_DROP) (irq : a ≠ Reg.COL_IRQ_STAT) :
    (h.sideBand n code).reg a = h.reg a := by
  have put (g : Hw) (c : Nat) : ((g.eventPorts n).foldl (fun (x : Hw × Bool) p =>
      let r := x.1.enqueue p (g.eventOut n c)
      (r.1, x.2 && r.2)) (g, true)).1.reg a = g.reg a :=
    List.foldlRecOn (g.eventPorts n) _ (motive := fun x : Hw × Bool => x.1.reg a = g.reg a) rfl
      fun x kept p _ => (reg_enqueue_ne x.1 p _ a drop irq).trans kept
  unfold Hw.sideBand
  split
  · rfl
  · dsimp only
    split
    · exact put h code
    · exact (put _ 6).trans (put h code)

section
variable (h : Hw) (n : Nat) (hdr : Word)

/-- A decoder's match writes CAN_IRQ_STAT, the gateway's registers, GIO_WAKE_CAN, WAKE_SRC and PWR_STATE at most. -/
theorem reg_decoderWake_ne (a : Nat) (can : a ≠ Reg.CAN_IRQ_STAT n) (drop : a ≠ Reg.COL_CNT_DROP) (irq : a ≠ Reg.COL_IRQ_STAT)
    (gio : a ≠ Reg.GIO_WAKE_CAN n) (src : a ≠ Reg.WAKE_SRC) (state : a ≠ Reg.PWR_STATE) :
    (h.decoderWake n hdr).reg a = h.reg a := by
  unfold Hw.decoderWake
  split
  · split
    · exact (reg_sideBand_ne _ n 5 a drop irq).trans (reg_setBit_ne h _ a _ can)
    · rfl
  · dsimp only
    rw [reg_wake_ne _ _ a src state]
    split
    · rfl
    · exact reg_setReg_ne h _ a _ gio

/-- In Day a sleeping controller raises WAKE. -/
theorem bit_decoderWake_day (day : h.inState psDay = true) (sys : h.sysOn = true) (sleeps : h.canMode n = 2) (n4 : n < 4) :
    (h.decoderWake n hdr).bit (Reg.CAN_IRQ_STAT n) 3 = true := by
  have wakes : h.decoderWake n hdr = (h.setBit (Reg.CAN_IRQ_STAT n) 3).sideBand n 5 := by
    simp [Hw.decoderWake, day, sys, sleeps]
  rw [wakes, bit_congr (reg_sideBand_ne _ n 5 _ ?drop ?irq)]
  · exact bit_setBit_same h _ 3 (by decide)
  case drop => simp only [Reg.CAN_IRQ_STAT, Reg.COL_CNT_DROP]; omega
  case irq => simp only [Reg.CAN_IRQ_STAT, Reg.COL_IRQ_STAT]; omega

/-- In Night a source that can wake starts Dawn, and GIO_WAKE_CAN takes the header. -/
theorem decoderWake_night (night : h.inState psNight = true) (some_ : h.wakeable (2 ^ (5 + n)) ≠ []) :
    (h.decoderWake n hdr).inState psDawn = true ∧ (h.decoderWake n hdr).reg (Reg.GIO_WAKE_CAN n) = hdr := by
  have notDay : ¬ h.inState psDay = true := by
    intro day
    simp only [Hw.inState, Bool.and_eq_true, beq_iff_eq] at night day
    exact absurd (night.2.symm.trans day.2) (by decide)
  have apart (a : Nat) (low : a < 0x10C00000) : a ≠ Reg.GIO_WAKE_CAN n := by simp only [Reg.GIO_WAKE_CAN]; omega
  have written (a : Nat) (low : a < 0x10C00000) : (h.setReg (Reg.GIO_WAKE_CAN n) hdr).reg a = h.reg a :=
    reg_setReg_ne h _ a hdr (apart a low)
  have wakes : h.decoderWake n hdr = (h.setReg (Reg.GIO_WAKE_CAN n) hdr).wake (2 ^ (5 + n)) := by
    simp [Hw.decoderWake, notDay, some_]
  have same : (h.setReg (Reg.GIO_WAKE_CAN n) hdr).wakeable (2 ^ (5 + n)) = h.wakeable (2 ^ (5 + n)) :=
    wakeable_congr (written _ (by decide)) rfl rfl _
  have night' : (h.setReg (Reg.GIO_WAKE_CAN n) hdr).inState psNight = true :=
    (inState_congr (written _ (by decide)) (written _ (by decide)) rfl _).trans night
  have counted : ((h.setReg (Reg.GIO_WAKE_CAN n) hdr).countUnwakeable (2 ^ (5 + n))).inState psNight = true :=
    (inState_countUnwakeable _ _ _).trans night'
  rw [wakes, wake_of_night (same ▸ some_) night', same]
  constructor
  · exact inState_startDawn some_ (Bool.and_eq_true_iff.mp counted).1
  · rw [reg_startDawn_ne _ _ _ (apart _ (by decide)).symm (apart _ (by decide)).symm, reg_countUnwakeable, reg_setReg_same]

/-- CAN_SW_STAT of a line is none of the registers that a match writes. -/
theorem reg_decoderWake_swStat (n4 : n < 4) : (h.decoderWake n hdr).reg (Reg.CAN_SW_STAT n) = h.reg (Reg.CAN_SW_STAT n) := by
  refine reg_decoderWake_ne h n hdr _ ?_ ?_ ?_ ?_ ?_ ?_
  all_goals
    simp only [Reg.CAN_SW_STAT, Reg.CAN_IRQ_STAT, Reg.COL_CNT_DROP, Reg.COL_IRQ_STAT, Reg.GIO_WAKE_CAN, Reg.WAKE_SRC, Reg.PWR_STATE]
    omega

end

/-- What the clauses of the decoders say of a match: of a sleeping controller in Day it raises WAKE, in Night it starts Dawn. -/
def MatchWakes (h t : Hw) (n : Nat) (hdr : Word) : Prop :=
  (h.inState psDay = true → h.sysOn = true → h.canMode n = 2 → t.bit (Reg.CAN_IRQ_STAT n) 3 = true) ∧
    (h.inState psNight = true → h.wakeable (2 ^ (5 + n)) ≠ [] → t.inState psDawn = true ∧ t.reg (Reg.GIO_WAKE_CAN n) = hdr)

/-- A match acts by the state, the mode and the enables, which a change of CAN_SW_STAT before it leaves. -/
theorem matchWakes_decoderWake {h g : Hw} {n : Nat} (n4 : n < 4) (hdr : Word)
    (regs : ∀ a, a ≠ Reg.CAN_SW_STAT n → g.reg a = h.reg a) (pwr : g.pwr = h.pwr) (time : g.poweredMs = h.poweredMs) :
    MatchWakes h (g.decoderWake n hdr) n hdr := by
  have low (a : Nat) (below : a < 0x10A00000) : g.reg a = h.reg a := regs a (by simp only [Reg.CAN_SW_STAT]; omega)
  have state (x : Nat) : g.inState x = h.inState x :=
    inState_congr (low _ (by decide)) (low _ (by decide)) (congrArg Power.cause pwr) x
  have ctrl : g.reg (Reg.CAN_CTRL n) = h.reg (Reg.CAN_CTRL n) := regs _ (by simp only [Reg.CAN_SW_STAT, Reg.CAN_CTRL]; omega)
  constructor
  · intro day sys sleeps
    exact bit_decoderWake_day g n hdr ((state _).trans day) ((congrArg (· % 2 == 1) (fld_congr (low _ (by decide)) _)).trans sys)
      ((fld_congr ctrl _).trans sleeps) n4
  · intro night some_
    exact decoderWake_night g n hdr ((state _).trans night) (wakeable_congr (low _ (by decide)) pwr time _ ▸ some_)

/-- A wake-up frame was seen: FEC is lowered and WAKE of CAN_SW_STAT set. -/
def frameSeen (h : Hw) (n : Nat) : Hw :=
  (h.setFld (Reg.CAN_SW_STAT n) Fld.CAN_SW_STAT_FEC (h.fec n - 1)).setBit (Reg.CAN_SW_STAT n) 33

theorem reg_frameSeen_ne (h : Hw) (n a : Nat) (ne : a ≠ Reg.CAN_SW_STAT n) : (frameSeen h n).reg a = h.reg a :=
  (reg_setBit_ne _ _ a 33 ne).trans (reg_setFld_ne h _ a _ _ ne)

theorem powerView_frameSeen (h : Hw) (n : Nat) : powerView (frameSeen h n) = powerView h := by
  simp [frameSeen]

theorem poweredMs_frameSeen (h : Hw) (n : Nat) : (frameSeen h n).poweredMs = h.poweredMs := by
  unfold frameSeen Hw.setBit Hw.setFld
  rw [setReg_poweredMs, setReg_poweredMs]

theorem wakeFrameSeen_eq {h : Hw} {n : Nat} {x : CanFrame} (on : h.decoderOn n = true) (matches_ : h.wakeFrame n x = true) :
    h.wakeFrameSeen n x = (frameSeen h n).decoderWake n x.hdr :=
  if_pos (by rw [on, matches_, Bool.and_self])

/-- After a wake-up frame WAKE is set, FEC lowered, and the source wakes. -/
theorem selectiveWakeFrame_spec (h : Hw) (n : Nat) (n4 : n < 4) (hdr : Word) :
    ((frameSeen h n).decoderWake n hdr).bit (Reg.CAN_SW_STAT n) 33 = true ∧
      ((frameSeen h n).decoderWake n hdr).fec n = h.fec n - 1 ∧ MatchWakes h ((frameSeen h n).decoderWake n hdr) n hdr := by
  have kept := reg_decoderWake_swStat (frameSeen h n) n hdr n4
  refine ⟨?_, ?_, matchWakes_decoderWake n4 hdr (reg_frameSeen_ne h n) (powerView_inj (powerView_frameSeen h n)).2
    (poweredMs_frameSeen h n)⟩
  · rw [bit_congr kept]
    exact bit_setBit_same _ _ 33 (by decide)
  · have narrow : h.fec n < 2 ^ 6 := Nat.mod_lt _ (by decide)
    have seen : (frameSeen h n).fec n = (h.fec n - 1) % 2 ^ 6 :=
      (fld_setBit_apart _ _ _ 33 (by decide) (by decide)).trans (fld_setFld_same h _ _ _ (by decide))
    exact (fld_congr kept _).trans (seen.trans (Nat.mod_eq_of_lt (Nat.lt_of_le_of_lt (Nat.sub_le _ 1) narrow)))

theorem fecOverflow_eq {h : Hw} {n : Nat} (on : h.decoderOn n = true) (full : h.fec n = 32)
    (enabled : bitN (h.reg (Reg.CAN_SW_ID n)).toNat 32 = true) :
    h.fecOverflow n = (h.setBit (Reg.CAN_SW_STAT n) 32).decoderWake n (word (2 ^ 30)) :=
  if_pos (by simp [on, full, enabled])

/-- After an overflow of FEC, FEC_OVF of CAN_SW_STAT is set and the source wakes. -/
theorem wakeFecOverflow_spec (h : Hw) (n : Nat) (n4 : n < 4) (hdr : Word) :
    ((h.setBit (Reg.CAN_SW_STAT n) 32).decoderWake n hdr).bit (Reg.CAN_SW_STAT n) 32 = true ∧
      MatchWakes h ((h.setBit (Reg.CAN_SW_STAT n) 32).decoderWake n hdr) n hdr := by
  refine ⟨?_, matchWakes_decoderWake n4 hdr (fun a ne => reg_setBit_ne h _ a 32 ne)
    (powerView_inj (powerView_setBit h _ 32)).2 (setReg_poweredMs _ _ _)⟩
  rw [bit_congr (reg_decoderWake_swStat _ n hdr n4)]
  exact bit_setBit_same _ _ 32 (by decide)

/-! ### Validation (R664) -/

/-- LC, and what proves a wake. -/
def proofView (h : Hw) : Nat × Bool × Nat := (h.lc, h.pwr.kopSeen, h.pwr.canSeen)

theorem proofView_congr {h g : Hw} (lc : h.lc = g.lc) (kop : h.pwr.kopSeen = g.pwr.kopSeen) (can : h.pwr.canSeen = g.pwr.canSeen) :
    proofView h = proofView g :=
  Prod.ext lc (Prod.ext kop can)

theorem proofView_inj {h g : Hw} (e : proofView h = proofView g) :
    h.lc = g.lc ∧ h.pwr.kopSeen = g.pwr.kopSeen ∧ h.pwr.canSeen = g.pwr.canSeen :=
  (Prod.mk.inj e).imp_right Prod.mk.inj

@[simp] theorem proofView_setReg (h : Hw) (a : Nat) (v : Word) : proofView (h.setReg a v) = proofView h := proofView_congr rfl rfl rfl
@[simp] theorem proofView_setBit (h : Hw) (a i : Nat) : proofView (h.setBit a i) = proofView h := proofView_setReg h a _

@[simp] theorem proofView_setFld (h : Hw) (a : Nat) (f : BitField) (v : Nat) : proofView (h.setFld a f v) = proofView h :=
  proofView_setReg h a _

@[simp] theorem proofView_count (h : Hw) (a : Nat) : proofView (h.count a) = proofView h := by
  simp [Hw.count, Hw.countFld, apply_ite proofView]

@[simp] theorem proofView_setBackoff (h : Hw) (s e : Nat) : proofView (h.setBackoff s e) = proofView h := proofView_congr rfl rfl rfl

@[simp] theorem proofView_judgeWake (h : Hw) (high s : Nat) : proofView (h.judgeWake high s) = proofView h := by
  simp [Hw.judgeWake, apply_ite proofView]

theorem wakeProved_congr {h g : Hw} (e : proofView h = proofView g) (high s : Nat) : h.wakeProved high s = g.wakeProved high s := by
  obtain ⟨-, kop, can⟩ := proofView_inj e
  simp only [Hw.wakeProved, kop, can]

/-- The bits of GIO_WAKE_VAL that the judgement of a source sets: its own where it proved its wake, the one 12 above it where not. -/
def valBit (h : Hw) (high s i : Nat) : Bool :=
  if h.wakeProved high s then decide (s ≤ 8) && decide (i = s) else decide (i = 12 + s)

theorem valBit_congr {h g : Hw} (e : proofView h = proofView g) (high s i : Nat) : valBit h high s i = valBit g high s i := by
  unfold valBit
  rw [wakeProved_congr e]

/-- A judgement writes GIO_WAKE_VAL with `valBit` alone. -/
theorem reg_judgeWake_val (h : Hw) (high s : Nat) :
    (h.judgeWake high s).reg Reg.GIO_WAKE_VAL =
      if h.wakeProved high s then (if s ≤ 8 then (h.setBit Reg.GIO_WAKE_VAL s).reg Reg.GIO_WAKE_VAL else h.reg Reg.GIO_WAKE_VAL)
      else (h.setBit Reg.GIO_WAKE_VAL (12 + s)).reg Reg.GIO_WAKE_VAL := by
  have fw : Reg.GIO_WAKE_VAL ≠ Reg.GIO_WAKE_FW s := by simp only [Reg.GIO_WAKE_VAL, Reg.GIO_WAKE_FW]; omega
  have falseCount (g : Hw) : (g.count Reg.GIO_CNT_FALSE).reg Reg.GIO_WAKE_VAL = g.reg Reg.GIO_WAKE_VAL :=
    reg_count_ne g _ _ (by decide)
  unfold Hw.judgeWake
  split
  · split
    · exact reg_setFld_ne _ _ _ _ _ fw
    · rfl
  · dsimp only
    split
    · rw [Hw.setBackoff, reg_onPwr, reg_setBit_ne _ _ _ _ (by decide), reg_count_ne _ _ _ (by decide), reg_setFld_ne _ _ _ _ _ fw,
        falseCount]
    · rw [reg_setFld_ne _ _ _ _ _ fw, falseCount]

theorem bit_judgeWake_val (h : Hw) (high s i : Nat) (i40 : i < 40) :
    (h.judgeWake high s).bit Reg.GIO_WAKE_VAL i = (valBit h high s i || h.bit Reg.GIO_WAKE_VAL i) := by
  have reg := reg_judgeWake_val h high s
  unfold valBit
  cases proved : h.wakeProved high s with
  | false =>
    rw [proved, if_neg Bool.false_ne_true] at reg
    rw [bit_congr reg, bit_setBit _ _ _ _ i40, if_neg Bool.false_ne_true]
  | true =>
    rw [proved, if_pos rfl] at reg
    by_cases own : s ≤ 8
    · rw [if_pos own] at reg
      rw [bit_congr reg, bit_setBit _ _ _ _ i40, if_pos rfl, decide_eq_true own, Bool.true_and]
    · rw [if_neg own] at reg
      simp [bit_congr reg, own]

/-- The sources of a list judged in turn, each by the grounds that stood before the first. -/
def judged (h : Hw) (high : Nat) (l : List Nat) : Hw := l.foldl (fun (h : Hw) x => h.judgeWake high x) h

@[simp] theorem proofView_judged (h : Hw) (high : Nat) (l : List Nat) : proofView (judged h high l) = proofView h := by
  refine foldl_keeps proofView _ (fun h s => ?_) l h
  exact proofView_judgeWake h high s

theorem bit_judged_val (h : Hw) (high : Nat) (l : List Nat) (i : Nat) (i40 : i < 40) :
    (judged h high l).bit Reg.GIO_WAKE_VAL i = (l.any (valBit h high · i) || h.bit Reg.GIO_WAKE_VAL i) := by
  induction l generalizing h with
  | nil => rfl
  | cons s l ih =>
    have later (x : Nat) : valBit (h.judgeWake high s) high x i = valBit h high x i := valBit_congr (proofView_judgeWake h high s) high x i
    refine (ih (h.judgeWake high s)).trans ?_
    rw [bit_judgeWake_val h high s i i40, List.any_cons]
    simp only [later]
    rw [Bool.or_left_comm, ← Bool.or_assoc]

/-- A bit below 9 is set for its own source alone. -/
theorem any_valBit_low (h : Hw) (high : Nat) {l : List Nat} {x : Nat} (x9 : x < 9) (among : x ∈ l) :
    l.any (valBit h high · x) = h.wakeProved high x := by
  have own (s : Nat) : valBit h high s x = true ↔ s = x ∧ h.wakeProved high x = true := by
    unfold valBit
    split
    case isTrue proved =>
      simp only [Bool.and_eq_true, decide_eq_true_eq]
      exact ⟨fun ⟨_, same⟩ => ⟨same.symm, same ▸ proved⟩, fun ⟨same, _⟩ => ⟨by omega, same.symm⟩⟩
    case isFalse unproved =>
      simp only [decide_eq_true_eq]
      exact ⟨fun same => absurd same (by omega), fun ⟨same, proved⟩ => absurd (same ▸ proved) unproved⟩
  rw [Bool.eq_iff_iff, List.any_eq_true]
  exact ⟨fun ⟨s, _, sets⟩ => ((own s).mp sets).2, fun proved => ⟨x, among, (own x).mpr ⟨rfl, proved⟩⟩⟩

/-- OPEN is bit 39, which no judgement sets. -/
theorem any_valBit_open (h : Hw) (high : Nat) {l : List Nat} (sources : ∀ s ∈ l, s < 12) : l.any (valBit h high · 39) = false := by
  rw [List.any_eq_false]
  intro s among
  have s12 := sources s among
  have s39 : ¬ 39 = s := by omega
  have high39 : ¬ 39 = 12 + s := by omega
  simp [valBit, s39, high39]

/-- The sources of WAKE_SRC, in the order in which the window judges them. -/
def wakeSources (h : Hw) : List Nat := (List.range 12).filter fun x => h.bit Reg.WAKE_SRC x

theorem closeWindow_eq (h : Hw) (high : Nat) :
    h.closeWindow high = (judged (h.setReg Reg.GIO_WAKE_VAL 0) high (wakeSources h)).setBit Reg.GIO_IRQ_STAT 2 := rfl

theorem mem_wakeSources {h : Hw} {x : Nat} : x ∈ wakeSources h ↔ x < 12 ∧ h.bit Reg.WAKE_SRC x = true := by
  rw [wakeSources, List.mem_filter, List.mem_range]

/-- After the close of the window a bit of GIO_WAKE_VAL is set where some source's judgement sets it. -/
theorem bit_closeWindow_val (h : Hw) (high i : Nat) (i40 : i < 40) :
    (h.closeWindow high).bit Reg.GIO_WAKE_VAL i = (wakeSources h).any (valBit h high · i) := by
  have cleared : (h.setReg Reg.GIO_WAKE_VAL 0).bit Reg.GIO_WAKE_VAL i = false := by
    unfold Hw.bit
    rw [reg_setReg_same]
    simp [bitN]
  have before (s : Nat) : valBit (h.setReg Reg.GIO_WAKE_VAL 0) high s i = valBit h high s i :=
    valBit_congr (proofView_setReg h _ _) high s i
  rw [closeWindow_eq, bit_congr (reg_setBit_ne _ _ _ _ (by decide)), bit_judged_val _ _ _ _ i40, cleared, Bool.or_false]
  simp only [before]

theorem closeWindow_spec (h : Hw) (high : Nat) :
    (h.closeWindow high).bit Reg.GIO_IRQ_STAT 2 = true ∧ (h.closeWindow high).bit Reg.GIO_WAKE_VAL 39 = false ∧
      (h.closeWindow high).lc = h.lc ∧
      ∀ x, x < 9 → h.bit Reg.WAKE_SRC x = true → (h.closeWindow high).bit Reg.GIO_WAKE_VAL x = h.wakeProved high x ∧
        (h.wakeProved high x = false → (h.closeWindow high).bit Reg.GIO_WAKE_VAL (12 + x) = true) := by
  refine ⟨?_, ?_, ?_, fun x x9 source => ?_⟩
  · exact bit_setBit_same _ _ 2 (by decide)
  · rw [bit_closeWindow_val _ _ _ (by decide)]
    exact any_valBit_open h high fun s among => (mem_wakeSources.mp among).1
  · have kept : proofView (h.closeWindow high) = proofView h := by rw [closeWindow_eq]; simp
    exact (proofView_inj kept).1
  · have among : x ∈ wakeSources h := mem_wakeSources.mpr ⟨by omega, source⟩
    rw [bit_closeWindow_val _ _ _ (by omega), bit_closeWindow_val _ _ _ (by omega)]
    refine ⟨any_valBit_low h high x9 among, fun unproved => ?_⟩
    exact List.any_eq_true.mpr ⟨x, among, by simp [valBit, unproved]⟩

/-! ### Back-off (R666) -/

theorem backoffEnd_setBackoff_same (h : Hw) (s e : Nat) : (h.setBackoff s e).backoffEnd s = e :=
  get_set_same (fun _ => 0) h.pwr.backoff s e

theorem backoffEnd_setBackoff_ne (h : Hw) (s x e : Nat) (ne : x ≠ s) : (h.setBackoff s e).backoffEnd x = h.backoffEnd x :=
  get_set_ne (fun _ => 0) h.pwr.backoff s x e ne

/-- A back-off that ends at instant 0 is none. -/
theorem inBackoff_setBackoff_zero (h : Hw) (s : Nat) : (h.setBackoff s 0).inBackoff s = false := by
  unfold Hw.inBackoff
  rw [backoffEnd_setBackoff_same]
  exact decide_eq_false (Nat.not_lt_zero _)

/-! ### WAKE_LINE (R663) -/

/-- A write of DISPATCH accepted at `acc` is pending for `lc`. -/
def dispatchPending (h : Hw) (acc lc : Nat) : Hw :=
  h.onKop fun k =>
    { k with pend := k.pend ++ [({ oid := 0x38C00000, acc := acc, lc := lc, type := 1, value := [1], ticket := 0, session := 0 } : LcWrite)] }

/-- DISPATCH as VM0 writes it: journaled, and pending for LC a + LEAD. -/
def dispatchWritten (h : Hw) : Hw :=
  let lc := h.lc + h.fld Reg.FAB_LT_CFG Fld.FAB_LT_CFG_LEAD
  dispatchPending (h.journalCommand lc 0x38C00000 [1]) h.lc lc

theorem wakeLineRise_eq {h : Hw} (day : h.inState psDay = true) (level : h.level = 3) (dispatch : h.pwr.dispatch = false)
    (vm0 : (h.vmSlot 0).state = .running) : h.wakeLineRise = dispatchWritten h := by
  have rises : (h.inState psDay && h.level == 3 && !h.pwr.dispatch && (h.vmSlot 0).state == .running) = true := by
    simp [day, level, dispatch, vm0]
  refine (if_pos rises).trans ?_
  exact congrArg (dispatchPending (h.journalCommand _ 0x38C00000 [1]) · _) (lc_journalCommand h _ _ _)

theorem dispatchWritten_spec (h : Hw) :
    (dispatchWritten h).lc = h.lc ∧ (dispatchWritten h).kop.pend.length = h.kop.pend.length + 1 := by
  constructor
  · exact lc_journalCommand h _ _ _
  · unfold dispatchWritten dispatchPending Hw.onKop
    dsimp only
    rw [kop_journalCommand, List.length_append, List.length_singleton]

/-! ### The obligation -/

/-- Settles O48: each clause is the function of its event under the clause's conditions, with the lemmas above on what it sets. -/
theorem wakeSourcesDecodeJudgeAndBackOff : Obligations.WakeSourcesDecodeJudgeAndBackOff := by
  unfold Obligations.WakeSourcesDecodeJudgeAndBackOff
  refine ⟨?none, ?night, ?plantFirst, ?frame, ?frameOff, ?bad, ?good, ?overflow, ?close, ?ends, ?clear, ?denied, ?rise, ?fall, ?line, ?dispatched⟩
  case none => exact fun h mask => wake_of_none
  case night => exact fun h mask => wake_of_night
  case plantFirst => exact fun h l x => firstWake_service
  case frame =>
    intro n hdr data s on matches_
    exact ends_of_next (next_onHw s (wakeFrameSeen_eq on matches_)) ⟨rfl, selectiveWakeFrame_spec s.hw n n.isLt _⟩
  case frameOff =>
    intro n hdr data s off
    refine next_onHw s (g := id) (if_neg ?_)
    simp [off]
  case bad =>
    intro n s on
    exact next_onHw s (if_pos on)
  case good =>
    intro n s on
    exact next_onHw s (if_pos on)
  case overflow =>
    intro n s on full enabled
    exact ends_of_next (next_onHw s (fecOverflow_eq on full enabled)) ⟨rfl, wakeFecOverflow_spec s.hw n n.isLt _⟩
  case close =>
    intro high s sys opened due
    refine ends_of_next (next_onHw s (if_pos ?_)) ⟨rfl, closeWindow_spec s.hw high.toNat⟩
    simp [sys, opened, due]
  case ends =>
    intro src s on ran
    refine ends_of_next (next_onHw s (if_pos ?_)) ⟨rfl, inBackoff_setBackoff_zero _ _, backoffEnd_setBackoff_same _ _ _, fun x _ ne =>
      backoffEnd_setBackoff_ne _ _ _ _ ne⟩
    simp [on, ran]
  case clear =>
    intro who src s writer on
    exact next_onHw s ((if_pos writer).trans (if_pos on))
  case denied =>
    intro who src s denied
    exact next_onHw s (if_neg (by simp [denied]))
  case rise =>
    intro i s runs day declared low
    exact next_onHw s (by simp [Hw.diChange, runs, day, declared, low])
  case fall =>
    intro i s runs day declared high
    exact next_onHw s (by simp [Hw.diChange, runs, day, declared, high])
  case line =>
    intro s day level dispatch vm0
    exact ends_of_next (next_onHw s (wakeLineRise_eq day level dispatch vm0)) ⟨rfl, dispatchWritten_spec s.hw⟩
  case dispatched =>
    intro s dispatch
    exact next_onHw s (g := id) (if_neg (by simp [dispatch]))

end Sys2Proof.Proofs
end

section
/-! PROOFS. Checkpoints: what CHECKPOINT_DUE writes to the next slot, and the COMMIT word of CHECKPOINT_COMMIT (O24). -/

namespace Sys2Proof.Proofs

open Sys2Proof.Machine Sys2Proof.Laws

/-! ### The body of a checkpoint (R132, R133) -/

/-- The eight header words of the next checkpoint: SLOT_SEQ is one above every other slot's. -/
def ckptHeader (s : State) : List Word :=
  [1, word ((List.range 16).foldl (fun m j => max m (s.ckptSeq j)) 0 + 1), word s.hw.lcCommit, s.hw.cfg.fab.cellmap,
    word (Config.fmcFormat s.hw.builds.fmc % 2 ^ 16), word s.cellsInOrder.length, 0, 0]

/-- The 64 checkpointed points of every declared cell. -/
def ckptCells (s : State) : List Word := s.cellsInOrder.flatMap fun c => (List.range 64).map fun j => s.hw.point c (0x20 + j)

/-- The body of a checkpoint stands in the next slot, which waits for its COMMIT word, and the hour begins anew. -/
def ckptOpened (s : State) : State :=
  { s with
    nor := s.nor.programList (norCkpt + 0x110000 * s.ckptNext) (ckptHeader s ++ ckptCells s)
    hw := { s.hw with ckpt := some s.ckptNext, fab := { s.hw.fab with sinceCkpt := 0 } } }

/-- With VNOR good and no checkpoint that waits for its COMMIT word, the body is written. -/
theorem writeCheckpoint_eq {s : State} (on : s.hw.norOn = true) (idle : s.hw.ckpt = none) :
    s.writeCheckpoint = ckptOpened s :=
  if_neg (by simp [on, idle])

/-- CHECKPOINT_DUE writes a checkpoint where it is due: Day at Full, an hour since the last one (R132). -/
theorem exec_checkpointDue_of_due {s : State} (day : s.hw.inState psDay = true) (level : s.hw.level = 3)
    (hour : 3600000 ≤ s.hw.fab.sinceCkpt) : exec .checkpointDue s = .next s.writeCheckpoint :=
  congrArg Host.Outcome.next (if_pos (by simp [day, level, hour]))

/-! ### The COMMIT word (R133, R161) -/

/-- The COMMIT word over the words of slot k is programmed after the last of them, and no checkpoint waits any more. -/
def ckptCommitted (s : State) (k : Nat) : State :=
  let n := (s.ckptWord k 5).toNat
  { s with
    nor := s.nor.program (norCkpt + 0x110000 * k + 8 + 64 * n)
      (State.commitWord ((List.range (8 + 64 * n)).map fun w => s.ckptWord k w))
    hw := { s.hw with ckpt := none } }

/-- Where at most 14 slots are written, none is erased. -/
theorem eraseSlots_of_length_le {s : State} (few : ((List.range 16).filter fun j => s.ckptWritten j).length ≤ 14) (n : Nat) :
    s.eraseSlots n = s := by
  cases n with
  | zero => rfl
  | succ n => exact if_pos few

/-- With VNOR good the COMMIT word of the waiting slot is programmed, and then slots are erased. -/
theorem commitCheckpoint_eq {s : State} {k : Nat} (waiting : s.hw.ckpt = some k) (on : s.hw.norOn = true) :
    s.commitCheckpoint = (ckptCommitted s k).eraseSlots 16 := by
  unfold State.commitCheckpoint
  rw [waiting]
  exact if_neg (by simp [on])

/-! ### The obligation -/

/-- Settles O24: what is written is `ckptOpened`, what is committed is `ckptCommitted`, and `eraseSlots_of_length_le` leaves the
slots as they are. -/
theorem checkpointsAreWrittenAndCommitted : Obligations.CheckpointsAreWrittenAndCommitted := by
  unfold Obligations.CheckpointsAreWrittenAndCommitted
  refine ⟨?written, ?due, ?commit⟩
  case written =>
    intro s on idle
    rw [writeCheckpoint_eq on idle]
    dsimp only [ckptOpened, ckptHeader, ckptCells]
    exact ⟨rfl, rfl, rfl⟩
  case due =>
    intro s day level hour on idle
    refine ends_of_next (exec_checkpointDue_of_due day level hour) ⟨rfl, ?_⟩
    rw [writeCheckpoint_eq on idle]
    exact ⟨rfl, rfl, rfl, rfl⟩
  case commit =>
    intro k s waiting on few
    exact congrArg Host.Outcome.next ((commitCheckpoint_eq waiting on).trans (eraseSlots_of_length_le few 16))

end Sys2Proof.Proofs
end

section
/-! PROOFS. The NOR flash keeps its canonical form whatever is carried out (O57). -/

namespace Sys2Proof.Proofs

open Sys2Proof.Machine Sys2Proof.Laws

/-- Settles O57, by `step_keeps`: the flash that a step starts from is the one it keeps the form of, since taking a command off
the queue leaves the flash alone. -/
theorem theFlashKeepsItsCanonicalForm : Obligations.TheFlashKeepsItsCanonicalForm := by
  unfold Obligations.TheFlashKeepsItsCanonicalForm
  intro s t canonical stepped
  exact (step_keeps stepped).nor canonical

end Sys2Proof.Proofs
end

section
/-! PROOFS. A patrol of a local memory corrects the word that a bit error has struck, which the statement of NOR operations and the
patrol leaves out (O25). -/

namespace Sys2Proof.Proofs

open Sys2Proof.Machine Sys2Proof.Laws

/-! ### The patrol of a local memory (R147, R151, R284) -/

/-- Counting an error changes no engine. -/
@[simp] theorem engine_eccFound (h : Hw) (m a : Nat) (f : Flaw) (e : Nat) : (h.eccFound m a f).engine e = h.engine e := by
  cases f with
  | sound => rfl
  | single => rfl
  | double =>
    unfold Hw.eccFound Hw.eccUncorrectable
    dsimp only
    split <;> rfl

/-- A word of an engine's working area. -/
def workWord (h : Hw) (e a : Nat) : Container := Tabs.get blankLocal (h.engine e).work a

/-- A read of a word that a single bit error has struck corrects it in place, and finds no uncorrectable error (R147). -/
theorem localRead_of_single {h : Hw} {e a : Nat} (work : a < 0x800) (struck : (workWord h e a).flaw = .single) :
    (workWord (h.localRead e a .sound).1 e a).flaw = .sound ∧ (h.localRead e a .sound).2 = false := by
  have hit : ((workWord h e a).hit .sound).flaw = .single := by
    rw [Container.hit, struck]
    rfl
  have notDouble : (((workWord h e a).hit .sound).finds == Flaw.double) = false := by
    rw [Container.finds, hit]
    split <;> rfl
  unfold workWord at hit notDouble ⊢
  rw [Hw.localRead, if_pos work, if_neg (by rw [hit]; decide)]
  refine ⟨?_, notDouble⟩
  rw [engine_eccFound, engine_setEngine_same, get_set_same, Container.read]

/-- The next word that the patrol of an engine's local memory visits. -/
def patrolAt (h : Hw) (e : Fin 512) : Nat := Tabs.get (fun _ => 0) h.patrol (64 + e.val)

/-- The patrol has moved on to the word behind the one that it visits, and wraps at the end of the memory. -/
def patrolMoved (h : Hw) (e : Fin 512) : Hw :=
  { h with patrol := Tabs.set (fun _ => (0 : Nat)) h.patrol (64 + e.val) ((patrolAt h e + 1) % 0x1000) }

/-- A patrol of a local memory whose read finds no uncorrectable error is that read alone. -/
theorem patrolStep_of_noDouble {h : Hw} {e : Fin 512} {f : Flaw} (on : (h.scrubbed (.localMem e)).2.2.2 = true)
    (noDouble : ((patrolMoved h e).localRead e (patrolAt h e) f).2 = false) :
    h.patrolStep (.localMem e) f = ((patrolMoved h e).localRead e (patrolAt h e) f).1 := by
  refine (if_neg (by simp [on])).trans ?_
  split <;> rename_i read
  · exact Bool.noConfusion ((congrArg Prod.snd read).symm.trans noDouble)
  · exact (congrArg Prod.fst read).symm

/-- The patrol corrects the word of the working area that it visits, where a single bit error has struck it. -/
theorem patrolStep_of_single {h : Hw} {e : Fin 512} (on : (h.scrubbed (.localMem e)).2.2.2 = true)
    (work : patrolAt h e < 0x800) (struck : (workWord h e (patrolAt h e)).flaw = .single) :
    (workWord (h.patrolStep (.localMem e) .sound) e (patrolAt h e)).flaw = .sound := by
  obtain ⟨corrected, noDouble⟩ := localRead_of_single (h := patrolMoved h e) work struck
  rw [patrolStep_of_noDouble on noDouble]
  exact corrected

/-! ### The counterexample -/

/-- Day of a booted device with every rail and island good; a single bit error has struck the first local word of engine 0, where
the patrol stands. -/
def struckLocalWord : State :=
  { hw := { regs := [(Reg.PWR_STATE, 3), (Reg.PWR_RAIL_PG, BitVec.allOnes 40), (Reg.PWR_ISLAND_PG, BitVec.allOnes 40)], pwr := { cause := 1 },
            eng := [(0, { Engine.init with work := [(0, { flaw := .single })] })] } }

/-- Refutes O25, at its clause of the local memories: the patrol visits the struck word of `struckLocalWord` and corrects it
(R147, R151), where the clause has it move on and leave all else as it was. -/
theorem not_norOperationsAndThePatrolComplete : ¬ Obligations.NorOperationsAndThePatrolComplete := by
  unfold Obligations.NorOperationsAndThePatrolComplete
  rintro ⟨-, -, -, -, -, -, -, -, -, localPatrol⟩
  have on : (struckLocalWord.hw.scrubbed (.localMem 0)).2.2.2 = true := by decide +kernel
  have struck : (workWord struckLocalWord.hw 0 0).flaw = .single := by decide +kernel
  have claim : struckLocalWord.hw.patrolStep (.localMem 0) .sound = patrolMoved struckLocalWord.hw 0 :=
    congrArg State.hw (Host.Outcome.next.inj (localPatrol 0 struckLocalWord on))
  have corrected : (workWord (struckLocalWord.hw.patrolStep (.localMem 0) .sound) 0 0).flaw = .sound :=
    patrolStep_of_single on (by decide) struck
  rw [claim] at corrected
  exact Flaw.noConfusion (struck.symm.trans corrected)

end Sys2Proof.Proofs
end

section
/-! PROOFS. Guard events: an event that is raised is active, whatever its row does (R433 to R438). -/

namespace Sys2Proof.Proofs

open Sys2Proof.Machine Sys2Proof.Laws

/-! ### What the journal and the switch leave of the registers below their own

The journal's registers begin at 0x10300000, the switch's and the MACs' at 0x10800000; the guards' lie below them. -/

/-- The registers below the journal's and the switch's. -/
def lowRegs (h : Hw) : Nat → Word := fun a => if a < 0x10300000 then h.reg a else 0

theorem lowRegs_congr {h g : Hw} (regs : h.regs = g.regs) : lowRegs h = lowRegs g := by
  unfold lowRegs Hw.reg
  rw [regs]

theorem reg_of_lowRegs {h g : Hw} (same : lowRegs h = lowRegs g) {a : Nat} (low : a < 0x10300000) : h.reg a = g.reg a := by
  have at_ := congrFun same a
  unfold lowRegs at at_
  rwa [if_pos low, if_pos low] at at_

theorem lowRegs_setReg {a : Nat} (high : 0x10300000 ≤ a) (h : Hw) (v : Word) : lowRegs (h.setReg a v) = lowRegs h := by
  funext b
  unfold lowRegs
  split
  case isTrue low => exact reg_setReg_ne h a b v (by omega)
  case isFalse => rfl

theorem lowRegs_count {a : Nat} (high : 0x10300000 ≤ a) (h : Hw) : lowRegs (h.count a) = lowRegs h := by
  unfold Hw.count Hw.countFld
  split
  · exact lowRegs_setReg high h _
  · rfl

@[simp] theorem lowRegs_journalWords (h : Hw) (ws : List Word) : lowRegs (h.journalWords ws) = lowRegs h := by
  have written : lowRegs (h.writeRamList (dramBase + h.wpos % 2 ^ 30) ws) = lowRegs h := lowRegs_congr (regs_writeRamList h _ ws)
  unfold Hw.journalWords
  dsimp only
  rw [lowRegs_setReg (by decide)]
  split
  · exact written
  · exact (lowRegs_congr rfl).trans written

@[simp] theorem lowRegs_note (h : Hw) (rt sub : Nat) (body : List Word) : lowRegs (h.note rt sub body) = lowRegs h := by
  simp [Hw.note, Hw.record, apply_ite lowRegs]

@[simp] theorem lowRegs_onSw (h : Hw) (f : Switcher → Switcher) : lowRegs (h.onSw f) = lowRegs h := lowRegs_congr rfl

@[simp] theorem lowRegs_setFree (h : Hw) (n : Nat) : lowRegs (h.setFree n) = lowRegs h :=
  (lowRegs_setReg (by decide) _ _).trans (lowRegs_setReg (by decide) h _)

theorem lowRegs_swNote {r : Nat} (high : 0x10300000 ≤ r) (h : Hw) (i : Nat) : lowRegs (h.swNote r i) = lowRegs h :=
  (lowRegs_setReg (by decide) _ _).trans (lowRegs_count high h)

@[simp] theorem lowRegs_dropFrame (h : Hw) (f : SwFrame) : lowRegs (h.dropFrame f) = lowRegs h := by
  simp [Hw.dropFrame, apply_ite lowRegs]

@[simp] theorem lowRegs_macCount (h : Hw) (p j n : Nat) : lowRegs (h.macCount p j n) = lowRegs h := by
  have counted (v : Word) : lowRegs (h.setReg (Reg.MAC_CNT p j) v) = lowRegs h :=
    lowRegs_setReg (by simp only [Reg.MAC_CNT]; omega) h v
  have half (g : Hw) : lowRegs ((g.setBit (Reg.MAC_HALF p) j).setBit (Reg.MAC_IRQ_STAT p) 1) = lowRegs g :=
    (lowRegs_setReg (by simp only [Reg.MAC_IRQ_STAT]; omega) _ _).trans
      (lowRegs_setReg (by simp only [Reg.MAC_HALF]; omega) g _)
  simp [Hw.macCount, apply_ite lowRegs, counted, half]

@[simp] theorem lowRegs_reserve (h : Hw) (p c : Nat) (unicast : Bool) (mask : List Nat) :
    lowRegs (h.reserve p c unicast mask).1 = lowRegs h := by
  unfold Hw.reserve
  split
  · rfl
  · split
    · exact lowRegs_setFree h _
    · split
      · split
        · rfl
        · split
          · rfl
          · refine (lowRegs_setFree _ _).trans (foldl_keeps lowRegs _ (fun h v => ?_) _ h)
            rw [lowRegs_swNote (by decide), lowRegs_macCount, lowRegs_dropFrame]
      · rfl

@[simp] theorem lowRegs_inject (h : Hw) (bytes : List Byte) (ports : List Nat) : lowRegs (h.inject bytes ports) = lowRegs h := by
  have dropped : lowRegs (h.swNote Reg.SWC_CNT_INJ_DROP 1) = lowRegs h := lowRegs_swNote (by decide) h 1
  simp [Hw.inject, Hw.joinSw, apply_ite lowRegs, dropped]

@[simp] theorem lowRegs_inject6 (h : Hw) (bytes : List Byte) (ports : List Nat) : lowRegs (h.inject6 bytes ports) = lowRegs h := by
  simp [Hw.inject6, Hw.joinSw, apply_ite lowRegs]

@[simp] theorem lowRegs_sendPeerTo (h : Hw) (kind dst mac : Nat) (body : List Byte) :
    lowRegs (h.sendPeerTo kind dst mac body) = lowRegs h := by
  unfold Hw.sendPeerTo
  refine (foldl_keeps lowRegs _ (fun h x => ?_) _ _).trans (lowRegs_congr rfl)
  simp [apply_ite lowRegs]

@[simp] theorem lowRegs_peerCountUp (h : Hw) (i : Nat) : lowRegs (h.peerCountUp i) = lowRegs h := lowRegs_congr rfl

/-! ### What the actions of a row leave of the registers of GRD_EVT_ACT (R434, R437, R438, R720) -/

@[simp] theorem lowRegs_startStop (h : Hw) : lowRegs h.startStop = lowRegs h := by
  have sent : lowRegs h.sendStop = lowRegs h := by simp [Hw.sendStop, apply_ite lowRegs]
  exact (lowRegs_congr rfl).trans sent

@[simp] theorem lowRegs_startTrip (h : Hw) (e : Nat) : lowRegs (h.startTrip e) = lowRegs h := by
  have sent : lowRegs (h.sendTrip e 0) = lowRegs h := by simp [Hw.sendTrip, apply_ite lowRegs]
  exact (lowRegs_congr rfl).trans sent

@[simp] theorem lowRegs_guardNote (h : Hw) (e action : Nat) : lowRegs (h.guardNote e action) = lowRegs h := by
  have retained (code : Nat) (data : Word) : lowRegs (h.retEntry code data) = lowRegs h := by
    funext a
    simp [lowRegs]
  simp [Hw.guardNote, apply_ite lowRegs, retained]

/-- The words of GRD_EVT_ACT, which say which events are active (R433). -/
def activeWords (h : Hw) : Nat → Word := fun i => if i < 0x20 then h.reg (Reg.GRD_EVT_ACT i) else 0

theorem activeWords_congr {h g : Hw} (regs : lowRegs h = lowRegs g) : activeWords h = activeWords g := by
  funext i
  unfold activeWords
  split
  · exact reg_of_lowRegs regs (by simp only [Reg.GRD_EVT_ACT]; omega)
  · rfl

theorem activeWords_setReg {a : Nat} (apart : a < Reg.GRD_EVT_ACT 0 ∨ Reg.GRD_EVT_LATCH 0 ≤ a) (h : Hw) (v : Word) :
    activeWords (h.setReg a v) = activeWords h := by
  funext i
  unfold activeWords
  split
  · refine reg_setReg_ne h a _ v ?_
    simp only [Reg.GRD_EVT_ACT, Reg.GRD_EVT_LATCH] at apart ⊢
    omega
  · rfl

theorem activeWords_count {a : Nat} (apart : a < Reg.GRD_EVT_ACT 0 ∨ Reg.GRD_EVT_LATCH 0 ≤ a) (h : Hw) :
    activeWords (h.count a) = activeWords h := by
  unfold Hw.count Hw.countFld
  split
  · exact activeWords_setReg apart h _
  · rfl

@[simp] theorem activeWords_setHardLines (h : Hw) (hl : Nat) : activeWords (h.setHardLines hl) = activeWords h := by
  obtain ⟨regs, -, -⟩ := offView_inj (offView_setHardLines h hl)
  exact activeWords_congr (lowRegs_congr regs)

@[simp] theorem activeWords_applyMatrix (h : Hw) : activeWords h.applyMatrix = activeWords h := by
  have stat (g : Hw) (f : BitField) (v : Nat) : activeWords (g.setFld Reg.GRD_STAT f v) = activeWords g :=
    activeWords_setReg (by decide) g _
  simp [Hw.applyMatrix, stat]

@[simp] theorem activeWords_enterSafe (h : Hw) (e : Nat) : activeWords (h.enterSafe e) = activeWords h := by
  unfold Hw.enterSafe
  split
  · rfl
  · refine (activeWords_applyMatrix _).trans ((activeWords_congr ((lowRegs_startTrip _ e).trans (lowRegs_startStop _))).trans ?_)
    exact (activeWords_setReg (by decide) _ _).trans (activeWords_setReg (by decide) h _)

@[simp] theorem activeWords_rowActions (h : Hw) (e : Nat) : activeWords (h.rowActions e) = activeWords h := by
  have irq (i : Nat) : activeWords (h.setBit Reg.GRD_IRQ_STAT i) = activeWords h := activeWords_setReg (by decide) h _
  have stop (g : Hw) : activeWords g.startStop = activeWords g := activeWords_congr (lowRegs_startStop g)
  have trip (g : Hw) : activeWords (g.startTrip e) = activeWords g := activeWords_congr (lowRegs_startTrip g e)
  simp [Hw.rowActions, apply_ite activeWords, irq, stop, trip]

@[simp] theorem activeWords_firstEvent (h : Hw) (e ring pos : Nat) (node : Bool) :
    activeWords (h.firstEvent e ring pos node) = activeWords h := by
  unfold Hw.firstEvent
  split
  · rfl
  · refine (activeWords_setReg (by decide) _ _).trans ((activeWords_setReg (by decide) _ _).trans ?_)
    exact (activeWords_setReg (by decide) _ _).trans (activeWords_congr (lowRegs_congr rfl))

/-! ### An event that is raised (R433) -/

theorem evActive_congr {h g : Hw} (same : activeWords h = activeWords g) {e : Nat} (known : e < 0x500) : h.evActive e = g.evActive e := by
  have at_ := congrFun same (e / 40)
  unfold activeWords at at_
  rw [if_pos (by omega), if_pos (by omega)] at at_
  exact bit_congr at_ _

/-- An event that becomes active: what follows the setting of its bit leaves the bit. -/
theorem activeWords_raiseEvent {h : Hw} {e : Nat} (on : h.grdOn = true) (known : evExists e = true) (quiet : h.evActive e = false)
    (ring pos : Nat) (node : Bool) :
    activeWords (h.raiseEvent e ring pos node) = activeWords (h.setBit (Reg.GRD_EVT_ACT (e / 40)) (e % 40)) := by
  have note (g : Hw) (action : Nat) : activeWords (g.guardNote e action) = activeWords g := activeWords_congr (lowRegs_guardNote g e action)
  have warned (g : Hw) : activeWords (g.count Reg.GRD_CNT_WARN) = activeWords g := activeWords_count (by decide) g
  have tripped (g : Hw) : activeWords (g.count Reg.GRD_CNT_TRIP) = activeWords g := activeWords_count (by decide) g
  have measured (g : Hw) : activeWords (g.count Reg.GRD_CNT_MEAS) = activeWords g := activeWords_count (by decide) g
  have latched (g : Hw) (i : Nat) : activeWords (g.setBit (Reg.GRD_EVT_LATCH (e / 40)) i) = activeWords g :=
    activeWords_setReg (.inr (by simp only [Reg.GRD_EVT_LATCH]; omega)) g _
  have quiet' : (h.setCond e true).evActive e = false := quiet
  have set_ : activeWords ((h.setCond e true).setBit (Reg.GRD_EVT_ACT (e / 40)) (e % 40)) =
      activeWords (h.setBit (Reg.GRD_EVT_ACT (e / 40)) (e % 40)) := rfl
  simp [Hw.raiseEvent, on, known, quiet', apply_ite activeWords, note, warned, tripped, measured, latched, set_]

/-- With the guards armed an event that is raised is active. -/
theorem evActive_raiseEvent {h : Hw} {e : Nat} (on : h.grdOn = true) (known : evExists e = true) (ring pos : Nat) (node : Bool) :
    (h.raiseEvent e ring pos node).evActive e = true := by
  have inWords : e < 0x500 := by
    simp only [evExists, Bool.or_eq_true, Bool.and_eq_true, decide_eq_true_eq] at known
    omega
  cases active : h.evActive e with
  | false =>
    rw [evActive_congr (activeWords_raiseEvent on known active ring pos node) inWords]
    exact bit_setBit_same h _ _ (Nat.mod_lt e (by decide))
  | true =>
    have stays : (h.setCond e true).evActive e = true := active
    simp [Hw.raiseEvent, on, known, stays]

end Sys2Proof.Proofs
end

section
/-! PROOFS. What a ring cycle leaves of LC and of the power controller: what ends with it, and what begins with it (R190, R191, R253). -/

namespace Sys2Proof.Proofs

open Sys2Proof.Machine Sys2Proof.Laws

/-! ### Frames out of an end (R178, R193, R213) -/

/-- What a frame out of an end leaves, whether it is sent or its own looped port judges it: all that a transmission, a port's
counter and a port's own state leave. -/
theorem sendFrame_view {β : Type} (view : Hw → β) (sends : ∀ (h : Hw) l b, view (h.send l b) = view h)
    (counts : ∀ (h : Hw) a n, a ≠ Reg.VNK_CYCLE → view (h.countBy a n) = view h) (ports : ∀ (h : Hw) p f, view (h.onPort p f) = view h)
    (h : Hw) (k : Nat) (endB : Bool) (type : Nat) (hop : Bool) (n : Nat) (payload : List Byte) :
    view (h.sendFrame k endB type hop n payload) = view h := by
  have counted (p a m : Nat) (block : Bool) (apart : a ≠ Reg.VNK_CYCLE) : view (h.portCount p a m block) = view h := by
    unfold Hw.portCount
    dsimp only
    split
    · exact (ports _ _ _).trans (counts h a m apart)
    · exact counts h a m apart
  have code (p m : Nat) (block : Bool) : view (h.portCount p (Reg.VNK_PORT_CNT_CODE p) m block) = view h :=
    counted p _ m block (by simp only [Reg.VNK_PORT_CNT_CODE, Reg.VNK_CYCLE]; omega)
  have slot (p m : Nat) (block : Bool) : view (h.portCount p (Reg.VNK_PORT_CNT_SLOT p) m block) = view h :=
    counted p _ m block (by simp only [Reg.VNK_PORT_CNT_SLOT, Reg.VNK_CYCLE]; omega)
  have crc (p m : Nat) (block : Bool) : view (h.portCount p (Reg.VNK_PORT_CNT_CRC p) m block) = view h :=
    counted p _ m block (by simp only [Reg.VNK_PORT_CNT_CRC, Reg.VNK_CYCLE]; omega)
  have header (p m : Nat) (block : Bool) : view (h.portCount p (Reg.VNK_PORT_CNT_HDR p) m block) = view h :=
    counted p _ m block (by simp only [Reg.VNK_PORT_CNT_HDR, Reg.VNK_CYCLE]; omega)
  have judged (f : RxFrame) : view (h.judge k endB f).1 = view h := by
    simp [Hw.judge, apply_ite Prod.fst, apply_ite view, code, slot, crc, header, ports]
  unfold Hw.sendFrame
  dsimp only
  split
  · exact sends _ _ _
  · split
    · exact judged _
    · rfl

@[simp] theorem powerView_sendFrame (h : Hw) (k : Nat) (endB : Bool) (type : Nat) (hop : Bool) (n : Nat) (payload : List Byte) :
    powerView (h.sendFrame k endB type hop n payload) = powerView h := by
  refine sendFrame_view powerView (fun h l b => ?_) (fun h a m _ => ?_) (fun h p f => ?_) h k endB type hop n payload
  · exact powerView_congr rfl rfl
  · exact powerView_setReg h a _
  · exact powerView_congr rfl rfl

@[simp] theorem powerView_sendBoth (h : Hw) (k type n : Nat) (payload : List Byte) :
    powerView (h.sendBoth k type n payload) = powerView h :=
  foldl_keeps powerView _ (fun h _ => powerView_sendFrame h _ _ _ _ _ _) _ h

@[simp] theorem powerView_sendSu (h : Hw) (k sub n : Nat) : powerView (h.sendSu k sub n) = powerView h := powerView_sendBoth h _ _ _ _

@[simp] theorem powerView_sendPeer (h : Hw) (kind dst : Nat) (body : List Byte) : powerView (h.sendPeer kind dst body) = powerView h := by
  unfold Hw.sendPeer
  split
  · exact powerView_sendPeerTo h _ _ _ _
  · rfl

/-! ### The command segment (R186, R193, R209, R226) -/

@[simp] theorem powerView_ringRole (h : Hw) (k b : Nat) (v : Bool) : powerView (h.ringRole k b v) = powerView h := by
  simp [Hw.ringRole, apply_ite powerView]

@[simp] theorem powerView_cut (h : Hw) : powerView h.cut = powerView h := by
  have frozen : powerView h.freezeBal = powerView h := foldl_keeps powerView _ (fun h k => powerView_onRing h k _) _ h
  unfold Hw.cut
  split
  · rfl
  · exact (powerView_congr rfl rfl).trans frozen

@[simp] theorem powerView_sendMasks (h : Hw) (k n : Nat) : powerView (h.sendMasks k n) = powerView h := by
  simp [Hw.sendMasks]

@[simp] theorem powerView_sendMirror (h : Hw) (k n : Nat) (cmds : List RingCmd) : powerView (h.sendMirror k n cmds) = powerView h := by
  simp [Hw.sendMirror, apply_ite powerView]

@[simp] theorem powerView_commandSegment (h : Hw) (k n : Nat) : powerView (h.commandSegment k n) = powerView h := by
  unfold Hw.commandSegment
  split
  · rfl
  · dsimp only
    rw [foldl_keeps powerView, powerView_sendMirror, powerView_sendMasks]
    intro h c
    simp [Hw.markSent]

@[simp] theorem powerView_sendOwnSu (h : Hw) (k n : Nat) : powerView (h.sendOwnSu k n) = powerView h := by
  simp [Hw.sendOwnSu, apply_ite powerView]

/-! ### The dynamic segment (R213, R223, R228) -/

@[simp] theorem powerView_draw (h : Hw) (n : Nat) : powerView (h.draw n).2 = powerView h := powerView_congr rfl rfl

@[simp] theorem powerView_setAssign (h : Hw) (k p : Nat) (a : Assign) : powerView (h.setAssign k p a) = powerView h :=
  powerView_onRing h k _

@[simp] theorem powerView_sendAssigns (h : Hw) (k n : Nat) : powerView (h.sendAssigns k n).1 = powerView h := by
  refine foldl_keeps powerView _ (fun h x => ?_) _ h
  simp

@[simp] theorem powerView_deny (h : Hw) (who : Who) (write : Bool) (a : Nat) : powerView (h.deny who write a) = powerView h := by
  simp [Hw.deny]

@[simp] theorem powerView_dyPut (h : Hw) (k i w : Nat) (v : Word) : powerView (h.dyPut k i w v) = powerView h := by
  have written (a : Nat) : powerView (h.writeRam a v) = powerView h := powerView_congr rfl rfl
  simp [Hw.dyPut, apply_ite powerView, written]

@[simp] theorem powerView_dyWrite (h : Hw) (k i : Nat) (ws : List Word) : powerView (h.dyWrite k i ws) = powerView h := by
  unfold Hw.dyWrite
  rw [powerView_setFld, powerView_dyPut]
  exact foldl_keeps powerView _ (fun h x => powerView_dyPut h _ _ _ _) _ h

@[simp] theorem powerView_dyFlush (h : Hw) (k fuel : Nat) : powerView (h.dyFlush k fuel) = powerView h := by
  induction fuel generalizing h with
  | zero => rfl
  | succ fuel ih =>
    unfold Hw.dyFlush
    dsimp only
    split
    · rw [ih, powerView_onRing, powerView_dyWrite]
    · rfl

@[simp] theorem powerView_dyEnd (h : Hw) (k i result rstat lc : Nat) (data : List Byte) :
    powerView (h.dyEnd k i result rstat lc data) = powerView h := by
  simp [Hw.dyEnd]

@[simp] theorem powerView_issueDy (h : Hw) (k n fuel : Nat) (wins : List (Bool × Nat)) :
    powerView (h.issueDy k n wins fuel) = powerView h := by
  induction fuel generalizing h wins with
  | zero => rfl
  | succ fuel ih =>
    unfold Hw.issueDy
    dsimp only
    split
    · rfl
    · split
      · simp [ih, apply_ite powerView]
      · split
        · simp [apply_ite powerView]
        · simp [ih, apply_ite powerView]

@[simp] theorem powerView_sendStatus (h : Hw) (k : Nat) : powerView (h.sendStatus k) = powerView h := by
  simp [Hw.sendStatus, apply_ite powerView]

/-- What a ring sends in a cycle leaves LC and the power controller as they were. -/
@[simp] theorem powerView_sendSegments (h : Hw) (k n : Nat) : powerView (h.sendSegments k n) = powerView h := by
  have segments : powerView (h.segments k n) = powerView h := by simp [Hw.segments, Hw.sendReq, apply_ite powerView]
  simp [Hw.sendSegments, Hw.sendAcc, apply_ite powerView, segments]

/-! ### The end of a cycle (R240, R243, R246, R431) -/

@[simp] theorem powerView_closePort (h : Hw) (p : Nat) : powerView (h.closePort p) = powerView h := by
  refine Eq.trans (powerView_congr rfl rfl) (?_ : powerView (if (h.port p).csNow then h.setBit (Reg.VNK_PORT_STAT p) 4
    else h.clearBit (Reg.VNK_PORT_STAT p) 4) = _)
  simp [apply_ite powerView]

@[simp] theorem powerView_closeGuardCycle (h : Hw) (ks : List Nat) : powerView (h.closeGuardCycle ks) = powerView h := by
  unfold Hw.closeGuardCycle
  split
  · rfl
  · refine (foldl_keeps powerView _ (fun h e => powerView_dropCond h e) _ _).trans ?_
    refine (powerView_congr rfl rfl).trans (?_ : powerView (ite _ _ _) = _)
    simp [Hw.countBy, apply_ite powerView]

@[simp] theorem powerView_closeNode (h : Hw) (k n p : Nat) : powerView (h.closeNode k n p) = powerView h := by
  simp [Hw.closeNode, Hw.countFld, apply_ite powerView]

@[simp] theorem powerView_setBreaks (h : Hw) (k : Nat) : powerView (h.setBreaks k) = powerView h := by
  simp [Hw.setBreaks, apply_ite powerView]

@[simp] theorem powerView_closeRingCycle (h : Hw) (k n : Nat) : powerView (h.closeRingCycle k n) = powerView h := by
  have nodes : powerView ((h.senders k).foldl (fun (h : Hw) p => h.closeNode k n p) h) = powerView h :=
    foldl_keeps powerView _ (fun h p => powerView_closeNode h k n p) _ h
  simp [Hw.closeRingCycle, Hw.ringLost, apply_ite powerView, nodes]

/-! ### The records of a cycle whose slots have passed (R253, R256) -/

@[simp] theorem powerView_setSnp (h : Hw) (x : Snp) : powerView { h with snp := x } = powerView h := powerView_congr rfl rfl

@[simp] theorem powerView_finishChan (h : Hw) (n k p : Nat) (r : Rec) (x : CalVal) (j : Nat) :
    powerView (h.finishChan n k p r x j).1 = powerView h := by
  simp [Hw.finishChan, apply_ite powerView]

@[simp] theorem powerView_finishPos (h : Hw) (n k p : Nat) : powerView (h.finishPos n k p).1 = powerView h := by
  have chans (l : List (CalVal × Nat)) (r : Rec) (a : Hw × List Hw.SnapRec) :
      powerView (l.foldl (fun (a : Hw × List Hw.SnapRec) c =>
        let y := a.1.finishChan n k p r c.1 c.2
        (y.1, a.2 ++ [y.2])) a).1 = powerView a.1 :=
    List.foldlRecOn l _ (motive := fun (b : Hw × List Hw.SnapRec) => powerView b.1 = powerView a.1) rfl fun b kept c _ =>
      (powerView_finishChan b.1 n k p r c.1 c.2).trans kept
  refine (chans _ _ _).trans ?_
  simp [apply_ite powerView]

@[simp] theorem powerView_stage (h : Hw) (n id : Nat) (v st : Word) : powerView (h.stage n id v st) = powerView h :=
  foldl_keeps powerView _ (fun h _ => powerView_writeRamList h _ _) _ h

@[simp] theorem powerView_rollbackFor (h : Hw) (n id : Nat) : powerView (h.rollbackFor n id) = powerView h := by
  refine foldl_keeps powerView _ (fun h e => ?_) _ h
  dsimp only
  split
  · exact powerView_congr rfl rfl
  · rfl

@[simp] theorem powerView_giveInput (h : Hw) (n id : Nat) (v st : Word) : powerView (h.giveInput n id v st) = powerView h := by
  have known (g : Hw) : powerView (g.setInput n id (.value v st)) = powerView g := powerView_congr rfl rfl
  simp [Hw.giveInput, known]

@[simp] theorem powerView_handOn (h : Hw) (n : Nat) (recs : List Hw.SnapRec) : powerView (h.handOn n recs) = powerView h := by
  unfold Hw.handOn
  split
  · refine foldl_keeps powerView _ (fun h r => ?_) _ h
    simp [Hw.lateInput, apply_ite powerView]
  · rfl

@[simp] theorem powerView_setRec (h : Hw) (n k p : Nat) (r : Rec) : powerView (h.setRec n k p r) = powerView h := powerView_congr rfl rfl

@[simp] theorem powerView_finishNow (h : Hw) (n k p : Nat) : powerView (h.finishNow n k p).1 = powerView h := by
  simp [Hw.finishNow, apply_ite Prod.fst, apply_ite powerView]

@[simp] theorem powerView_finishDue (h : Hw) (n k p fuel : Nat) : powerView (h.finishDue n k p fuel) = powerView h := by
  induction fuel generalizing h n with
  | zero => rfl
  | succ fuel ih =>
    unfold Hw.finishDue
    dsimp only
    split
    · rfl
    · rw [ih, powerView_setSnp, powerView_setRec, powerView_finishNow]

@[simp] theorem powerView_slotsPass (h : Hw) (n k : Nat) : powerView (h.slotsPass n k) = powerView h := by
  unfold Hw.slotsPass
  split
  · rfl
  · refine foldl_keeps powerView _ (fun h p => ?_) _ h
    simp [apply_ite powerView]

/-- The end of a ring cycle leaves LC and the power controller as they were. -/
@[simp] theorem powerView_closeCycles (h : Hw) : powerView h.closeCycles = powerView h := by
  unfold Hw.closeCycles
  extract_lets n ks sent ports closed guarded
  have sentView : powerView sent = powerView h := foldl_keeps powerView _ (fun h k => powerView_sendSegments h k n) ks h
  have closedView : powerView closed = powerView sent := foldl_keeps powerView _ (fun h p => powerView_closePort h p) ports sent
  have guardedView : powerView guarded = powerView closed := by simp [guarded, apply_ite powerView]
  split
  · rfl
  · rw [foldl_keeps powerView, guardedView, closedView, sentView]
    intro h k
    simp

end Sys2Proof.Proofs
end

section
/-! PROOFS. Rings: what begins with a cycle, the start of the rings by VNK_CTRL.EN, and the roles of the ends (O31). -/

namespace Sys2Proof.Proofs

open Sys2Proof.Machine Sys2Proof.Laws

/-! ### What begins with a cycle leaves of LC and VNK_CYCLE (R190, R211) -/

/-- LC, and the LC of the ring cycle in progress. -/
def ringCycleView (h : Hw) : Nat × Word := (h.lc, h.reg Reg.VNK_CYCLE)

theorem ringCycleView_congr {h g : Hw} (lc : h.lc = g.lc) (regs : h.regs = g.regs) : ringCycleView h = ringCycleView g :=
  Prod.ext lc (congrArg (Tabs.get regReset · Reg.VNK_CYCLE) regs)

theorem ringCycleView_setReg {a : Nat} (apart : a ≠ Reg.VNK_CYCLE) (h : Hw) (v : Word) :
    ringCycleView (h.setReg a v) = ringCycleView h :=
  Prod.ext rfl (reg_setReg_ne h a _ v apart.symm)

section
variable (h : Hw) (k : Nat)

@[simp] theorem ringCycleView_onRing (f : Ring → Ring) : ringCycleView (h.onRing k f) = ringCycleView h := ringCycleView_congr rfl rfl

@[simp] theorem ringCycleView_draw (n : Nat) : ringCycleView (h.draw n).2 = ringCycleView h := ringCycleView_congr rfl rfl

@[simp] theorem ringCycleView_sendFrame (endB : Bool) (type : Nat) (hop : Bool) (n : Nat) (payload : List Byte) :
    ringCycleView (h.sendFrame k endB type hop n payload) = ringCycleView h := by
  refine sendFrame_view ringCycleView (fun h l b => ?_) (fun h a m apart => ?_) (fun h p f => ?_) h k endB type hop n payload
  · exact ringCycleView_congr rfl rfl
  · exact ringCycleView_setReg apart h _
  · exact ringCycleView_congr rfl rfl

@[simp] theorem ringCycleView_setStat (i : Nat) : ringCycleView (h.setBit (Reg.VNK_RING_STAT k) i) = ringCycleView h :=
  ringCycleView_setReg (by simp only [Reg.VNK_RING_STAT, Reg.VNK_CYCLE]; omega) h _

@[simp] theorem ringCycleView_clearStat (i : Nat) : ringCycleView (h.clearBit (Reg.VNK_RING_STAT k) i) = ringCycleView h :=
  ringCycleView_setReg (by simp only [Reg.VNK_RING_STAT, Reg.VNK_CYCLE]; omega) h _

@[simp] theorem ringCycleView_ringStat (b : Nat) (v : Bool) : ringCycleView (h.ringStat k b v) = ringCycleView h := by
  have irq (g : Hw) : ringCycleView (g.setBit Reg.VNK_IRQ_STAT k) = ringCycleView g := ringCycleView_setReg (by decide) g _
  simp [Hw.ringStat, apply_ite ringCycleView, irq]

@[simp] theorem ringCycleView_ringRole (b : Nat) (v : Bool) : ringCycleView (h.ringRole k b v) = ringCycleView h := by
  have role (w : Word) : ringCycleView (h.setReg (Reg.VNK_RING_ROLE k) w) = ringCycleView h :=
    ringCycleView_setReg (by simp only [Reg.VNK_RING_ROLE, Reg.VNK_CYCLE]; omega) h w
  simp [Hw.ringRole, Hw.setBit, Hw.clearBit, apply_ite ringCycleView, role]

@[simp] theorem ringCycleView_setPhase (p : Nat) : ringCycleView (h.setPhase k p) = ringCycleView h :=
  ringCycleView_setReg (by simp only [Reg.VNK_RING_ROLE, Reg.VNK_CYCLE]; omega) h _

@[simp] theorem ringCycleView_countLead : ringCycleView (h.count (Reg.VNK_RING_CNT_LEAD k)) = ringCycleView h := by
  have counted (w : Word) : ringCycleView (h.setReg (Reg.VNK_RING_CNT_LEAD k) w) = ringCycleView h :=
    ringCycleView_setReg (by simp only [Reg.VNK_RING_CNT_LEAD, Reg.VNK_CYCLE]; omega) h w
  simp [Hw.count, Hw.countFld, Hw.setFld, apply_ite ringCycleView, counted]

@[simp] theorem ringCycleView_setIdle (v : Bool) : ringCycleView (h.setIdle k v) = ringCycleView h := by
  have stat (g : Hw) (p : Nat) (w : Word) : ringCycleView (g.setReg (Reg.VNK_PORT_STAT p) w) = ringCycleView g :=
    ringCycleView_setReg (by simp only [Reg.VNK_PORT_STAT, Reg.VNK_CYCLE]; omega) g w
  refine foldl_keeps ringCycleView _ (fun g e => ?_) _ h
  simp [Hw.setBit, Hw.clearBit, apply_ite ringCycleView, stat]

/-- A ring has fewer than 256 spare slots, whose registers end before VNK_CYCLE. -/
theorem nSpare_lt : h.nSpare k < 256 := Nat.mod_lt _ (by decide)

theorem ringCycleView_setSpareReg {s : Nat} (few : s < 256) (v : Word) :
    ringCycleView (h.setReg (Reg.VNK_SPARE k s) v) = ringCycleView h :=
  ringCycleView_setReg (by simp only [Reg.VNK_SPARE, Reg.VNK_CYCLE]; omega) h v

/-- A change of every spare slot that leaves them leaves them over all slots. -/
theorem ringCycleView_overSpares (op : Hw → Nat → Hw) (step : ∀ g s, s < 256 → ringCycleView (op g s) = ringCycleView g) (g : Hw) :
    ringCycleView ((List.range (h.nSpare k)).foldl op g) = ringCycleView g :=
  List.foldlRecOn _ op (motive := fun x => ringCycleView x = ringCycleView g) rfl fun x kept s among =>
    (step x s ((List.mem_range.mp among).trans (nSpare_lt h k))).trans kept

@[simp] theorem ringCycleView_ownSpares (n : Nat) : ringCycleView (h.ownSpares k n) = ringCycleView h := by
  refine ringCycleView_overSpares h k _ (fun g s few => ?_) h
  split
  · exact ringCycleView_setSpareReg g k few _
  · rfl

@[simp] theorem ringCycleView_leadByTakeOver : ringCycleView (h.leadByTakeOver k) = ringCycleView h := by
  unfold Hw.leadByTakeOver
  extract_lets night g1 g2 g3
  refine (ringCycleView_overSpares g3 k _ (fun g s few => ?_) g3).trans ?_
  · exact (ringCycleView_setSpareReg _ k few _).trans (ringCycleView_onRing g k _)
  · simp [g3, g2, g1]

@[simp] theorem ringCycleView_leadAgain : ringCycleView (h.leadAgain k) = ringCycleView h := by
  have offset (g : Hw) (v : Word) : ringCycleView (g.setReg (Reg.VNK_RING_LCOFS k) v) = ringCycleView g :=
    ringCycleView_setReg (by simp only [Reg.VNK_RING_LCOFS, Reg.VNK_CYCLE]; omega) g v
  simp [Hw.leadAgain, offset]

@[simp] theorem ringCycleView_takeRole (n : Nat) : ringCycleView (h.takeRole k n) = ringCycleView h := by
  simp [Hw.takeRole, Hw.startLead, Hw.startFollow, Hw.standBack, apply_ite ringCycleView]

@[simp] theorem ringCycleView_sendCsSlot (n : Nat) : ringCycleView (h.sendCsSlot k n) = ringCycleView h := by
  have cs (g : Hw) (e : Bool) (mode : Nat) : ringCycleView (g.sendCs k e n mode) = ringCycleView g := by simp [Hw.sendCs]
  unfold Hw.sendCsSlot
  split
  · exact foldl_keeps ringCycleView _ (fun g e => ringCycleView_sendFrame g k e _ _ _ _) _ h
  · refine foldl_keeps ringCycleView _ (fun g e => ?_) _ h
    simp [apply_ite ringCycleView, cs]

@[simp] theorem ringCycleView_firstCycle (n : Nat) : ringCycleView (h.firstCycle k n) = ringCycleView h := by
  simp [Hw.firstCycle, apply_ite ringCycleView]

@[simp] theorem ringCycleView_beginRing (n : Nat) : ringCycleView (h.beginRing k n) = ringCycleView h := by
  simp [Hw.beginRing, apply_ite ringCycleView]

end

/-- RING_CYCLE_START, with the cycle before closed: VNK_CYCLE names the next cycle, which begins on every ring that takes part. -/
def nextRingCycle (h : Hw) : Hw :=
  let h1 := { h.closeCycles.setReg Reg.VNK_CYCLE (word (h.lc + 1)) with frozen := false }
  ((List.range 16).filter fun k => h1.takesPart k (h.lc + 1)).foldl (fun (g : Hw) k => g.beginRing k (h.lc + 1)) h1

theorem ringCycleStart_eq {h : Hw} (on : h.vnkOn = true) (pll : h.bit Reg.CLK_STAT 3 = true) (next : h.cycle ≠ h.lc + 1)
    (day : h.bit Reg.VNK_CTRL 1 = false) : h.ringCycleStart = nextRingCycle h :=
  if_neg (by simp [on, pll, next, day])

theorem nextRingCycle_spec (h : Hw) : (nextRingCycle h).reg Reg.VNK_CYCLE = word (h.lc + 1) ∧ (nextRingCycle h).lc = h.lc := by
  have begun : ringCycleView (nextRingCycle h) = ringCycleView (h.closeCycles.setReg Reg.VNK_CYCLE (word (h.lc + 1))) :=
    (foldl_keeps ringCycleView _ (fun g k => ringCycleView_beginRing g k _) _ _).trans (ringCycleView_congr rfl rfl)
  obtain ⟨lc, cycle⟩ := Prod.mk.inj begun
  exact ⟨cycle.trans (reg_setReg_same _ _ _), lc.trans (powerView_inj (powerView_closeCycles h)).1⟩

/-! ### VNK_CTRL.EN starts the rings (R62, R212, R218, R219) -/

/-- The declared positions of a ring are as many as its schedule has (R212). -/
def declMatches (h : Hw) (k : Nat) : Prop :=
  ((h.declared k).filter (· < 128)).length = h.nCell k ∧
    (h.declared k).length - ((h.declared k).filter (· < 128)).length = h.nAux k

/-- The change of a configured ring that `Hw.vnkStart` makes. -/
def startRing (h : Hw) (k : Nat) : Hw :=
  let cells := ((h.declared k).filter (· < 128)).length
  let aux := (h.declared k).length - cells
  if cells ≠ h.nCell k ∨ aux ≠ h.nAux k then h.ringStat k 19 true
  else
    let h := (h.setIdle k false).setFld (Reg.VNK_RING_ROLE k) Fld.VNK_RING_ROLE_PEER_ID (((h.ringCfg k).map (·.peerId)).getD 0)
    (h.onRing k Hw.freshRing).setPhase k 1

/-- The ring leaves electrical idle, takes the peer of its RING section, and begins anew in phase 1. -/
theorem startRing_of_matches {h : Hw} {k : Nat} (decl : declMatches h k) :
    startRing h k = (((h.setIdle k false).setFld (Reg.VNK_RING_ROLE k) Fld.VNK_RING_ROLE_PEER_ID
      (((h.ringCfg k).map (·.peerId)).getD 0)).onRing k Hw.freshRing).setPhase k 1 :=
  if_neg (not_or.mpr ⟨not_not.mpr decl.1, not_not.mpr decl.2⟩)

/-- A ring whose declaration does not match raises CFG_ERR alone. -/
theorem startRing_of_mismatch {h : Hw} {k : Nat} (decl : ¬ declMatches h k) : startRing h k = h.ringStat k 19 true :=
  if_pos (not_and_or.mp decl)

theorem vnkStart_of_off {h : Hw} (off : h.bit Reg.VNK_CTRL 0 = false) :
    h.vnkStart = ((List.range 16).filter fun k => (h.setBit Reg.VNK_CTRL 0).topo k ≠ 0).foldl startRing (h.setBit Reg.VNK_CTRL 0) :=
  if_neg (by simp [off])

theorem vnkStart_of_on {h : Hw} (on : h.bit Reg.VNK_CTRL 0 = true) : h.vnkStart = h := if_pos on

theorem reg_ringStat_ne (h : Hw) {k a : Nat} (irq : a ≠ Reg.VNK_IRQ_STAT) (stat : a ≠ Reg.VNK_RING_STAT k) (b : Nat) (v : Bool) :
    (h.ringStat k b v).reg a = h.reg a := by
  unfold Hw.ringStat
  split
  · rfl
  · rw [reg_setBit_ne _ _ a k irq]
    split
    · exact reg_setBit_ne h _ a b stat
    · exact reg_clearBit_ne h _ a b stat

theorem reg_setIdle_ne (h : Hw) {a : Nat} (port : a % 0x1000 ≠ 1) (k : Nat) : (h.setIdle k false).reg a = h.reg a := by
  refine foldl_keeps (·.reg a) _ (fun g e => ?_) _ h
  exact reg_clearBit_ne g _ a 7 (by simp only [Reg.VNK_PORT_STAT]; omega)

theorem reg_onRing (h : Hw) (k : Nat) (f : Ring → Ring) (a : Nat) : (h.onRing k f).reg a = h.reg a := rfl

/-- The start of ring k writes VNK_RING_STAT and VNK_RING_ROLE of k, VNK_IRQ_STAT and VNK_PORT_STAT at most. -/
theorem reg_startRing_ne (h : Hw) {k a : Nat} (port : a % 0x1000 ≠ 1) (irq : a ≠ Reg.VNK_IRQ_STAT)
    (stat : a ≠ Reg.VNK_RING_STAT k) (role : a ≠ Reg.VNK_RING_ROLE k) : (startRing h k).reg a = h.reg a := by
  by_cases decl : declMatches h k
  · rw [startRing_of_matches decl, Hw.setPhase, reg_setFld_ne _ _ a _ _ role, reg_onRing, reg_setFld_ne _ _ a _ _ role,
      reg_setIdle_ne h port]
  · rw [startRing_of_mismatch decl, reg_ringStat_ne h irq stat]

/-- A ring whose declaration matches starts in phase 1. -/
theorem phase_startRing_same {h : Hw} {k : Nat} (decl : declMatches h k) : (startRing h k).phase k = 1 := by
  rw [startRing_of_matches decl]
  exact fld_setFld_same _ _ _ 1 (by decide)

/-- Another ring keeps its phase. -/
theorem phase_startRing_ne (h : Hw) {j k : Nat} (ne : j ≠ k) : (startRing h k).phase j = h.phase j := by
  refine fld_congr (reg_startRing_ne h ?_ ?_ ?_ ?_) _
  all_goals
    simp only [Reg.VNK_RING_ROLE, Reg.VNK_IRQ_STAT, Reg.VNK_RING_STAT]
    omega

/-- The declaration of a ring is in VNK_RING_DECL and VNK_RING_SEG. -/
theorem declMatches_congr {h g : Hw} {k : Nat} (decl : ∀ i, i < 4 → h.reg (Reg.VNK_RING_DECL k i) = g.reg (Reg.VNK_RING_DECL k i))
    (seg : h.reg (Reg.VNK_RING_SEG k) = g.reg (Reg.VNK_RING_SEG k)) : declMatches h k ↔ declMatches g k := by
  have declared : h.declared k = g.declared k := by
    refine List.filter_congr fun p among => bit_congr (decl _ ?_) _
    have below : p < 160 := List.mem_range.mp among
    omega
  unfold declMatches Hw.nCell Hw.nAux Hw.seg
  rw [declared, fld_congr seg, fld_congr seg]

/-- No start writes the declaration of a ring. -/
theorem declMatches_startRing (h : Hw) (j k : Nat) : declMatches (startRing h k) j ↔ declMatches h j := by
  refine declMatches_congr (fun i i4 => ?_) ?_
  all_goals
    refine reg_startRing_ne h ?_ ?_ ?_ ?_
    all_goals
      simp only [Reg.VNK_RING_DECL, Reg.VNK_RING_SEG, Reg.VNK_IRQ_STAT, Reg.VNK_RING_STAT, Reg.VNK_RING_ROLE]
      omega

/-- A ring that is not among those started keeps its phase. -/
theorem phase_startRings_of_not_mem (l : List Nat) (h : Hw) {j : Nat} (apart : j ∉ l) :
    (l.foldl startRing h).phase j = h.phase j :=
  List.foldlRecOn l startRing (motive := fun g => g.phase j = h.phase j) rfl fun g kept _ among =>
    (phase_startRing_ne g (ne_of_mem_of_not_mem among apart).symm).trans kept

/-- A ring among those started is in phase 1, where its declaration matches. -/
theorem phase_startRings_of_mem (l : List Nat) (h : Hw) {j : Nat} (among : j ∈ l) (decl : declMatches h j) :
    (l.foldl startRing h).phase j = 1 := by
  induction l generalizing h with
  | nil => exact absurd among List.not_mem_nil
  | cons k l ih =>
    by_cases later : j ∈ l
    · exact ih (startRing h k) later ((declMatches_startRing h j k).mpr decl)
    · obtain rfl : j = k := (List.mem_cons.mp among).resolve_right later
      exact (phase_startRings_of_not_mem l _ later).trans (phase_startRing_same decl)

/-- After the start EN reads 1; an unconfigured ring keeps its phase and a configured one whose declaration matches is in phase 1. -/
theorem vnkStart_spec {h : Hw} (off : h.bit Reg.VNK_CTRL 0 = false) :
    h.vnkStart.bit Reg.VNK_CTRL 0 = true ∧ ∀ k, k < 16 → (h.topo k = 0 → h.vnkStart.phase k = h.phase k) ∧
      (h.topo k ≠ 0 → declMatches h k → h.vnkStart.phase k = 1) := by
  have others (a : Nat) (ne : a ≠ Reg.VNK_CTRL) : (h.setBit Reg.VNK_CTRL 0).reg a = h.reg a := reg_setBit_ne h _ a 0 ne
  have topo (k : Nat) : (h.setBit Reg.VNK_CTRL 0).topo k = h.topo k :=
    fld_congr (others _ (by simp only [Reg.VNK_RING_CFG, Reg.VNK_CTRL]; omega)) _
  have phase (k : Nat) : (h.setBit Reg.VNK_CTRL 0).phase k = h.phase k :=
    fld_congr (others _ (by simp only [Reg.VNK_RING_ROLE, Reg.VNK_CTRL]; omega)) _
  have decl (k : Nat) : declMatches (h.setBit Reg.VNK_CTRL 0) k ↔ declMatches h k :=
    declMatches_congr (fun i i4 => others _ (by simp only [Reg.VNK_RING_DECL, Reg.VNK_CTRL]; omega))
      (others _ (by simp only [Reg.VNK_RING_SEG, Reg.VNK_CTRL]; omega))
  have ctrl (g : Hw) (k : Nat) : (startRing g k).reg Reg.VNK_CTRL = g.reg Reg.VNK_CTRL := by
    refine reg_startRing_ne g (by decide) (by decide) ?_ ?_
    all_goals
      simp only [Reg.VNK_CTRL, Reg.VNK_RING_STAT, Reg.VNK_RING_ROLE]
      omega
  rw [vnkStart_of_off off]
  simp only [topo]
  refine ⟨?enabled, fun k k16 => ⟨fun none_ => ?unconfigured, fun some_ matches_ => ?configured⟩⟩
  case enabled => exact (bit_congr (foldl_keeps (·.reg Reg.VNK_CTRL) _ ctrl _ _) 0).trans (bit_setBit_same h _ 0 (by decide))
  case unconfigured => exact (phase_startRings_of_not_mem _ _ (by simp [none_])).trans (phase k)
  case configured => exact phase_startRings_of_mem _ _ (by simp [k16, some_]) ((decl k).mpr matches_)

/-! ### The obligation -/

/-- Settles O31: the start by `vnkStart_spec`, the cycle by `nextRingCycle_spec`, the event of a missing node by `evActive_raiseEvent`,
and each other command as the branch of its function that the clause's conditions choose. -/
theorem ringsStartAndKeepTheirLeader : Obligations.RingsStartAndKeepTheirLeader := by
  unfold Obligations.RingsStartAndKeepTheirLeader
  refine ⟨?start, ?cycle, ?listen, ?backoff, ?claim, ?judge, ?portLoss, ?takeover, ?timeout, ?reassign, ?missing⟩
  case start =>
    intro who s may
    refine ends_of_next (next_onHw s (guarded_of_mayWrite may _)) ⟨rfl, ?_, rfl, (powerView_inj (powerView_vnkStart s.hw)).1, ?_, ?_⟩
    · cases enabled : s.hw.bit Reg.VNK_CTRL 0 with
      | true =>
        rw [onHw_hw, vnkStart_of_on enabled]
        exact enabled
      | false => exact (vnkStart_spec enabled).1
    · exact fun on => congrArg (Hw.busOk · 0) (vnkStart_of_on on)
    · intro off k k16
      obtain ⟨unconfigured, configured⟩ := (vnkStart_spec off).2 k k16
      exact ⟨unconfigured, fun some_ cells aux => configured some_ ⟨cells, aux⟩⟩
  case cycle =>
    intro s on pll next day
    exact ends_of_next (next_onHw s (ringCycleStart_eq on pll next day)) ⟨rfl, nextRingCycle_spec s.hw⟩
  case listen =>
    intro k s phase opened counted listened
    exact next_onHw s (if_pos (by simp [phase, opened, counted, listened]))
  case backoff =>
    intro k s phase waited
    exact next_onHw s (if_pos (by simp [phase, waited]))
  case claim =>
    intro k s phase claimed
    exact next_onHw s (if_pos (by simp [phase, claimed]))
  case judge =>
    intro k s closed cycles fresh led due
    refine next_onHw s ((if_pos (by simp [closed, cycles, fresh, led, due])).trans ?_)
    simp only [Bool.and_eq_true, decide_eq_true_eq, and_assoc]
  case portLoss =>
    intro k s closed cycles judged lost
    exact next_onHw s (if_pos (by simp [closed, cycles, judged, lost]))
  case takeover =>
    intro k s standby leaderless
    exact next_onHw s (if_pos (by simp [standby, leaderless]))
  case timeout =>
    intro k p s leads undone present idle sent late
    exact next_onHw s (if_pos (by simp [leads, undone, present, idle, sent, late]))
  case reassign =>
    intro k p s leads misses known late
    refine next_onHw s (if_pos ?_)
    cases spare : s.hw.spareFor k p with
    | some i =>
      rw [spare] at known
      simpa [leads, misses, late, spare] using known
    | none =>
      rw [spare] at known
      simpa [leads, misses, late, spare] using known
  case missing =>
    intro k p s sends complete misses
    refine ends_of_next (next_onHw s (if_pos (by simp [sends, complete, misses]))) ⟨rfl, fun on => ?_, ?_⟩
    · refine evActive_raiseEvent on ?_ _ _ _
      simp [evExists]
      omega
    · exact (powerView_inj (powerView_raiseEvent s.hw _ _ _ _)).1

end Sys2Proof.Proofs
end

section
/-! PROOFS. The closure of a cycle folds calibration changes into the store, which the statement of the closure leaves out (O33). -/

namespace Sys2Proof.Proofs

open Sys2Proof.Machine Sys2Proof.Laws

/-! ### What the windows leave of the calibration store and its queue (R262, R275) -/

/-- The calibration store and the changes queued for it. -/
def calView (h : Hw) : Tab Word × List CalChg := (h.snp.cal, h.snp.calq)

theorem calView_writeRamList (h : Hw) (a : Nat) (l : List Word) : calView (h.writeRamList a l) = calView h := by
  induction l generalizing h a with
  | nil => rfl
  | cons w l ih => exact ih (h.writeRam a w) (a + 1)

@[simp] theorem calView_journalWords (h : Hw) (ws : List Word) : calView (h.journalWords ws) = calView h := by
  have written : calView (h.writeRamList (dramBase + h.wpos % 2 ^ 30) ws) = calView h := calView_writeRamList h _ ws
  unfold Hw.journalWords
  dsimp only
  split <;> exact written

@[simp] theorem calView_note (h : Hw) (rt sub : Nat) (body : List Word) : calView (h.note rt sub body) = calView h := by
  simp [Hw.note, Hw.record, apply_ite calView]

@[simp] theorem calView_setWin (h : Hw) (w : Nat) (x : Win) : calView (h.setWin w x) = calView h := rfl

@[simp] theorem calView_winState (h : Hw) (w : Nat) (x : Win) (s lc : Nat) : calView (h.winState w x s lc) = calView h := by
  have noted : calView ((h.setWin w { x with state := s }).winNote w 4 { x with state := s } lc) = calView h :=
    calView_note _ _ _ _
  unfold Hw.winState
  dsimp only
  split <;> exact noted

@[simp] theorem calView_winClosed (h : Hw) (n : Nat) (recs : List Hw.SnapRec) : calView (h.winClosed n recs) = calView h := by
  refine foldl_keeps calView _ (fun h w => ?_) _ h
  simp [apply_ite calView]

/-! ### The closure (R253, R256, R262) -/

/-- The store and its queue alone decide what a closure makes of the store. -/
theorem foldCal_cal_congr {h g : Hw} (same : calView h = calView g) (n : Nat) : (h.foldCal n).snp.cal = (g.foldCal n).snp.cal := by
  obtain ⟨cal, calq⟩ := Prod.mk.inj same
  simp only [Hw.foldCal, cal, calq]

theorem closeRest_cal (h : Hw) (n : Nat) (recs : List Hw.SnapRec) : (h.closeRest n recs).snp.cal = (h.foldCal n).snp.cal := by
  unfold Hw.closeRest
  dsimp only
  exact foldCal_cal_congr (calView_winClosed _ n _) n

/-- A device without a configured ring has no records to finish. -/
theorem finishAll_of_noRing {h : Hw} (noRing : ∀ k < 8, h.topo k = 0) (n : Nat) : h.finishAll n = (h, []) := by
  have configured : (List.range 8).filter (fun k => decide (h.topo k ≠ 0)) = [] :=
    List.filter_eq_nil_iff.mpr fun k mem => by simp [noRing k (List.mem_range.mp mem)]
  unfold Hw.finishAll
  dsimp only
  rw [configured, List.foldl_nil, ite_self]

theorem closeCycle_cal_of_noRing {h : Hw} (noRing : ∀ k < 8, h.topo k = 0) (n : Nat) :
    (h.closeCycle n).snp.cal = (h.foldCal n).snp.cal := by
  have closed : h.closeCycle n = h.closeRest n [] := by
    unfold Hw.closeCycle
    simp only [finishAll_of_noRing noRing]
  exact (congrArg (·.snp.cal) closed).trans (closeRest_cal h n [])

/-! ### The counterexample -/

/-- The SNP on with no ring configured, cycle 1 in progress and cycle 0 closed; a change of entry 0 to CAL_ID 1 took effect at LC 1. -/
def changeInEffect : State :=
  { hw := { regs := [(Reg.PWR_STATE, 3), (Reg.PWR_RAIL_PG, BitVec.allOnes 40), (Reg.CLK_STAT, 0xFF), (Reg.SNP_CTRL, 1)], lc := 1, cycled := true,
            pwr := { cause := 1 }, fab := { spanStart := 1 },
            snp := { calq := [{ lc := 1, entry := 0, words := [0, 0, 0, 0, 0, 0, 0, 0x1000000], eff := true }] } } }

/-- Refutes O33, at its clause of SNP_CLOSURE: the closure of cycle 1 in `changeInEffect` folds the change into the store, whose
word 7 is then its CAL_ID (R262), where the clause has the store stay as it was. -/
theorem not_theSnapshotClosesCalibratesAndWindows : ¬ Obligations.TheSnapshotClosesCalibratesAndWindows := by
  unfold Obligations.TheSnapshotClosesCalibratesAndWindows
  rintro ⟨-, closure, -⟩
  have on : changeInEffect.hw.snpOn = true := by decide +kernel
  have next : (changeInEffect.hw.reg Reg.SNP_CLOSED_LC).toNat < 1 := by decide +kernel
  have inOrder : changeInEffect.hw.nextCycle ((changeInEffect.hw.reg Reg.SNP_CLOSED_LC).toNat + 1) = 1 := by decide +kernel
  have noRing : ∀ k < 8, changeInEffect.hw.topo k = 0 := by decide +kernel
  obtain ⟨t, -, closed, -, -, kept⟩ := closure 1 changeInEffect on next (le_refl 1) fun _ => inOrder.ge
  have folded : (changeInEffect.hw.closeCycle 1).snp.cal = [(7, 0x1000000)] := by
    rw [closeCycle_cal_of_noRing noRing]
    decide +kernel
  have unchanged : (changeInEffect.hw.closeCycle 1).snp.cal = [] := (congrArg (·.hw.snp.cal) closed).symm.trans kept
  exact List.cons_ne_nil _ _ (folded.symm.trans unchanged)

end Sys2Proof.Proofs
end

section
/-! PROOFS. The dispatch of tasks: the next step of a page, rollback, release, audit, fabric request and self-test (O27). -/

namespace Sys2Proof.Proofs

open Sys2Proof.Machine Sys2Proof.Laws

/-! ### The task that an engine takes (R348) -/

/-- An engine that is given a task holds it, begun at its CYCLES and not yet past CKPT. -/
theorem loadTask_task (h : Hw) (e : Nat) (t : Task) :
    ((h.loadTask e t).engine e).task = some { t with start := (h.engine e).core.cycles, ckpt := false } :=
  congrArg Engine.task (engine_setEngine_same h e _)

/-- The step of cycle m is loaded on the page's owner, a speculative one with the write bound that the FMC declares (R282, R349). -/
theorem startStep_task (h : Hw) (g m : Nat) (spec : Bool) :
    ∃ k, ((h.startStep g m spec).engine (h.page g).engine).task = some k ∧ k.kind = .step ∧ k.spec = spec ∧ k.level = pageLevel g ∧
      k.frame = (h.page g).frame ∧ k.page = g ∧ k.lc = m ∧ k.wbound = (if spec then Config.fmcBound g else 0) :=
  ⟨_, loadTask_task _ _ _, rfl, rfl, rfl, rfl, rfl, rfl, rfl⟩

/-- A rollback or a release is loaded on the page's owner, and no memory changes. -/
theorem pageJob_task (h : Hw) (kind : TaskKind) (g lc : Nat) :
    ∃ k, ((h.pageJob kind g lc).engine (h.page g).engine).task = some k ∧ k.kind = kind ∧ k.page = g ∧ k.lc = lc ∧
      k.frame = (h.page g).frame ∧ (h.pageJob kind g lc).mem = h.mem :=
  ⟨_, loadTask_task _ _ _, rfl, rfl, rfl, rfl, rfl⟩

/-! ### The next step of a page (R282, R370) -/

/-- The step of cycle m is started, and with `run` the standard FMC runs the task that its engine then holds. -/
def startAndRun (h : Hw) (g m : Nat) (run spec : Bool) : Hw :=
  match run, ((h.startStep g m spec).engine ((h.startStep g m spec).page g).engine).task with
  | true, some t => (h.startStep g m spec).runStep ((h.startStep g m spec).page g).engine t
  | _, _ => h.startStep g m spec

/-- What the manager does with the next step of a page by what it can do. -/
def stepByRule (h : Hw) (g : Nat) (run : Bool) : Hw.Ready → Hw
  | .wait => h
  | .stall => h.stallStep g
  | .certain m => startAndRun h g m run false
  | .spec m => startAndRun h g m run true

/-- A page without speculative steps has none to settle. -/
theorem settlePage_of_noSpec {h : Hw} {g : Nat} (noSpec : (h.page g).spec = []) : h.settlePage g (h.page g).spec.length = h := by
  rw [noSpec]
  rfl

/-- For a page that needs no restart and has no speculative step to settle, TASK_DISPATCH_STEP follows the rule of R370 alone. -/
theorem exec_taskDispatchStep {g : Fin 17744} {s : State} {rule : Hw.Ready} (run : Bool) (noRestart : (s.hw.page g).restart = false)
    (noSpec : (s.hw.page g).spec = []) (ready : s.hw.ready g = rule) :
    exec (.taskDispatchStep g run) s = .next (s.onHw fun h => stepByRule h g run rule) := by
  show execTaskDispatchStep g run s = _
  unfold execTaskDispatchStep
  rw [if_neg (by simp [noRestart])]
  refine next_onHw s ?_
  dsimp only
  rw [settlePage_of_noSpec noSpec, ready]
  cases rule <;> rfl

theorem startAndRun_of_holding {h : Hw} {g m : Nat} {spec : Bool} {t : Task}
    (held : ((h.startStep g m spec).engine ((h.startStep g m spec).page g).engine).task = some t) :
    startAndRun h g m true spec = (h.startStep g m spec).runStep ((h.startStep g m spec).page g).engine t := by
  unfold startAndRun
  rw [held]

/-! ### The other tasks (R311, R545) -/

/-- An engine takes an audit as its auditor. -/
def takeAudit (h : Hw) (e : Nat) (a : Audit) : Hw :=
  ({ h with fab := { h.fab with audit := some { a with auditor := some e } } } : Hw).startAudit e { a with auditor := some e }

/-- An auditor's task has ended with a signature. -/
def endAudit (h : Hw) (e : Nat) (sig : Word) : Hw :=
  (h.setEngine e { h.engine e with task := none, report := some (0, sig) }).auditEnded e sig

/-- Once the audited step is committed, a free engine of another ridge takes the audit, and with `run` ends it (R311). -/
theorem exec_taskDispatchAudit {e : Fin 512} {a : Audit} {s : State} (run : Bool) (odd : Option Word)
    (inProgress : s.hw.fab.audit = some a) (free : s.hw.engineFree e = true) (otherRidge : e.val / 32 ≠ a.owner / 32)
    (ownerRan : a.ownerSig ≠ none) (committed : a.lc ≤ s.hw.lcCommit) (noAuditor : a.auditor = none) :
    exec (.taskDispatchAudit e run odd) s = .next (s.onHw fun h =>
      if run then endAudit (takeAudit h e a) e (odd.getD ((takeAudit h e a).auditSig { a with auditor := some e.val }))
      else takeAudit h e a) := by
  refine next_onHw s ?_
  dsimp only
  rw [inProgress]
  dsimp only
  rw [if_neg (by simp [free, otherRidge, ownerRan, committed]), noAuditor]
  cases run <;> rfl

/-- The manager can start a step. -/
def startable : Hw.Ready → Bool
  | .certain _ => true
  | .spec _ => true
  | _ => false

/-- Where every step of a page on an engine waits or stalls, none keeps it from a task of the fabric's clients. -/
theorem noStep_startable {h : Hw} {e : Nat}
    (idle : ∀ y ∈ h.fab.pages, y.2.engine = e → h.ready y.1 = .wait ∨ h.ready y.1 = .stall) :
    (h.fab.pages.any fun y => y.2.engine == e && startable (h.ready y.1)) = false := by
  refine List.any_eq_false.mpr fun y mem => ?_
  rw [Bool.and_eq_true, beq_iff_eq]
  rintro ⟨on, ready⟩
  rcases idle y mem on with waits | stalls
  · exact Bool.noConfusion ((congrArg startable waits).symm.trans ready)
  · exact Bool.noConfusion ((congrArg startable stalls).symm.trans ready)

/-! ### The obligation -/

/-- Settles O27: a step by the rule of R370 (`exec_taskDispatchStep`), an audit by `exec_taskDispatchAudit`, every other task by the
branch of its command where the engine may take it. -/
theorem theManagerDispatchesTasks : Obligations.TheManagerDispatchesTasks := by
  unfold Obligations.TheManagerDispatchesTasks
  refine ⟨?certain, ?speculative, ?stalled, ?waiting, ?task, ?rollback, ?release, ?audit, ?auditRun, ?fabricRequest, ?selftest,
    ?selftestFails⟩
  case certain =>
    intro g run s m noRestart noSpec ready
    refine ⟨?_, ?_⟩
    · rintro rfl
      exact exec_taskDispatchStep false noRestart noSpec ready
    · rintro t rfl held
      exact (exec_taskDispatchStep true noRestart noSpec ready).trans (next_onHw s (startAndRun_of_holding held))
  case speculative =>
    intro g s m noRestart noSpec ready
    exact exec_taskDispatchStep false noRestart noSpec ready
  case stalled =>
    intro g run s noRestart noSpec ready
    exact exec_taskDispatchStep run noRestart noSpec ready
  case waiting =>
    intro g run s noRestart noSpec ready
    exact exec_taskDispatchStep run noRestart noSpec ready
  case task => exact startStep_task
  case rollback =>
    intro g m s pending free
    refine ends_of_next (next_onHw s ?_) ⟨rfl, pageJob_task s.hw .rollback g m⟩
    dsimp only
    rw [pending, free]
    rfl
  case release =>
    intro g s noSpec free releasable
    refine ends_of_next (next_onHw s ?_) ⟨rfl, pageJob_task s.hw .release g _⟩
    dsimp only
    rw [settlePage_of_noSpec noSpec, free, releasable]
    rfl
  case audit =>
    intro e a odd s inProgress free otherRidge ownerRan committed noAuditor
    exact exec_taskDispatchAudit false odd inProgress free otherRidge ownerRan committed noAuditor
  case auditRun =>
    intro e a odd s inProgress free otherRidge ownerRan committed noAuditor
    exact exec_taskDispatchAudit true odd inProgress free otherRidge ownerRan committed noAuditor
  case fabricRequest =>
    intro e i x s item free idle busy run sound more budget
    refine next_onHw s ?_
    dsimp only
    rw [item]
    refine if_neg ?_
    simp only [Bool.not_eq_true, Bool.or_eq_false_iff]
    refine ⟨⟨⟨⟨⟨⟨?_, noStep_startable idle⟩, ?_⟩, ?_⟩, ?_⟩, ?_⟩, ?_⟩
    all_goals simp [free, busy, run, sound, more, budget]
  case selftest =>
    intro e s free noPage
    exact next_onHw s (if_neg (by simp [free, noPage]))
  case selftestFails =>
    intro e s free noPage
    exact next_onHw s (if_neg (by simp [free, noPage]))

end Sys2Proof.Proofs
end

section
/-! PROOFS. Migration, quarantine, rebuilding, reductions and the start of an audit: what the fabric manager leaves of LC and of what
makes an engine active (O28). -/

namespace Sys2Proof.Proofs

open Sys2Proof.Machine Sys2Proof.Laws

/-! ### A record of the journal (R379 to R381) -/

/-- A record of the journal writes memory, counts what it overwrites and moves FAB_JNL_WPOS; nothing else changes. -/
theorem note_view {β : Type} (view : Hw → β) (writes : ∀ (h : Hw) a c, view (h.setRam a c) = view h)
    (counts : ∀ (h : Hw) i n, view (h.ltCountBy i n) = view h) (moves : ∀ (h : Hw) v, view (h.setReg Reg.FAB_JNL_WPOS v) = view h)
    (h : Hw) (rt sub : Nat) (body : List Word) : view (h.note rt sub body) = view h := by
  have words (l : List Word) : ∀ (h : Hw) (a : Nat), view (h.writeRamList a l) = view h := by
    induction l with
    | nil => exact fun _ _ => rfl
    | cons w l ih => exact fun h a => (ih (h.writeRam a w) (a + 1)).trans (writes h a _)
  have journal (h : Hw) (ws : List Word) : view (h.journalWords ws) = view h := by
    simp [Hw.journalWords, apply_ite view, words, counts, moves]
  simp [Hw.note, Hw.record, apply_ite view, journal]

/-- A record of the fabric leaves every page as it was. -/
@[simp] theorem fabricRecord_page (h : Hw) (sub g e e2 code x : Nat) : (h.fabricRecord sub g e e2 code).page x = h.page x :=
  congrArg (fun pages => Tabs.get (fun _ => ({} : Page)) pages x)
    (note_view (·.fab.pages) (fun _ _ _ => rfl) (fun _ _ _ => rfl) (fun _ _ => rfl) h _ _ _)

@[simp] theorem page_setPage_same (h : Hw) (g : Nat) (p : Page) : (h.setPage g p).page g = p := by simp [Hw.page, Hw.setPage]

@[simp] theorem count_page (h : Hw) (a g : Nat) : (h.count a).page g = h.page g := by
  unfold Hw.count Hw.countFld
  split <;> rfl

/-! ### What the manager leaves of LC and of the engines that can own pages (R303, R309) -/

/-- LC, the quarantined engines, and the registers of the rails, of the islands that are good and of those that have failed. -/
def activityView (h : Hw) : Nat × Tab Nat × Word × Word × Word :=
  (h.lc, h.fab.quar, h.reg Reg.PWR_RAIL_PG, h.reg Reg.PWR_ISLAND_PG, h.reg Reg.FAB_ISLAND)

theorem activityView_lc {h g : Hw} (same : activityView h = activityView g) : h.lc = g.lc := congrArg Prod.fst same

theorem activityView_quarOf {h g : Hw} (same : activityView h = activityView g) (e : Nat) : h.quarOf e = g.quarOf e :=
  congrArg (fun v : Nat × Tab Nat × Word × Word × Word => Tabs.get (fun _ => 0) v.2.1 e) same

/-- The view decides which engines are active. -/
theorem activityView_engineActive {h g : Hw} (same : activityView h = activityView g) (e : Nat) : h.engineActive e = g.engineActive e := by
  have quar := activityView_quarOf same e
  simp only [activityView, Prod.mk.injEq] at same
  obtain ⟨-, -, rails, good, failed⟩ := same
  simp only [Hw.engineActive, Hw.fabOn, Hw.flag, fld_congr rails, Hw.islandOn, bit_congr good, Hw.islandFailed, bit_congr failed, quar]

/-- A register that is none of those of the view. -/
abbrev BesideActivity (a : Nat) : Prop := Reg.PWR_RAIL_PG ≠ a ∧ Reg.PWR_ISLAND_PG ≠ a ∧ Reg.FAB_ISLAND ≠ a

section
variable (h : Hw)

@[simp] theorem activityView_setReg {a : Nat} (beside : BesideActivity a) (v : Word) :
    activityView (h.setReg a v) = activityView h := by
  obtain ⟨rails, good, failed⟩ := beside
  simp [activityView, reg_setReg_ne _ _ _ _ rails, reg_setReg_ne _ _ _ _ good, reg_setReg_ne _ _ _ _ failed]

@[simp] theorem activityView_setFld {a : Nat} (beside : BesideActivity a) (f : BitField) (v : Nat) :
    activityView (h.setFld a f v) = activityView h := activityView_setReg h beside _

@[simp] theorem activityView_setBit {a : Nat} (beside : BesideActivity a) (i : Nat) :
    activityView (h.setBit a i) = activityView h := activityView_setReg h beside _

@[simp] theorem activityView_count {a : Nat} (beside : BesideActivity a) : activityView (h.count a) = activityView h := by
  unfold Hw.count Hw.countFld
  split
  · exact activityView_setFld h beside _ _
  · rfl

@[simp] theorem activityView_setRam (a : Nat) (c : Container) : activityView (h.setRam a c) = activityView h := rfl
@[simp] theorem activityView_setPage (g : Nat) (p : Page) : activityView (h.setPage g p) = activityView h := rfl
@[simp] theorem activityView_setEngine (e : Nat) (x : Engine) : activityView (h.setEngine e x) = activityView h := rfl
@[simp] theorem activityView_setAudit (a : Option Audit) :
    activityView { h with fab := { h.fab with audit := a } } = activityView h := rfl

/-! Memory and the journal. -/

@[simp] theorem activityView_writeRamList (a : Nat) (l : List Word) : activityView (h.writeRamList a l) = activityView h := by
  induction l generalizing h a with
  | nil => rfl
  | cons w l ih => exact ih (h.writeRam a w) (a + 1)

@[simp] theorem activityView_note (rt sub : Nat) (body : List Word) : activityView (h.note rt sub body) = activityView h :=
  note_view activityView (fun _ _ _ => rfl) (fun _ _ _ => rfl) (fun h v => activityView_setReg h (by decide) v) h rt sub body

@[simp] theorem activityView_fabricRecord (sub g e e2 code : Nat) :
    activityView (h.fabricRecord sub g e e2 code) = activityView h := activityView_note h _ _ _

@[simp] theorem activityView_eccFound (m a : Nat) (f : Flaw) : activityView (h.eccFound m a f) = activityView h := by
  cases f with
  | sound => rfl
  | single => rfl
  | double =>
    unfold Hw.eccFound Hw.eccUncorrectable
    dsimp only
    split
    · exact activityView_setBit _ (by decide) 0
    · rfl

@[simp] theorem activityView_eccRead (a : Nat) : activityView (h.eccRead a) = activityView h := by
  simp [Hw.eccRead, apply_ite activityView]

@[simp] theorem activityView_foundIn (a n : Nat) : activityView (h.foundIn a n) = activityView h :=
  foldl_keeps activityView _ (fun h _ => activityView_eccRead h _) _ h

/-! Audits and undo logs. -/

@[simp] theorem activityView_auditEnd (result : Nat) : activityView (h.auditEnd result) = activityView h := by
  unfold Hw.auditEnd
  split
  · rfl
  · dsimp only
    rw [activityView_fabricRecord, activityView_setAudit, activityView_setReg _ (by decide), activityView_setReg _ (by decide)]

@[simp] theorem activityView_auditDropPage (g : Nat) : activityView (h.auditDropPage g) = activityView h := by
  simp [Hw.auditDropPage, apply_ite activityView]

@[simp] theorem activityView_auditDropEngine (e : Nat) : activityView (h.auditDropEngine e) = activityView h := by
  simp [Hw.auditDropEngine, apply_ite activityView]

@[simp] theorem activityView_freeFrameUndo (e f : Nat) : activityView (h.freeFrameUndo e f) = activityView h := rfl

@[simp] theorem activityView_rollbackFrame (e f lc : Nat) : activityView (h.rollbackFrame e f lc).1 = activityView h := by
  refine foldl_keeps activityView _ (fun h u => ?_) _ h
  split <;> rfl

@[simp] theorem activityView_viewRolledBack (p : Page) : activityView (h.viewRolledBack p) = activityView h :=
  activityView_setRam h _ _

@[simp] theorem activityView_forgetFrom (g m : Nat) : activityView (h.forgetFrom g m) = activityView h := by
  unfold Hw.forgetFrom
  dsimp only
  rw [activityView_setPage]
  split
  · exact activityView_writeRamList h _ _
  · rfl

@[simp] theorem activityView_rollbackAll (g : Nat) : activityView (h.rollbackAll g) = activityView h := by
  unfold Hw.rollbackAll
  dsimp only
  split
  · rfl
  · simp (disch := decide)

/-! Migration and rebuilding. -/

@[simp] theorem activityView_startMigration (g : Nat) (tgt : Nat × Nat) : activityView (h.startMigration g tgt) = activityView h := by
  simp [Hw.startMigration]

@[simp] theorem activityView_moveOut (g : Nat) (tgt : Nat × Nat) : activityView (h.moveOut g tgt) = activityView h := by
  simp [Hw.moveOut, apply_ite activityView]

@[simp] theorem activityView_migResult (r : Nat) : activityView (h.migResult r) = activityView h :=
  activityView_setFld h (by decide) _ r

/-- A request for a migration answers with a result alone, or with result 0 and the page on its way (R303, R317). -/
theorem migrateTo_cases (g e : Nat) (homeOnly : Bool) :
    (∃ r, h.migrateTo g e homeOnly = h.migResult r) ∨ ∃ tgt, h.migrateTo g e homeOnly = (h.migResult 0).moveOut g tgt := by
  unfold Hw.migrateTo
  dsimp only
  split
  · exact .inl ⟨2, rfl⟩
  · split
    · exact .inl ⟨1, rfl⟩
    · split
      · exact .inl ⟨3, rfl⟩
      · split
        · exact .inl ⟨0, rfl⟩
        · split
          · exact .inl ⟨3, rfl⟩
          · exact .inr ⟨_, rfl⟩

@[simp] theorem activityView_migrateTo (g e : Nat) (homeOnly : Bool) : activityView (h.migrateTo g e homeOnly) = activityView h := by
  rcases migrateTo_cases h g e homeOnly with ⟨r, answered⟩ | ⟨tgt, moved⟩
  · rw [answered, activityView_migResult]
  · rw [moved, activityView_moveOut, activityView_migResult]

@[simp] theorem activityView_unplace (g : Nat) : activityView (h.unplace g) = activityView h :=
  activityView_setBit _ (by decide) 5

@[simp] theorem activityView_copy (l : List Nat) (dst src : Nat → Nat) :
    activityView (l.foldl (fun h o => h.setRam (dst o) (h.ram (src o))) h) = activityView h :=
  foldl_keeps activityView _ (fun h _ => activityView_setRam h _ _) l h

@[simp] theorem activityView_placeRebuild (g : Nat) (avoid : Nat → Bool) (snap : Option Audit) (own : Option (Nat × Nat)) :
    activityView (h.placeRebuild g avoid snap own) = activityView h := by
  unfold Hw.placeRebuild
  dsimp only
  split
  · simp
  · rw [activityView_fabricRecord, activityView_setPage]
    split <;> simp [apply_ite activityView]

end

/-! ### Quarantine (R309) -/

/-- The quarantine cause of an engine is noted. -/
def noteCause (h : Hw) (e cause : Nat) : Hw := { h with fab := { h.fab with quar := Tabs.set (fun _ => (0 : Nat)) h.fab.quar e cause } }

/-- An engine that is quarantined stays as it is. -/
theorem quarantine_of_quarantined {h : Hw} {e : Nat} (quarantined : h.quarOf e ≠ 0) (cause : Nat) : h.quarantine e cause = h :=
  if_pos quarantined

/-- Beyond the cause, the quarantine of an engine changes neither LC nor what makes engines active. -/
theorem activityView_quarantine {h : Hw} {e : Nat} (sound : h.quarOf e = 0) (cause : Nat) :
    activityView (h.quarantine e cause) = activityView (noteCause h e cause) := by
  unfold Hw.quarantine
  rw [if_neg (not_not.mpr sound)]
  refine (foldl_keeps activityView _ (fun h x => ?_) _ _).trans ?_
  · simp [apply_ite activityView]
  · rw [activityView_setEngine, activityView_auditDropEngine, activityView_fabricRecord, activityView_setBit _ (by decide)]
    rfl

/-- An engine has the cause of its first quarantine. -/
theorem quarantine_quarOf (h : Hw) (e cause : Nat) :
    (h.quarantine e cause).quarOf e = if h.quarOf e = 0 then cause else h.quarOf e := by
  split
  case isTrue sound =>
    rw [activityView_quarOf (activityView_quarantine sound cause)]
    exact get_set_same _ h.fab.quar e cause
  case isFalse quarantined => rw [quarantine_of_quarantined quarantined]

theorem quarantine_lc (h : Hw) (e cause : Nat) : (h.quarantine e cause).lc = h.lc := by
  by_cases sound : h.quarOf e = 0
  · exact (activityView_lc (activityView_quarantine sound cause)).trans rfl
  · rw [quarantine_of_quarantined sound]

/-! ### FAB_MIG_REQ (R303, R304, R317) -/

/-- FAB_MIG_STAT shows the result of a request. -/
theorem migResult_result (h : Hw) (r : Nat) (byte : r < 256) : (h.migResult r).fld Reg.FAB_MIG_STAT Fld.FAB_MIG_STAT_RESULT = r :=
  (fld_setFld_same h _ Fld.FAB_MIG_STAT_RESULT r (by decide)).trans (Nat.mod_eq_of_lt byte)

@[simp] theorem setReg_pageTask (h : Hw) (a g : Nat) (v : Word) : (h.setReg a v).pageTask g = h.pageTask g := rfl

@[simp] theorem migResult_pageTask (h : Hw) (r g : Nat) : (h.migResult r).pageTask g = h.pageTask g := setReg_pageTask h _ g _

/-- The fields of the word that a request writes. -/
theorem migWord_fields {g e op : Nat} (page : g < 32768) (engine : e < 512) (opcode : op < 4) :
    bitsOf (migWord g e op) 35 21 = g ∧ bitsOf (migWord g e op) 20 12 = e ∧ bitsOf (migWord g e op) 1 0 = op := by
  have value : (migWord g e op).toNat = g * 2097152 + e * 4096 + op := by
    unfold migWord word
    rw [BitVec.toNat_ofNat]
    omega
  simp only [bitsOf, value]
  omega

theorem migRequest_migrate (h : Hw) (page : Fin 32768) (engine : Fin 512) :
    h.migRequest (migWord page engine 1) = h.migrateTo page engine false := by
  obtain ⟨g, e, op⟩ := migWord_fields page.isLt engine.isLt (op := 1) (by decide)
  simp [Hw.migRequest, g, e, op]

theorem migRequest_home (h : Hw) (page : Fin 32768) : h.migRequest (migWord page 0 2) = h.migrateTo page (h.homeOf page).1 true := by
  obtain ⟨g, -, op⟩ := migWord_fields page.isLt (e := 0) (by decide) (op := 2) (by decide)
  simp [Hw.migRequest, g, op]

theorem migRequest_quarantine (h : Hw) (engine : Fin 512) :
    h.migRequest (migWord 0 engine 3) = (h.quarantine engine 5).migResult 0 := by
  obtain ⟨-, e, op⟩ := migWord_fields (g := 0) (by decide) engine.isLt (op := 3) (by decide)
  simp [Hw.migRequest, e, op]

@[simp] theorem busOk_fld (h : Hw) (w : Word) (a : Nat) (f : BitField) : (h.busOk w).fld a f = h.fld a f := rfl
@[simp] theorem busOk_quarOf (h : Hw) (w : Word) (e : Nat) : (h.busOk w).quarOf e = h.quarOf e := rfl
@[simp] theorem migResult_quarOf (h : Hw) (r e : Nat) : (h.migResult r).quarOf e = h.quarOf e :=
  activityView_quarOf (activityView_migResult h r) e

/-- A request that may be written has the effect of its word. -/
theorem next_migRequest (s : State) {who : Who} (may : s.hw.MayWrite who Reg.FAB_MIG_REQ) {w : Word} (f : Hw → Hw)
    (effect : s.hw.migRequest w = f s.hw) :
    (.next (s.onHw fun h => h.guarded who Reg.FAB_MIG_REQ fun h => h.migRequest w) : Result) =
      .next (s.onHw fun h => (f h).busOk 0) :=
  next_onHw s ((guarded_of_mayWrite may _).trans (congrArg (Hw.busOk · 0) effect))

/-- A page number beyond the pages is refused with result 2. -/
theorem migrateTo_of_noPage (h : Hw) {g : Nat} (beyond : 17744 ≤ g) (e : Nat) (homeOnly : Bool) :
    h.migrateTo g e homeOnly = h.migResult 2 :=
  if_pos (.inl beyond)

/-- A request for a migration leaves LC, and names in FAB_MIG_STAT a page number beyond the pages. -/
theorem migrateTo_frame (h : Hw) (g e : Nat) (homeOnly : Bool) :
    (h.migrateTo g e homeOnly).lc = h.lc ∧
      (17744 ≤ g → (h.migrateTo g e homeOnly).fld Reg.FAB_MIG_STAT Fld.FAB_MIG_STAT_RESULT = 2) := by
  refine ⟨activityView_lc (activityView_migrateTo h g e homeOnly), fun beyond => ?_⟩
  rw [migrateTo_of_noPage h beyond]
  exact migResult_result h 2 (by decide)

/-- A declared page that is RESIDENT and runs no task sets off at once for a pool frame of an active engine away from home. -/
theorem migrateTo_pool {h : Hw} {g e f : Nat} (known : g < 17744) (declared : h.pageDeclared g = true)
    (resident : (h.page g).state = .resident) (staying : (h.page g).moveTo = none) (room : h.migrations < 16) (notDusk : h.pstate ≠ 4)
    (active : h.engineActive e = true) (elsewhere : (h.page g).engine ≠ e) (notHome : e ≠ (h.homeOf g).1)
    (pool : (h.freePool (e / 32)).2 = some f) (idle : h.pageTask g = none) :
    h.migrateTo g e false = (h.migResult 0).startMigration g (e, f) := by
  have atOnce : (h.migResult 0).pageTask g = none := by rw [migResult_pageTask, idle]
  unfold Hw.migrateTo
  dsimp only
  rw [if_neg (by simp [known, declared]), if_neg (by simp [resident, staying, room, notDusk]), if_neg (by simp [active]),
    if_neg (by simp [elsewhere]), if_neg (by simp [notHome]), if_neg (by decide), pool]
  dsimp only
  rw [Hw.moveOut, atOnce]
  exact if_neg (by decide)

/-! ### The end of a copy (R303, R304) -/

/-- A page that its migration has brought to a frame of an engine. -/
def movedPage (p : Page) (e f : Nat) : Page := { p with state := .resident, engine := e, frame := f, target := none }

/-- The hot segment is copied, the page is moved, and the migration is counted and recorded. -/
def arrive (h : Hw) (g e f : Nat) : Hw :=
  let p := h.page g
  let h := h.foundIn (frameAddr p.engine p.frame 0) 256
  let h := (List.range 256).foldl (fun h o => h.setRam (frameAddr e f o) (h.ram (frameAddr p.engine p.frame o))) h
  ((h.setPage g (movedPage p e f)).count Reg.FAB_CNT_MIGRATE).fabricRecord 4 g e p.engine 0

@[simp] theorem arrive_page (h : Hw) (g e f : Nat) : (arrive h g e f).page g = movedPage (h.page g) e f := by simp [arrive]

theorem activityView_arrive (h : Hw) (g e f : Nat) : activityView (arrive h g e f) = activityView h := by
  simp only [arrive]
  rw [activityView_fabricRecord, activityView_count _ (by decide), activityView_setPage, activityView_copy, activityView_foundIn]

/-- On a target that is active still, and without a rebuild that waits, the migration has ended with the copy. -/
theorem migrationDone_of_active {h : Hw} {g e f : Nat} (transit : (h.page g).state = .transit) (target : (h.page g).target = some (e, f))
    (noRebuild : (h.page g).rebuild = false) (active : h.engineActive e = true) : h.migrationDone g = arrive h g e f := by
  have stillActive : (arrive h g e f).engineActive e = true :=
    (activityView_engineActive (activityView_arrive h g e f) e).trans active
  unfold Hw.migrationDone
  dsimp only
  rw [transit, target]
  dsimp only
  rw [if_neg (by simp [noRebuild]), if_neg (by simp [noRebuild])]
  exact if_neg (by simpa [arrive, movedPage] using stillActive)

/-! ### The obligation -/

/-- Settles O28, clause by clause: requests by `migrateTo_cases` and `activityView_quarantine`, the end of a copy by
`migrationDone_of_active`, the other commands by the branch whose conditions the hypotheses give. -/
theorem pagesMoveAreRebuiltAndReduced : Obligations.PagesMoveAreRebuiltAndReduced := by
  unfold Obligations.PagesMoveAreRebuiltAndReduced
  refine ⟨?pool, ?quarantined, ?reduction, ?migrate, ?home, ?quarantine, ?copyDone, ?rebuilt, ?timeout, ?audit⟩
  case pool =>
    rintro h g e _ known declared resident staying room notDusk active elsewhere notHome rfl f pool idle
    exact migrateTo_pool known declared resident staying room notDusk active elsewhere notHome pool idle
  case quarantined => exact fun h e cause quarantined => quarantine_of_quarantined quarantined cause
  case reduction =>
    rintro g s level declared ⟨carries, past, sources⟩
    refine next_onHw s (if_neg ?_)
    simp only [Bool.not_eq_true, Bool.or_eq_false_iff]
    refine ⟨⟨⟨⟨?_, ?_⟩, ?_⟩, ?_⟩, ?_⟩
    · simpa using level
    · simp [declared]
    · simp [carries]
    · simpa using past
    · simpa using sources
  case migrate =>
    intro who page engine s may
    obtain ⟨lc, beyond⟩ := migrateTo_frame s.hw page engine false
    exact ends_of_next (next_migRequest s may _ (migRequest_migrate s.hw page engine))
      ⟨rfl, rfl, lc, fun noPage => (busOk_fld _ _ _ _).trans (beyond noPage)⟩
  case home =>
    intro who page s may
    obtain ⟨lc, beyond⟩ := migrateTo_frame s.hw page (s.hw.homeOf page).1 true
    exact ends_of_next (next_migRequest s may (fun h => h.migrateTo page (h.homeOf page).1 true) (migRequest_home s.hw page))
      ⟨rfl, rfl, lc, fun noPage => (busOk_fld _ _ _ _).trans (beyond noPage)⟩
  case quarantine =>
    intro who engine s may
    refine ends_of_next (next_migRequest s may (fun h => (h.quarantine engine 5).migResult 0) (migRequest_quarantine s.hw engine))
      ⟨rfl, ?_, ?_, rfl⟩
    · rw [onHw_hw, busOk_quarOf, migResult_quarOf, quarantine_quarOf]
    · rw [onHw_hw, busOk_fld, migResult_result _ 0 (by decide)]
  case copyDone =>
    intro g s transit
    refine ends_of_next rfl ⟨rfl, fun e f target noRebuild active => ?_⟩
    rw [migrationDone_of_active transit target noRebuild active, arrive_page]
    exact ⟨rfl, rfl, rfl, rfl⟩
  case rebuilt =>
    intro g s noRestart rebuilding caughtUp idle
    show execRebuildDone g s = _
    unfold execRebuildDone
    rw [if_neg (by simp [noRestart])]
    exact next_onHw s (if_neg (by simp [rebuilding, caughtUp, idle]))
  case timeout =>
    intro e t s running step
    refine ends_of_next (next_onHw s ?_) ⟨rfl, quarantine_quarOf s.hw e 4, quarantine_lc s.hw e 4⟩
    rw [running]
    exact if_pos step
  case audit =>
    intro g lc s auditing enabled noAudit due resident coming carries hot notDusk
    exact next_onHw s (if_neg (by simp [auditing, enabled, noAudit, due, resident, coming, carries, hot, notDusk]))

end Sys2Proof.Proofs
end

section
/-! PROOFS. Instructions that compute on the registers of their core: what `State.compute` and `State.computeIf` do where the effect
writes a general register, with and without a clamp (R320, R325, R326). -/

namespace Sys2Proof.Proofs

open Sys2Proof.Machine Sys2Proof.Laws

/-- A result v that a clamp makes w, in rd: FLAGS.SAT is set where the clamp changes it (R325). -/
theorem noteSat_ret_core (k : Core) (rd : GReg) (v w : Int) :
    ((k.noteSat (w ≠ v)).ret rd (wrap w)).core =
      ({ k with flags := if w = v then k.flags else k.flags ||| 0x10 } : Core).setGpr rd (BitVec.ofInt 40 w) := by
  unfold Core.noteSat Core.ret wrap
  by_cases within : w = v
  · rw [if_neg (by simp [within]), if_pos within]
  · rw [if_pos (by simp [within]), if_neg within]

theorem retSat_core (k : Core) (rd : GReg) (v : Int) : (k.retSat rd v).core = k.saturate rd v :=
  noteSat_ret_core k rd v (satVal v)

section
variable {i : Instr} {c : CoreId} {s : State} {rd : GReg} {ok : Bool} {w : Word}

theorem computes_of_ret {u v : Core → Word} (agree : ∀ k, u k = v k) (meaning : exec i s = s.compute c fun k => k.ret rd (u k)) :
    Computes i c s fun k => k.setGpr rd (v k) :=
  computes_of_compute _ meaning fun k => congrArg (k.setGpr rd) (agree k)

theorem computes_of_retIf {u v : Core → Word} (agree : ∀ k, u k = v k) (inRange : ok = true)
    (meaning : exec i s = s.computeIf c ok w fun k => k.ret rd (u k)) : Computes i c s fun k => k.setGpr rd (v k) :=
  computes_of_computeIf _ meaning inRange fun k => congrArg (k.setGpr rd) (agree k)

theorem computes_of_retSat {v : Core → Int} (meaning : exec i s = s.compute c fun k => k.retSat rd (v k)) :
    Computes i c s fun k => k.saturate rd (v k) :=
  computes_of_compute _ meaning fun k => retSat_core k rd (v k)

theorem computes_of_retSatIf {v : Core → Int} (inRange : ok = true)
    (meaning : exec i s = s.computeIf c ok w fun k => k.retSat rd (v k)) : Computes i c s fun k => k.saturate rd (v k) :=
  computes_of_computeIf _ meaning inRange fun k => retSat_core k rd (v k)

end

/-- An instruction whose meaning writes `u` of its two sources writes any function that agrees with `u`. -/
theorem writes3_of_compute {mk : CoreId → GReg → GReg → GReg → Instr} {u v : Word → Word → Word}
    (agree : ∀ a b, u a b = v a b)
    (meaning : ∀ c rd rs1 rs2 s, exec (mk c rd rs1 rs2) s = s.compute c fun k => k.ret rd (u (k.gpr rs1) (k.gpr rs2))) :
    Writes3 mk v :=
  fun c rd rs1 rs2 s => computes_of_ret (fun _ => agree _ _) (meaning c rd rs1 rs2 s)

theorem writes2_of_compute {mk : CoreId → GReg → GReg → Instr} {u v : Word → Word} (agree : ∀ a, u a = v a)
    (meaning : ∀ c rd rs1 s, exec (mk c rd rs1) s = s.compute c fun k => k.ret rd (u (k.gpr rs1))) : Writes2 mk v :=
  fun c rd rs1 s => computes_of_ret (fun _ => agree _) (meaning c rd rs1 s)

theorem writesImm_of_compute {mk : CoreId → GReg → GReg → BitVec 24 → Instr} {u v : Word → BitVec 24 → Word}
    (agree : ∀ a i, u a i = v a i)
    (meaning : ∀ c rd rs1 imm s, exec (mk c rd rs1 imm) s = s.compute c fun k => k.ret rd (u (k.gpr rs1) imm)) : WritesImm mk v :=
  fun c rd rs1 imm s => computes_of_ret (fun _ => agree _ _) (meaning c rd rs1 imm s)

end Sys2Proof.Proofs
end

section
/-! PROOFS. The integer instructions of three registers: each writes the exact result of R327, narrowed to a word (O1). -/

namespace Sys2Proof.Proofs

open Sys2Proof.Machine Sys2Proof.Laws

/-! ### The table of R327 in the integers -/

theorem add_eq_ofInt (a b : Word) : a + b = BitVec.ofInt 40 (a.toInt + b.toInt) := by
  rw [BitVec.ofInt_add, BitVec.ofInt_toInt, BitVec.ofInt_toInt]

theorem sub_eq_ofInt (a b : Word) : a - b = BitVec.ofInt 40 (a.toInt - b.toInt) := by
  rw [Int.sub_eq_add_neg, BitVec.ofInt_add, BitVec.ofInt_neg, BitVec.ofInt_toInt, BitVec.ofInt_toInt, BitVec.sub_eq_add_neg]

theorem shiftL_eq (a b : Word) : shiftL a b.toNat = if 40 ≤ b.toNat then 0 else BitVec.ofNat 40 (a.toNat * 2 ^ b.toNat) := by
  rw [shiftL]
  refine if_congr Iff.rfl rfl (BitVec.eq_of_toNat_eq ?_)
  rw [BitVec.toNat_shiftLeft, BitVec.toNat_ofNat, Nat.shiftLeft_eq]

theorem shiftR_eq (a b : Word) : shiftR a b.toNat = if 40 ≤ b.toNat then 0 else BitVec.ofNat 40 (a.toNat / 2 ^ b.toNat) := by
  rw [shiftR]
  refine if_congr Iff.rfl rfl (BitVec.eq_of_toNat_eq ?_)
  rw [BitVec.toNat_ushiftRight, BitVec.toNat_ofNat, Nat.shiftRight_eq_div_pow,
    Nat.mod_eq_of_lt ((Nat.div_le_self _ _).trans_lt a.isLt)]

theorem shiftA_eq (a b : Word) : shiftA a b.toNat = BitVec.ofInt 40 (a.toInt / 2 ^ (if b.toNat ≤ 39 then b.toNat else 39)) := by
  rw [shiftA, Nat.min_def, BitVec.sshiftRight_eq, Int.shiftRight_eq_div_pow]
  push_cast
  rfl

theorem truth_slt (a b : Word) : truth (a.slt b) = if a.toInt < b.toInt then 1 else 0 := by
  simp [truth, BitVec.slt_iff_toInt_lt]

theorem truth_ult (a b : Word) : truth (a.ult b) = if a.toNat < b.toNat then 1 else 0 := by
  simp [truth, BitVec.ult]

/-- A choice by "less" is the one by "at most" where equal words make the same choice. -/
theorem ite_slt_eq_le {a b x y : Word} (tie : a = b → x = y) : (if a.slt b then x else y) = if a.toInt ≤ b.toInt then x else y := by
  by_cases eq : a = b
  · rw [tie eq, ite_self, ite_self]
  · have ne := mt BitVec.eq_of_toInt_eq eq
    refine if_congr ?_ rfl rfl
    rw [BitVec.slt_iff_toInt_lt]
    omega

theorem ite_ult_eq_le {a b x y : Word} (tie : a = b → x = y) : (if a.ult b then x else y) = if a.toNat ≤ b.toNat then x else y := by
  by_cases eq : a = b
  · rw [tie eq, ite_self, ite_self]
  · have ne := mt BitVec.eq_of_toNat_eq eq
    refine if_congr ?_ rfl rfl
    rw [BitVec.ult_iff_lt, BitVec.lt_def]
    omega

theorem wrap_highSigned (a b : Word) :
    wrap (a.toInt * b.toInt / 2 ^ 40) = (BitVec.ofInt 80 (a.toInt * b.toInt)).extractLsb' 40 40 := by
  generalize a.toInt * b.toInt = p
  refine BitVec.eq_of_toNat_eq ?_
  rw [wrap, BitVec.toNat_ofInt, BitVec.extractLsb'_toNat, BitVec.toNat_ofInt, Nat.shiftRight_eq_div_pow]
  omega

theorem word_highUnsigned (a b : Word) :
    word (a.toNat * b.toNat / 2 ^ 40) = (BitVec.ofNat 80 (a.toNat * b.toNat)).extractLsb' 40 40 := by
  generalize a.toNat * b.toNat = p
  refine BitVec.eq_of_toNat_eq ?_
  rw [word, BitVec.toNat_ofNat, BitVec.extractLsb'_toNat, BitVec.toNat_ofNat, Nat.shiftRight_eq_div_pow]
  omega

theorem remS_eq (a b : Word) : remS a b = if b = 0 then a else BitVec.ofInt 40 (a.toInt - b.toInt * a.toInt.tdiv b.toInt) := by
  rw [remS, Int.tmod_def]
  rfl

/-! ### The statement -/

/-- Settles O1: each instruction computes on its own core (`writes3_of_compute`), and its result is the one of the table. -/
theorem integerOperationsWriteTheirResult : Obligations.IntegerOperationsWriteTheirResult := by
  unfold Obligations.IntegerOperationsWriteTheirResult
  refine ⟨?add, ?sub, ?and, ?or, ?xor, ?andn, ?shl, ?shr, ?asr, ?lt, ?ltu, ?min, ?max, ?minu, ?maxu, ?mul, ?mulhi, ?mulhiu, ?div, ?divu,
    ?rem, ?remu⟩
  case add => exact writes3_of_compute add_eq_ofInt fun _ _ _ _ _ => rfl
  case sub => exact writes3_of_compute sub_eq_ofInt fun _ _ _ _ _ => rfl
  case and => exact writes3_of_compute (fun _ _ => rfl) fun _ _ _ _ _ => rfl
  case or => exact writes3_of_compute (fun _ _ => rfl) fun _ _ _ _ _ => rfl
  case xor => exact writes3_of_compute (fun _ _ => rfl) fun _ _ _ _ _ => rfl
  case andn => exact writes3_of_compute (fun _ _ => rfl) fun _ _ _ _ _ => rfl
  case shl => exact writes3_of_compute shiftL_eq fun _ _ _ _ _ => rfl
  case shr => exact writes3_of_compute shiftR_eq fun _ _ _ _ _ => rfl
  case asr => exact writes3_of_compute shiftA_eq fun _ _ _ _ _ => rfl
  case lt => exact writes3_of_compute truth_slt fun _ _ _ _ _ => rfl
  case ltu => exact writes3_of_compute truth_ult fun _ _ _ _ _ => rfl
  case min => exact writes3_of_compute (fun _ _ => ite_slt_eq_le id) fun _ _ _ _ _ => rfl
  case max => exact writes3_of_compute (fun _ _ => ite_slt_eq_le Eq.symm) fun _ _ _ _ _ => rfl
  case minu => exact writes3_of_compute (fun _ _ => ite_ult_eq_le id) fun _ _ _ _ _ => rfl
  case maxu => exact writes3_of_compute (fun _ _ => ite_ult_eq_le Eq.symm) fun _ _ _ _ _ => rfl
  case mul => exact writes3_of_compute (fun _ _ => rfl) fun _ _ _ _ _ => rfl
  case mulhi => exact writes3_of_compute wrap_highSigned fun _ _ _ _ _ => rfl
  case mulhiu => exact writes3_of_compute word_highUnsigned fun _ _ _ _ _ => rfl
  case div => exact writes3_of_compute (fun _ _ => rfl) fun _ _ _ _ _ => rfl
  case divu => exact writes3_of_compute (fun _ _ => rfl) fun _ _ _ _ _ => rfl
  case rem => exact writes3_of_compute remS_eq fun _ _ _ _ _ => rfl
  case remu => exact writes3_of_compute (fun _ _ => rfl) fun _ _ _ _ _ => rfl

end Sys2Proof.Proofs
end

section
/-! PROOFS. The counting and byte instructions: CLZ, POPC, ABSS and the bytes of a word (O2). -/

namespace Sys2Proof.Proofs

open Sys2Proof.Machine Sys2Proof.Laws

/-! ### Counting bits (R327) -/

theorem bitN_eq_testBit (n i : Nat) : bitN n i = n.testBit i := by
  rw [bitN, Nat.testBit_eq_decide_div_mod_eq]
  rfl

/-- The zeros above a number of n bits are those above its highest 1 bit. -/
theorem zerosAbove_eq {v n : Nat} (below : v < 2 ^ n) : zerosAbove v n = if v = 0 then n else n - 1 - Nat.log2 v := by
  induction n with
  | zero => simp_all [zerosAbove]
  | succ n ih =>
    by_cases top : v < 2 ^ n
    · have clear : bitN v n = false := by rw [bitN_eq_testBit, Nat.testBit_lt_two_pow top]
      rw [zerosAbove, if_neg (by simp [clear]), ih top]
      split
      · rfl
      · have := (Nat.log2_lt ‹_›).mpr top
        omega
    · have nonzero : v ≠ 0 := fun e => top (e ▸ Nat.two_pow_pos n)
      have highest : Nat.log2 v = n := (Nat.log2_eq_iff nonzero).mpr ⟨Nat.not_lt.mp top, below⟩
      have one : bitN v n = true := by rw [bitN_eq_testBit, ← highest, Nat.testBit_log2 nonzero]
      rw [zerosAbove, if_pos one, if_neg nonzero, highest, Nat.add_sub_cancel, Nat.sub_self]

theorem onesBelow_eq_countP (v n : Nat) : onesBelow v n = (List.range n).countP fun i => v.testBit i := by
  induction n with
  | zero => rfl
  | succ n ih =>
    rw [onesBelow, ih, bitN_eq_testBit, List.range_succ, List.countP_append, List.countP_singleton]
    rfl

theorem clz_eq (a : Word) : word (zerosAbove a.toNat 40) = BitVec.ofNat 40 (if a = 0 then 40 else 39 - Nat.log2 a.toNat) := by
  rw [zerosAbove_eq a.isLt]
  exact congrArg _ (if_congr (BitVec.toNat_eq (x := a) (y := 0)).symm rfl rfl)

theorem popc_eq (a : Word) : word (onesBelow a.toNat 40) = BitVec.ofNat 40 ((List.range 40).countP fun i => a.getLsbD i) :=
  congrArg _ (onesBelow_eq_countP a.toNat 40)

/-! ### The bytes of a word (R8, R327) -/

theorem byteOf_eq {i : Nat} (a : Word) (byte : i ≤ 4) : byteOf a i = (a.extractLsb' (32 - 8 * i) 8).setWidth 40 := by
  have width : 39 - 8 * i + 1 - (32 - 8 * i) = 8 := by omega
  rw [byteOf, if_neg (by omega), word, bitsOf, width]
  refine BitVec.eq_of_toNat_eq ?_
  rw [BitVec.toNat_ofNat, BitVec.toNat_setWidth, BitVec.extractLsb'_toNat, Nat.shiftRight_eq_div_pow]

theorem getLsbD_byteMask (j : Nat) : (0xFF#40).getLsbD j = decide (j < 8) := Nat.testBit_two_pow_sub_one 8 j

/-- Byte i of a word is replaced bit by bit: within the byte the bits of the new one, elsewhere those of the word. -/
theorem withByte_eq {i : Nat} (w b : Word) (byte : i ≤ 4) :
    withByte w i b = (w &&& ~~~(0xFF#40 <<< (32 - 8 * i))) ||| ((b &&& 0xFF) <<< (32 - 8 * i)) := by
  rw [withByte, if_neg (by omega)]
  refine BitVec.eq_of_getLsbD_eq fun j j40 => ?_
  rw [← BitVec.testBit_toNat, testBit_withBits _ _ _ _ _ j40, testBit_bitsOf, BitVec.testBit_toNat, BitVec.testBit_toNat]
  have mask : (0xFF : Word) = 0xFF#40 := rfl
  simp only [mask, BitVec.getLsbD_or, BitVec.getLsbD_and, BitVec.getLsbD_not, BitVec.getLsbD_shiftLeft, getLsbD_byteMask, j40]
  by_cases inside : 32 - 8 * i ≤ j ∧ j ≤ 39 - 8 * i
  · have within : j - (32 - 8 * i) < 8 := by omega
    have above : ¬ j < 32 - 8 * i := by omega
    rw [if_pos inside]
    simp [within, above]
  · rw [if_neg inside]
    by_cases below : j < 32 - 8 * i
    · simp [below]
    · have beyond : ¬ j - (32 - 8 * i) < 8 := by omega
      simp [below, beyond]

theorem bext_eq (a b : Word) :
    byteOf a b.toNat = if 4 < b.toNat then 0 else (a.extractLsb' (32 - 8 * b.toNat) 8).setWidth 40 := by
  split
  · exact if_pos ‹_›
  · exact byteOf_eq a (by omega)

/-! ### The statement -/

/-- Settles O2: CLZ and POPC by `clz_eq` and `popc_eq`, ABSS by the clamp, the bytes by `byteOf_eq` and `withByte_eq`. -/
theorem byteAndCountOperationsWriteTheirResult : Obligations.ByteAndCountOperationsWriteTheirResult := by
  unfold Obligations.ByteAndCountOperationsWriteTheirResult
  refine ⟨?clz, ?popc, ?abss, ?bext, ?bins, ?bexti, ?binsi⟩
  case clz => exact writes2_of_compute clz_eq fun _ _ _ _ => rfl
  case popc => exact writes2_of_compute popc_eq fun _ _ _ _ => rfl
  case abss => exact fun _ _ _ _ => computes_of_retSat rfl
  case bext => exact writes3_of_compute bext_eq fun _ _ _ _ _ => rfl
  case bins =>
    refine fun c rd rs1 rs2 s => computes_of_compute (fun k => k.ret rd (withByte (k.gpr rd) (k.gpr rs2).toNat (k.gpr rs1))) rfl fun k => ?_
    dsimp only
    split
    · exact congrArg (k.setGpr rd) (if_pos ‹_›)
    · exact congrArg (k.setGpr rd) (withByte_eq _ _ (by omega))
  case bexti => exact fun _ _ _ _ _ byte => computes_of_retIf (fun _ => byteOf_eq _ byte) (decide_eq_true byte) rfl
  case binsi => exact fun _ _ _ _ _ byte => computes_of_retIf (fun _ => withByte_eq _ _ byte) (decide_eq_true byte) rfl

end Sys2Proof.Proofs
end

section
/-! PROOFS. The immediate instructions and the saturating sums (O3). -/

namespace Sys2Proof.Proofs

open Sys2Proof.Machine Sys2Proof.Laws

/-! ### The table of R328 -/

theorem ltk_eq (a : Word) (i : BitVec 24) : truth (a.slt (sx i)) = if a.toInt < i.toInt then 1 else 0 := by
  rw [truth_slt, sx, BitVec.toInt_signExtend_of_le (by decide)]

theorem hik_eq (a : Word) (i : BitVec 24) : i ++ a.setWidth 16 = BitVec.ofNat 40 (i.toNat * 2 ^ 16 + a.toNat % 2 ^ 16) := by
  refine BitVec.eq_of_toNat_eq ?_
  have low : a.toNat % 2 ^ 16 < 2 ^ 16 := Nat.mod_lt _ (by decide)
  rw [BitVec.toNat_append, BitVec.toNat_setWidth, BitVec.toNat_ofNat, ← Nat.shiftLeft_add_eq_or_of_lt low, Nat.shiftLeft_eq]
  omega

/-- The immediate of SHK with a type and an amount (R328). -/
def shkImm (type n : Nat) : BitVec 24 := BitVec.ofNat 24 (64 * type + n)

theorem shkImm_fields {type n : Nat} (known : type < 3) (amount : n ≤ 39) :
    (shkImm type n).toNat / 256 = 0 ∧ (shkImm type n).toNat % 64 = n ∧ (shkImm type n).toNat / 64 % 4 = type := by
  rw [shkImm, BitVec.toNat_ofNat]
  omega

theorem shiftKOk_shkImm {type n : Nat} (known : type < 3) (amount : n ≤ 39) : shiftKOk (shkImm type n) = true := by
  obtain ⟨high, low, kind⟩ := shkImm_fields known amount
  unfold shiftKOk
  rw [high, low, kind]
  simp [amount, known.ne]

theorem shiftK_left {n : Nat} (a : Word) (amount : n ≤ 39) : shiftK a (shkImm 0 n) = a <<< n := by
  obtain ⟨-, low, kind⟩ := shkImm_fields (type := 0) (by decide) amount
  unfold shiftK
  rw [low, kind]
  exact if_neg (by omega)

theorem shiftK_right {n : Nat} (a : Word) (amount : n ≤ 39) : shiftK a (shkImm 1 n) = a >>> n := by
  obtain ⟨-, low, kind⟩ := shkImm_fields (type := 1) (by decide) amount
  unfold shiftK
  rw [low, kind]
  exact if_neg (by omega)

theorem shiftK_arith {n : Nat} (a : Word) (amount : n ≤ 39) : shiftK a (shkImm 2 n) = a.sshiftRight n := by
  obtain ⟨-, low, kind⟩ := shkImm_fields (type := 2) (by decide) amount
  unfold shiftK
  rw [low, kind]
  exact congrArg a.sshiftRight (Nat.min_eq_left amount)

/-! ### The statement -/

/-- SHK with an immediate of a known type writes the shift that its type names. -/
theorem computes_shk {type n : Nat} {shifted : Word → Word} (known : type < 3) (amount : n ≤ 39)
    (shift : ∀ a, shiftK a (shkImm type n) = shifted a) (c : CoreId) (rd rs1 : GReg) (s : State) :
    Computes (.shk c rd rs1 (shkImm type n)) c s fun k => k.setGpr rd (shifted (k.gpr rs1)) :=
  computes_of_retIf (fun _ => shift _) (shiftKOk_shkImm known amount) rfl

/-- Settles O3: the immediates by the table above, the shifts by `computes_shk`, the sums by the clamp. -/
theorem immediateOperationsWriteTheirResult : Obligations.ImmediateOperationsWriteTheirResult := by
  unfold Obligations.ImmediateOperationsWriteTheirResult
  refine ⟨?addk, ?ltk, ?ltku, ?andk, ?iork, ?xork, ?hik, ?shkLeft, ?shkRight, ?shkArith, ?pcrel, ?adds, ?subs⟩
  case addk => exact writesImm_of_compute (fun _ _ => rfl) fun _ _ _ _ _ => rfl
  case ltk => exact writesImm_of_compute ltk_eq fun _ _ _ _ _ => rfl
  case ltku => exact writesImm_of_compute (fun a i => truth_ult a (sx i)) fun _ _ _ _ _ => rfl
  case andk => exact writesImm_of_compute (fun _ _ => rfl) fun _ _ _ _ _ => rfl
  case iork => exact writesImm_of_compute (fun _ _ => rfl) fun _ _ _ _ _ => rfl
  case xork => exact writesImm_of_compute (fun _ _ => rfl) fun _ _ _ _ _ => rfl
  case hik => exact writesImm_of_compute hik_eq fun _ _ _ _ _ => rfl
  case shkLeft =>
    intro c rd rs1 n s amount
    have claim := computes_shk (type := 0) (by decide) amount (fun a => shiftK_left a amount) c rd rs1 s
    rwa [shkImm, Nat.mul_zero, Nat.zero_add] at claim
  case shkRight =>
    exact fun c rd rs1 n s amount => computes_shk (type := 1) (by decide) amount (fun a => shiftK_right a amount) c rd rs1 s
  case shkArith =>
    exact fun c rd rs1 n s amount => computes_shk (type := 2) (by decide) amount (fun a => shiftK_arith a amount) c rd rs1 s
  case pcrel => exact fun _ _ _ _ => computes_of_ret (fun _ => rfl) rfl
  case adds => exact fun _ _ _ _ _ => computes_of_retSat rfl
  case subs => exact fun _ _ _ _ _ => computes_of_retSat rfl

end Sys2Proof.Proofs
end

section
/-! PROOFS. The accumulator instructions (O4). -/

namespace Sys2Proof.Proofs

open Sys2Proof.Machine Sys2Proof.Laws

/-! ### A result in an accumulator (R326) -/

/-- The wrap of R326 with its flag is `Core.accumulate`. -/
theorem setAcc_eq (k : Core) (a : Fin 4) (v : Int) : k.setAcc a v = k.accumulate a v := by
  have inRange : (accWrap v).2 = false ↔ -(2 ^ 95) ≤ v ∧ v < 2 ^ 95 := by
    simp [accWrap]
  unfold Core.setAcc Core.accumulate
  by_cases fits : -(2 ^ 95) ≤ v ∧ v < 2 ^ 95
  · rw [if_pos fits, if_neg (by simp [inRange.mpr fits])]
    rfl
  · rw [if_neg fits, if_pos (Bool.not_eq_false _ ▸ mt inRange.mp fits)]
    rfl

section
variable {i : Instr} {c : CoreId} {s : State} {a : Fin 4} {ok : Bool} {w : Word} {v : Core → Int}

theorem computes_of_setAcc (meaning : exec i s = s.compute c fun k => (k.setAcc a (v k)).quiet) :
    Computes i c s fun k => k.accumulate a (v k) :=
  computes_of_compute _ meaning fun k => setAcc_eq k a (v k)

theorem computes_of_setAccIf (inRange : ok = true) (meaning : exec i s = s.computeIf c ok w fun k => (k.setAcc a (v k)).quiet) :
    Computes i c s fun k => k.accumulate a (v k) :=
  computes_of_computeIf _ meaning inRange fun k => setAcc_eq k a (v k)

end

/-- A register below g31 has a neighbour (R329). -/
theorem pair_inRange {r q : GReg} (below : r.val < 31 ∧ q.val < 31) : (decide (r.val ≠ 31) && decide (q.val ≠ 31)) = true := by
  simp [below.1.ne, below.2.ne]

/-- Part 0 replaced leaves the 56 bits above it, which are parts 2 and 1. -/
theorem withAccPart_zero (x : BitVec 96) (v : Word) : withAccPart x 0 v = x.extractLsb' 40 56 ++ v := by
  have upper : x.extractLsb' 80 16 ++ x.extractLsb' 40 40 = x.extractLsb' 40 56 :=
    BitVec.extractLsb'_append_extractLsb'_eq_extractLsb' rfl
  have regroup : (x.extractLsb' 80 16 ++ x.extractLsb' 40 40) ++ v = withAccPart x 0 v := BitVec.append_assoc
  rw [← regroup, upper]

/-- Part 2 replaced leaves the 80 bits below it, which are parts 1 and 0. -/
theorem withAccPart_two (x : BitVec 96) (v : Word) : withAccPart x 2 v = v.setWidth 16 ++ x.extractLsb' 0 80 :=
  congrArg (v.setWidth 16 ++ ·) (BitVec.extractLsb'_append_extractLsb'_eq_extractLsb' rfl)

/-! ### The statement -/

/-- Settles O4: each result is `setAcc` of its exact value, which is `Core.accumulate` (`setAcc_eq`); APUT by the parts. -/
theorem accumulatorOperationsAreExact : Obligations.AccumulatorOperationsAreExact := by
  unfold Obligations.AccumulatorOperationsAreExact
  refine ⟨?macs, ?msubs, ?macu, ?mac2, ?msub2, ?aclr, ?ald, ?aadd, ?asub, ?asra, ?aput0, ?aput1, ?aput2⟩
  case macs => exact fun _ _ _ _ _ => computes_of_setAcc rfl
  case msubs => exact fun _ _ _ _ _ => computes_of_setAcc rfl
  case macu => exact fun _ _ _ _ _ => computes_of_setAcc rfl
  case mac2 => exact fun _ _ _ _ _ below => computes_of_setAccIf (pair_inRange below) rfl
  case msub2 => exact fun _ _ _ _ _ below => computes_of_setAccIf (pair_inRange below) rfl
  case aclr => exact fun _ a _ => computes_of_compute (fun k => (k.putAcc a 0).quiet) rfl fun _ => rfl
  case ald => exact fun _ _ _ _ _ shift => computes_of_setAccIf (decide_eq_true shift) rfl
  case aadd => exact fun _ _ _ _ => computes_of_setAcc rfl
  case asub => exact fun _ _ _ _ => computes_of_setAcc rfl
  case asra => exact fun _ _ _ _ shift => computes_of_setAccIf (decide_eq_true shift) rfl
  case aput0 =>
    exact fun _ a rs1 _ => computes_of_computeIf (fun k => (k.putAcc a (withAccPart (k.accOf a) 0 (k.gpr rs1))).quiet) rfl rfl
      fun k => congrArg (k.putAcc a) (withAccPart_zero _ _)
  case aput1 =>
    exact fun _ a rs1 _ => computes_of_computeIf (fun k => (k.putAcc a (withAccPart (k.accOf a) 1 (k.gpr rs1))).quiet) rfl rfl
      fun _ => rfl
  case aput2 =>
    exact fun _ a rs1 _ => computes_of_computeIf (fun k => (k.putAcc a (withAccPart (k.accOf a) 2 (k.gpr rs1))).quiet) rfl rfl
      fun k => congrArg (k.putAcc a) (withAccPart_two _ _)

end Sys2Proof.Proofs
end

section
/-! PROOFS. The instructions that round, divide and read in the accumulator format (O5). -/

namespace Sys2Proof.Proofs

open Sys2Proof.Machine Sys2Proof.Laws

/-! ### Rounding to the nearest integer (R325) -/

/-- The integer nearest n / d: off by at most half of d, and by just half only where it is even. -/
theorem rhe_nearest (n : Int) {d : Int} (pos : 0 < d) :
    -d ≤ 2 * (n - d * rhe n d) ∧ 2 * (n - d * rhe n d) ≤ d ∧
      ((2 * (n - d * rhe n d) = d ∨ 2 * (n - d * rhe n d) = -d) → rhe n d % 2 = 0) := by
  have split : n - d * (n / d) = n % d := by rw [Int.emod_def]
  have up : n - d * (n / d + 1) = n % d - d := by rw [← split]; ring
  have low := Int.emod_nonneg n pos.ne'
  have high := Int.emod_lt_of_pos n pos
  unfold rhe
  dsimp only
  split
  · rw [split]; omega
  · split
    · rw [up]; omega
    · split
      · rw [split]; omega
      · rw [up]; omega

/-! ### DIVR (R329) -/

/-- A signed word that is 0 as a number is the word 0. -/
theorem toInt_eq_zero {b : Word} : b.toInt = 0 ↔ b = 0 :=
  ⟨fun e => BitVec.eq_of_toInt_eq e, fun e => e ▸ rfl⟩

/-- DIVR by the sign of its divisor. -/
theorem divr_core (k : Core) (rd rs1 rs2 : GReg) (sh : Nat) :
    (k.divr rd (k.gpr rs1) (k.gpr rs2) sh).core =
      if 0 < k.sgn rs2 then k.saturate rd (rhe (k.sgn rs1 * 2 ^ sh) (k.sgn rs2))
      else if k.sgn rs2 < 0 then k.saturate rd (rhe (-(k.sgn rs1 * 2 ^ sh)) (-k.sgn rs2))
      else if k.sgn rs1 = 0 then k.setGpr rd 0
      else ({ k with flags := k.flags ||| 0x10 } : Core).setGpr rd (if k.sgn rs1 < 0 then 0x8000000000 else 0x7FFFFFFFFF) := by
  unfold Core.divr Core.sgn
  rcases lt_trichotomy (k.gpr rs2).toInt 0 with neg | zero | pos
  · rw [if_neg (mt toInt_eq_zero.mpr neg.ne), retSat_core, rheQ, if_pos neg, if_neg neg.not_gt, if_pos neg]
  · rw [if_pos (toInt_eq_zero.mp zero), if_neg zero.not_gt, if_neg zero.not_lt]
    by_cases dividend : k.gpr rs1 = 0
    · rw [if_pos dividend, if_pos (toInt_eq_zero.mpr dividend)]
      rfl
    · rw [if_neg dividend, if_neg (mt toInt_eq_zero.mp dividend)]
      split <;> rfl
  · rw [if_neg (mt toInt_eq_zero.mpr pos.ne'), retSat_core, rheQ, if_neg pos.not_gt, if_pos pos]

/-! ### The statement -/

/-- Settles O5: the results by their clamp or wrap, DIVR by the sign of its divisor (`divr_core`), rounding by `rhe_nearest`. -/
theorem roundedOperationsWriteTheNearestInteger : Obligations.RoundedOperationsWriteTheNearestInteger := by
  unfold Obligations.RoundedOperationsWriteTheNearestInteger
  refine ⟨?nrws, ?nrww, ?nrwu, ?fmuls, ?fmulw, ?divr, ?rshr, ?aget0, ?aget1, ?aget2, fun n _ => rhe_nearest n⟩
  case nrws => exact fun _ _ _ _ _ shift => computes_of_retSatIf (decide_eq_true shift) rfl
  case nrww => exact fun _ _ _ _ _ shift => computes_of_retIf (fun _ => rfl) (decide_eq_true shift) rfl
  case nrwu => exact fun _ _ _ _ _ shift => computes_of_computeIf _ rfl (decide_eq_true shift) fun k => noteSat_ret_core k _ _ _
  case fmuls => exact fun _ _ _ _ _ _ shift => computes_of_retSatIf (decide_eq_true shift) rfl
  case fmulw => exact fun _ _ _ _ _ _ shift => computes_of_retIf (fun _ => rfl) (decide_eq_true shift) rfl
  case divr => exact fun _ _ _ _ _ _ shift => computes_of_computeIf _ rfl (decide_eq_true shift) fun k => divr_core k _ _ _ _
  case rshr => exact fun _ _ _ _ _ shift => computes_of_retIf (fun _ => rfl) (decide_eq_true shift) rfl
  case aget0 => exact fun _ _ _ _ => computes_of_retIf (fun _ => rfl) rfl rfl
  case aget1 => exact fun _ _ _ _ => computes_of_retIf (fun _ => rfl) rfl rfl
  case aget2 => exact fun _ _ _ _ => computes_of_retIf (fun _ => rfl) rfl rfl

end Sys2Proof.Proofs
end

section
/-! PROOFS. Fields out of range: the instruction raises ILLEGAL with its own word (O6). -/

namespace Sys2Proof.Proofs

open Sys2Proof.Machine Sys2Proof.Laws

/-- The law of `State.computeIf` where the field is out of range, on a core of the system profile (R321, R337). -/
theorem raises_of_computeIf {i : Instr} {c : CoreId} {s : State} {ok : Bool} {w : Word} (r : Core → Ret) (system : c.isEngine = false)
    (outOfRange : ok = false) (meaning : exec i s = s.computeIf c ok w r) : Raises i c s 0x01 w :=
  raises_of_raise system fun m fetched => by
    rw [meaning, State.computeIf, instr_of_fetches fetched, outOfRange]
    rfl

/-- An immediate with an amount above 39, the type 3 or a high bit is no shift (R328). -/
theorem shiftKOk_eq_false {imm : BitVec 24} (bad : 39 < imm.toNat % 64 ∨ imm.toNat / 64 % 4 = 3 ∨ 256 ≤ imm.toNat) :
    shiftKOk imm = false := by
  by_contra ok
  simp only [shiftKOk, Bool.not_eq_false, Bool.and_eq_true, beq_iff_eq, decide_eq_true_eq] at ok
  omega

/-- A pair that names g31 has a register without a neighbour (R329). -/
theorem pair_outOfRange {r q : GReg} (last : r.val = 31 ∨ q.val = 31) : (decide (r.val ≠ 31) && decide (q.val ≠ 31)) = false := by
  rcases last with e | e <;> simp [e]

/-- Settles O6: every one of these is a `State.computeIf` whose check fails. -/
theorem fieldsOutOfRangeRaiseIllegal : Obligations.FieldsOutOfRangeRaiseIllegal := by
  unfold Obligations.FieldsOutOfRangeRaiseIllegal
  intro c s system
  have above {n b : Nat} (h : b < n) : decide (n ≤ b) = false := decide_eq_false h.not_ge
  refine ⟨?bexti, ?binsi, ?shk, ?mac2, ?msub2, ?ald, ?asra, ?aget, ?aput, ?nrws, ?nrww, ?nrwu, ?fmuls, ?fmulw, ?divr, ?rshr⟩
  case bexti => exact fun _ _ _ beyond => raises_of_computeIf _ system (above beyond) rfl
  case binsi => exact fun _ _ _ beyond => raises_of_computeIf _ system (above beyond) rfl
  case shk => exact fun _ _ _ bad => raises_of_computeIf _ system (shiftKOk_eq_false bad) rfl
  case mac2 => exact fun _ _ _ last => raises_of_computeIf _ system (pair_outOfRange last) rfl
  case msub2 => exact fun _ _ _ last => raises_of_computeIf _ system (pair_outOfRange last) rfl
  case ald => exact fun _ _ _ beyond => raises_of_computeIf _ system (above beyond) rfl
  case asra => exact fun _ _ beyond => raises_of_computeIf _ system (above beyond) rfl
  case aget => exact fun _ _ _ beyond => raises_of_computeIf _ system (above beyond) rfl
  case aput => exact fun _ _ _ beyond => raises_of_computeIf _ system (above beyond) rfl
  case nrws => exact fun _ _ _ beyond => raises_of_computeIf _ system (above beyond) rfl
  case nrww => exact fun _ _ _ beyond => raises_of_computeIf _ system (above beyond) rfl
  case nrwu => exact fun _ _ _ beyond => raises_of_computeIf _ system (above beyond) rfl
  case fmuls => exact fun _ _ _ _ beyond => raises_of_computeIf _ system (above beyond) rfl
  case fmulw => exact fun _ _ _ _ beyond => raises_of_computeIf _ system (above beyond) rfl
  case divr => exact fun _ _ _ _ beyond => raises_of_computeIf _ system (above beyond) rfl
  case rshr => exact fun _ _ _ beyond => raises_of_computeIf _ system (above beyond) rfl

end Sys2Proof.Proofs
end

section
/-! PROOFS. The branches and calls, and the general registers (O7, O8). -/

namespace Sys2Proof.Proofs

open Sys2Proof.Machine Sys2Proof.Laws

/-! ### Branches and calls (R333) -/

/-- A core that has jumped retires at its target. -/
theorem tick_jump (k : Core) (target : Word) : (k.jump target).core.tick = { k.tick with pc := target } :=
  congrArg (fun pc => { k.tick with pc := pc }) (BitVec.sub_add_cancel target 1)

theorem tick_branch (k : Core) (taken : Bool) (imm : BitVec 24) :
    (k.branch taken imm).core.tick = if taken then { k.tick with pc := k.pc + imm.signExtend 40 } else k.tick := by
  cases taken
  · rfl
  · exact tick_jump k (k.pc + sx imm)

theorem tick_callTo (k : Core) (rd : GReg) (target : Word) :
    (k.callTo rd target).core.tick = { (k.setGpr rd (k.pc + 1)).tick with pc := target } :=
  tick_jump (k.setGpr rd (k.pc + 1)) target

/-- An instruction that computes makes of every member of its group what its effect and the retirement give. -/
theorem becomes_of_compute {i : Instr} {c : CoreId} {s m : State} {f : Core → Core} (r : Core → Ret) (fetched : s.Fetches c m)
    (meaning : exec i s = s.compute c r) (effect : ∀ k, (r k).core.tick = f k) : GroupBecomes i c s m fun _ k => f k :=
  becomes_of_retire (fun _ => r) (by rw [meaning, State.compute, instr_of_fetches fetched]; rfl) fun _ _ => effect _

/-- A branch whose meaning decides by `p` branches by any condition that agrees with `p`. -/
theorem branches_of_compute {mk : CoreId → GReg → GReg → BitVec 24 → Instr} {p q : Word → Word → Bool}
    (agree : ∀ a b, p a b = q a b)
    (meaning : ∀ c rd rs1 imm s, exec (mk c rd rs1 imm) s = s.compute c fun k => k.branch (p (k.gpr rd) (k.gpr rs1)) imm) :
    Branches mk q :=
  fun c rd rs1 imm s _ fetched => becomes_of_compute _ fetched (meaning c rd rs1 imm s) fun k => by rw [tick_branch, agree]

theorem slt_eq_decide (a b : Word) : a.slt b = decide (a.toInt < b.toInt) := rfl
theorem not_slt_eq_decide (a b : Word) : (!a.slt b) = decide (b.toInt ≤ a.toInt) := by
  rw [slt_eq_decide, ← decide_not, decide_eq_decide, Int.not_lt]

theorem ult_eq_decide (a b : Word) : a.ult b = decide (a.toNat < b.toNat) := rfl
theorem not_ult_eq_decide (a b : Word) : (!a.ult b) = decide (b.toNat ≤ a.toNat) := by
  rw [ult_eq_decide, ← decide_not, decide_eq_decide, Nat.not_lt]

/-- Settles O7: the branches by their condition (`branches_of_compute`), the calls by `tick_callTo`. -/
theorem branchesAndCallsMoveThePc : Obligations.BranchesAndCallsMoveThePc := by
  unfold Obligations.BranchesAndCallsMoveThePc
  refine ⟨?jeq, ?jne, ?jlt, ?jge, ?jltu, ?jgeu, ?call, ?callr⟩
  case jeq => exact branches_of_compute (fun _ _ => rfl) fun _ _ _ _ _ => rfl
  case jne => exact branches_of_compute (fun _ _ => decide_not.symm) fun _ _ _ _ _ => rfl
  case jlt => exact branches_of_compute slt_eq_decide fun _ _ _ _ _ => rfl
  case jge => exact branches_of_compute not_slt_eq_decide fun _ _ _ _ _ => rfl
  case jltu => exact branches_of_compute ult_eq_decide fun _ _ _ _ _ => rfl
  case jgeu => exact branches_of_compute not_ult_eq_decide fun _ _ _ _ _ => rfl
  case call => exact fun _ _ _ _ _ fetched => becomes_of_compute _ fetched rfl fun k => tick_callTo k _ _
  case callr => exact fun _ _ _ _ _ _ fetched => becomes_of_compute _ fetched rfl fun k => tick_callTo k _ _

/-! ### General registers (R320) -/

@[simp] theorem gpr_zero (k : Core) : k.gpr 0 = 0 := rfl

@[simp] theorem setGpr_zero (k : Core) (v : Word) : k.setGpr 0 v = k := rfl

theorem gpr_setGpr_same (k : Core) {r : GReg} (v : Word) (r0 : r ≠ 0) : (k.setGpr r v).gpr r = v := by
  rw [Core.gpr, if_neg r0, Core.setGpr, if_neg r0]
  exact get_set_same _ _ _ _

theorem gpr_setGpr_ne (k : Core) {r q : GReg} (v : Word) (ne : q ≠ r) : (k.setGpr r v).gpr q = k.gpr q := by
  unfold Core.setGpr
  split
  · rfl
  · exact if_congr Iff.rfl rfl (get_set_ne _ _ _ _ _ (Fin.val_ne_of_ne ne))

@[simp] theorem accOf_putAcc_same (k : Core) (a : Fin 4) (v : BitVec 96) : (k.putAcc a v).accOf a = v := get_set_same _ _ _ _

/-- At reset no register, no accumulator of any core is listed, and its pc is 0 (log entries 7 and 8). -/
theorem reset_core (c : CoreId) :
    (State.reset.hw.coreOf c).g = [] ∧ (State.reset.hw.coreOf c).acc = [] ∧ (State.reset.hw.coreOf c).pc = 0 := by
  cases c <;> exact ⟨rfl, rfl, rfl⟩

/-- Settles O8, by the rules of a register after a write and by `reset_core`. -/
theorem generalRegistersHoldWhatIsWritten : Obligations.GeneralRegistersHoldWhatIsWritten := by
  unfold Obligations.GeneralRegistersHoldWhatIsWritten
  refine ⟨gpr_zero, setGpr_zero, fun k _ v => gpr_setGpr_same k v, fun k _ _ v => gpr_setGpr_ne k v, fun c r => ?gprs, fun c a => ?accs,
    fun c a v => ⟨(reset_core c).2.2, accOf_putAcc_same _ a v⟩, fun _ => rfl⟩
  case gprs =>
    rw [Core.gpr, (reset_core c).1]
    exact ite_self _
  case accs =>
    rw [Core.accOf, (reset_core c).2.1]
    rfl

end Sys2Proof.Proofs
end

section
/-! PROOFS. The system instructions: the frame of `State.sysInstr`, control registers and traps (O9 to O11). -/

namespace Sys2Proof.Proofs

open Sys2Proof.Machine Sys2Proof.Laws

/-! ### What an instruction of the system profile answers (R319, R334) -/

section
variable {i : Instr} {c : CoreId} {s m : State} {w : Word}

/-- An instruction whose effect, after the fetch, is an exception on a core of the system profile. -/
theorem becomes_of_raise {code : Nat} {ti : Word} (system : c.isEngine = false)
    (meaning : exec i s = .next ((m.onHw fun h => h.raise c code ti).afterInstr c)) :
    GroupBecomes i c s m fun _ k => k.except code ti none := by
  refine becomes_of_set_list (fun _ k => k.except code ti none) (meaning.trans ?_)
  cases c with
  | engine e => cases system
  | crest k => rfl
  | app k => rfl

section
variable {legal : Core → Bool} {lvl : Nat} {body : State → State} (system : c.isEngine = false) (fetched : s.Fetches c m)
  (meaning : exec i s = s.sysInstr c legal lvl w body)
include system fetched meaning

theorem exec_of_allowed (ok : legal (m.hw.coreOf c) = true) (high : lvl ≤ (m.hw.coreOf c).level) :
    exec i s = .next ((body m).afterInstr c) := by
  rw [meaning, State.sysInstr, instr_of_fetches fetched, if_neg (by simp [system, ok]), if_neg high.not_gt]

theorem raises_illegal (bad : legal (m.hw.coreOf c) = false) : GroupBecomes i c s m fun _ k => k.except 0x01 w none := by
  refine becomes_of_raise system ?_
  rw [meaning, State.sysInstr, instr_of_fetches fetched, if_pos (by simp [bad])]
  rfl

theorem raises_privilege (ok : legal (m.hw.coreOf c) = true) (low : (m.hw.coreOf c).level < lvl) :
    GroupBecomes i c s m fun _ k => k.except 0x02 w none := by
  refine becomes_of_raise system ?_
  rw [meaning, State.sysInstr, instr_of_fetches fetched, if_neg (by simp [system, ok]), if_pos low]
  rfl

end

/-! ### Control registers (R334) -/

section
variable {rd rs1 : GReg} {n : Nat} {f : Word → Word → Word} (fetched : s.Fetches c m)
  (meaning : exec i s = s.crExchange c rd rs1 n w f)
include fetched meaning

/-- An exchange that the level allows, of a register that ends no interrupt: rd takes the old value, the register the new one. -/
theorem becomes_of_crExchange (ok : m.hw.crUse c n true = .ok) (noEoi : n ≠ 59) :
    GroupBecomes i c s m fun x k => ((k.crWrite n (f (m.hw.crRead x n) (k.gpr rs1))).setGpr rd (m.hw.crRead x n)).tick := by
  refine becomes_of_retire (fun x k => (k.crWrite n (f (m.hw.crRead x n) (k.gpr rs1))).ret rd (m.hw.crRead x n)) ?_ fun _ _ => rfl
  rw [meaning, State.crExchange, instr_of_fetches fetched]
  dsimp only
  rw [ok]
  refine congrArg (fun t : State => (.next (t.afterInstr c) : Result)) (congrArg (fun h : Hw => ({ m with hw := h } : State)) ?_)
  dsimp only
  rw [if_neg noEoi]

theorem crExchange_illegal (system : c.isEngine = false) (bad : m.hw.crUse c n true = .illegal) :
    GroupBecomes i c s m fun _ k => k.except 0x01 w none := by
  refine becomes_of_raise system ?_
  rw [meaning, State.crExchange, instr_of_fetches fetched]
  dsimp only
  rw [bad]
  rfl

theorem crExchange_privilege (system : c.isEngine = false) (low : m.hw.crUse c n true = .privilege) :
    GroupBecomes i c s m fun _ k => k.except 0x02 w none := by
  refine becomes_of_raise system ?_
  rw [meaning, State.crExchange, instr_of_fetches fetched]
  dsimp only
  rw [low]
  rfl

end
end

/-- Settles O9: CRRD reads, the others exchange (`becomes_of_crExchange`); a refusal is an exception with the instruction's word. -/
theorem controlRegisterInstructionsExchangeValues : Obligations.ControlRegisterInstructionsExchangeValues := by
  unfold Obligations.ControlRegisterInstructionsExchangeValues
  intro c s m rd rs1 n fetched
  have crrd : exec (.crrd c rd n) s = execCrrd c rd n s := rfl
  rw [execCrrd, instr_of_fetches fetched] at crrd
  refine ⟨fun ok => ?read, fun ok noEoi => ⟨?exchange, ?setBits, ?clearBits⟩, fun system low => ?readLow, fun system low => ?writeLow,
    fun system bad => ?writeBad⟩
  case read =>
    exact becomes_of_retire (fun x k => k.ret rd (m.hw.crRead x n)) (crrd.trans (by rw [ok])) fun _ _ => rfl
  case exchange => exact becomes_of_crExchange (f := fun _ a => a) fetched rfl ok noEoi
  case setBits => exact becomes_of_crExchange (f := fun old a => old ||| a) fetched rfl ok noEoi
  case clearBits => exact becomes_of_crExchange (f := fun old a => old &&& ~~~a) fetched rfl ok noEoi
  case readLow => exact becomes_of_raise system (crrd.trans (by rw [low]; rfl))
  case writeLow => exact crExchange_privilege (f := fun _ a => a) fetched rfl system low
  case writeBad => exact crExchange_illegal (f := fun _ a => a) fetched rfl system bad

/-! ### Which control registers an application core has (R335, R525) -/

/-- The lowest level that reads a control register of an application core. -/
def lowestLevel (n : Nat) : Option Nat :=
  if n ≤ 5 then some 0
  else if (8 ≤ n ∧ n ≤ 13) ∨ (32 ≤ n ∧ n ≤ 34) ∨ n = 56 ∨ n = 59 then some 1
  else if (16 ≤ n ∧ n ≤ 22) ∨ n = 40 ∨ n = 42 ∨ (44 ≤ n ∧ n ≤ 46) ∨ n = 57 ∨ n = 60 then some 2
  else if (24 ≤ n ∧ n ≤ 29) ∨ n = 48 ∨ n = 50 ∨ n = 58 then some 3
  else none

/-- The registers that no instruction writes. -/
def crReadOnly (n : Nat) : Bool := n ≤ 1 || n = 4 || n = 5 || n = 60

/-- The table of the model by the lowest level of each register: STATUS is written from L1, the read-only ones not at all. -/
theorem crLevels_app : ∀ n : Fin 128, crLevels true n =
    (lowestLevel n).map fun l => (l, if crReadOnly n then none else some (if n.val = 2 then 1 else l)) := by
  decide

/-- What an application core at a level may do with a register that it has. -/
theorem crUse_app (h : Hw) (k : Fin 8) (n : Fin 128) (write : Bool) : h.crUse (.app k) n write =
    match lowestLevel n with
    | none => .illegal
    | some l =>
      if write ∧ crReadOnly n then .illegal
      else if (h.coreOf (.app k)).level < (if write ∧ n.val = 2 then 1 else l) then .privilege else .ok := by
  show (match crLevels true n with
    | none => CrUse.illegal
    | some (rd, wr) => _) = _
  rw [crLevels_app]
  cases lowestLevel n with
  | none => rfl
  | some l => cases write <;> cases ro : crReadOnly n <;> simp

/-- Settles O10, by the table (`crUse_app`). -/
theorem controlRegistersOfApplicationCores : Obligations.ControlRegistersOfApplicationCores := by
  unfold Obligations.ControlRegistersOfApplicationCores
  intro h k n
  dsimp only
  have readOnly : (n.val ≤ 1 ∨ n.val = 4 ∨ n.val = 5 ∨ n.val = 60) ↔ crReadOnly n = true := by
    simp [crReadOnly, or_assoc]
  rw [readOnly, crUse_app, crUse_app]
  change (_ ↔ ∃ m, lowestLevel n = some m ∧ _) ∧ (_ ↔ lowestLevel n = none) ∧ (_ ↔ _ ∧ ∃ m, lowestLevel n = some m ∧ _) ∧
    (_ ↔ lowestLevel n = none ∨ _)
  generalize (h.coreOf (.app k)).level = level
  cases low : lowestLevel n with
  | none => simp
  | some l =>
    have status : n.val = 2 → l = 0 := fun two => by
      rw [two] at low
      exact (Option.some.inj low).symm
    cases ro : crReadOnly n <;> grind

end Sys2Proof.Proofs
end

section
/-! PROOFS. The traps, DSTOP and RETT (O11). -/

namespace Sys2Proof.Proofs

open Sys2Proof.Machine Sys2Proof.Laws

/-! ### A group that halts (R498) -/

/-- A core that the debug unit has halted. -/
def haltedCore (k : Core) : Core := { k with halted := true, stepping := false, haltPending := false }

/-- A core belongs to its own group (R483). -/
theorem mem_members (h : Hw) (c : CoreId) : c ∈ h.members c := by
  cases c with
  | app k => exact List.mem_singleton_self _
  | engine e => exact List.mem_singleton_self _
  | crest k =>
    have known : k ∈ Hw.crestCores := by revert k; decide
    simp only [Hw.members]
    split
    · exact List.mem_map_of_mem (List.mem_filter.mpr ⟨known, ‹_›⟩)
    · exact List.mem_singleton_self _

theorem coreOf_halt_list (l : List CoreId) (once : l.Nodup) (h : Hw) {x : CoreId} (among : x ∈ l) :
    (l.foldl (fun h m => (h.setCore m (haltedCore (h.coreOf m))).noteHalted m true) h).coreOf x = haltedCore (h.coreOf x) := by
  induction l generalizing h with
  | nil => cases among
  | cons m l ih =>
    obtain ⟨apart, once⟩ := List.nodup_cons.mp once
    rw [List.foldl_cons]
    rcases List.mem_cons.mp among with rfl | inRest
    · refine ((halt_list true l _).2.2.2 x apart).trans ?_
      rw [noteHalted_coreOf, coreOf_setCore_same]
    · rw [ih once _ inRest, noteHalted_coreOf, coreOf_setCore_ne _ _ _ _ (ne_of_mem_of_not_mem inRest apart)]

/-- Nothing follows an instruction that leaves its core neither stepping nor waiting for a halt. -/
theorem afterInstr_of_still {s : State} {c : CoreId} (noStep : (s.hw.coreOf c).stepping = false)
    (noHalt : (s.hw.coreOf c).haltPending = false) : s.afterInstr c = s := by
  unfold State.afterInstr
  dsimp only
  rw [noStep, noHalt]
  rfl

/-- Every member of a group that halts is halted, and stays so after the instruction. -/
theorem coreOf_setHalted_afterInstr (s : State) (c : CoreId) {x : CoreId} (member : x ∈ s.hw.members c) :
    ((s.onHw fun h => h.setHalted c true).afterInstr c).hw.coreOf x = haltedCore (s.hw.coreOf x) := by
  have halted {y : CoreId} (member : y ∈ s.hw.members c) : (s.hw.setHalted c true).coreOf y = haltedCore (s.hw.coreOf y) :=
    coreOf_halt_list _ (members_nodup s.hw c) s.hw member
  have self : (s.onHw fun h => h.setHalted c true).hw.coreOf c = haltedCore (s.hw.coreOf c) := halted (mem_members s.hw c)
  rw [afterInstr_of_still (congrArg Core.stepping self) (congrArg Core.haltPending self)]
  exact halted member

/-! ### The statement -/

/-- Settles O11: each trap by what `State.sysInstr` answers, DSTOP by the debug enable, RETT by the saved status. -/
theorem trapsTakeTheirException : Obligations.TrapsTakeTheirException := by
  unfold Obligations.TrapsTakeTheirException
  intro c s m system fetched
  have notBoth : c.isCrest = true → c.isApp = false := by cases c <;> simp [CoreId.isCrest, CoreId.isApp]
  have trap1 : exec (.trap1 c) s = execTrap1 c s := rfl
  have trap2 : exec (.trap2 c) s = execTrap2 c s := rfl
  have trap3 : exec (.trap3 c) s = execTrap3 c s := rfl
  have rett : exec (.rett c) s = execRett c s := rfl
  have dstop : exec (.dstop c) s = .next (State.afterInstr (if m.invasive c then m.onHw fun h => h.setHalted c true
      else m.onHw fun h => h.raise c 0x09 (h.coreOf c).pc) c) := by
    show execDstop c s = _
    rw [execDstop, instr_of_fetches fetched]
  refine ⟨?trap1, fun app ns high => ?trap2, fun app high => ?trap3, fun closed => ?dstopRaises, fun opened => ?dstopHalts,
    fun high ok => ?rett, fun high bad => ?rettIllegal, fun low => ?rettLow, fun app ns low => ?trap2Low, fun never => ?trap2Illegal,
    fun crest => ?trap3Illegal⟩
  case trap1 => exact becomes_of_raise system (exec_of_allowed system fetched trap1 rfl (Nat.zero_le _))
  case trap2 => exact becomes_of_raise system (exec_of_allowed system fetched trap2 (by simp [app, ns]) high)
  case trap3 => exact becomes_of_raise system (exec_of_allowed system fetched trap3 app high)
  case dstopRaises => exact becomes_of_raise system (by rw [dstop, if_neg (by simp [closed])]; rfl)
  case dstopHalts =>
    exact ends_of_next (by rw [dstop, if_pos opened]) fun x member => coreOf_setHalted_afterInstr m c member
  case rett => exact becomes_of_set_list (fun _ k => k.rett) (exec_of_allowed system fetched rett (by simp [ok]) high)
  case rettIllegal => exact raises_illegal system fetched rett (by simp [bad, Nat.ne_of_gt high])
  case rettLow => exact raises_privilege system fetched rett (by simp [low]) (low ▸ Nat.one_pos)
  case trap2Low => exact raises_privilege system fetched trap2 (by simp [app, ns]) (low ▸ Nat.one_pos)
  case trap2Illegal =>
    refine raises_illegal system fetched trap2 ?_
    rcases never with crest | secure
    · rw [notBoth crest, Bool.false_and]
    · rw [secure, Bool.and_false]
  case trap3Illegal => exact raises_illegal system fetched trap3 (notBoth crest)

end Sys2Proof.Proofs
end

section
/-! PROOFS. The entry of an exception and the return from it (O12, O13). -/

namespace Sys2Proof.Proofs

open Sys2Proof.Machine Sys2Proof.Laws

/-! ### The control registers of a core (R335) -/

/-- The banks do not overlap: within a world every control register has a key of its own. -/
theorem crKey_ne {a b : Nat} (ns : Bool) (a128 : a < 128) (b128 : b < 128) (ne : a ≠ b) : Core.crKey ns a ≠ Core.crKey ns b := by
  unfold Core.crKey
  split <;> split <;> omega

@[simp] theorem crAt_setCrAt_same (k : Core) (n : Nat) (v : Word) : (k.setCrAt n v).crAt n = v := get_set_same _ _ _ _

theorem crAt_setCrAt_ne (k : Core) {n q : Nat} (v : Word) (n128 : n < 128) (q128 : q < 128) (ne : q ≠ n) :
    (k.setCrAt n v).crAt q = k.crAt q :=
  get_set_ne _ _ _ _ _ (crKey_ne k.ns q128 n128 ne)

section
variable (k : Core) (n : Nat) (v : Word)

@[simp] theorem setCrAt_status : (k.setCrAt n v).status = k.status := rfl
@[simp] theorem setCrAt_g : (k.setCrAt n v).g = k.g := rfl
@[simp] theorem setCrAt_acc : (k.setCrAt n v).acc = k.acc := rfl
@[simp] theorem setCrAt_flags : (k.setCrAt n v).flags = k.flags := rfl

end

theorem level_lt (k : Core) : k.level < 4 := Nat.mod_lt _ (by decide)

/-- The fields of a STATUS word with IE 0. -/
theorem statusWord_fields : ∀ t < 4, ∀ ns, bitsOf (Core.statusWord t ns false) 1 0 = t ∧
    bitN (Core.statusWord t ns false).toNat 2 = ns ∧ bitN (Core.statusWord t ns false).toNat 3 = false ∧
    (Core.statusWord t ns false).toNat < 8 := by
  decide

/-! ### The entry of R338 -/

/-- The world that an entry at level t leaves. -/
def entryWorld (k : Core) (t : Nat) : Bool := if t = 3 then false else if t = 2 then true else k.ns

/-- What an entry at a level above L0 saves and sets. -/
structure Entered (k r : Core) (t : Nat) (ret code info : Word) : Prop where
  level : r.level = t
  ie : r.ie = false
  ns : r.ns = entryWorld k t
  statusBits : r.status.toNat < 8
  pstat : r.crAt (8 * t + 4) = k.status
  rpc : r.crAt (8 * t + 1) = ret
  tcode : r.crAt (8 * t + 2) = code
  tinfo : r.crAt (8 * t + 3) = info
  vector : r.pc = r.crAt (8 * t)
  tbase : r.crAt (8 * t) = Tabs.get Core.crReset k.cr (Core.crKey r.ns (8 * t))
  g : r.g = k.g
  acc : r.acc = k.acc
  flags : r.flags = k.flags

theorem shadowed_rest (k : Core) (t : Nat) (trap3 : Bool) :
    (k.shadowed t trap3).cr = k.cr ∧ (k.shadowed t trap3).g = k.g ∧ (k.shadowed t trap3).acc = k.acc ∧
      (k.shadowed t trap3).flags = k.flags ∧ (k.shadowed t trap3).ns = k.ns := by
  unfold Core.shadowed
  split <;> exact ⟨rfl, rfl, rfl, rfl, rfl⟩

/-- The core with the STATUS of an entry, before the entry saves anything. -/
def entryCore (k : Core) (t : Nat) (trap3 : Bool) : Core :=
  { k.shadowed t trap3 with status := Core.statusWord t (entryWorld (k.shadowed t trap3) t) false }

/-- PSTAT, RPC, TCODE and TINFO of level t saved, in this order. -/
def saveCause (k : Core) (t : Nat) (old ret code info : Word) : Core :=
  (((k.setCrAt (8 * t + 4) old).setCrAt (8 * t + 1) ret).setCrAt (8 * t + 2) code).setCrAt (8 * t + 3) info

/-- Each of the four registers holds what was saved in it, and no other register of a core changes. -/
theorem crAt_saveCause (k : Core) {t : Nat} (known : t < 4) (old ret code info : Word) :
    (saveCause k t old ret code info).crAt (8 * t + 4) = old ∧ (saveCause k t old ret code info).crAt (8 * t + 1) = ret ∧
      (saveCause k t old ret code info).crAt (8 * t + 2) = code ∧ (saveCause k t old ret code info).crAt (8 * t + 3) = info ∧
      (saveCause k t old ret code info).crAt (8 * t) = k.crAt (8 * t) := by
  unfold saveCause
  refine ⟨?_, ?_, ?_, ?_, ?_⟩ <;> simp (disch := omega) [crAt_setCrAt_ne]

/-- The core goes to the vector of level t. -/
def vectored (k : Core) (t : Nat) : Core := { k with pc := k.crAt (8 * t), idle := false }

theorem enter_eq (k : Core) (t : Nat) (ret code info : Word) (trap3 : Bool) :
    k.enter t ret code info trap3 = vectored (saveCause (entryCore k t trap3) t k.status ret code info) t := rfl

theorem saveCause_rest (k : Core) (t : Nat) (old ret code info : Word) :
    (saveCause k t old ret code info).status = k.status ∧ (saveCause k t old ret code info).g = k.g ∧
      (saveCause k t old ret code info).acc = k.acc ∧ (saveCause k t old ret code info).flags = k.flags := by
  simp [saveCause]

theorem entered_enter (k : Core) {t : Nat} (known : t < 4) (ret code info : Word) (trap3 : Bool) :
    Entered k (k.enter t ret code info trap3) t ret code info := by
  obtain ⟨cr, g, acc, flags, world⟩ := shadowed_rest k t trap3
  have sameWorld : entryWorld (k.shadowed t trap3) t = entryWorld k t := by rw [entryWorld, world, entryWorld]
  obtain ⟨level, ns, ie, bits⟩ := statusWord_fields t known (entryWorld (k.shadowed t trap3) t)
  obtain ⟨pstat, rpc, tcode, tinfo, tbase⟩ := crAt_saveCause (entryCore k t trap3) known k.status ret code info
  obtain ⟨status, g', acc', flags'⟩ := saveCause_rest (entryCore k t trap3) t k.status ret code info
  rw [enter_eq]
  generalize saveCause (entryCore k t trap3) t k.status ret code info = r at *
  have entered : (entryCore k t trap3).ns = r.ns := congrArg (fun w : Word => bitN w.toNat 2) status.symm
  have world' : r.ns = entryWorld (k.shadowed t trap3) t := (congrArg (fun w : Word => bitN w.toNat 2) status).trans ns
  exact {
    level := (congrArg (fun w => bitsOf w 1 0) status).trans level
    ie := (congrArg (fun w : Word => bitN w.toNat 3) status).trans ie
    ns := world'.trans sameWorld
    statusBits := lt_of_eq_of_lt (congrArg BitVec.toNat status) bits
    pstat := pstat
    rpc := rpc
    tcode := tcode
    tinfo := tinfo
    vector := rfl
    tbase := tbase.trans (by rw [Core.crAt, show (entryCore k t trap3).cr = k.cr from cr, entered]; rfl)
    g := g'.trans g
    acc := acc'.trans acc
    flags := flags'.trans flags }

theorem targetLevel_lt (k : Core) (code : Nat) : k.targetLevel code < 4 := by
  have := level_lt k
  unfold Core.targetLevel
  split_ifs <;> omega

/-- The pc that an exception saves: a trap returns to the next word (R338). -/
def savedPc (k : Core) (code : Nat) : Word := if 0x0A ≤ code && code ≤ 0x0C then k.pc + 1 else k.pc

/-- An exception is an entry at its target level, and CYCLES advances. -/
theorem except_eq (k : Core) (code : Nat) (ti : Word) :
    k.except code ti none =
      let r := k.enter (k.targetLevel code) (savedPc k code) (word code) ti (code == 0x0C)
      { r with cycles := r.cycles + 1 } := rfl

/-- Settles O12, by `except_eq` and `entered_enter`. -/
theorem exceptionEntrySavesAndVectors : Obligations.ExceptionEntrySavesAndVectors := by
  unfold Obligations.ExceptionEntrySavesAndVectors
  intro k code ti _ most
  have saved : savedPc k code = if 0x0A ≤ code then k.pc + 1 else k.pc :=
    if_congr (by simp [most]) rfl rfl
  have entry := entered_enter k (targetLevel_lt k code) (savedPc k code) (word code) ti (code == 0x0C)
  rw [except_eq]
  generalize k.enter (k.targetLevel code) (savedPc k code) (word code) ti (code == 0x0C) = r at entry
  rw [saved] at entry
  exact ⟨entry.level, entry.ie, entry.ns, entry.statusBits, entry.pstat, entry.rpc, entry.tcode, entry.tinfo, entry.vector, entry.tbase,
    entry.g, entry.acc, entry.flags⟩

/-! ### The return of R339 and R511 -/

theorem get_keep_inside {α : Type} (d : Nat → α) (t : Tab α) {lo hi x : Nat} (inside : lo ≤ x ∧ x ≤ hi) :
    Tabs.get d (Tabs.keep t lo hi) x = Tabs.get d t x := by
  induction t with
  | nil => rfl
  | cons e t ih =>
    obtain ⟨j, v⟩ := e
    unfold Tabs.keep at ih ⊢
    rw [List.filter_cons]
    split
    · exact if_congr Iff.rfl rfl ih
    · rename_i outside
      have ne : x ≠ j := fun eq => outside (by simp [← eq, inside.1, inside.2])
      rw [ih, Tabs.get, if_neg ne]

theorem get_keep_outside {α : Type} (d : Nat → α) (t : Tab α) {lo hi x : Nat} (outside : ¬(lo ≤ x ∧ x ≤ hi)) :
    Tabs.get d (Tabs.keep t lo hi) x = d x := by
  induction t with
  | nil => rfl
  | cons e t ih =>
    obtain ⟨j, v⟩ := e
    unfold Tabs.keep at ih ⊢
    rw [List.filter_cons]
    split
    · rename_i inside
      have ne : x ≠ j := fun eq => outside (by simpa [← eq] using inside)
      rw [Tabs.get, if_neg ne, ih]
    · exact ih

/-- What R511 clears: g1 to g4 stay, all else reads 0. -/
def scrubbed (k : Core) : Core := { k with g := Tabs.keep k.g 1 4, acc := [], flags := 0 }

theorem gpr_scrubbed_low (k : Core) {g : GReg} (low : g.val ≤ 4) : (scrubbed k).gpr g = k.gpr g := by
  unfold Core.gpr
  split
  · rfl
  · have := Fin.val_ne_of_ne ‹_›
    exact get_keep_inside _ _ ⟨by omega, low⟩

theorem gpr_scrubbed_high (k : Core) {g : GReg} (high : 5 ≤ g.val) : (scrubbed k).gpr g = 0 := by
  unfold Core.gpr
  split
  · rfl
  · exact get_keep_outside _ _ (by omega)

theorem scrub_of_trap3 {k : Core} (trap3 : k.shadow = none ∨ ∃ b, k.shadow = some b ∧ b.byTrap3 = true) : k.scrub = scrubbed k := by
  unfold Core.scrub
  split
  · rename_i b bank
    obtain none | ⟨b', bank', byTrap3⟩ := trap3
    · exact nomatch none.symm.trans bank
    · exact if_pos (Option.some.inj (bank'.symm.trans bank) ▸ byTrap3)
  · rfl

theorem scrub_of_other {k : Core} {b : Shadow} (bank : k.shadow = some b) (other : b.byTrap3 = false) :
    k.scrub = { k with g := b.g, acc := b.acc, flags := b.flags } := by
  unfold Core.scrub
  split
  · rename_i b' bank'
    obtain rfl := Option.some.inj (bank.symm.trans bank')
    exact if_neg (by simp [other])
  · rename_i none
    exact nomatch none.symm.trans bank

/-- The core whose registers a return leaves: scrubbed from L3 into the normal world. -/
def returning (k : Core) : Core := if k.level = 3 ∧ bitN (k.crAt (8 * k.level + 4)).toNat 2 then k.scrub else k

/-- Settles O13: the registers after a return are those of `returning`, by the shadow bank. -/
theorem returnRestoresTheSavedState : Obligations.ReturnRestoresTheSavedState := by
  unfold Obligations.ReturnRestoresTheSavedState
  intro k
  dsimp only
  have normal : bitN (k.crAt (8 * k.level + 4)).toNat 2 = (k.crAt (8 * k.level + 4)).getLsbD 2 := bitN_eq_testBit _ _
  have gpr (g : GReg) : k.rett.gpr g = (returning k).gpr g := rfl
  have acc (a : Fin 4) : k.rett.accOf a = (returning k).accOf a := rfl
  have flags : k.rett.flags = (returning k).flags := rfl
  refine ⟨rfl, rfl, fun stays => ?stays, fun l3 toNormal trap3 => ?trap3, fun b l3 toNormal bank other => ?other⟩
  case stays =>
    have same : returning k = k := if_neg (by rwa [normal])
    rw [same] at gpr acc flags
    exact ⟨gpr, acc, flags⟩
  case trap3 =>
    have scrub : returning k = scrubbed k := (if_pos ⟨l3, normal.trans toNormal⟩).trans (scrub_of_trap3 trap3)
    rw [scrub] at gpr acc flags
    exact ⟨fun g low => (gpr g).trans (gpr_scrubbed_low k low), fun g high => (gpr g).trans (gpr_scrubbed_high k high), acc, flags⟩
  case other =>
    have restored : returning k = { k with g := b.g, acc := b.acc, flags := b.flags } :=
      (if_pos ⟨l3, normal.trans toNormal⟩).trans (scrub_of_other bank other)
    rw [restored] at gpr acc flags
    exact ⟨fun g ne => (gpr g).trans (if_neg ne), acc, flags⟩

end Sys2Proof.Proofs
end

section
/-! PROOFS. An instruction that reads a container corrects a single bit error in it (R146, R147), where the statements of loads, atomics,
frame points and undo logs have every container that is not written stay as it was (O15 to O19). -/

namespace Sys2Proof.Proofs

open Sys2Proof.Machine Sys2Proof.Laws

/-! ### What a command answers -/

/-- The state that a command answers; every command answers one. -/
def answer (i : Instr) (s : State) : State :=
  match exec i s with
  | .next t => t
  | _ => s

theorem answer_of_ends {i : Instr} {s : State} {P : State → Prop} (claim : Ends i s P) : P (answer i s) := by
  obtain ⟨t, run, holds⟩ := claim
  rwa [answer, run]

/-- An instruction that leaves RAM as it was corrects no container. -/
theorem not_groupBecomes_of_corrected {i : Instr} {c : CoreId} {s m : State} {f : CoreId → Core → Core} {a : Nat}
    (struck : (m.hw.ram a).flaw = .single) (corrected : ((answer i s).hw.ram a).flaw = .sound) : ¬ GroupBecomes i c s m f := by
  intro claim
  obtain ⟨-, mem, -⟩ := answer_of_ends claim
  rw [Hw.ram, mem] at corrected
  exact Flaw.noConfusion (struck.symm.trans corrected)

/-- The instruction of a core that runs is fetched, and the fetch raises nothing. -/
theorem fetches_of_fetch {s : State} {c : CoreId} (running : s.hw.running c = true) (quiet : (s.fetch c).2 = none) :
    s.Fetches c (s.fetch c).1 :=
  ⟨running, Prod.ext rfl quiet⟩

/-! ### Loads and atomics of an application core -/

/-- Application core 0 runs in the secure world at L1 with translation off, one memory region is open to all, g1 holds the first
address of the secure SRAM, and the container there holds 7 and has taken a single bit error. -/
def struckSram : State :=
  { hw := { regs := [(Reg.PWR_RAIL_PG, BitVec.allOnes 40), (Reg.CLK_STAT, 0xFF), (Reg.WLD_CTRL, 1), (Reg.WLD_RGN_BASE 0, 0x8000000000),
              (Reg.WLD_RGN_LIMIT 0, 0xFFFFFFFFFF), (Reg.WLD_RGN_ACC 0, 0xFFFFFFFFFF)],
            mem := [(0x100000, { data := 7, flaw := .single })],
            app := [(0, { Core.appInit with inReset := false, status := 1, g := [(1, 0x100000)] })] } }

/-- `struckSram` after the fetch. -/
def struckSramFetched : State := (struckSram.fetch (.app 0)).1

/-- `struckSram` after the translation of the address in g1 for an access. -/
def struckSramReached (w : Want) : State := (struckSramFetched.translate (.app 0) 0x100000 w).1

theorem struckSram_fetches : struckSram.Fetches (.app 0) struckSramFetched :=
  fetches_of_fetch (by decide +kernel) (by decide +kernel)

/-- Refutes O15, at its clause of a load: LD of the struck word of `struckSram` gives 7 and corrects the container, where the clause
leaves RAM as it was. -/
theorem not_loadsAndStoresOfApplicationCores : ¬ Obligations.LoadsAndStoresOfApplicationCores := by
  unfold Obligations.LoadsAndStoresOfApplicationCores
  intro claim
  have physical : struckSramFetched.translate (.app 0) 0x100000 .load = (struckSramReached .load, .ok 0x100000 false) :=
    Prod.ext rfl (by decide +kernel)
  have address : (struckSramFetched.hw.appCore 0).gpr 1 + (0 : BitVec 24).signExtend 40 = 0x100000 := by decide +kernel
  have allowed : (struckSramReached .load).hw.memAllows ((struckSramReached .load).hw.coreWho (.app 0)) false 0x100000 = true := by
    decide +kernel
  have holds7 : (struckSramReached .load).memRead 0x100000 = .ok 7 := by decide +kernel
  have struck : ((struckSramReached .load).hw.ram 0x100000).flaw = .single := by decide +kernel
  have corrected : ((answer (.ld (.app 0) 2 1 0 .sound) struckSram).hw.ram 0x100000).flaw = .sound := by decide +kernel
  obtain ⟨load, -⟩ := claim 0 struckSram struckSramFetched (struckSramReached .load) 2 1 0 0x100000 false struckSram_fetches (by decide)
  exact not_groupBecomes_of_corrected struck corrected (load 7 .sound (address ▸ physical) allowed (by decide) holds7)

/-- Refutes O16, at its clause of a CAS that stores nothing: g2 is not the 7 that the struck word of `struckSram` holds, and the read
of CAS corrects the container, where the clause leaves it as it was. -/
theorem not_atomicsExchangeOneWord : ¬ Obligations.AtomicsExchangeOneWord := by
  unfold Obligations.AtomicsExchangeOneWord
  intro claim
  have physical : struckSramFetched.translate (.app 0) 0x100000 .atomic = (struckSramReached .atomic, .ok 0x100000 false) :=
    Prod.ext rfl (by decide +kernel)
  have address : (struckSramFetched.hw.appCore 0).gpr 1 = 0x100000 := by decide +kernel
  have allowed : (struckSramReached .atomic).hw.memAllows ((struckSramReached .atomic).hw.coreWho (.app 0)) true 0x100000 = true := by
    decide +kernel
  have on : (struckSramReached .atomic).hw.storable 0x100000 = true := by decide +kernel
  have holds7 : (struckSramReached .atomic).memRead 0x100000 = .ok 7 := by decide +kernel
  have differs : (7 : Word) ≠ ((struckSramReached .atomic).hw.appCore 0).gpr 2 := by decide +kernel
  have struck : ((struckSramReached .atomic).hw.ram 0x100000).flaw = .single := by decide +kernel
  have corrected : ((answer (.cas (.app 0) 2 1 3 .sound) struckSram).hw.ram 0x100000).flaw = .sound := by decide +kernel
  obtain ⟨inRam, -⟩ := claim 0 struckSram struckSramFetched (struckSramReached .atomic) 2 1 3 0x100000 7 struckSram_fetches
  obtain ⟨-, -, -, noStore⟩ := inRam (address ▸ physical) allowed on holds7
  obtain ⟨same, -⟩ := answer_of_ends (noStore differs)
  exact Flaw.noConfusion (struck.symm.trans ((congrArg Container.flaw same).symm.trans corrected))

/-! ### Frame points, data words and undo entries of an engine -/

/-- Engine 0 runs a task of a kind, with an undo log; the first container of its ridge store, which is point 0 of frame 0, holds 7 and
has taken a single bit error. -/
def struckRidge (kind : TaskKind) (undo : List Undo) : State :=
  { hw := { regs := [(Reg.PWR_RAIL_PG, BitVec.allOnes 40), (Reg.PWR_ISLAND_PG, BitVec.allOnes 40), (Reg.CLK_STAT, 0xFF)],
            mem := [(0x4000000, { data := 7, flaw := .single })],
            eng := [(0, { Engine.init with task := some { kind := kind }, undo := undo })] } }

/-- `struckRidge` after the fetch. -/
def struckRidgeFetched (kind : TaskKind) (undo : List Undo) : State := ((struckRidge kind undo).fetch (.engine 0)).1

/-- Refutes O17, at its clause of LDP: in an AUDIT task LDP of the struck point 0 of FRAME corrects its container, where the clause
leaves RAM as it was. -/
theorem not_enginePointInstructions : ¬ Obligations.EnginePointInstructions := by
  unfold Obligations.EnginePointInstructions
  intro claim
  have fetched : (struckRidge .audit []).Fetches (.engine 0) (struckRidgeFetched .audit []) :=
    fetches_of_fetch (by decide +kernel) (by decide +kernel)
  have point0 : frameAddr 0 0 (((struckRidgeFetched .audit []).hw.engine 0).core.gpr 0 + (0 : BitVec 24).signExtend 40).toNat =
      0x4000000 := by
    decide +kernel
  have sound : ((struckRidgeFetched .audit []).hw.ram 0x4000000).poisoned = false := by decide +kernel
  have struck : ((struckRidgeFetched .audit []).hw.ram 0x4000000).flaw = .single := by decide +kernel
  have corrected : ((answer (.ldp (.engine 0) 1 0 0 .sound) (struckRidge .audit [])).hw.ram 0x4000000).flaw = .sound := by decide +kernel
  obtain ⟨ldp, -⟩ := claim 0 _ _ { kind := .audit } 1 0 0 fetched (by decide +kernel) (by decide +kernel)
  exact not_groupBecomes_of_corrected struck corrected (ldp (.inr rfl) (point0 ▸ sound))

/-- Refutes O19, at its clause of a load from the ridge store: in a SELFTEST task LD of 0x80000, the struck word 0 of the ridge store,
corrects its container, where the clause leaves RAM as it was. -/
theorem not_engineDataAccesses : ¬ Obligations.EngineDataAccesses := by
  unfold Obligations.EngineDataAccesses
  intro claim
  have fetched : (struckRidge .selftest []).Fetches (.engine 0) (struckRidgeFetched .selftest []) :=
    fetches_of_fetch (by decide +kernel) (by decide +kernel)
  have address : (((struckRidgeFetched .selftest []).hw.engine (0 : Fin 512)).core.gpr 0 + (0x80000 : BitVec 24).signExtend 40).toNat =
      0x80000 := by
    decide +kernel
  have sound : ((struckRidgeFetched .selftest []).hw.ram 0x4000000).poisoned = false := by decide +kernel
  have struck : ((struckRidgeFetched .selftest []).hw.ram 0x4000000).flaw = .single := by decide +kernel
  have corrected : ((answer (.ld (.engine 0) 1 0 0x80000 .sound) (struckRidge .selftest [])).hw.ram 0x4000000).flaw = .sound := by
    decide +kernel
  obtain ⟨-, -, ridge, -⟩ := claim 0 _ _ { kind := .selftest } 1 0 0x80000 fetched (by decide +kernel) (by decide +kernel)
  rw [address] at ridge
  exact not_groupBecomes_of_corrected struck corrected (ridge rfl (by decide) (by decide) sound)

/-- An undo entry of frame 1 that has taken a single bit error. -/
def struckEntry : Undo := { boundary := false, frame := 1, word := 7, flaw := .single }

/-- Refutes O18, at its clause of RBK: a ROLLBACK task of frame 0 reads the whole undo log and corrects the struck entry of frame 1
that it keeps, where the clause keeps the entry as it was. -/
theorem not_engineTaskInstructions : ¬ Obligations.EngineTaskInstructions := by
  unfold Obligations.EngineTaskInstructions
  intro claim
  have fetched : (struckRidge .rollback [struckEntry]).Fetches (.engine 0) (struckRidgeFetched .rollback [struckEntry]) :=
    fetches_of_fetch (by decide +kernel) (by decide +kernel)
  have log : ((struckRidgeFetched .rollback [struckEntry]).hw.engine (0 : Fin 512)).undo = [struckEntry] := by decide +kernel
  have corrected : ((answer (.rbk (.engine 0) 1) (struckRidge .rollback [struckEntry])).hw.engine 0).undo =
      [{ struckEntry with flaw := .sound }] := by
    decide +kernel
  obtain ⟨-, -, -, -, rbk, -⟩ := claim 0 _ _ { kind := .rollback } 1 0 0 0 0 fetched (by decide +kernel)
  rw [log] at rbk
  obtain ⟨-, kept, -⟩ := answer_of_ends (rbk rfl (by decide))
  exact absurd (corrected.symm.trans kept) (by decide)

end Sys2Proof.Proofs
end

section
/-! PROOFS. The inputs of a cycle, the settings of logical time, and the exporter: absent markers, external values, datagrams and
retransmissions (O29). -/

namespace Sys2Proof.Proofs

open Sys2Proof.Machine Sys2Proof.Laws

/-! ### Absent markers (R364) -/

/-- The marker of one input of cycle n: its record, its count, and the marker itself. -/
def markOne (n : Nat) (h : Hw) (id : Nat) : Hw := ((h.note 0x08 0 [word n, word id]).countAbsent).setInput n id .absent

@[simp] theorem inputOf_setInput_same (h : Hw) (n id : Nat) (v : InVal) : (h.setInput n id v).inputOf n id = some v := by
  simp [Hw.inputOf, Hw.setInput]

theorem inputOf_setInput_ne (h : Hw) {n id x : Nat} (v : InVal) (ne : x ≠ id) : (h.setInput n id v).inputOf n x = h.inputOf n x :=
  get_set_ne (fun _ => none) h.fab.inputs _ _ (some v) (by omega)

@[simp] theorem inputOf_countAbsent (h : Hw) (n x : Nat) : h.countAbsent.inputOf n x = h.inputOf n x := by
  unfold Hw.countAbsent Hw.countFld
  split <;> rfl

@[simp] theorem inputOf_note (h : Hw) (rt sub : Nat) (body : List Word) (n x : Nat) :
    (h.note rt sub body).inputOf n x = h.inputOf n x :=
  note_view (·.inputOf n x) (fun _ _ _ => rfl) (fun _ _ _ => rfl) (fun _ _ => rfl) h rt sub body

theorem inputOf_markOne (n : Nat) (h : Hw) (id x : Nat) :
    (markOne n h id).inputOf n x = if x = id then some .absent else h.inputOf n x := by
  unfold markOne
  split
  case isTrue same => rw [same, inputOf_setInput_same]
  case isFalse ne => rw [inputOf_setInput_ne _ _ ne, inputOf_countAbsent, inputOf_note]

theorem inputOf_markAll (n : Nat) (l : List Nat) (h : Hw) (x : Nat) :
    (l.foldl (markOne n) h).inputOf n x = if x ∈ l then some .absent else h.inputOf n x := by
  induction l generalizing h with
  | nil => rfl
  | cons id l ih =>
    rw [List.foldl_cons, ih, inputOf_markOne]
    by_cases later : x ∈ l <;> by_cases now : x = id <;> simp [later, now]

/-- The inputs of cycle n that are not known have their marker, and no other input changes. -/
theorem inputOf_markAbsent (h : Hw) (n x : Nat) :
    (h.markAbsent n).inputOf n x = if x ∈ h.allInputs ∧ (h.inputOf n x).isNone then some .absent else h.inputOf n x := by
  refine (inputOf_markAll n _ h x).trans ?_
  simp only [List.mem_filter]

theorem inputOf_markAbsent_isSome {h : Hw} {n x : Nat} (used : x ∈ h.allInputs) : ((h.markAbsent n).inputOf n x).isSome = true := by
  rw [inputOf_markAbsent]
  split
  case isTrue => rfl
  case isFalse known => exact Option.isSome_iff_ne_none.mpr fun unknown => known ⟨used, Option.isNone_iff_eq_none.mpr unknown⟩

theorem inputOf_markAbsent_of_known {h : Hw} {n x : Nat} (known : (h.inputOf n x).isSome = true) :
    (h.markAbsent n).inputOf n x = h.inputOf n x := by
  rw [inputOf_markAbsent, if_neg fun absent => ?_]
  rw [Option.isNone_iff_eq_none.mp absent.2] at known
  exact Bool.noConfusion known

/-! ### External values (R363) -/

theorem powerView_extArrive (h : Hw) (c n : Nat) (v st : Word) : powerView (h.extArrive c n v st).1 = powerView h := by
  have event (g : Hw) (ev : Tab (List (Nat × Word × Word))) : powerView { g with fab := { g.fab with events := ev } } = powerView g :=
    powerView_congr rfl rfl
  unfold Hw.extArrive
  split
  · rfl
  · split
    · simp only [apply_ite Prod.fst, apply_ite powerView, Hw.lateInput, powerView_ltCountBy, powerView_note, powerView_giveInput, ite_self]
    · exact (event _ _).trans (powerView_note _ _ _ _)

theorem extArrive_of_undeclared {h : Hw} {c : Nat} (undeclared : h.extCfg c = none) (n : Nat) (v st : Word) :
    (h.extArrive c n v st).1 = h := by
  unfold Hw.extArrive
  rw [undeclared]

/-- A value of an EVENT channel carries the LC of the last SI and is the channel's latest. -/
theorem events_extArrive {h : Hw} {c : Nat} {e : ExtCfg} (declared : h.extCfg c = some e) (event : e.sampled = false) (n : Nat)
    (v st : Word) :
    Tabs.get (fun _ => []) (h.extArrive c n v st).1.fab.events c = (h.lc, v, st) :: Tabs.get (fun _ => []) h.fab.events c := by
  have lc : (h.note 0x09 0 [word h.lc, word c, v, st]).lc = h.lc := (powerView_inj (powerView_note h _ _ _)).1
  unfold Hw.extArrive
  rw [declared]
  dsimp only
  rw [event, if_neg Bool.false_ne_true]
  dsimp only
  rw [get_set_same, lc]

/-! ### The exporter (R384 to R386) -/

/-- A read of a container changes memory and the counts of errors, and raises ECC_UE at most. -/
theorem eccRead_view {β : Type} (view : Hw → β) (writes : ∀ (h : Hw) a c, view (h.setRam a c) = view h)
    (counts : ∀ (h : Hw) m e, view (h.setEcc m e) = view h) (raises : ∀ h : Hw, view (h.setBit Reg.FAB_IRQ_STAT 0) = view h)
    (h : Hw) (a : Nat) : view (h.eccRead a) = view h := by
  have found (h : Hw) (m a : Nat) (f : Flaw) : view (h.eccFound m a f) = view h := by
    cases f with
    | sound => rfl
    | single => exact counts h m _
    | double => simp [Hw.eccFound, Hw.eccUncorrectable, apply_ite view, counts, raises]
  simp [Hw.eccRead, apply_ite view, found, writes]

/-- What decides whether the exporter runs and what it has sent: LC, the VMs, the rails and the DRAM, FAB_JNL_WPOS and FAB_JNL_XPOS. -/
def exportView (h : Hw) : Nat × Tab VmSlot × Word × Word × Word × Word :=
  (h.lc, h.vms, h.reg Reg.PWR_RAIL_PG, h.reg Reg.DMC_STAT, h.reg Reg.FAB_JNL_WPOS, h.reg Reg.FAB_JNL_XPOS)

section
variable (h : Hw)

@[simp] theorem exportView_journalFound (j n : Nat) : exportView (h.journalFound j n) = exportView h := by
  refine foldl_keeps exportView _ (fun h i => ?_) _ h
  refine eccRead_view exportView (fun _ _ _ => rfl) (fun _ _ _ => rfl) (fun h => ?_) h _
  simp (disch := decide) only [exportView, reg_setBit_ne]
  rfl

@[simp] theorem exportView_toCollectors (b : List Byte) : exportView (h.toCollectors b) = exportView h := by
  refine foldl_keeps exportView _ (fun h c => ?_) _ h
  rfl

@[simp] theorem exportView_resend (j fuel n : Nat) : exportView (h.resend j fuel n) = exportView h := by
  induction fuel generalizing h j n with
  | zero => rfl
  | succ fuel ih =>
    cases n with
    | zero => rfl
    | succ n =>
      simp only [Hw.resend]
      split
      · split
        · exact exportView_journalFound h _ _
        · rw [ih, exportView_toCollectors, exportView_journalFound]
      · rw [ih, exportView_toCollectors, exportView_journalFound]

end

section
variable {h g : Hw} (same : exportView h = exportView g)
include same

theorem exportView_inj : h.lc = g.lc ∧ h.vms = g.vms ∧ h.reg Reg.PWR_RAIL_PG = g.reg Reg.PWR_RAIL_PG ∧
    h.reg Reg.DMC_STAT = g.reg Reg.DMC_STAT ∧ h.wpos = g.wpos ∧ h.reg Reg.FAB_JNL_XPOS = g.reg Reg.FAB_JNL_XPOS := by
  simp only [exportView, Prod.mk.injEq] at same
  obtain ⟨lc, vms, rails, dram, wpos, xpos⟩ := same
  exact ⟨lc, vms, rails, dram, congrArg BitVec.toNat wpos, xpos⟩

theorem exporterOn_congr : h.exporterOn = g.exporterOn := by
  obtain ⟨-, vms, rails, dram, -, -⟩ := exportView_inj same
  have slot : h.vmSlot 0 = g.vmSlot 0 := congrArg (Tabs.get _ · 0) vms
  have on : h.dramOn = g.dramOn := by simp only [Hw.dramOn, Hw.flag, fld_congr rails, fld_congr dram]
  rw [Hw.exporterOn, Hw.exporterOn, slot, on]

end

/-- From a position whose words are held, the exporter sends the run that it finds there and advances past it. -/
theorem exec_journalExportDatagram {n : Fin 290} {s : State} {v : Word} {ws : List Word} (on : s.hw.exporterOn = true)
    (behind : (s.hw.reg Reg.FAB_JNL_XPOS).toNat ≠ s.hw.wpos)
    (held : (s.hw.journalFound (s.hw.reg Reg.FAB_JNL_XPOS).toNat (n + 1)).journalHeld (s.hw.reg Reg.FAB_JNL_XPOS).toNat = true)
    (run : (s.hw.journalFound (s.hw.reg Reg.FAB_JNL_XPOS).toNat (n + 1)).journalRun (s.hw.reg Reg.FAB_JNL_XPOS).toNat (n + 1) = v :: ws) :
    exec (.journalExportDatagram n) s = .next (s.onHw fun h =>
      let x := (h.reg Reg.FAB_JNL_XPOS).toNat
      let h := h.journalFound x (n + 1)
      let h := h.toCollectors (h.datagram (if h.fab.exportGap then 0x80 else 0) x (v :: ws))
      { h.setReg Reg.FAB_JNL_XPOS (word (x + (ws.length + 1))) with fab := { h.fab with exportGap := false } }) := by
  have found := exportView_journalFound s.hw (s.hw.reg Reg.FAB_JNL_XPOS).toNat (n + 1)
  have sends : ¬ ((!(s.hw.journalFound (s.hw.reg Reg.FAB_JNL_XPOS).toNat (n + 1)).exporterOn || decide
      ((s.hw.reg Reg.FAB_JNL_XPOS).toNat = (s.hw.journalFound (s.hw.reg Reg.FAB_JNL_XPOS).toNat (n + 1)).wpos)) = true) := by
    obtain ⟨-, -, -, -, wpos, -⟩ := exportView_inj found
    simp [exporterOn_congr found, on, wpos, behind]
  refine next_onHw s ?_
  dsimp only
  rw [if_pos on, if_neg sends, held, run]
  rfl

/-- A declared collector gets the held words that it asks for again. -/
theorem exec_exportRetransmitRequest {src : Nat} {jpos : Word} {n : Fin 65536} {s : State} (on : s.hw.exporterOn = true)
    (declared : src ∈ s.hw.cfg.fab.collectors) (held : s.hw.journalHeld jpos.toNat = true) :
    exec (.exportRetransmitRequest src jpos n) s = .next (s.onHw fun h => h.resend jpos.toNat (n + 1) n) := by
  have serves : ¬ ((!s.hw.exporterOn || !s.hw.cfg.fab.collectors.contains src) = true) := by simp [on, declared]
  have inRing : jpos.toNat % 2 ^ 40 = jpos.toNat := Nat.mod_eq_of_lt jpos.isLt
  have behind : (s.hw.wpos + 2 ^ 40 - jpos.toNat) % 2 ^ 40 - 2 ^ 30 = 0 := by
    have near := of_decide_eq_true held
    rw [inRing] at near
    exact Nat.sub_eq_zero_of_le near
  refine next_onHw s ?_
  dsimp only
  rw [if_neg serves, behind, Nat.add_zero, Nat.sub_zero, inRing]

/-! ### The obligation -/

/-- Settles O29: the markers by `inputOf_markAbsent`, external values by `extArrive`'s cases, the settings by their ranges, and the
exporter by what a read of the journal leaves (`exportView`). -/
theorem inputsArriveAndTheJournalIsExported : Obligations.InputsArriveAndTheJournalIsExported := by
  unfold Obligations.InputsArriveAndTheJournalIsExported
  refine ⟨?settings, fun _ _ _ _ => rfl, ?marking, ?external, ?write, ?sends, ?again, ?stranger⟩
  case settings =>
    intro old w ⟨depth, depthMax, lead, leadMax, horizon, horizonMax⟩
    simp only [ltCfgMerge, depth, depthMax, lead, leadMax, horizon, horizonMax, and_self, if_true]
  case marking =>
    intro n s on carries due
    have marks : ¬ ((!s.hw.journalOn || !s.hw.carriesInputs n ||
        (decide (s.hw.pstate ≠ 4) && decide (s.hw.lc < n + s.hw.horizon))) = true) := by
      simpa [on, carries, or_iff_not_imp_left] using due
    exact ends_of_next (next_onHw s (if_neg marks))
      ⟨rfl, fun _ used _ => ⟨inputOf_markAbsent_isSome used, inputOf_markAbsent_of_known⟩⟩
  case external =>
    intro c lc v st s on
    refine ends_of_next (next_onHw s (if_neg (by simp [on]))) ⟨rfl, (powerView_inj (powerView_extArrive s.hw c lc v st)).1, ?_, ?_⟩
    · exact fun undeclared => congrArg (fun h => { s with hw := h }) (extArrive_of_undeclared undeclared lc v st)
    · exact fun e declared event => events_extArrive declared event lc v st
  case write => exact fun who w s may => next_onHw s (guarded_of_mayWrite may _)
  case sends => exact fun n v ws s on behind held run => exec_journalExportDatagram on behind held run
  case again =>
    intro src jpos n s on declared held
    obtain ⟨lc, -, -, -, wpos, xpos⟩ := exportView_inj (exportView_resend s.hw jpos.toNat (n + 1) n)
    refine ends_of_next (exec_exportRetransmitRequest on declared held) ⟨rfl, xpos, wpos, lc, fun noMore => ?_⟩
    rw [noMore]
    rfl
  case stranger =>
    intro src jpos n s stranger
    exact next_onHw s (g := id) (if_pos (by simp [stranger]))

end Sys2Proof.Proofs
end

section
/-! PROOFS. The switches of the microcode and of the configuration: what a SWITCH record, a loading slot and a new configuration leave
of the registers and of what is pending (O50). -/

namespace Sys2Proof.Proofs

open Sys2Proof.Machine Sys2Proof.Laws

/-! ### The slots (R369, R699) -/

/-- The old slot is released only where the commit and every S_g have reached the switch. -/
theorem mcRelease_eq_self_or (h : Hw) :
    h.mcRelease = h ∨ h.mcSpare = 4 ∧ h.fab.mcSince ≤ h.lcCommit ∧ ∀ p ∈ h.fab.pages, h.fab.mcSince + 1 ≤ p.2.shadowLc := by
  unfold Hw.mcRelease
  split
  case isTrue due =>
    obtain ⟨retained, committed, shadowed⟩ := due
    exact .inr ⟨retained, committed, fun p among => of_decide_eq_true (List.all_eq_true.mp shadowed p among)⟩
  case isFalse => exact .inl rfl

/-! ### A SWITCH record (R381) -/

/-- A SWITCH record writes memory, counts, and moves FAB_JNL_WPOS; nothing else changes. -/
theorem switchRecord_view {β : Type} (view : Hw → β) (writes : ∀ (h : Hw) a c, view (h.setRam a c) = view h)
    (counts : ∀ (h : Hw) i n, view (h.ltCountBy i n) = view h) (moves : ∀ (h : Hw) v, view (h.setReg Reg.FAB_JNL_WPOS v) = view h)
    (h : Hw) (cancel : Bool) (kind : Nat) (x : Switch) : view (h.switchRecord cancel kind x) = view h :=
  (counts _ _ _).trans (note_view view writes counts moves h _ _ _)

section
variable (h : Hw) (cancel : Bool) (kind : Nat) (x : Switch)

theorem reg_switchRecord_ne {a : Nat} (ne : a ≠ Reg.FAB_JNL_WPOS) : (h.switchRecord cancel kind x).reg a = h.reg a :=
  switchRecord_view (·.reg a) (fun _ _ _ => rfl) (fun _ _ _ => rfl) (fun h v => reg_setReg_ne h _ a v ne) h cancel kind x

@[simp] theorem upd_switchRecord : (h.switchRecord cancel kind x).upd = h.upd :=
  switchRecord_view (·.upd) (fun _ _ _ => rfl) (fun _ _ _ => rfl) (fun _ _ => rfl) h cancel kind x

@[simp] theorem mcSpare_switchRecord : (h.switchRecord cancel kind x).mcSpare = h.mcSpare :=
  fld_congr (reg_switchRecord_ne h cancel kind x (by decide)) _

end

/-! ### FAB_MC_CTRL (R715) -/

/-- A write of FAB_MC_CTRL by the secure world has its effect (R715). -/
theorem guarded_mcCtrl_of_secure {h : Hw} (may : h.MayWrite .secure Reg.FAB_MC_CTRL) (f : Hw → Hw) :
    (h.guarded .secure Reg.FAB_MC_CTRL fun h => if Who.secure = .secure then f h else h) = (f h).busOk 0 :=
  (guarded_of_mayWrite may _).trans (congrArg (Hw.busOk · 0) (if_pos rfl))

theorem mcLoad_of_free {h : Hw} (free : h.mcSpare = 0 ∨ h.mcSpare = 2) (noSwitch : h.fab.mcSwitch = none) (build : Word) :
    h.mcLoad build = ((h.setReg Reg.FAB_MC_STAT (word (1 * 2 ^ 37 + h.mcSlot * 2 ^ 36))).setReg Reg.FAB_MC_BUILD build).mcResult 0 := by
  refine if_neg ?_
  rw [noSwitch]
  rcases free with spare | spare <;> simp [spare]

theorem mcDeclare_of_ready {h : Hw} (noSwitch : h.fab.mcSwitch = none) (ready : h.mcSpare = 1 ∨ h.mcSpare = 2)
    (late : h.lc + h.lead_ ≤ (h.reg Reg.FAB_MC_LC).toNat) :
    h.mcDeclare = (h.declareMc (h.reg Reg.FAB_MC_LC).toNat h.lc).mcResult 0 := by
  have loaded : ¬ (h.mcSpare ≠ 1 ∧ h.mcSpare ≠ 2) := by omega
  unfold Hw.mcDeclare
  rw [if_neg (by simp [noSwitch]), if_neg loaded, if_neg (Nat.not_lt.mpr late)]

theorem cancelMc_of_none {h : Hw} (noSwitch : h.fab.mcSwitch = none) : h.cancelMc = h := by
  unfold Hw.cancelMc
  rw [noSwitch]

/-- The microcode without a pending switch. -/
def withoutMcSwitch (h : Hw) : Hw := { h with fab := { h.fab with mcSwitch := none } }

/-- A spare slot whose switch is cancelled is loaded, with no switch pending. -/
def backToLoaded (h : Hw) : Hw := if h.mcSpare = 3 then h.setFld Reg.FAB_MC_STAT Fld.FAB_MC_STAT_SPARE 2 else h

/-- An activation of the microcode that is in progress ends as cancelled. -/
def endMicrocode (h : Hw) : Hw := if h.upd.act.any (fun a => a.type == 3) then h.endActivation 6 else h

theorem cancelMc_of_pending {h : Hw} {x : Switch} (pending : h.fab.mcSwitch = some x) :
    h.cancelMc = (endMicrocode (backToLoaded ((withoutMcSwitch h).switchRecord true 2 x))).mcResult 4 := by
  unfold Hw.cancelMc
  rw [pending]
  rfl

/-- A switch that nobody activated and that is not yet fully loaded is forgotten, recorded, and answered with CANCELLED. -/
theorem cancelMc_of_declared {h : Hw} {x : Switch} (pending : h.fab.mcSwitch = some x) (loading : h.mcSpare ≠ 3)
    (unasked : h.upd.act = none) : h.cancelMc = ((withoutMcSwitch h).switchRecord true 2 x).mcResult 4 := by
  have act : ((withoutMcSwitch h).switchRecord true 2 x).upd.act = none := by
    rw [upd_switchRecord]
    exact unasked
  rw [cancelMc_of_pending pending, backToLoaded, mcSpare_switchRecord, if_neg (show ¬ (withoutMcSwitch h).mcSpare = 3 from loading),
    endMicrocode, act]
  rfl

/-- The pending switch of the microcode, the register of the slot in force, and the builds. -/
def slotView (h : Hw) : Option Switch × Word × Builds := (h.fab.mcSwitch, h.reg Reg.FAB_STAT, h.builds)

theorem slotView_setReg (h : Hw) {a : Nat} (ne : Reg.FAB_STAT ≠ a) (v : Word) : slotView (h.setReg a v) = slotView h := by
  rw [slotView, reg_setReg_ne h a _ v ne]
  rfl

theorem slotView_backToLoaded (h : Hw) : slotView (backToLoaded h) = slotView h := by
  unfold backToLoaded
  split
  · exact slotView_setReg h (by decide) _
  · rfl

theorem regs_endActivation (h : Hw) (result : Nat) : (h.endActivation result).regs = h.regs := by
  unfold Hw.endActivation
  split <;> rfl

theorem reg_endMicrocode (h : Hw) (a : Nat) : (endMicrocode h).reg a = h.reg a := by
  unfold endMicrocode
  split
  · exact congrArg (Tabs.get regReset · a) (regs_endActivation h 6)
  · rfl

theorem slotView_endMicrocode (h : Hw) : slotView (endMicrocode h) = slotView h := by
  have ended : slotView (h.endActivation 6) = slotView h := by
    unfold Hw.endActivation
    split <;> rfl
  unfold endMicrocode
  split
  · exact ended
  · rfl

theorem mcSpare_backToLoaded {h : Hw} (pending : h.mcSpare = 3) : (backToLoaded h).mcSpare = 2 := by
  rw [backToLoaded, if_pos pending]
  exact fld_setFld_same h _ Fld.FAB_MC_STAT_SPARE 2 (by decide)

theorem slotView_cancelMc {h : Hw} {x : Switch} (pending : h.fab.mcSwitch = some x) :
    slotView h.cancelMc = (none, h.reg Reg.FAB_STAT, h.builds) := by
  have recorded : slotView ((withoutMcSwitch h).switchRecord true 2 x) = slotView (withoutMcSwitch h) :=
    switchRecord_view slotView (fun _ _ _ => rfl) (fun _ _ _ => rfl) (fun h v => slotView_setReg h (by decide) v) _ _ _ _
  rw [cancelMc_of_pending pending, Hw.mcResult, Hw.setFld, slotView_setReg _ (by decide), slotView_endMicrocode, slotView_backToLoaded,
    recorded]
  rfl

theorem mcSpare_cancelMc {h : Hw} {x : Switch} (pending : h.fab.mcSwitch = some x) (declared : h.mcSpare = 3) :
    h.cancelMc.mcSpare = 2 := by
  have before : ((withoutMcSwitch h).switchRecord true 2 x).mcSpare = 3 := by
    rw [mcSpare_switchRecord]
    exact declared
  rw [cancelMc_of_pending pending]
  refine (fld_setFld_apart _ _ Fld.FAB_MC_STAT_RESULT Fld.FAB_MC_STAT_SPARE 4 (by decide) (by decide)).trans ?_
  exact (fld_congr (reg_endMicrocode _ _) _).trans (mcSpare_backToLoaded before)

theorem cancelMc_spec {h : Hw} {x : Switch} (pending : h.fab.mcSwitch = some x) :
    h.cancelMc.fab.mcSwitch = none ∧ h.cancelMc.fld Reg.FAB_MC_STAT Fld.FAB_MC_STAT_RESULT = 4 ∧ h.cancelMc.mcSlot = h.mcSlot ∧
      h.cancelMc.builds = h.builds ∧ (h.mcSpare = 3 → h.cancelMc.mcSpare = 2) := by
  have kept := slotView_cancelMc pending
  simp only [slotView, Prod.mk.injEq] at kept
  obtain ⟨forgotten, slot, builds⟩ := kept
  have result : h.cancelMc.fld Reg.FAB_MC_STAT Fld.FAB_MC_STAT_RESULT = 4 := by
    rw [cancelMc_of_pending pending]
    exact fld_setFld_same _ _ Fld.FAB_MC_STAT_RESULT 4 (by decide)
  exact ⟨forgotten, result, fld_congr slot _, builds, mcSpare_cancelMc pending⟩

theorem cancelCfg_of_declared {h : Hw} {x : Switch} (pending : h.fab.cfgSwitch = some x) (unasked : h.upd.act = none) :
    h.cancelCfg = ({ h with fab := { h.fab with cfgSwitch := none } } : Hw).switchRecord true 1 x := by
  unfold Hw.cancelCfg
  rw [pending]
  dsimp only
  rw [if_neg]
  rw [upd_switchRecord]
  simp [unasked]

/-! ### A slot is loaded (R699, R715) -/

/-- What the loading of a slot leaves: LC, the pending switch, the slot in force, FAB_MC_STAT and the islands. -/
def loadingView (h : Hw) : Nat × Option Switch × Word × Word × Word :=
  (h.lc, h.fab.mcSwitch, h.reg Reg.FAB_STAT, h.reg Reg.FAB_MC_STAT, h.reg Reg.PWR_ISLAND_PG)

theorem loadingView_reloadSlot (h : Hw) (r slot : Nat) : loadingView (h.reloadSlot r slot) = loadingView h := by
  have read (h : Hw) (a : Nat) : loadingView (h.eccRead a) = loadingView h := by
    refine eccRead_view loadingView (fun _ _ _ => rfl) (fun _ _ _ => rfl) (fun h => ?_) h a
    simp (disch := decide) only [loadingView, reg_setBit_ne]
    rfl
  have image : loadingView (h.foundIn (slotImage slot 0) 0x4000) = loadingView h :=
    foldl_keeps loadingView _ (fun h _ => read h _) _ h
  refine Eq.trans (foldl_keeps loadingView _ (fun h w => ?_) _ _) image
  rfl

theorem slotHeld_of_loading {h : Hw} (loading : h.mcSpare = 1) (r : Nat) : h.slotHeld r = h.setBit Reg.FAB_MC_STAT (16 + r) := by
  refine if_neg ?_
  rw [show h.fld Reg.FAB_MC_STAT Fld.FAB_MC_STAT_SPARE = 1 from loading]
  decide

section
variable (h : Hw)

/-- The progress of a loading shows in SPARE alone. -/
theorem mcProgress_eq_self_or : h.mcProgress = h ∨ ∃ v, h.mcProgress = h.setFld Reg.FAB_MC_STAT Fld.FAB_MC_STAT_SPARE v := by
  unfold Hw.mcProgress
  split
  · exact .inr ⟨_, rfl⟩
  · exact .inl rfl

theorem bit_mcProgress {i : Nat} (low : i < 37) : h.mcProgress.bit Reg.FAB_MC_STAT i = h.bit Reg.FAB_MC_STAT i := by
  rcases mcProgress_eq_self_or h with same | ⟨v, moved⟩
  · rw [same]
  · rw [moved]
    exact bit_setFld_apart h _ Fld.FAB_MC_STAT_SPARE v i (by omega) (.inl low)

theorem mcSlot_mcProgress : h.mcProgress.mcSlot = h.mcSlot := by
  rcases mcProgress_eq_self_or h with same | ⟨v, moved⟩
  · rw [same]
  · rw [moved]
    exact fld_congr (reg_setFld_ne h _ _ _ v (by decide)) _

theorem lc_mcProgress : h.mcProgress.lc = h.lc := by
  rcases mcProgress_eq_self_or h with same | ⟨v, moved⟩
  · rw [same]
  · rw [moved]
    exact setReg_lc h _ _

end

theorem mcSpare_mcProgress_of_held {h : Hw} (loading : h.mcSpare = 1)
    (held : ∀ r ∈ h.poweredRidges, h.bit Reg.FAB_MC_STAT (16 + r) = true) :
    h.mcProgress.mcSpare = if h.fab.mcSwitch.isSome then 3 else 2 := by
  rw [Hw.mcProgress, if_pos ⟨.inl loading, List.all_eq_true.mpr held⟩]
  refine (fld_setFld_same h _ Fld.FAB_MC_STAT_SPARE _ (by decide)).trans ?_
  split <;> rfl

/-- While the spare slot is being loaded, a ridge that has loaded it holds it, and the last of them ends the loading. -/
theorem slotLoaded_spec {h : Hw} (loading : h.mcSpare = 1) (r : Fin 16) (slot : Nat) :
    let g := ((h.reloadSlot r slot).slotHeld r).mcProgress
    g.bit Reg.FAB_MC_STAT (16 + r) = true ∧ g.mcSlot = h.mcSlot ∧ g.lc = h.lc ∧
      ((∀ x, x ∈ h.poweredRidges → x = r.val ∨ h.bit Reg.FAB_MC_STAT (16 + x) = true) →
        g.mcSpare = if h.fab.mcSwitch.isSome then 3 else 2) := by
  have kept := loadingView_reloadSlot h r slot
  generalize h.reloadSlot r slot = m at kept ⊢
  simp only [loadingView, Prod.mk.injEq] at kept
  obtain ⟨lc, pending, stat, mcStat, islands⟩ := kept
  have spare : m.mcSpare = 1 := (fld_congr mcStat _).trans loading
  rw [slotHeld_of_loading spare]
  refine ⟨?_, ?_, ?_, fun others => ?_⟩
  · rw [bit_mcProgress _ (by omega)]
    exact bit_setBit_same m _ _ (by omega)
  · exact (mcSlot_mcProgress _).trans ((fld_congr (reg_setBit_ne m _ _ _ (by decide)) _).trans (fld_congr stat _))
  · exact (lc_mcProgress _).trans ((setReg_lc m _ _).trans lc)
  · have powered : (m.setBit Reg.FAB_MC_STAT (16 + r)).poweredRidges = h.poweredRidges :=
      congrArg (List.filter · (List.range 16)) (funext fun x => bit_congr ((reg_setBit_ne m _ _ _ (by decide)).trans islands) x)
    have stillLoading : (m.setBit Reg.FAB_MC_STAT (16 + r)).mcSpare = 1 :=
      (fld_setBit_apart m _ Fld.FAB_MC_STAT_SPARE _ (by decide) (.inl (show 16 + r.val < 37 by omega))).trans spare
    rw [mcSpare_mcProgress_of_held stillLoading fun x on => ?_]
    · rw [Hw.setBit, setReg_fab, pending]
    · rw [powered] at on
      have x16 : x < 16 := List.mem_range.mp (List.mem_filter.mp on).1
      rw [bit_setBit m _ _ _ (by omega), bit_congr mcStat]
      rcases others x on with same | held
      · simp [same]
      · simp [held]

/-! ### A configuration comes into force (R369, R701) -/

/-- What the end of a configuration switch leaves: the pending switch, the held word 0, the rings and the worlds, and LC. -/
def cfgView (h : Hw) : Option Switch × Option Word × Tab (Option RingCfg) × WorldsCfg × Nat :=
  (h.fab.cfgSwitch, h.upd.heldCfg, h.cfg.rings, h.cfg.worlds, h.lc)

theorem cfgView_revokeSessions (h : Hw) : cfgView h.revokeSessions = cfgView h := by
  refine foldl_keeps cfgView _ (fun h x => ?_) _ h
  exact (apply_ite cfgView _ _ _).trans (ite_self _)

theorem cfgView_endActivation (h : Hw) (result : Nat) : cfgView (h.endActivation result) = cfgView h := by
  unfold Hw.endActivation
  split <;> rfl

/-- An activation of the configuration that is in progress ends, and the sessions that the new OD section revokes close. -/
theorem cfgView_finish (h : Hw) :
    cfgView (if h.upd.act.any fun a => a.type == 5 then h.endActivation 0 else h).revokeSessions = cfgView h := by
  rw [cfgView_revokeSessions, apply_ite cfgView, cfgView_endActivation, ite_self]

theorem lc_changedRegs (s : State) (old new : List Word) : (s.changedRegs old new).hw.lc = s.hw.lc := by
  refine congrArg (·.2.1) (bootView_foldl _ _ s fun s st => ?_)
  exact bootView_onHw s _ (foldl_keeps powerView _ (fun h x => powerView_setReg h _ _) _ _)

theorem fuse_changedRegs (s : State) (old new : List Word) : (s.changedRegs old new).fuse = s.fuse := rfl

/-- The configuration switch in its due cycle: nothing is pending or held after it, the rings and the worlds stay, and so do the fuses
and LC. -/
theorem configSwitch_spec {s : State} {x : Switch} {w0 : Word} (pending : s.hw.fab.cfgSwitch = some x)
    (held : s.hw.upd.heldCfg = some w0) (due : x.lc ≤ s.hw.lc) (on : s.hw.norOn = true) :
    s.configSwitch.fuse = s.fuse ∧ cfgView s.configSwitch.hw = (none, none, s.hw.cfg.rings, s.hw.cfg.worlds, s.hw.lc) := by
  unfold State.configSwitch
  rw [pending, held]
  dsimp only
  rw [if_neg (by simp [due, on])]
  constructor
  · rw [onHw_fuse, fuse_changedRegs]
    rfl
  · refine (cfgView_finish _).trans ?_
    exact Prod.ext rfl (Prod.ext rfl (Prod.ext rfl (Prod.ext rfl (lc_changedRegs _ _ _))))

/-! ### The obligation -/

/-- Settles O50: FAB_MC_CTRL by `guarded_mcCtrl_of_secure`, the slots by `slotLoaded_spec`, a cancellation by `cancelMc_spec`, and the
switch of the configuration by what its end leaves (`cfgView`). -/
theorem microcodeAndConfigurationSwitchAtTheirCycle : Obligations.MicrocodeAndConfigurationSwitchAtTheirCycle := by
  unfold Obligations.MicrocodeAndConfigurationSwitchAtTheirCycle
  refine ⟨?release, ?slot, ?load, ?ignored, ?declare, ?noneToCancel, ?cancel, ?loaded, ?switch, ?noSwitch, ?notLoaded, ?inTime, ?wordGone,
    ?noCfg, ?cfg⟩
  case release => exact fun h released => (mcRelease_eq_self_or h).resolve_left released
  case slot => exact fun h n => ⟨fun before => if_pos before, fun reached => if_neg (Nat.not_lt.mpr reached)⟩
  case load =>
    intro s may free noSwitch
    exact next_onHw s ((guarded_mcCtrl_of_secure may _).trans (congrArg (Hw.busOk · 0) (mcLoad_of_free free noSwitch _)))
  case ignored =>
    intro who s may other
    exact next_onHw s ((guarded_of_mayWrite may _).trans (congrArg (Hw.busOk · 0) (if_neg other)))
  case declare =>
    intro s may noSwitch ready late
    exact next_onHw s ((guarded_mcCtrl_of_secure may _).trans (congrArg (Hw.busOk · 0) (mcDeclare_of_ready noSwitch ready late)))
  case noneToCancel =>
    intro s may noSwitch
    exact next_onHw s ((guarded_mcCtrl_of_secure may _).trans (congrArg (Hw.busOk · 0) (cancelMc_of_none noSwitch)))
  case cancel =>
    intro x s may pending loading unasked
    exact next_onHw s ((guarded_mcCtrl_of_secure may _).trans (congrArg (Hw.busOk · 0) (cancelMc_of_declared pending loading unasked)))
  case loaded =>
    intro r s on loading
    exact ends_of_next (next_onHw s (if_pos (by simp [on, loading]))) ⟨rfl, slotLoaded_spec loading r _⟩
  case switch =>
    intro x s pending due loaded
    refine next_onHw s ?_
    rw [pending]
    exact if_pos ⟨due, loaded⟩
  case noSwitch =>
    intro s noSwitch
    refine next_onHw s (g := id) ?_
    rw [noSwitch]
    rfl
  case notLoaded =>
    intro x s pending due unloaded
    exact ends_of_next (next_onHw s ((if_pos rfl).trans (if_pos (by simp [pending, due, unloaded])))) ⟨rfl, cancelMc_spec pending⟩
  case inTime => exact fun s loaded => next_onHw s (g := id) ((if_pos rfl).trans (if_neg (by simp [loaded])))
  case wordGone =>
    intro x s pending gone unasked
    refine next_onHw s ((if_neg Bool.false_ne_true).trans ((if_pos ?_).trans (cancelCfg_of_declared pending unasked)))
    simp [pending, gone]
  case noCfg =>
    intro s noSwitch
    refine congrArg Host.Outcome.next ?_
    unfold State.configSwitch
    rw [noSwitch]
  case cfg =>
    intro x w0 s pending held due on
    obtain ⟨fuse, kept⟩ := configSwitch_spec pending held due on
    simp only [cfgView, Prod.mk.injEq] at kept
    obtain ⟨noSwitch, noWord, rings, worlds, lc⟩ := kept
    refine ends_of_next (t := s.configSwitch) rfl ⟨?_, noSwitch, noWord, rings, worlds, fuse, lc⟩
    unfold State.configSwitch
    rw [pending, held]
    exact if_neg (by simp [due, on])

end Sys2Proof.Proofs
end

section
/-! PROOFS. Addressed commands: what VNK_CMD_GO queues, refuses and leaves, and the THRESH of the guards (R205, R209, R211, R428). -/

namespace Sys2Proof.Proofs

open Sys2Proof.Machine Sys2Proof.Laws

/-! ### A queued or refused command (R211) -/

/-- The commands that the rings hold, the guards, and RAM: what the cut of VNK_BAL is no part of. -/
def cmdView (h : Hw) : (Nat → List RingCmd) × Guard × Tab Container := (fun k => (h.ring k).cmds, h.grd, h.mem)

theorem cmdView_setFld (h : Hw) (a : Nat) (f : BitField) (v : Nat) : cmdView (h.setFld a f v) = cmdView h := rfl
theorem cmdView_cmdFree (h : Hw) (k : Nat) : cmdView (h.cmdFree k) = cmdView h := cmdView_setFld h _ _ _
theorem cmdView_snd_onRing (h : Hw) (k : Nat) (f : Ring → Ring) : (cmdView (h.onRing k f)).2 = (cmdView h).2 := rfl

/-- A change of a ring that keeps its commands. -/
theorem cmdView_onRing (h : Hw) (k : Nat) (f : Ring → Ring) (kept : ∀ r, (f r).cmds = r.cmds) : cmdView (h.onRing k f) = cmdView h := by
  have cmds : (fun j => ((h.onRing k f).ring j).cmds) = fun j => (h.ring j).cmds := by
    funext j
    by_cases same : j = k
    · subst same
      simp [Hw.onRing, Hw.setRing, Hw.ring, kept]
    · simp [Hw.onRing, Hw.setRing, Hw.ring, get_set_ne _ _ _ _ _ same]
  exact congrArg (·, h.grd, h.mem) cmds

theorem ring_setFld (h : Hw) (a : Nat) (f : BitField) (v k : Nat) : (h.setFld a f v).ring k = h.ring k := rfl

theorem ring_cmdFree (h : Hw) (k j : Nat) : (h.cmdFree k).ring j = h.ring j := ring_setFld h _ _ _ j

@[simp] theorem ring_setRing_same (h : Hw) (k : Nat) (r : Ring) : (h.setRing k r).ring k = r := by simp [Hw.setRing, Hw.ring]

@[simp] theorem cmdView_cut (h : Hw) : cmdView h.cut = cmdView h := by
  have frozen : cmdView h.freezeBal = cmdView h := by
    refine foldl_keeps cmdView _ (fun h k => ?_) _ h
    exact cmdView_onRing h k _ fun _ => rfl
  unfold Hw.cut
  split
  · rfl
  · exact frozen

@[simp] theorem cmdView_cutFree (h : Hw) : cmdView h.cutFree = cmdView h := by
  have drawn : cmdView (h.draw 2).2 = cmdView h := rfl
  simp [Hw.cutFree, apply_ite cmdView, drawn]

theorem cmdGo_of_down {h : Hw} {k op len : Nat} (opcode : 1 < op) (short : len ≤ 32) (down : h.cycling k = false) (p : Nat)
    (args : List Byte) (thresh : Bool) : h.cmdGo k p op len args thresh = h.cmdFail k p 4 := by
  unfold Hw.cmdGo
  rw [if_neg (by omega), if_pos (by simp [down])]

/-- A command that a ring in cycle operation takes waits at the end of its queue. -/
theorem mem_cmds_cmdGo {h : Hw} {k p op len : Nat} (opcode : 1 < op) (short : len ≤ 32) (cycling : h.cycling k = true)
    (declared : p ∈ h.declared k) (room : (h.ring k).cmds.length < 16) (args : List Byte) (thresh : Bool) :
    ∃ c ∈ ((h.cmdGo k p op len args thresh).ring k).cmds, c.target = p ∧ c.op = op ∧ c.thresh = thresh ∧ c.sent = none := by
  unfold Hw.cmdGo
  rw [if_neg (by omega), if_neg (by simp [cycling]), if_neg (by simp [declared]), if_neg (by omega)]
  extract_lets g seq ready c queued
  refine ⟨c, ?_, rfl, rfl, rfl, rfl⟩
  rw [ring_cmdFree, ring_setFld]
  simp [queued, Hw.onRing]

/-- A command leaves the guards and RAM, whether it is queued or refused. -/
theorem cmdGo_grd_mem (h : Hw) (k p op len : Nat) (args : List Byte) (thresh : Bool) :
    (h.cmdGo k p op len args thresh).grd = h.grd ∧ (h.cmdGo k p op len args thresh).mem = h.mem := by
  have failed (code : Nat) : cmdView (h.cmdFail k p code) = cmdView h := rfl
  refine Prod.mk.inj (?_ : (cmdView (h.cmdGo k p op len args thresh)).2 = (cmdView h).2)
  unfold Hw.cmdGo
  split
  · rw [failed]
  · split
    · rw [failed]
    · split
      · rw [failed]
      · split
        · rw [failed]
        · rw [cmdView_cmdFree, cmdView_setFld, cmdView_snd_onRing, cmdView_cutFree]

theorem failCode_cmdFail (h : Hw) {k : Nat} (p : Nat) {code : Nat} (byte : code < 256) :
    (h.cmdFail k p code).fld (Reg.VNK_CMD_STAT k) Fld.VNK_CMD_STAT_FAIL_CODE = code := by
  have apart : Reg.VNK_CMD_STAT k ≠ Reg.VNK_IRQ_STAT := by
    simp only [Reg.VNK_CMD_STAT, Reg.VNK_IRQ_STAT]
    omega
  refine (fld_congr (reg_setBit_ne _ _ _ _ apart) _).trans ?_
  exact (fld_setFld_same _ _ Fld.VNK_CMD_STAT_FAIL_CODE code (by decide)).trans (Nat.mod_eq_of_lt byte)

/-! ### THRESH (R187, R428) -/

/-- A command that sends one THRESH: it waits to be sent where the ring takes it, and fails with RING_DOWN where no cycle runs. -/
theorem ends_of_thresh {i : Instr} {s : State} {k p : Nat} {args : List Byte} {f : Hw → Hw}
    (sends : f s.hw = s.hw.cmdGo k p 0x10 9 args true) (answer : exec i s = .next (s.onHw f)) :
    Ends i s fun t => t = s.onHw f ∧
      (s.hw.cycling k = true → p ∈ s.hw.declared k → (s.hw.ring k).cmds.length < 16 →
        ∃ c ∈ (t.hw.ring k).cmds, c.target = p ∧ c.op = 0x10 ∧ c.thresh = true ∧ c.sent = none) ∧
      (s.hw.cycling k = false →
        t.hw.fld (Reg.VNK_CMD_STAT k) Fld.VNK_CMD_STAT_FAIL_CODE = 4 ∧ (t.hw.ring k).cmds = (s.hw.ring k).cmds) := by
  refine ends_of_next answer ⟨rfl, ?_, ?_⟩
  · intro cycling declared room
    rw [onHw_hw, sends]
    exact mem_cmds_cmdGo (by decide) (by decide) cycling declared room args true
  · intro down
    rw [onHw_hw, sends, cmdGo_of_down (by decide) (by decide) down]
    exact ⟨failCode_cmdFail _ _ (by decide), rfl⟩

/-- The arguments of THRESH: the mask of the channels, the kind, and the codes of WARN and TRIP (R187). -/
def threshArgs (mask kind : Nat) (codes : Nat × Nat) : List Byte :=
  beBytes 2 mask ++ [byte kind] ++ beBytes 3 codes.1 ++ beBytes 3 codes.2

/-- A kind of an auxiliary node names one channel, which its mask has. -/
theorem bitN_kindMask_of_aux {p kind : Nat} (aux : 128 ≤ p) (known : kind ∈ Hw.kindsOf p) :
    bitN (Hw.kindMask kind) (kind % 4) = true := by
  have notCell : ¬ p < 128 := by omega
  simp only [Hw.kindsOf, if_neg notCell, List.mem_map, List.mem_range] at known
  obtain ⟨i, -, rfl⟩ := known
  have single : Hw.kindMask (0x10 + i) = 2 ^ ((0x10 + i) % 4) := by
    unfold Hw.kindMask
    rw [if_neg (by omega), if_neg (by omega)]
  simp [single, bitN]

theorem sendThresh_of_aux {p kind : Nat} (aux : 128 ≤ p) (known : kind ∈ Hw.kindsOf p) (h : Hw) (k ch : Nat) :
    h.sendThresh k p kind ch = h.cmdGo k p 0x10 9 (threshArgs (Hw.kindMask kind) kind (h.kindCodes k p kind ch)) true := by
  have notCell : ¬ p < 128 := by omega
  unfold Hw.sendThresh
  rw [if_neg (by simp [known, notCell, bitN_kindMask_of_aux aux known])]
  simp only [if_neg notCell]
  rfl

/-- The mask of the channels of a kind of a cell node that have the codes of channel `ch`. -/
def sameCodes (h : Hw) (k p kind ch : Nat) : Nat :=
  (List.range 16).foldl
    (fun m i => if bitN (Hw.kindMask kind) i && h.kindCodes k p kind i == h.kindCodes k p kind ch then setBitN m i else m) 0

theorem sendThresh_of_cell {p kind ch : Nat} (cell : p < 128) (known : kind ∈ Hw.kindsOf p) (channel : bitN (Hw.kindMask kind) ch = true)
    (h : Hw) (k : Nat) :
    h.sendThresh k p kind ch = h.cmdGo k p 0x10 9 (threshArgs (sameCodes h k p kind ch) kind (h.kindCodes k p kind ch)) true := by
  unfold Hw.sendThresh
  rw [if_neg (by simp [known, cell, channel])]
  simp only [if_pos cell]
  rfl

end Sys2Proof.Proofs
end

section
/-! PROOFS. What guard events leave of the guards' own state, and the pending copy (R433 to R438, R446). -/

namespace Sys2Proof.Proofs

open Sys2Proof.Machine Sys2Proof.Laws

/-! ### A bit that is cleared -/

theorem bit_clearBit_same (h : Hw) (a i : Nat) (inWord : i < 40) : (h.clearBit a i).bit a i = false := by
  have zero : (h.clearBit a i).fld a ⟨i, i⟩ = 0 := (fld_setFld_same h a ⟨i, i⟩ 0 inWord).trans (Nat.zero_mod _)
  rw [bit_eq_fld, zero]
  rfl

theorem bit_clearBit_ne (h : Hw) (a i j : Nat) (inWord : j < 40) (ne : j ≠ i) : (h.clearBit a i).bit a j = h.bit a j :=
  bit_setFld_apart h a ⟨i, i⟩ 0 j inWord (Nat.lt_or_gt_of_ne ne)

/-! ### What the records and the frames of an event leave of the guards (R435, R437, R720) -/

section
variable (h : Hw)

@[simp] theorem grd_setFld (a : Nat) (f : BitField) (v : Nat) : (h.setFld a f v).grd = h.grd := setReg_grd h a _
@[simp] theorem grd_setBit (a i : Nat) : (h.setBit a i).grd = h.grd := setReg_grd h a _
@[simp] theorem grd_clearBit (a i : Nat) : (h.clearBit a i).grd = h.grd := setReg_grd h a _

@[simp] theorem grd_count (a : Nat) : (h.count a).grd = h.grd := by
  simp [Hw.count, Hw.countFld, apply_ite Hw.grd]

@[simp] theorem grd_note (rt sub : Nat) (body : List Word) : (h.note rt sub body).grd = h.grd :=
  note_view Hw.grd (fun _ _ _ => rfl) (fun _ _ _ => rfl) (fun _ _ => rfl) h rt sub body

@[simp] theorem grd_writeRamList (a : Nat) (l : List Word) : (h.writeRamList a l).grd = h.grd := by
  induction l generalizing h a with
  | nil => rfl
  | cons w l ih => exact ih (h.writeRam a w) (a + 1)

@[simp] theorem grd_retEntry (code : Nat) (data : Word) : (h.retEntry code data).grd = h.grd := by
  simp [Hw.retEntry, apply_ite Hw.grd]

@[simp] theorem grd_guardNote (e action : Nat) : (h.guardNote e action).grd = h.grd := by
  simp [Hw.guardNote, apply_ite Hw.grd]

@[simp] theorem grd_onSw (f : Switcher → Switcher) : (h.onSw f).grd = h.grd := rfl

@[simp] theorem grd_setFree (n : Nat) : (h.setFree n).grd = h.grd := by simp [Hw.setFree]

@[simp] theorem grd_swNote (r i : Nat) : (h.swNote r i).grd = h.grd := by simp [Hw.swNote]

@[simp] theorem grd_macCount (p j n : Nat) : (h.macCount p j n).grd = h.grd := by
  simp [Hw.macCount, apply_ite Hw.grd]

@[simp] theorem grd_dropFrame (f : SwFrame) : (h.dropFrame f).grd = h.grd := by
  simp [Hw.dropFrame, apply_ite Hw.grd]

@[simp] theorem grd_reserve (p c : Nat) (unicast : Bool) (mask : List Nat) : (h.reserve p c unicast mask).1.grd = h.grd := by
  unfold Hw.reserve
  split
  · rfl
  · split
    · exact grd_setFree h _
    · split
      · split
        · rfl
        · split
          · rfl
          · refine (grd_setFree _ _).trans (foldl_keeps Hw.grd _ (fun h v => ?_) _ h)
            simp
      · rfl

@[simp] theorem grd_inject (bytes : List Byte) (ports : List Nat) : (h.inject bytes ports).grd = h.grd := by
  simp [Hw.inject, Hw.joinSw, apply_ite Hw.grd]

@[simp] theorem grd_inject6 (bytes : List Byte) (ports : List Nat) : (h.inject6 bytes ports).grd = h.grd := by
  simp [Hw.inject6, Hw.joinSw, apply_ite Hw.grd]

@[simp] theorem grd_sendPeerTo (kind dst mac : Nat) (body : List Byte) : (h.sendPeerTo kind dst mac body).grd = h.grd := by
  unfold Hw.sendPeerTo
  refine (foldl_keeps Hw.grd _ (fun h x => ?_) _ _).trans rfl
  simp [apply_ite Hw.grd]

@[simp] theorem grd_peerCountUp (i : Nat) : (h.peerCountUp i).grd = h.grd := rfl

@[simp] theorem grd_sendStop : h.sendStop.grd = h.grd := by
  simp [Hw.sendStop, apply_ite Hw.grd]

@[simp] theorem grd_sendTrip (e rep : Nat) : (h.sendTrip e rep).grd = h.grd := by
  simp [Hw.sendTrip, apply_ite Hw.grd]

@[simp] theorem grd_setHardLines (hl : Nat) : (h.setHardLines hl).grd = h.grd := by
  refine foldl_keeps Hw.grd _ (fun h d => ?_) _ h
  split <;> rfl

@[simp] theorem grd_applyMatrix : h.applyMatrix.grd = h.grd := by simp [Hw.applyMatrix]

end

/-! ### The registers after the matrix is applied (R436, R438, R439) -/

section
variable (h : Hw)

@[simp] theorem reg_setHardLines (hl a : Nat) : (h.setHardLines hl).reg a = h.reg a :=
  congrArg (fun t => Tabs.get regReset t a) (offView_inj (offView_setHardLines h hl)).1

/-- The matrix writes GRD_STAT alone. -/
theorem reg_applyMatrix_ne {a : Nat} (ne : a ≠ Reg.GRD_STAT) : h.applyMatrix.reg a = h.reg a := by
  unfold Hw.applyMatrix
  dsimp only
  rw [reg_setHardLines, reg_setFld_ne _ _ _ _ _ ne, reg_setFld_ne _ _ _ _ _ ne, reg_setFld_ne _ _ _ _ _ ne, reg_setFld_ne _ _ _ _ _ ne]

@[simp] theorem mem_applyMatrix : h.applyMatrix.mem = h.mem := by
  unfold Hw.applyMatrix
  exact (offView_inj (offView_setHardLines _ _)).2.1

/-- In the safe state the matrix asserts all hard lines and opens every trip output. -/
theorem applyMatrix_of_safe (safe : h.safe = true) :
    ∃ warn trip, h.applyMatrix = ((((h.setFld Reg.GRD_STAT Fld.GRD_STAT_HL 0xFFFF).setFld Reg.GRD_STAT Fld.GRD_STAT_TO 0xF).setFld
      Reg.GRD_STAT Fld.GRD_STAT_WARN warn).setFld Reg.GRD_STAT Fld.GRD_STAT_TRIP trip).setHardLines 0xFFFF := by
  refine ⟨b2n (h.eventsOn.any evWarning), b2n (h.eventsOn.any fun e => !evWarning e), ?_⟩
  simp [Hw.applyMatrix, safe]

theorem stat_applyMatrix_of_safe (safe : h.safe = true) :
    h.applyMatrix.safe = true ∧ h.applyMatrix.fld Reg.GRD_STAT Fld.GRD_STAT_HL = 0xFFFF ∧
      h.applyMatrix.fld Reg.GRD_STAT Fld.GRD_STAT_TO = 0xF := by
  obtain ⟨warn, trip, same⟩ := applyMatrix_of_safe h safe
  have shown : h.applyMatrix.reg Reg.GRD_STAT = _ := (congrArg (·.reg Reg.GRD_STAT) same).trans (reg_setHardLines _ _ _)
  refine ⟨(bit_congr shown 0).trans ?_, (fld_congr shown _).trans ?_, (fld_congr shown _).trans ?_⟩
  · rw [bit_setFld_apart _ _ _ _ _ (by decide) (by decide), bit_setFld_apart _ _ _ _ _ (by decide) (by decide),
      bit_setFld_apart _ _ _ _ _ (by decide) (by decide), bit_setFld_apart _ _ _ _ _ (by decide) (by decide)]
    exact safe
  · rw [fld_setFld_apart _ _ _ _ _ (by decide) (by decide), fld_setFld_apart _ _ _ _ _ (by decide) (by decide),
      fld_setFld_apart _ _ _ _ _ (by decide) (by decide)]
    exact fld_setFld_same _ _ Fld.GRD_STAT_HL 0xFFFF (by decide)
  · rw [fld_setFld_apart _ _ _ _ _ (by decide) (by decide), fld_setFld_apart _ _ _ _ _ (by decide) (by decide)]
    exact fld_setFld_same _ _ Fld.GRD_STAT_TO 0xF (by decide)

end

/-! ### The safe state (R438) -/

/-- The safe state is entered: it is shown with its interrupt, and drives every output. -/
theorem enterSafe_spec {h : Hw} (off : h.safe = false) (e : Nat) :
    (h.enterSafe e).safe = true ∧ (h.enterSafe e).bit Reg.GRD_IRQ_STAT 2 = true ∧
      (h.enterSafe e).fld Reg.GRD_STAT Fld.GRD_STAT_HL = 0xFFFF ∧ (h.enterSafe e).fld Reg.GRD_STAT Fld.GRD_STAT_TO = 0xF := by
  have entered : h.enterSafe e =
      ((((h.setBit Reg.GRD_STAT 0).setBit Reg.GRD_IRQ_STAT 2).startStop).startTrip e).applyMatrix := if_neg (by simp [off])
  rw [entered]
  generalize shown : (h.setBit Reg.GRD_STAT 0).setBit Reg.GRD_IRQ_STAT 2 = g
  have sent : lowRegs (g.startStop.startTrip e) = lowRegs g := (lowRegs_startTrip _ e).trans (lowRegs_startStop g)
  have safe : (g.startStop.startTrip e).safe = true := by
    refine (bit_congr (reg_of_lowRegs sent (by decide)) 0).trans ?_
    rw [← shown]
    exact (bit_congr (reg_setBit_ne _ _ _ _ (by decide)) 0).trans (bit_setBit_same h _ 0 (by decide))
  have irq : (g.startStop.startTrip e).applyMatrix.bit Reg.GRD_IRQ_STAT 2 = true := by
    refine (bit_congr (reg_applyMatrix_ne _ (by decide)) 2).trans ((bit_congr (reg_of_lowRegs sent (by decide)) 2).trans ?_)
    rw [← shown]
    exact bit_setBit_same _ _ 2 (by decide)
  obtain ⟨stays, lines, outs⟩ := stat_applyMatrix_of_safe _ safe
  exact ⟨stays, irq, lines, outs⟩

/-! ### The end of an active event (R433) -/

/-- An event that ends is active no longer; its latch stays, and so does RAM. -/
theorem endEvent_spec {h : Hw} {e : Nat} (active : h.evActive e = true) (known : e < 0x500) :
    (h.endEvent e).evActive e = false ∧ (h.endEvent e).evLatched e = h.evLatched e ∧ (h.endEvent e).mem = h.mem := by
  have ended : h.endEvent e = (h.clearBit (Reg.GRD_EVT_ACT (e / 40)) (e % 40)).applyMatrix := if_pos active
  have latch : Reg.GRD_EVT_LATCH (e / 40) ≠ Reg.GRD_STAT ∧ Reg.GRD_EVT_LATCH (e / 40) ≠ Reg.GRD_EVT_ACT (e / 40) := by
    simp only [Reg.GRD_EVT_LATCH, Reg.GRD_EVT_ACT, Reg.GRD_STAT]
    omega
  rw [ended]
  refine ⟨?_, ?_, mem_applyMatrix _⟩
  · rw [evActive_congr (activeWords_applyMatrix _) known]
    exact bit_clearBit_same h _ _ (Nat.mod_lt e (by decide))
  · exact (bit_congr (reg_applyMatrix_ne _ latch.1) _).trans (bit_congr (reg_clearBit_ne h _ _ _ latch.2) _)

/-! ### The pending copy (R446) -/

/-- The pending copy and its control register, which no event changes. -/
def pendView (h : Hw) : Tab (Option Word) × Word := (h.grd.pend, h.reg Reg.GRD_PEND_CTL)

theorem pendView_ext {h g : Hw} (pend : h.grd.pend = g.grd.pend) (ctl : h.reg Reg.GRD_PEND_CTL = g.reg Reg.GRD_PEND_CTL) :
    pendView h = pendView g :=
  Prod.ext pend ctl

theorem pendView_congr {h g : Hw} (pend : h.grd.pend = g.grd.pend) (regs : lowRegs h = lowRegs g) : pendView h = pendView g :=
  pendView_ext pend (reg_of_lowRegs regs (by decide))

theorem pendView_setReg {a : Nat} (ne : Reg.GRD_PEND_CTL ≠ a) (h : Hw) (v : Word) : pendView (h.setReg a v) = pendView h :=
  pendView_ext rfl (reg_setReg_ne h a _ v ne)

theorem pendView_count {a : Nat} (ne : Reg.GRD_PEND_CTL ≠ a) (h : Hw) : pendView (h.count a) = pendView h := by
  unfold Hw.count Hw.countFld
  split
  · exact pendView_setReg ne h _
  · rfl

section
variable (h : Hw)

@[simp] theorem pendView_applyMatrix : pendView h.applyMatrix = pendView h :=
  pendView_ext (congrArg Guard.pend (grd_applyMatrix h)) (reg_applyMatrix_ne h (by decide))

@[simp] theorem pendView_startStop : pendView h.startStop = pendView h := pendView_congr rfl (lowRegs_startStop h)

@[simp] theorem pendView_startTrip (e : Nat) : pendView (h.startTrip e) = pendView h := by
  have sent : (h.startTrip e).grd.pend = (h.sendTrip e 0).grd.pend := rfl
  exact pendView_congr (sent.trans (congrArg Guard.pend (grd_sendTrip h e 0))) (lowRegs_startTrip h e)

@[simp] theorem pendView_guardNote (e action : Nat) : pendView (h.guardNote e action) = pendView h :=
  pendView_congr (congrArg Guard.pend (grd_guardNote h e action)) (lowRegs_guardNote h e action)

@[simp] theorem pendView_enterSafe (e : Nat) : pendView (h.enterSafe e) = pendView h := by
  have shown : pendView ((h.setBit Reg.GRD_STAT 0).setBit Reg.GRD_IRQ_STAT 2) = pendView h :=
    (pendView_setReg (by decide) _ _).trans (pendView_setReg (by decide) h _)
  simp [Hw.enterSafe, apply_ite pendView, shown]

@[simp] theorem pendView_rowActions (e : Nat) : pendView (h.rowActions e) = pendView h := by
  have irq (i : Nat) : pendView (h.setBit Reg.GRD_IRQ_STAT i) = pendView h := pendView_setReg (by decide) h _
  simp [Hw.rowActions, apply_ite pendView, irq]

@[simp] theorem pendView_firstEvent (e ring pos : Nat) (node : Bool) : pendView (h.firstEvent e ring pos node) = pendView h := by
  unfold Hw.firstEvent
  split
  · rfl
  · refine (pendView_setReg (by decide) _ _).trans ((pendView_setReg (by decide) _ _).trans ?_)
    exact pendView_setReg (by decide) _ _

@[simp] theorem pendView_setCond (e : Nat) (v : Bool) : pendView (h.setCond e v) = pendView h := rfl

@[simp] theorem pendView_raiseEvent (e ring pos : Nat) (node : Bool) : pendView (h.raiseEvent e ring pos node) = pendView h := by
  have act (g : Hw) (j i : Nat) : pendView (g.setBit (Reg.GRD_EVT_ACT j) i) = pendView g :=
    pendView_setReg (by simp only [Reg.GRD_PEND_CTL, Reg.GRD_EVT_ACT]; omega) g _
  have latch (g : Hw) (j i : Nat) : pendView (g.setBit (Reg.GRD_EVT_LATCH j) i) = pendView g :=
    pendView_setReg (by simp only [Reg.GRD_PEND_CTL, Reg.GRD_EVT_LATCH]; omega) g _
  have warned (g : Hw) : pendView (g.count Reg.GRD_CNT_WARN) = pendView g := pendView_count (by decide) g
  have tripped (g : Hw) : pendView (g.count Reg.GRD_CNT_TRIP) = pendView g := pendView_count (by decide) g
  have measured (g : Hw) : pendView (g.count Reg.GRD_CNT_MEAS) = pendView g := pendView_count (by decide) g
  simp [Hw.raiseEvent, apply_ite pendView, act, latch, warned, tripped, measured]

@[simp] theorem pendView_dropCond (e : Nat) : pendView (h.dropCond e) = pendView h := by
  have act (g : Hw) (j i : Nat) : pendView (g.clearBit (Reg.GRD_EVT_ACT j) i) = pendView g :=
    pendView_setReg (by simp only [Reg.GRD_PEND_CTL, Reg.GRD_EVT_ACT]; omega) g _
  simp [Hw.dropCond, Hw.endEvent, apply_ite pendView, act]

@[simp] theorem pendView_follow (e ring pos : Nat) (v : Bool) : pendView (h.follow e ring pos v) = pendView h := by
  simp [Hw.follow, apply_ite pendView]

@[simp] theorem pendView_settleMeas : pendView h.settleMeas = pendView h :=
  foldl_keeps pendView _ (fun h _ => pendView_follow h _ _ _ _) _ h

end

/-- The pending copy that was applied is empty and no longer pending, and LC stays. -/
theorem applyPend_spec (h : Hw) : h.applyPend.grd.pend = [] ∧ h.applyPend.bit Reg.GRD_PEND_CTL 2 = false ∧ h.applyPend.lc = h.lc := by
  unfold Hw.applyPend
  extract_lets isRow held h1
  have written : powerView h1 = powerView h := by
    refine foldl_keeps powerView _ (fun g x => ?_) _ h
    split
    · rfl
    · simp [apply_ite powerView]
  generalize done : ({ h1.clearBit Reg.GRD_PEND_CTL 2 with grd := { h1.grd with pend := [] } } : Hw) = g
  obtain ⟨pend, ctl⟩ := Prod.mk.inj ((pendView_applyMatrix _).trans (pendView_settleMeas g))
  have kept : powerView g.settleMeas.applyMatrix = powerView g :=
    (powerView_applyMatrix _).trans (foldl_keeps powerView _ (fun h _ => powerView_follow h _ _ _ _) _ g)
  refine ⟨?_, ?_, ?_⟩
  · rw [pend, ← done]
  · refine (bit_congr ctl 2).trans ?_
    rw [← done]
    exact bit_clearBit_same h1 _ 2 (by decide)
  · rw [(powerView_inj kept).1, ← done]
    exact (powerView_inj written).1

end Sys2Proof.Proofs
end

section
/-! PROOFS. The commands of the guards: events, latches, the safe state, TRIP_IN and the pending copy (O34). -/

namespace Sys2Proof.Proofs

open Sys2Proof.Machine Sys2Proof.Laws

/-! ### Events that are active already (R433) -/

theorem raiseEvent_of_active {h : Hw} {e : Nat} (on : h.grdOn = true) (known : evExists e = true) (active : h.evActive e = true)
    (ring pos : Nat) (node : Bool) : h.raiseEvent e ring pos node = h.setCond e true := by
  have stays : (h.setCond e true).evActive e = true := active
  simp [Hw.raiseEvent, on, known, stays]

/-! ### Writes of the block (R433, R438, R439, R446) -/

/-- A write of a register that may happen answers with its effect. -/
theorem next_write {s : State} {who : Who} {a : Nat} {f g : Hw → Hw} (may : s.hw.MayWrite who a) (effect : f s.hw = g s.hw) :
    (.next (s.onHw fun h => h.guarded who a f) : Result) = .next (s.onHw fun h => (g h).busOk 0) :=
  next_onHw s ((guarded_of_mayWrite may f).trans (congrArg (Hw.busOk · 0) effect))

theorem clearLatch_of_over {h : Hw} {e : Nat} (latched : h.evLatched e = true) (gone : h.evCond e = false) :
    h.clearLatch e = ((h.clearBit (Reg.GRD_EVT_LATCH (e / 40)) (e % 40)).guardNote e 2).applyMatrix :=
  (if_neg (by simp [latched])).trans (if_neg (by simp [gone]))

theorem clearLatch_of_held {h : Hw} {e : Nat} (latched : h.evLatched e = true) (held : h.evCond e = true) :
    h.clearLatch e = h.count Reg.GRD_CNT_REFUSED :=
  (if_neg (by simp [latched])).trans (if_pos held)

section
variable {h : Hw} {who : Who} (owner : Hw.grdOwner who = true)
include owner

/-- ENTER while the device is not in the safe state. -/
theorem writeSafe_enter (off : h.safe = false) : h.writeSafe who 1 = (h.draw 4096).2.enterSafe (h.draw 4096).1 := by
  simp [Hw.writeSafe, owner, bitN, Hw.safeByWrite, off]

theorem writeSafe_exit_of_quiet (quiet : h.tripOn = false) : h.writeSafe who 2 = (h.clearBit Reg.GRD_STAT 0).applyMatrix := by
  simp [Hw.writeSafe, owner, bitN, quiet]

theorem writeSafe_exit_of_trip (trip : h.tripOn = true) : h.writeSafe who 2 = h.count Reg.GRD_CNT_REFUSED := by
  simp [Hw.writeSafe, owner, bitN, trip]

theorem writeCrsTrip_of_owner (v : Byte) :
    h.writeCrsTrip who (word v.toNat) =
      (List.range 8).foldl (fun (h : Hw) i => h.follow (0x398 + i) 0 0 (bitN v.toNat i)) (h.setReg Reg.GRD_CRS_TRIP (word v.toNat)) := by
  have byte : v.toNat < 2 ^ 8 := v.isLt
  have value : (word v.toNat).toNat = v.toNat := by
    unfold word
    rw [BitVec.toNat_ofNat]
    omega
  unfold Hw.writeCrsTrip
  rw [if_neg (by simp [owner]), value, Nat.mod_eq_of_lt (show v.toNat < 256 from byte)]

theorem writePend_arm : h.writePend who 1 = h.setBit Reg.GRD_PEND_CTL 2 := by
  simp [Hw.writePend, owner, bitN]

theorem writePend_discard :
    h.writePend who 2 = { h.clearBit Reg.GRD_PEND_CTL 2 with grd := { h.grd with pend := [] } } := by
  simp [Hw.writePend, owner, bitN]

end

/-! ### TRIP_IN (R131, R440) -/

/-- The level that TRIP_IN i shows. -/
def showLevel (h : Hw) (i : Nat) (level : Bool) : Hw :=
  if level then h.setBit Reg.GRD_TRIPIN (18 + i) else h.clearBit Reg.GRD_TRIPIN (18 + i)

/-- The level shown reads as it is, and whether the pin is declared used stays. -/
theorem showLevel_bits (h : Hw) (i : Fin 2) (level : Bool) :
    (showLevel h i level).bit Reg.GRD_TRIPIN (18 + i) = level ∧
      (showLevel h i level).bit Reg.GRD_TRIPIN (16 + i) = h.bit Reg.GRD_TRIPIN (16 + i) := by
  cases level
  · exact ⟨bit_clearBit_same h _ _ (by omega), bit_clearBit_ne h _ _ _ (by omega) (by omega)⟩
  · exact ⟨bit_setBit_same h _ _ (by omega), bit_setBit_ne h _ _ _ (by omega) (by omega)⟩

/-- The event of a used TRIP_IN follows its level. -/
theorem tripIn_showLevel {h : Hw} {i : Fin 2} (used : h.bit Reg.GRD_TRIPIN (16 + i) = true) (level : Bool) :
    (showLevel h i level).tripIn i = (showLevel h i level).follow (0x390 + i) 0 0 level := by
  obtain ⟨shown, declared⟩ := showLevel_bits h i level
  unfold Hw.tripIn
  rw [shown, declared, used, Bool.true_and]

/-! ### The obligation -/

/-- Settles O34: THRESH by `ends_of_thresh`, the end of a warning by `endEvent_spec`, the safe state by `enterSafe_spec`, the pending
copy by `applyPend_spec`; a write of the block by the effect of its word. -/
theorem guardEventsLatchesAndTheSafeState : Obligations.GuardEventsLatchesAndTheSafeState := by
  unfold Obligations.GuardEventsLatchesAndTheSafeState
  refine ⟨?follow, ?ends, ?again, ?threshAux, ?retry, ?repeat_, ?noRepeat, ?warning, ?meas, ?latchOver, ?latchHeld, ?enter, ?exit_,
    ?exitRefused, ?tripUsed, ?crsTrip, ?arm, ?discard, ?apply_, ?tripUnused, ?threshCell⟩
  case follow => exact fun h e ring pos v => rfl
  case ends => exact fun h e active => if_pos active
  case again => exact fun h e ring pos node on known active => raiseEvent_of_active on known active ring pos node
  case threshAux =>
    intro k p kind ch s level known aux
    exact ends_of_thresh rfl (next_onHw s ((if_pos level).trans (sendThresh_of_aux aux known _ _ _)))
  case retry =>
    intro k x s failed
    obtain ⟨grd, mem⟩ := cmdGo_grd_mem { s.hw with grd := { s.hw.grd with failed := s.hw.grd.failed.erase x } } k x.2.1 0x10 9
      x.2.2 true
    refine ends_of_next (next_onHw s ?_) ⟨rfl, congrArg Guard.failed grd, mem⟩
    rw [failed]
  case repeat_ => exact fun s more => next_onHw s (if_neg more)
  case noRepeat => exact fun s none_ => next_onHw s (g := id) (if_pos none_)
  case warning =>
    intro e s warning active gone waited
    refine ends_of_next (next_onHw s (g := fun h => h.endEvent e) (if_pos ?_)) ⟨rfl, endEvent_spec active (by omega)⟩
    simp [warning, active, gone, waited]
  case meas =>
    intro k p j s on channel guarded fresh missed
    refine next_onHw s (if_pos ?_)
    simp [on, channel, guarded, fresh, missed]
  case latchOver =>
    intro who e s may latched gone
    exact next_write may (clearLatch_of_over latched gone)
  case latchHeld =>
    intro who e s may latched held
    exact next_write may (clearLatch_of_held latched held)
  case enter =>
    intro who s may owner off
    refine ends_of_next (next_write (g := fun h => (h.draw 4096).2.enterSafe (h.draw 4096).1) may (writeSafe_enter owner off))
      ⟨rfl, ?_⟩
    obtain ⟨safe, irq, lines, outs⟩ := enterSafe_spec (h := (s.hw.draw 4096).2) off (s.hw.draw 4096).1
    rw [onHw_hw]
    generalize (s.hw.draw 4096).2.enterSafe (s.hw.draw 4096).1 = entered at *
    exact ⟨safe, irq, lines, outs, rfl⟩
  case exit_ =>
    intro who s may owner quiet
    exact next_write may (writeSafe_exit_of_quiet owner quiet)
  case exitRefused =>
    intro who s may owner trip
    exact next_write may (writeSafe_exit_of_trip owner trip)
  case tripUsed =>
    intro i level s on used
    refine next_onHw s ((if_neg (by simp [on])).trans ((if_pos ?_).trans (tripIn_showLevel used level)))
    exact (showLevel_bits s.hw i level).2.trans used
  case crsTrip =>
    intro who v s may owner
    exact next_write may (writeCrsTrip_of_owner owner v)
  case arm =>
    intro who s may owner
    exact next_write may (writePend_arm owner)
  case discard =>
    intro who s may owner
    exact next_write may (writePend_discard owner)
  case apply_ =>
    intro s on armed due
    refine ends_of_next (next_onHw s (g := Hw.applyPend) (if_pos ?_)) ⟨rfl, ?_⟩
    · simp [on, armed, due]
    · rw [onHw_hw]
      exact applyPend_spec s.hw
  case tripUnused =>
    intro i level s on unused
    refine next_onHw s ((if_neg (by simp [on])).trans ((if_neg ?_).trans ?_))
    · exact Bool.not_eq_true _ ▸ (showLevel_bits s.hw i level).2.trans unused
    · cases level <;> rfl
  case threshCell =>
    intro k p kind ch s level known cell channel
    exact ends_of_thresh rfl (next_onHw s ((if_pos level).trans (sendThresh_of_cell cell known channel _ _)))

end Sys2Proof.Proofs
end

section
/-! PROOFS. Fuses, the state after reset, and the firewall before it is armed (O56, O58, O59). -/

namespace Sys2Proof.Proofs

open Sys2Proof.Machine Sys2Proof.Laws

/-- Settles O56, by `step_keeps`: taking a command off the queue leaves the fuses alone, and no command lowers one. -/
theorem programmedFusesStayProgrammed : Obligations.ProgrammedFusesStayProgrammed := by
  unfold Obligations.ProgrammedFusesStayProgrammed
  intro s t stepped
  exact (step_keeps stepped).fuse

/-- Settles O58: nothing is listed after reset, so registers, cores and VM slots read as their unlisted values; the memories by
`reset_memory_wf`. -/
theorem resetLeavesTheSpecifiedValues : Obligations.ResetLeavesTheSpecifiedValues := by
  unfold Obligations.ResetLeavesTheSpecifiedValues
  obtain ⟨ram, flash, regs⟩ := reset_memory_wf
  exact ⟨fun _ => rfl, rfl, rfl, fun _ => ⟨rfl, rfl⟩, fun _ => rfl, ram, flash, regs, rfl, rfl, rfl, rfl, rfl, rfl⟩

/-- Until WLD_CTRL.EN is set Crest standby, which is a Crest core too, passes the firewall (R509). -/
theorem blockAllows_crestStandby {h : Hw} (unarmed : h.bit Reg.WLD_CTRL 0 = false) (write : Bool) (b : Block) :
    h.blockAllows .crestStandby write b = true := by
  simp [Hw.blockAllows, unarmed]

/-- Refutes O59, at its clause of the firewall that is not armed: after reset Crest standby, which is neither a system initiator nor
Crest, may read block 0. -/
theorem not_deniedAccessesAreCountedAndChangeNothingElse : ¬ Obligations.DeniedAccessesAreCountedAndChangeNothingElse := by
  unfold Obligations.DeniedAccessesAreCountedAndChangeNothingElse
  rintro ⟨-, onlyCrest, -⟩
  have unarmed : State.reset.hw.bit Reg.WLD_CTRL 0 = false := by decide
  have closed := onlyCrest State.reset.hw .crestStandby false (.fixed 0) (by decide) (by decide) unarmed
  rw [blockAllows_crestStandby unarmed] at closed
  exact Bool.noConfusion closed

end Sys2Proof.Proofs
end

section
/-! PROOFS. A task that is abandoned at TASK_MAX completes its streams first, which the statement of fabric instances leaves out
(O40). -/

namespace Sys2Proof.Proofs

open Sys2Proof.Machine Sys2Proof.Laws

/-! ### The counterexample -/

/-- Engine 0 runs a task of slot 0 of the fabric, whose DRAM grant is one word and whose TASK_MAX is 0; a PSW of the word 7 from its
working area into that grant is outstanding (R354). -/
def streamOutstanding : State :=
  { hw :=
      { fi := [(0, { dramBase := dramBase, dramSize := 1 })]
        eng := [(0, { Engine.init with
          work := [(0, { data := 7 })]
          task := some { kind := .inst }
          streams := [{ write := true, tgt := 3, loc := 0, target := 0, words := 1 }] })] } }

/-- The word of the stream is in the grant when the task is over (R357). -/
theorem fiTaskTimeout_completes_stream :
    ∃ t, exec (.fiTaskTimeout 0 1) streamOutstanding = .next t ∧ (t.hw.ram dramBase).data = 7 :=
  ⟨_, rfl, by decide⟩

/-- Refutes O40, at its clause of a task beyond TASK_MAX: in `streamOutstanding` the command first completes the stream of
engine 0, so that the word 7 stands in the DRAM, where the clause leaves the memory as it was. -/
theorem not_fabricInstancesRunTheirItems : ¬ Obligations.FabricInstancesRunTheirItems := by
  unfold Obligations.FabricInstancesRunTheirItems
  rintro ⟨-, -, -, -, -, -, -, -, -, -, -, -, -, timeout, -⟩
  obtain ⟨t, answer, written⟩ := fiTaskTimeout_completes_stream
  have claimed := timeout 0 1 _ streamOutstanding rfl rfl (by decide)
  have same := Host.Outcome.next.inj (answer.symm.trans claimed)
  rw [same] at written
  revert written
  decide

end Sys2Proof.Proofs
end

section
/-! PROOFS. Mailboxes: doorbells, acknowledgements, completions, and the hand-over of a channel end or of a slot of the fabric (O39). -/

namespace Sys2Proof.Proofs

open Sys2Proof.Machine Sys2Proof.Laws

/-! ### The SEQ of a doorbell (R537) -/

theorem classify_of_ahead {c : Channel} {seq l : Nat} (last : c.last = some l) (above : 1 ≤ (seq + 65536 - l) % 65536)
    (below : (seq + 65536 - l) % 65536 ≤ 32767) : c.classify seq = .fresh := by
  unfold Channel.classify
  rw [last]
  split
  · rfl
  · exact if_pos ⟨above, below⟩

theorem classify_of_queued {c : Channel} {seq : Nat} (some_ : 0 < seq) (last : c.last = some seq)
    (queued : ∃ m ∈ c.queue, m.seq = seq) : c.classify seq = .pending := by
  have among : (c.queue.any fun m => m.seq == seq) = true := by simpa using queued
  simp [Channel.classify, some_.ne', last, among]

/-! ### Doorbells, acknowledgements, completions (R531, R533, R539, R552) -/

section
variable {h : Hw} {who : Who} {n : Nat}

theorem doorbellWrite_of_sender (opened : h.channelOpen n = true) (sender : h.isSender who n = true) (seq tag len : Nat) :
    h.doorbellWrite who n seq tag len = (h.doorbell n seq tag len).vmFirstWrite who n := if_pos (by simp [opened, sender])

/-- A new SEQ with a credit left: the message joins the queue. -/
theorem doorbell_of_fresh (on : h.receiverOn (h.chan n).recv = true) {seq : Nat} (fresh : (h.chan n).classify seq = .fresh)
    (credit : 0 < (h.chan n).credits) (tag len : Nat) :
    h.doorbell n seq tag len = h.setChan n { h.chan n with
      txResult := 0, credits := (h.chan n).credits - 1
      queue := (h.chan n).queue ++ [({ ptr := bitsOf (h.reg (Reg.MBX_PTR n)) 33 0, len := len, tag := tag, seq := seq } : MbxMsg)]
      last := if seq = 0 then (h.chan n).last else some seq } := by
  simp [Hw.doorbell, on, fresh, credit.ne']

theorem doorbell_of_pending (on : h.receiverOn (h.chan n).recv = true) {seq : Nat} (pending : (h.chan n).classify seq = .pending)
    (tag len : Nat) : h.doorbell n seq tag len = (h.setChan n { h.chan n with txResult := 2 }).count Reg.MBX_CNT_REPEAT := by
  simp [Hw.doorbell, on, pending]

theorem doorbellWrite_of_foreign (foreign : h.isSender who n = false) (seq tag len : Nat) :
    h.doorbellWrite who n seq tag len = h.count Reg.MBX_CNT_DENY := by
  simp [Hw.doorbellWrite, foreign]

/-- The receiver names the SEQ of the oldest message and a code that is not reserved. -/
theorem ackWrite_of_head (opened : h.channelOpen n = true) (receiver : h.isReceiver who n = true) {seq code : Nat}
    (ordinary : code < 0xFF00) {m : MbxMsg} {q : List MbxMsg} (head : (h.chan n).queue = m :: q) (names : m.seq = seq) :
    h.ackWrite who n seq code = (h.setChan n { h.chan n with rxResult := 0 }).mbxAckHead n code := by
  simp [Hw.ackWrite, opened, receiver, Nat.not_le.mpr ordinary, head, names]

theorem ackWrite_of_foreign (foreign : h.isReceiver who n = false) (seq code : Nat) :
    h.ackWrite who n seq code = h.count Reg.MBX_CNT_DENY := by
  simp [Hw.ackWrite, foreign]

theorem doneRead_of_sender (sender : h.isSender who n = true) :
    h.doneRead who n = (h.setChan n { h.chan n with done := (h.chan n).done.drop 1 }, (h.chan n).doneWord) := if_pos sender

/-! ### Hand-overs (R517, R541, R549) -/

/-- A request for the receiver's end that R517 admits. -/
theorem channelRequest_receiver {op id new m : Nat} (known : id < 48)
    (goes : h.hoVerdict who op (h.chan id).recv new (h.chan id).dfltRecv (h.chan id).grant (h.chan id).claim = .go m) :
    h.channelRequest who op 1 id new = (h.channelMove 1 id (h.chan id).recv m op).setMbxHoStat who m 1 0 op id := by
  simp [Hw.channelRequest, Nat.not_le.mpr known, goes]

/-- A request for the sender's end that R517 admits. -/
theorem channelRequest_sender {op id new m : Nat} (known : id < 48)
    (goes : h.hoVerdict who op (h.chan id).sender new (h.chan id).dfltSender (h.chan id).grant (h.chan id).claim = .go m) :
    h.channelRequest who op 2 id new = (h.channelMove 2 id (h.chan id).sender m op).setMbxHoStat who m 2 0 op id := by
  simp [Hw.channelRequest, Nat.not_le.mpr known, goes]

/-- A request for a slot of the fabric without work that R517 admits for a VM. -/
theorem channelRequest_instance {op id new m : Nat} (known : id < 16) (noItem : (h.inst id).item = none)
    (unloaded : (h.inst id).loaded = false) (still : (h.inst id).state = .idle ∨ (h.inst id).state = .drained)
    (goes : h.hoVerdict who op (0x10 + (h.inst id).vm) new (0x10 + (h.inst id).dfltVm) (h.inst id).grant (h.inst id).claim = .go m)
    (vm : codeIsVm m = true) :
    h.channelRequest who op 3 id new =
      (h.channelMove 3 id (0x10 + (h.inst id).vm) m op).setMbxHoStat who m 3 0 op id := by
  rcases still with idle | drained
  · simp [Hw.channelRequest, Nat.mod_eq_of_lt known, Nat.not_le.mpr known, noItem, unloaded, idle, goes, vm]
  · simp [Hw.channelRequest, Nat.mod_eq_of_lt known, Nat.not_le.mpr known, noItem, unloaded, drained, goes, vm]

end

/-! ### The obligation -/

/-- Settles O39: a write of MBX_DOORBELL, MBX_ACK and MBX_HO_REQ by the effect of its word, a read of MBX_DONE by its word. -/
theorem mailboxMessagesAndChannelsMove : Obligations.MailboxMessagesAndChannelsMove := by
  unfold Obligations.MailboxMessagesAndChannelsMove
  refine ⟨fun c seq l _ _ last above below => classify_of_ahead last above below,
    fun c seq some_ last _ queued => classify_of_queued some_ last queued, ?fresh, ?again, ?foreign, ?ack, ?foreignAck, ?done,
    ?releaseReceiver, ?claimSender, ?returnReceiver, ?releaseSender, ?claimReceiver, ?returnSender, ?instance_⟩
  case fresh =>
    exact fun who n seq tag len s may opened sender on fresh credit =>
      next_write may ((doorbellWrite_of_sender opened sender _ _ _).trans
        (congrArg (Hw.vmFirstWrite · who n) (doorbell_of_fresh on fresh credit _ _)))
  case again =>
    exact fun who n seq tag len s may opened sender on pending =>
      next_write may ((doorbellWrite_of_sender opened sender _ _ _).trans
        (congrArg (Hw.vmFirstWrite · who n) (doorbell_of_pending on pending _ _)))
  case foreign => exact fun who n seq tag len s may foreign => next_write may (doorbellWrite_of_foreign foreign _ _ _)
  case ack =>
    exact fun who n seq code m q s may opened receiver ordinary head names =>
      next_write may (ackWrite_of_head opened receiver ordinary head names)
  case foreignAck => exact fun who n seq code s may foreign => next_write may (ackWrite_of_foreign foreign _ _)
  case done =>
    intro who n s may sender
    refine next_onHw s ((guardedRead_of_mayRead may _).trans ?_)
    rw [doneRead_of_sender sender]
  case releaseReceiver => exact fun who id new n s may known goes => next_write may (channelRequest_receiver known goes)
  case claimSender => exact fun who id n s may known goes => next_write may (channelRequest_sender known goes)
  case returnReceiver => exact fun who id n s may known goes => next_write may (channelRequest_receiver known goes)
  case releaseSender => exact fun who id new n s may known goes => next_write may (channelRequest_sender known goes)
  case claimReceiver => exact fun who id n s may known goes => next_write may (channelRequest_receiver known goes)
  case returnSender => exact fun who id n s may known goes => next_write may (channelRequest_sender known goes)
  case instance_ =>
    exact fun who id new n s may known noItem unloaded still goes vm =>
      next_write may (channelRequest_instance known noItem unloaded still goes vm)

end Sys2Proof.Proofs
end

section
/-! PROOFS. A register beside the one that is written, bits of a register's fields, and what a counter leaves (R9). -/

namespace Sys2Proof.Proofs

open Sys2Proof.Machine Sys2Proof.Laws

section
variable (h : Hw) {a b : Nat} (ne : b ≠ a)
include ne

theorem bit_setReg_other (v : Word) (i : Nat) : (h.setReg a v).bit b i = h.bit b i := bit_congr (reg_setReg_ne h a b v ne) i
theorem bit_setFld_other (f : BitField) (v i : Nat) : (h.setFld a f v).bit b i = h.bit b i := bit_setReg_other h ne _ i
theorem bit_setBit_other (j i : Nat) : (h.setBit a j).bit b i = h.bit b i := bit_setReg_other h ne _ i
theorem bit_clearBit_other (j i : Nat) : (h.clearBit a j).bit b i = h.bit b i := bit_setReg_other h ne _ i
theorem bit_count_other (i : Nat) : (h.count a).bit b i = h.bit b i := bit_congr (reg_count_ne h a b ne) i

theorem fld_setReg_other (v : Word) (g : BitField) : (h.setReg a v).fld b g = h.fld b g := fld_congr (reg_setReg_ne h a b v ne) g
theorem fld_setFld_other (f : BitField) (v : Nat) (g : BitField) : (h.setFld a f v).fld b g = h.fld b g := fld_setReg_other h ne _ g
theorem fld_setBit_other (j : Nat) (g : BitField) : (h.setBit a j).fld b g = h.fld b g := fld_setReg_other h ne _ g
theorem fld_clearBit_other (j : Nat) (g : BitField) : (h.clearBit a j).fld b g = h.fld b g := fld_setReg_other h ne _ g
theorem fld_count_other (g : BitField) : (h.count a).fld b g = h.fld b g := fld_congr (reg_count_ne h a b ne) g

end

/-- A bit of a field is a bit of the register. -/
theorem bitN_fld (h : Hw) (a : Nat) (f : BitField) (i : Nat) (within : i < f.hi + 1 - f.lo) :
    bitN (h.fld a f) i = h.bit a (f.lo + i) := by
  unfold Hw.fld Hw.bit
  rw [bitN_eq_testBit, bitN_eq_testBit, testBit_bitsOf, decide_eq_true within, Bool.true_and]

/-- A counter changes registers alone. -/
theorem count_eq (h : Hw) (a : Nat) : h.count a = { h with regs := (h.count a).regs } := by
  unfold Hw.count Hw.countFld
  split <;> rfl

theorem toNat_word {n : Nat} (fits : n < 2 ^ 40) : (word n).toNat = n := by
  unfold word
  rw [BitVec.toNat_ofNat, Nat.mod_eq_of_lt fits]

end Sys2Proof.Proofs
end

section
/-! PROOFS. The Crest cluster: the voter, the window, resynchronisation, mode requests and alive supervision (O36). -/

namespace Sys2Proof.Proofs

open Sys2Proof.Machine Sys2Proof.Laws

/-! ### Bits of CRS_STAT (R484, R491, R502) -/

section
variable (h : Hw)

theorem bitN_dutyMask {k : Nat} (k3 : k < 3) : bitN h.dutyMask k = h.bit Reg.CRS_STAT k :=
  (bitN_fld h Reg.CRS_STAT Fld.CRS_STAT_DUTY k k3).trans (congrArg (h.bit Reg.CRS_STAT) (Nat.zero_add k))

theorem isRetired_eq_bit {k : Nat} (k3 : k < 3) : h.isRetired k = h.bit Reg.CRS_STAT (4 + k) :=
  bitN_fld h Reg.CRS_STAT Fld.CRS_STAT_RETIRED k k3

theorem bit_noteMode {i : Nat} (apart : i < 20) : h.noteMode.bit Reg.CRS_STAT i = h.bit Reg.CRS_STAT i :=
  bit_setFld_apart h Reg.CRS_STAT Fld.CRS_STAT_MODE _ i (by omega) (.inl apart)

theorem bit_noteMode_other {b : Nat} (ne : b ≠ Reg.CRS_STAT) (i : Nat) : h.noteMode.bit b i = h.bit b i :=
  bit_setFld_other h ne _ _ i

@[simp] theorem crs_setFld (a : Nat) (f : BitField) (v : Nat) : (h.setFld a f v).crs = h.crs := rfl
@[simp] theorem crs_setBit (a i : Nat) : (h.setBit a i).crs = h.crs := rfl
@[simp] theorem crs_clearBit (a i : Nat) : (h.clearBit a i).crs = h.crs := rfl
@[simp] theorem crs_count (a : Nat) : (h.count a).crs = h.crs := by rw [count_eq]
@[simp] theorem crs_noteMode : h.noteMode.crs = h.crs := crs_setFld h _ _ _

@[simp] theorem reg_newWindow (a : Nat) : h.newWindow.reg a = h.reg a :=
  foldl_keeps (fun h : Hw => h.reg a) (fun h (k : Fin 3) => h.setCrestSig k.val 0) (fun _ _ => rfl) _ _

@[simp] theorem testing_newWindow : h.newWindow.crs.testing = h.crs.testing :=
  foldl_keeps (fun h : Hw => h.crs.testing) (fun h (k : Fin 3) => h.setCrestSig k.val 0) (fun _ _ => rfl) _ _

@[simp] theorem lapse_newWindow : h.newWindow.crs.lapse = h.crs.lapse :=
  foldl_keeps (fun h : Hw => h.crs.lapse) (fun h (k : Fin 3) => h.setCrestSig k.val 0) (fun _ _ => rfl) _ _

@[simp] theorem request_newWindow : h.newWindow.crs.request = h.crs.request :=
  foldl_keeps (fun h : Hw => h.crs.request) (fun h (k : Fin 3) => h.setCrestSig k.val 0) (fun _ _ => rfl) _ _

end

/-- A change of the hardware that leaves it as it is leaves the state. -/
theorem onHw_of_eq {s : State} {f : Hw → Hw} (same : f s.hw = s.hw) : s.onHw f = s := congrArg (fun h => { s with hw := h }) same

/-! ### The voter (R487, R489, R492) -/

theorem vote_of_none {α : Type} [DecidableEq α] {h : Hw} {l : List (Nat × α)} (agree : Hw.oddOf l = none) : h.vote l = (h, true) := by
  simp [Hw.vote, agree]

theorem vote_of_odd {α : Type} [DecidableEq α] {h : Hw} {l : List (Nat × α)} {k : Nat} (odd : Hw.oddOf l = some (some k)) :
    h.vote l = (h.oddCore k true, true) := by
  simp [Hw.vote, odd]

theorem vote_of_pair {α : Type} [DecidableEq α] (h : Hw) (a b : Nat) {x y : α} (differ : x ≠ y) :
    h.vote [(a, x), (b, y)] = (h.undecided true, false) := by
  simp [Hw.vote, Hw.oddOf, differ]

/-- Members that all hold one value have no odd one among them. -/
theorem oddOf_of_agree {α : Type} [DecidableEq α] {l : List (Nat × α)} (agree : ∀ p ∈ l, ∀ q ∈ l, p.2 = q.2) : Hw.oddOf l = none := by
  unfold Hw.oddOf
  split
  · rename_i a x b y c z
    have xy : x = y := agree (a, x) (by simp) (b, y) (by simp)
    have yz : y = z := agree (b, y) (by simp) (c, z) (by simp)
    rw [if_pos xy, if_pos yz]
  · rename_i a x b y
    exact if_pos (agree (a, x) (by simp) (b, y) (by simp))
  · rfl

/-! ### The end of a window (R489) -/

theorem compareWindow_of_single {h : Hw} (single : h.dutySize < 2) : h.compareWindow = (h, true) := if_pos single

/-- The signatures of the duty group in CRS_SIG. -/
def sigsNoted (h : Hw) : Hw := h.duty.foldl (fun (h : Hw) (k : Fin 3) => h.setReg (Reg.CRS_SIG k) (h.crestSig k)) h

theorem crs_notedSigs (l : List (Fin 3)) (h : Hw) : (l.foldl (fun h k => h.setReg (Reg.CRS_SIG k) (h.crestSig k)) h).crs = h.crs :=
  foldl_keeps Hw.crs (fun h (k : Fin 3) => h.setReg (Reg.CRS_SIG k) (h.crestSig k)) (fun _ _ => rfl) _ _

theorem reg_notedSigs {a : Fin 3} (l : List (Fin 3)) (h : Hw) (noted : a ∈ l ∨ h.reg (Reg.CRS_SIG a) = h.crestSig a) :
    (l.foldl (fun h k => h.setReg (Reg.CRS_SIG k) (h.crestSig k)) h).reg (Reg.CRS_SIG a) = h.crestSig a := by
  induction l generalizing h with
  | nil => exact noted.resolve_left (by simp)
  | cons k l ih =>
    rw [List.foldl_cons, ih _ ?_]
    · rfl
    · by_cases same : a = k
      · subst same
        exact .inr (reg_setReg_same h _ _)
      · have apart : Reg.CRS_SIG a ≠ Reg.CRS_SIG k := fun e => same (Fin.ext (Nat.add_left_cancel e))
        rcases noted with among | done
        · exact .inl ((List.mem_cons.mp among).resolve_left same)
        · exact .inr ((reg_setReg_ne h _ _ _ apart).trans done)

theorem compareWindow_of_agree {h : Hw} (group : 2 ≤ h.dutySize)
    (agree : ∀ a ∈ h.duty, ∀ b ∈ h.duty, h.crestSig a.val = h.crestSig b.val) : h.compareWindow = ((sigsNoted h).newWindow, true) := by
  have none_ : Hw.oddOf (h.duty.map fun k : Fin 3 => (k.val, h.crestSig k)) = none :=
    oddOf_of_agree (by simpa using fun a am b bm => agree a am b bm)
  unfold Hw.compareWindow
  rw [if_neg (by omega)]
  simp only [none_, sigsNoted]

theorem carryOut_of_none {h : Hw} (idle : h.crs.request = none) : h.carryOut = h := by
  simp only [Hw.carryOut, idle]

/-- A window that ends in agreement leaves the signatures in CRS_SIG where no request is pending. -/
theorem compared_spec {h : Hw} (idle : h.crs.request = none) {a : Fin 3} (duty : a ∈ h.duty) :
    (sigsNoted h).newWindow.carryOut.reg (Reg.CRS_SIG a) = h.crestSig a := by
  have still : (sigsNoted h).newWindow.crs.request = none := by
    rw [request_newWindow, sigsNoted, crs_notedSigs, idle]
  rw [carryOut_of_none still, reg_newWindow]
  exact reg_notedSigs h.duty h (.inl duty)

/-! ### Retirement and resynchronisation (R490, R491) -/

/-- A change of the cluster beyond its registers. -/
def onCrs (h : Hw) (f : Crest → Crest) : Hw := { h with crs := f h.crs }

@[simp] theorem crs_onCrs (h : Hw) (f : Crest → Crest) : (onCrs h f).crs = f h.crs := rfl
@[simp] theorem bit_onCrs (h : Hw) (f : Crest → Crest) (a i : Nat) : (onCrs h f).bit a i = h.bit a i := rfl

/-- A core that is retired: held in reset, off duty, RETIRED. -/
def retireMarked (h : Hw) (k : Nat) : Hw := ((h.holdCore k).setDuty k false).setBit Reg.CRS_STAT (4 + k)

/-- No test of core k runs any more. -/
def testDropped (h : Hw) (k : Nat) : Hw :=
  if h.crs.testing = some k then (onCrs h fun c => { c with testing := none }).clearBit Reg.CRS_STAT 18 else h

/-- Core k is no longer held by a stop. -/
def holdDropped (h : Hw) (k : Nat) : Hw := if h.crs.held = some k then onCrs h fun c => { c with held := none } else h

theorem retireCore_eq (h : Hw) (k : Nat) :
    h.retireCore k =
      (((holdDropped (testDropped (retireMarked h k) k) k).count Reg.CRS_CNT_RETIRE).setBit Reg.CRS_IRQ_STAT 2).noteMode := rfl

theorem bit_testDropped (h : Hw) (k : Nat) {i : Nat} (low : i < 18) : (testDropped h k).bit Reg.CRS_STAT i = h.bit Reg.CRS_STAT i := by
  unfold testDropped
  split
  · exact bit_clearBit_ne _ _ _ _ (by omega) (by omega)
  · rfl

theorem testing_testDropped (h : Hw) (k : Nat) : (testDropped h k).crs.testing ≠ some k := by
  unfold testDropped
  split
  · exact fun e => nomatch (show none = some k from e)
  · assumption

theorem bit_holdDropped (h : Hw) (k a i : Nat) : (holdDropped h k).bit a i = h.bit a i := by
  unfold holdDropped
  split <;> rfl

theorem testing_holdDropped (h : Hw) (k : Nat) : (holdDropped h k).crs.testing = h.crs.testing := by
  unfold holdDropped
  split <;> rfl

theorem bit_retireCore (h : Hw) (k : Nat) {i : Nat} (low : i < 18) :
    (h.retireCore k).bit Reg.CRS_STAT i = (retireMarked h k).bit Reg.CRS_STAT i := by
  rw [retireCore_eq, bit_noteMode _ (by omega), bit_setBit_other _ (by decide), bit_count_other _ (by decide), bit_holdDropped,
    bit_testDropped _ _ low]

theorem testing_retireCore (h : Hw) {k : Nat} (testing : h.crs.testing = some k) : (h.retireCore k).crs.testing = none := by
  have here : (retireMarked h k).crs.testing = some k := testing
  rw [retireCore_eq, crs_noteMode, crs_setBit, crs_count, testing_holdDropped, testDropped, if_pos here, crs_clearBit]
  rfl

/-- A retired core is off duty and RETIRED. -/
theorem retireCore_spec (h : Hw) {k : Nat} (k3 : k < 3) :
    bitN (h.retireCore k).dutyMask k = false ∧ (h.retireCore k).isRetired k = true := by
  rw [bitN_dutyMask _ k3, isRetired_eq_bit _ k3, bit_retireCore _ _ (by omega), bit_retireCore _ _ (by omega)]
  exact ⟨(bit_setBit_ne _ _ _ _ (by omega) (by omega)).trans (bit_clearBit_same _ _ _ (by omega)), bit_setBit_same _ _ _ (by omega)⟩

/-- Core k with the state of the group's lead and on duty, before the new window. -/
def groupCopied (h : Hw) (k : Nat) : Hw :=
  onCrs { (h.setCrestCore k (h.crestCore (h.duty.headD 0))).setBit Reg.CRS_STAT k with xlat := h.xlat.filter fun x => 8 ≤ x.core }
    fun c => { c with testing := none, held := if c.held = some k then none else c.held
                      resyncAt := Tabs.set (fun _ => (0 : Nat)) c.resyncAt k (h.poweredMs + 1) }

theorem bit_groupCopied (h : Hw) {k : Nat} (k3 : k < 3) : (groupCopied h k).bit Reg.CRS_STAT k = true := by
  have xlatOnly (g : Hw) (x : List CachedXlat) : ({ g with xlat := x } : Hw).bit Reg.CRS_STAT k = g.bit Reg.CRS_STAT k := rfl
  rw [groupCopied, bit_onCrs, xlatOnly]
  exact bit_setBit_same _ _ _ (by omega)

theorem resyncCopy_eq (h : Hw) (k : Nat) :
    h.resyncCopy k =
      ((((groupCopied h k).clearBit Reg.CRS_STAT 18).newWindow.noteMode).count Reg.CRS_CNT_RESYNC).setBit Reg.CRS_IRQ_STAT 1 := rfl

/-- What joining the group leaves: no test, the core on duty, RESYNC_DONE. -/
theorem resyncCopy_spec (h : Hw) (k : Nat) :
    (h.resyncCopy k).crs.testing = none ∧ (k < 3 → bitN (h.resyncCopy k).dutyMask k = true) ∧
      (h.resyncCopy k).bit Reg.CRS_IRQ_STAT 1 = true := by
  rw [resyncCopy_eq]
  refine ⟨?_, fun k3 => ?_, bit_setBit_same _ _ _ (by decide)⟩
  · rw [crs_setBit, crs_count, crs_noteMode, testing_newWindow, crs_clearBit, groupCopied, crs_onCrs]
  · rw [bitN_dutyMask _ k3, bit_setBit_other _ (by decide), bit_count_other _ (by decide), bit_noteMode _ (by omega),
      bit_congr (reg_newWindow _ _), bit_clearBit_ne _ _ _ _ (by omega) (by omega), bit_groupCopied h k3]

theorem selftestDone_of_failed {h : Hw} {k : Nat} (testing : h.crs.testing = some k) (odd : h.joining k = false) :
    h.selftestDone false = h.retireCore k := by
  simp [Hw.selftestDone, testing, odd]

theorem selftestDone_of_passed {h : Hw} {k : Nat} (testing : h.crs.testing = some k) (odd : h.joining k = false)
    (agree : h.compareWindow.2 = true) : h.selftestDone true = h.compareWindow.1.resyncCopy k := by
  simp [Hw.selftestDone, testing, odd, agree]

/-! ### Mode requests (R493, R494, R502) -/

/-- A JOIN without the test of its core. -/
def joinCancelled (h : Hw) (j : Nat) : Hw :=
  if h.crs.testing = some j then ((onCrs h fun c => { c with testing := none }).clearBit Reg.CRS_STAT 18).noteMode else h

/-- A mode request that is accepted: pending, with the result ACCEPTED. -/
def requested (h : Hw) (op k : Nat) : Hw :=
  ((onCrs h fun c => { c with request := some (op, k), validated := false }).setBit Reg.CRS_STAT 17).modeResult op 1

/-- R494 admits a request of one core. -/
def modeAdmits (h : Hw) (op k : Nat) : Bool :=
  if op = opDetach then h.mode == 1 && bitN h.dutyMask k
  else if op = opHandover then h.mode == 3 && h.isSingle k && h.bit Reg.CRS_READY 0
  else if op = opJoin then (h.mode == 4 || h.mode == 3 || h.mode == 2) && !bitN h.dutyMask k && !h.isRetired k && h.crs.testing ≠ some k
  else h.mode ≠ 5 && !h.isRetired k && !(bitN h.dutyMask k && h.dutySize == 1)

theorem modeAdmits_handover {h : Hw} {k : Nat} (mode : h.mode = 3) (single : h.isSingle k = true) (ready : h.bit Reg.CRS_READY 0 = true) :
    modeAdmits h opHandover k = true := by
  simp [modeAdmits, mode, single, ready, opDetach, opHandover]

theorem modeAdmits_join {h : Hw} {k : Nat} (mode : h.mode = 4 ∨ h.mode = 3 ∨ h.mode = 2) (free : bitN h.dutyMask k = false)
    (sound : h.isRetired k = false) (untested : h.crs.testing ≠ some k) : modeAdmits h opJoin k = true := by
  rcases mode with mode | mode | mode <;> simp [modeAdmits, mode, free, sound, untested, opDetach, opHandover, opJoin]

theorem dutySize_requested (h : Hw) (op k : Nat) : (requested h op k).dutySize = h.dutySize := by
  have mask : (requested h op k).dutyMask = h.dutyMask := by
    refine (fld_setReg_other _ (by decide) _ _).trans ?_
    exact fld_setBit_apart (onCrs h _) _ _ _ (by decide) (by decide)
  unfold Hw.dutySize Hw.duty
  rw [mask]

section
variable {h : Hw} {who : Who} {op k : Nat} (owner : who = .crest ∨ who = .secure)
include owner

theorem modeRequest_of_admitted (ordinary : op ≠ opCancel) (idle : h.crs.request = none) (k3 : k < 3)
    (admitted : modeAdmits h op k = true) :
    h.modeRequest who op k = if h.dutySize = 1 then (requested h op k).carryOut else requested h op k := by
  have owns : ¬(who ≠ .crest ∧ who ≠ .secure) := by rcases owner with rfl | rfl <;> simp
  unfold modeAdmits at admitted
  unfold Hw.modeRequest
  dsimp only
  rw [if_neg owns, if_neg ordinary, if_neg (by simp [idle]), if_neg (by omega), if_neg (by rw [admitted]; decide)]
  show (if (requested h op k).dutySize = 1 then _ else _) = _
  rw [dutySize_requested]
  rfl

theorem modeRequest_of_busy (ordinary : op ≠ opCancel) (busy : h.crs.request ≠ none) : h.modeRequest who op k = h.modeResult op 2 := by
  have owns : ¬(who ≠ .crest ∧ who ≠ .secure) := by rcases owner with rfl | rfl <;> simp
  unfold Hw.modeRequest
  rw [if_neg owns, if_neg ordinary, if_pos (Option.isSome_iff_ne_none.mpr busy)]

theorem modeRequest_cancel_handover {j : Nat} (pending : h.crs.request = some (opHandover, j)) :
    h.modeRequest who opCancel k = h.endRequest 5 := by
  have owns : ¬(who ≠ .crest ∧ who ≠ .secure) := by rcases owner with rfl | rfl <;> simp
  unfold Hw.modeRequest
  rw [if_neg owns, if_pos rfl]
  simp only [pending]
  rfl

theorem modeRequest_cancel_join {j : Nat} (pending : h.crs.request = some (opJoin, j)) :
    h.modeRequest who opCancel k = (joinCancelled h j).endRequest 5 := by
  have owns : ¬(who ≠ .crest ∧ who ≠ .secure) := by rcases owner with rfl | rfl <;> simp
  unfold Hw.modeRequest
  rw [if_neg owns, if_pos rfl]
  simp only [pending]
  refine (if_neg (by decide)).trans ((if_pos trivial).trans ?_)
  rw [← pending]
  rfl

end

/-! ### The end of a request (R493, R495) -/

theorem crs_crestUpdateAborts (h : Hw) : h.crestUpdateAborts.crs = h.crs := by
  unfold Hw.crestUpdateAborts
  split <;> rfl

theorem reg_crestUpdateAborts (h : Hw) (a : Nat) : h.crestUpdateAborts.reg a = h.reg a := by
  unfold Hw.crestUpdateAborts
  split <;> rfl

/-- A result other than ACCEPTED. -/
theorem modeResult_spec (h : Hw) (op : Nat) {res : Nat} (ends : res ≠ 1) :
    (h.modeResult op res).crs = h.crs ∧ (h.modeResult op res).reg Reg.CRS_MODE_STAT = word (op * 16 + res) ∧
      ∀ a, a ≠ Reg.CRS_MODE_STAT → a ≠ Reg.CRS_IRQ_STAT → (h.modeResult op res).reg a = h.reg a := by
  have whole : h.modeResult op res = (h.setReg Reg.CRS_MODE_STAT (word (op * 16 + res))).setBit Reg.CRS_IRQ_STAT 4 := if_neg ends
  rw [whole]
  refine ⟨rfl, (reg_setBit_ne _ _ _ _ (by decide)).trans (reg_setReg_same _ _ _), fun a stat irq => ?_⟩
  rw [reg_setBit_ne _ _ _ _ irq, reg_setReg_ne _ _ _ _ stat]

/-- The cluster without its pending request. -/
def requestDropped (h : Hw) : Hw := (onCrs h fun c => { c with request := none, validated := false }).clearBit Reg.CRS_STAT 17

theorem crs_requestDropped (h : Hw) : (requestDropped h).crs = { h.crs with request := none, validated := false } := by
  rw [requestDropped, crs_clearBit, crs_onCrs]

theorem endRequest_eq {h : Hw} {op k : Nat} (pending : h.crs.request = some (op, k)) (res : Nat) :
    h.endRequest res =
      (let g := if op = opHandover then (requestDropped h).setReg Reg.CRS_READY 0 else requestDropped h
       (if op = opHandover ∧ res = 5 then g.crestUpdateAborts else g).modeResult op res) := by
  unfold Hw.endRequest
  simp only [pending]
  rfl

/-- A HANDOVER that ends ABORTED. -/
theorem endRequest_handover {h : Hw} {k : Nat} (pending : h.crs.request = some (opHandover, k)) :
    (h.endRequest 5).crs.request = none ∧ (h.endRequest 5).crs.validated = false ∧ (h.endRequest 5).reg Reg.CRS_READY = 0 ∧
      (h.endRequest 5).reg Reg.CRS_MODE_STAT = word (opHandover * 16 + 5) ∧ (h.endRequest 5).bit Reg.CRS_STAT 17 = false := by
  have whole : h.endRequest 5 = ((requestDropped h).setReg Reg.CRS_READY 0).crestUpdateAborts.modeResult opHandover 5 := by
    rw [endRequest_eq pending, if_pos rfl]
    exact congrArg (Hw.modeResult · opHandover 5) (if_pos ⟨rfl, rfl⟩)
  obtain ⟨crs, result, others⟩ := modeResult_spec ((requestDropped h).setReg Reg.CRS_READY 0).crestUpdateAborts opHandover (res := 5)
    (by decide)
  rw [whole, crs, crs_crestUpdateAborts, setReg_crs, crs_requestDropped, others _ (by decide) (by decide), reg_crestUpdateAborts,
    reg_setReg_same, bit_congr (others _ (by decide) (by decide)), bit_congr (reg_crestUpdateAborts _ _),
    bit_setReg_other _ (by decide)]
  exact ⟨rfl, rfl, rfl, result, bit_clearBit_same _ _ _ (by decide)⟩

/-- A request that is no HANDOVER ends. -/
theorem endRequest_other {h : Hw} {op k res : Nat} (pending : h.crs.request = some (op, k)) (other : op ≠ opHandover) (ends : res ≠ 1) :
    (h.endRequest res).crs = { h.crs with request := none, validated := false } ∧
      (h.endRequest res).reg Reg.CRS_MODE_STAT = word (op * 16 + res) := by
  have whole : h.endRequest res = (requestDropped h).modeResult op res := by
    rw [endRequest_eq pending]
    simp only [other, if_false, false_and]
  obtain ⟨crs, result, -⟩ := modeResult_spec (requestDropped h) op ends
  rw [whole]
  exact ⟨crs.trans (crs_requestDropped h), result⟩

theorem testing_joinCancelled (h : Hw) (j : Nat) : (joinCancelled h j).crs.testing ≠ some j := by
  unfold joinCancelled
  split
  · rw [crs_noteMode, crs_clearBit]
    exact fun e => nomatch (show none = some j from e)
  · assumption

theorem request_joinCancelled (h : Hw) (j : Nat) : (joinCancelled h j).crs.request = h.crs.request := by
  unfold joinCancelled
  split
  · rw [crs_noteMode, crs_clearBit]
    rfl
  · rfl

/-! ### Stops (R492, R497) -/

theorem crs_modeResult (h : Hw) (op res : Nat) : (h.modeResult op res).crs = h.crs := by
  unfold Hw.modeResult
  split <;> rfl

/-- Ending a request leaves the test as it was. -/
theorem testing_endRequest (h : Hw) (res : Nat) : (h.endRequest res).crs.testing = h.crs.testing := by
  cases pending : h.crs.request with
  | none => simp only [Hw.endRequest, pending]
  | some r =>
    have dropped : (requestDropped h).crs.testing = h.crs.testing := by rw [crs_requestDropped]
    rw [endRequest_eq (op := r.1) (k := r.2) pending]
    dsimp only
    rw [crs_modeResult]
    split
    · rw [crs_crestUpdateAborts]
      split
      · rw [setReg_crs, dropped]
      · exact dropped
    · split
      · rw [setReg_crs, dropped]
      · exact dropped

/-- The test of a core ends with the stop of its group, and the core is held. -/
def testStopped (h : Hw) : Hw :=
  match h.crs.testing with
  | some k => ((onCrs h fun c => { c with testing := none, held := some k }).clearBit Reg.CRS_STAT 18).holdCore k
  | none => h

theorem testing_testStopped (h : Hw) : (testStopped h).crs.testing = none := by
  unfold testStopped
  split
  · rfl
  · assumption

/-- A pending request other than RETIRE ends ABORTED with the stop. -/
def requestStopped (h : Hw) : Hw :=
  match h.crs.request with
  | some (op, _) => if op = opRetire then h else h.endRequest 5
  | none => h

theorem testing_requestStopped (h : Hw) : (requestStopped h).crs.testing = h.crs.testing := by
  unfold requestStopped
  split
  · split
    · rfl
    · exact testing_endRequest h 5
  · rfl

/-- The stop is noted, and the lapse is over. -/
def stopNoted (h : Hw) : Hw :=
  let stops := (h.poweredMs :: h.crs.stops).take 3
  onCrs h fun c => { c with
    stops := stops, off := stops.length = 3 && decide (h.poweredMs - stops.getLastD 0 < 60000), lapse := false }

theorem lapse_stopNoted (h : Hw) : (stopNoted h).crs.lapse = false := rfl
theorem testing_stopNoted (h : Hw) : (stopNoted h).crs.testing = h.crs.testing := rfl

/-- Core k of a group that stops: held in reset, and started again unless the group stays off. -/
def restartCore (off : Bool) (vec : Word) (h : Hw) (k : Fin 3) : Hw := if off then h.holdCore k else (h.holdCore k).startCore k vec

theorem crs_restartCores (off : Bool) (vec : Word) (l : List (Fin 3)) (h : Hw) : (l.foldl (restartCore off vec) h).crs = h.crs :=
  foldl_keeps Hw.crs (restartCore off vec) (fun _ _ => by unfold restartCore; split <;> rfl) _ _

theorem groupStop_eq (h : Hw) :
    h.groupStop =
      (let g := stopNoted (requestStopped (testStopped h))
       let r := g.duty.foldl (restartCore g.crs.off (g.reg Reg.CRS_RESTART_VEC)) g
       (((r.setBit Reg.CRS_STAT 19).newWindow.noteMode).count Reg.CRS_CNT_RESTART).setBit Reg.CRS_IRQ_STAT 3) := rfl

/-- A stop of the duty group ends a lapse and a test, shows RESTARTING and raises RESTART. -/
theorem groupStop_spec (h : Hw) :
    h.groupStop.crs.lapse = false ∧ h.groupStop.crs.testing = none ∧ h.groupStop.bit Reg.CRS_STAT 19 = true ∧
      h.groupStop.bit Reg.CRS_IRQ_STAT 3 = true := by
  rw [groupStop_eq]
  refine ⟨?_, ?_, ?_, bit_setBit_same _ _ _ (by decide)⟩
  · rw [crs_setBit, crs_count, crs_noteMode, lapse_newWindow, crs_setBit, crs_restartCores, lapse_stopNoted]
  · rw [crs_setBit, crs_count, crs_noteMode, testing_newWindow, crs_setBit, crs_restartCores, testing_stopNoted,
      testing_requestStopped, testing_testStopped]
  · rw [bit_setBit_other _ (by decide), bit_count_other _ (by decide), bit_noteMode _ (by decide), bit_congr (reg_newWindow _ _)]
    exact bit_setBit_same _ _ _ (by decide)

/-! ### The obligation -/

/-- Settles O36: the voter by the odd member, the window by `compareWindow_of_agree`, requests by `modeRequest_of_admitted`, their
ends by `endRequest_handover` and `endRequest_other`, a stop by `groupStop_spec`. -/
theorem crestVotesAndChangesItsMode : Obligations.CrestVotesAndChangesItsMode := by
  unfold Obligations.CrestVotesAndChangesItsMode
  refine ⟨?three, fun h a b x y differ => vote_of_pair h a b differ, ?window, ?noTest, ?testFailed, ?testPassed, ?detach, ?handover,
    ?join, ?retire, ?busy, ?cancelHandover, ?timeout, ?alive, ?lapse, ?lapseLimit, ?cancelJoin, ?handoverSolo, ?joinSolo,
    ?retireSolo⟩
  case three =>
    intro α _ h a b c x y
    refine ⟨vote_of_none (by simp [Hw.oddOf]), fun differ => ⟨?_, ?_, ?_⟩⟩
    · exact vote_of_odd (by simp [Hw.oddOf, differ])
    · exact vote_of_odd (by simp [Hw.oddOf, differ])
    · exact vote_of_odd (by simp [Hw.oddOf, differ.symm])
  case window =>
    intro s on running clear
    refine ends_of_next (next_onHw s (if_neg ?_)) ⟨rfl, fun single => ?_, fun single idle => ?_, fun group agree idle a duty => ?_⟩
    · rw [on, running]
      simpa [Hw.dutyHalted] using clear
    · rw [onHw_hw, compareWindow_of_single single]
      rfl
    · refine onHw_of_eq ((congrArg (fun r : Hw × Bool => if r.2 then r.1.carryOut else r.1) (compareWindow_of_single single)).trans ?_)
      exact carryOut_of_none idle
    · rw [onHw_hw, compareWindow_of_agree group agree]
      exact compared_spec idle duty
  case noTest =>
    intro pass s none_
    refine next_onHw s (g := id) ?_
    simp only [Hw.selftestDone, none_, id]
  case testFailed =>
    intro k s testing odd
    exact ends_of_next (next_onHw s (selftestDone_of_failed testing odd))
      ⟨rfl, testing_retireCore s.hw testing, fun k3 => retireCore_spec s.hw k3⟩
  case testPassed =>
    intro k s testing odd agree
    exact ends_of_next (next_onHw s (selftestDone_of_passed testing odd agree)) ⟨rfl, resyncCopy_spec _ k⟩
  case detach =>
    intro who k s may owner idle k3 mode duty group
    refine next_write may ((modeRequest_of_admitted owner (by decide) idle k3 ?_).trans (if_neg group))
    simp [modeAdmits, mode, duty]
  case handover =>
    intro who k s may owner idle k3 mode single ready group
    exact next_write may ((modeRequest_of_admitted owner (by decide) idle k3 (modeAdmits_handover mode single ready)).trans
      (if_neg group))
  case join =>
    intro who k s may owner idle k3 mode free sound untested group
    exact next_write may ((modeRequest_of_admitted owner (by decide) idle k3 (modeAdmits_join mode free sound untested)).trans
      (if_neg group))
  case retire =>
    intro who k s may owner idle k3 mode sound group
    refine next_write may ((modeRequest_of_admitted owner (by decide) idle k3 ?_).trans (if_neg group))
    simp [modeAdmits, mode, sound, group, opDetach, opHandover, opJoin, opRetire]
  case busy => exact fun who k s may owner busy => next_write may (modeRequest_of_busy owner (by decide) busy)
  case cancelHandover =>
    intro who k s may owner pending
    obtain ⟨request, validated, ready, result, stat⟩ := endRequest_handover pending
    exact ends_of_next (next_write may (modeRequest_cancel_handover owner pending))
      ⟨rfl, request, validated, ready, result, stat, rfl⟩
  case timeout =>
    intro k s pending
    refine ends_of_next (next_onHw s (if_pos ?_)) ⟨rfl, endRequest_handover pending⟩
    simp [pending]
  case alive => exact fun t s may => next_write may (if_neg (by decide))
  case lapse =>
    intro s on running clear off
    refine next_onHw s (if_neg ?_)
    simp [on, running, clear, off]
  case lapseLimit =>
    intro s lapse running
    refine ends_of_next (next_onHw s (if_pos ?_)) ⟨rfl, groupStop_spec s.hw⟩
    simp [lapse, running]
  case cancelJoin =>
    intro who j s may owner pending
    obtain ⟨crs, result⟩ := endRequest_other (res := 5) ((request_joinCancelled s.hw j).trans pending) (by decide) (by decide)
    refine ends_of_next (next_write may (modeRequest_cancel_join owner pending))
      ⟨rfl, congrArg Crest.request crs, result, ?_, rfl⟩
    exact (congrArg Crest.testing crs).trans_ne (testing_joinCancelled s.hw j)
  case handoverSolo =>
    intro who k s may owner idle k3 mode single ready solo
    exact next_write may ((modeRequest_of_admitted owner (by decide) idle k3 (modeAdmits_handover mode single ready)).trans
      (if_pos solo))
  case joinSolo =>
    intro who k s may owner idle k3 mode free sound untested solo
    exact next_write may ((modeRequest_of_admitted owner (by decide) idle k3 (modeAdmits_join mode free sound untested)).trans
      (if_pos solo))
  case retireSolo =>
    intro who k s may owner idle k3 mode sound free solo
    refine next_write may ((modeRequest_of_admitted owner (by decide) idle k3 ?_).trans (if_pos solo))
    simp [modeAdmits, mode, sound, free, opDetach, opHandover, opJoin, opRetire]

end Sys2Proof.Proofs
end

section
/-! PROOFS. A direct line rises only while its source has its power, which the statement of the load dies leaves out (O35). -/

namespace Sys2Proof.Proofs

open Sys2Proof.Machine Sys2Proof.Laws

/-- While VAO is off no direct line reads a high level (R469, R470). -/
theorem exec_directLineChange_of_aoOff (d : Fin 4) (l : Fin 8) (us : Nat) {s : State} (off : s.hw.aoOn = false) :
    exec (.directLineChange d l true us) s = .next s :=
  next_onHw s (g := id) (if_pos (by simp [off]))

/-- A device whose rails are down, while the supply of the loads still powers the dies. -/
def railsDown : State := { hw := { regs := [(Reg.PWR_RAIL_PG, 0)] } }

/-- Refutes O35, at its clause of a direct line that no channel follows: in `railsDown` line 0 of die 0 does not rise, where the
clause has it high. -/
theorem not_loadDiesAnswerAndProtectThemselves : ¬ Obligations.LoadDiesAnswerAndProtectThemselves := by
  unfold Obligations.LoadDiesAnswerAndProtectThemselves
  rintro ⟨-, -, -, -, -, -, -, -, -, -, -, -, -, lineChange, -⟩
  have off : railsDown.hw.aoOn = false := by decide
  have claimed := lineChange 0 0 true 5 railsDown (Nat.le_refl 5) (by decide)
  have same := Host.Outcome.next.inj ((exec_directLineChange_of_aoOff 0 0 5 off).symm.trans claimed)
  have lines : (railsDown.hw.die 0).lines = 1 := congrArg (fun t : State => (t.hw.die 0).lines) same
  revert lines
  decide

end Sys2Proof.Proofs
end

section
/-! PROOFS. Owners of units and the states of VM slots: what a request judged by R517 releases, and what STOPPING leaves (O38). -/

namespace Sys2Proof.Proofs

open Sys2Proof.Machine Sys2Proof.Laws

/-! ### The table of R517 -/

section
variable (h : Hw) (who : Who) {owner new dflt grant claim : Nat}

theorem hoVerdict_claim (codes : whoCode who ≠ 0) (claims : bitN claim (whoBit who) = true) (other : whoCode who ≠ owner) :
    h.hoVerdict who 2 owner new dflt grant claim = .go (whoCode who) := by
  simp [Hw.hoVerdict, codes, claims, other]

theorem hoVerdict_claim_denied (closed : bitN claim (whoBit who) = false) : h.hoVerdict who 2 owner new dflt grant claim = .refuse 2 := by
  simp [Hw.hoVerdict, closed]

theorem hoVerdict_denied {op : Nat} (noClaim : op ≠ 2) (foreign : mayRelease who owner = false) :
    h.hoVerdict who op owner new dflt grant claim = .refuse 2 := by
  simp [Hw.hoVerdict, noClaim, foreign]

theorem hoVerdict_badOwner (owns : mayRelease who owner = true) (closed : h.newOwnerOk grant new = false) :
    h.hoVerdict who 1 owner new dflt grant claim = .refuse 5 := by
  simp [Hw.hoVerdict, owns, closed]

theorem hoVerdict_release (owns : mayRelease who owner = true) (open_ : h.newOwnerOk grant new = true) (other : new ≠ owner) :
    h.hoVerdict who 1 owner new dflt grant claim = .go new := by
  simp [Hw.hoVerdict, owns, open_, other]

theorem hoVerdict_return (owns : mayRelease who owner = true) (other : dflt ≠ owner) :
    h.hoVerdict who 3 owner new dflt grant claim = .go dflt := by
  simp [Hw.hoVerdict, owns, other]

end

/-! ### A request and step 1 of a hand-over (R517, R518) -/

theorem unitSources_lt {u i : Nat} (among : i ∈ unitSources u) : i < 0x200 := by
  unfold unitSources at among
  split at among
  · obtain ⟨k, k4, rfl⟩ := List.mem_map.mp among
    have := List.mem_range.mp k4
    omega
  · split at among
    · obtain ⟨k, k4, rfl⟩ := List.mem_map.mp among
      have := List.mem_range.mp k4
      omega
    · split at among
      · simp at among; omega
      · split at among
        · simp at among; omega
        · split at among
          · simp at among; omega
          · simp at among

/-- The sources of a unit with EN clear. -/
def sourcesOff (h : Hw) (u : Nat) : Hw := (unitSources u).foldl (fun h i => h.clearBit (Reg.IRQ_SRC i) 0) h

theorem reg_sourcesOff (h : Hw) (u : Nat) {a : Nat} (apart : ∀ i < 0x200, a ≠ Reg.IRQ_SRC i) : (sourcesOff h u).reg a = h.reg a :=
  List.foldlRecOn (unitSources u) _ (motive := fun g => g.reg a = h.reg a) rfl fun g kept i among =>
    (reg_clearBit_ne g (Reg.IRQ_SRC i) a 0 (apart i (unitSources_lt among))).trans kept

theorem hoRelease_unit (h : Hw) (x : Handover) (unit : x.source = false) :
    h.hoRelease x =
      sourcesOff ((({ h with handovers := h.handovers ++ [x] } : Hw).setFld (Reg.WLD_UNIT_OWN x.id) Fld.WLD_UNIT_OWN_OWNER 0).setFld
        (Reg.WLD_UNIT_OWN x.id) Fld.WLD_UNIT_OWN_STATE 1) x.id := if_neg (by simp [unit])

theorem hoRelease_source (h : Hw) (x : Handover) (source : x.source = true) :
    h.hoRelease x =
      (({ h with handovers := h.handovers ++ [x] } : Hw).setFld (Reg.IRQ_SRC x.id) Fld.IRQ_SRC_OWNER 0).clearBit (Reg.IRQ_SRC x.id) 0 :=
  if_pos source

theorem handovers_hoRelease (h : Hw) (x : Handover) : (h.hoRelease x).handovers = h.handovers ++ [x] := by
  cases source : x.source with
  | true => rw [hoRelease_source h x source]; rfl
  | false =>
    rw [hoRelease_unit h x source]
    exact foldl_keeps Hw.handovers (fun h i => h.clearBit (Reg.IRQ_SRC i) 0) (fun _ _ => rfl) _ _

theorem inHandover_hoRelease (h : Hw) (x : Handover) : (h.hoRelease x).inHandover x.source x.id = true := by
  simp [Hw.inHandover, handovers_hoRelease]

/-- A released unit has no owner and is being handed over. -/
theorem hoRelease_unit_spec (h : Hw) (x : Handover) (unit : x.source = false) (known : x.id < 0x100000) :
    (h.hoRelease x).fld (Reg.WLD_UNIT_OWN x.id) Fld.WLD_UNIT_OWN_OWNER = 0 ∧
      (h.hoRelease x).fld (Reg.WLD_UNIT_OWN x.id) Fld.WLD_UNIT_OWN_STATE = 1 := by
  have apart : ∀ i < 0x200, Reg.WLD_UNIT_OWN x.id ≠ Reg.IRQ_SRC i := by
    unfold Reg.WLD_UNIT_OWN Reg.IRQ_SRC
    omega
  rw [hoRelease_unit h x unit, fld_congr (reg_sourcesOff _ _ apart), fld_congr (reg_sourcesOff _ _ apart)]
  refine ⟨?_, fld_setFld_same _ _ _ _ (by decide)⟩
  rw [fld_setFld_apart _ _ _ _ _ (by decide) (by decide)]
  exact fld_setFld_same _ _ _ _ (by decide)

/-- A released source has no owner and EN clear. -/
theorem hoRelease_source_spec (h : Hw) (x : Handover) (source : x.source = true) :
    (h.hoRelease x).fld (Reg.IRQ_SRC x.id) Fld.IRQ_SRC_OWNER = 0 ∧ (h.hoRelease x).bit (Reg.IRQ_SRC x.id) 0 = false := by
  rw [hoRelease_source h x source]
  refine ⟨?_, bit_clearBit_same _ _ _ (by decide)⟩
  exact (fld_setFld_apart _ _ ⟨0, 0⟩ _ _ (by decide) (by decide)).trans (fld_setFld_same _ _ _ _ (by decide))

/-- What R529 lets a request name: a unit, or a source of no unit. -/
def Nameable (source : Bool) (id : Nat) : Prop :=
  id < 1024 ∧ (if source then id < 0x1F8 ∨ 0x200 ≤ id else isUnit id = true) ∧ (source = true → sourceOfUnit id = false)

/-- A request that is accepted, with its answer in WLD_HO_STAT. -/
def hoAccepted (h : Hw) (who : Who) (op : Nat) (source : Bool) (id owner new : Nat) : Hw :=
  (h.hoRelease { source := source, id := id, old := owner, new := new, op := op, who := whoBit who }).setHoStat (whoBit who) new
    (b2n source) 1 id

theorem hoRequest_of_nameable (h : Hw) (who : Who) (op new : Nat) {source : Bool} {id : Nat} (named : Nameable source id) :
    h.hoRequest who op source id new =
      if h.inHandover source id then h.setHoStat (whoBit who) new (b2n source) 4 id
      else match h.hoVerdict who op (h.hoAuth source id).1 new (h.hoAuth source id).2.1 (h.hoAuth source id).2.2.1
          (h.hoAuth source id).2.2.2 with
        | .refuse r => h.setHoStat (whoBit who) new (b2n source) r id
        | .same => h.setHoStat (whoBit who) (h.hoAuth source id).1 (b2n source) 0 id
        | .go n => hoAccepted h who op source id (h.hoAuth source id).1 n := by
  obtain ⟨low, known, lone⟩ := named
  refine if_neg ?_
  cases source with
  | true =>
    rw [if_pos rfl] at known
    simp [lone rfl, low]
    omega
  | false =>
    rw [if_neg (by decide)] at known
    simp [known]

theorem hoRequest_of_go {h : Hw} {who : Who} {op new : Nat} {source : Bool} {id owner dflt grant claim n : Nat}
    (named : Nameable source id) (free : h.inHandover source id = false) (auth : h.hoAuth source id = (owner, dflt, grant, claim))
    (goes : h.hoVerdict who op owner new dflt grant claim = .go n) :
    h.hoRequest who op source id new = hoAccepted h who op source id owner n := by
  rw [hoRequest_of_nameable h who op new named, free, auth]
  simp only [goes, Bool.false_eq_true, if_false]

/-- The answer words change neither the hand-overs in progress nor a register. -/
theorem hoStat_spec (h : Hw) (t : Tab Word) :
    (∀ source i, ({ h with hoStat := t } : Hw).inHandover source i = h.inHandover source i) ∧
      (∀ a f, ({ h with hoStat := t } : Hw).fld a f = h.fld a f) ∧ ∀ a i, ({ h with hoStat := t } : Hw).bit a i = h.bit a i :=
  ⟨fun _ _ => rfl, fun _ _ => rfl, fun _ _ => rfl⟩

theorem setHoStat_spec (h : Hw) (b new kind res id : Nat) :
    (∀ source i, (h.setHoStat b new kind res id).inHandover source i = h.inHandover source i) ∧
      (∀ a f, (h.setHoStat b new kind res id).fld a f = h.fld a f) ∧ ∀ a i, (h.setHoStat b new kind res id).bit a i = h.bit a i :=
  hoStat_spec h _

theorem busOk_spec (h : Hw) (v : Word) :
    (∀ source i, (h.busOk v).inHandover source i = h.inHandover source i) ∧ (h.busOk v).busErr = false ∧
      (∀ a f, (h.busOk v).fld a f = h.fld a f) ∧ ∀ a i, (h.busOk v).bit a i = h.bit a i :=
  ⟨fun _ _ => rfl, rfl, fun _ _ => rfl, fun _ _ => rfl⟩

/-- What an accepted request leaves: the hand-over in progress, and the unit or the source released. -/
theorem hoAccepted_spec (h : Hw) (who : Who) (op : Nat) {source : Bool} {id : Nat} (known : id < 0x100000) (owner new : Nat) :
    (hoAccepted h who op source id owner new).inHandover source id = true ∧
      (source = false → (hoAccepted h who op source id owner new).fld (Reg.WLD_UNIT_OWN id) Fld.WLD_UNIT_OWN_OWNER = 0 ∧
        (hoAccepted h who op source id owner new).fld (Reg.WLD_UNIT_OWN id) Fld.WLD_UNIT_OWN_STATE = 1) ∧
      (source = true → (hoAccepted h who op source id owner new).fld (Reg.IRQ_SRC id) Fld.IRQ_SRC_OWNER = 0 ∧
        (hoAccepted h who op source id owner new).bit (Reg.IRQ_SRC id) 0 = false) := by
  obtain ⟨handed, fields, bits⟩ := setHoStat_spec
    (h.hoRelease { source := source, id := id, old := owner, new := new, op := op, who := whoBit who }) (whoBit who) new (b2n source) 1 id
  simp only [hoAccepted, handed, fields, bits]
  exact ⟨inHandover_hoRelease h _, fun unit => hoRelease_unit_spec h _ unit known, fun lone => hoRelease_source_spec h _ lone⟩

/-! ### What STOPPING leaves of the slots and of LC (R514, R515, R549) -/

/-- The VM slots and LC. -/
def vmView (h : Hw) : Tab VmSlot × Nat := (h.vms, h.lc)

@[simp] theorem vmView_setReg (h : Hw) (a : Nat) (v : Word) : vmView (h.setReg a v) = vmView h := rfl
@[simp] theorem vmView_setChan (h : Hw) (n : Nat) (c : Channel) : vmView (h.setChan n c) = vmView h := rfl
@[simp] theorem vmView_setInst (h : Hw) (i : Nat) (f : FabInst) : vmView (h.setInst i f) = vmView h := rfl
@[simp] theorem vmView_setFld (h : Hw) (a : Nat) (f : BitField) (v : Nat) : vmView (h.setFld a f v) = vmView h := vmView_setReg h a _
@[simp] theorem vmView_clearBit (h : Hw) (a i : Nat) : vmView (h.clearBit a i) = vmView h := vmView_setReg h a _
@[simp] theorem vmView_handovers (h : Hw) (l : List Handover) : vmView { h with handovers := l } = vmView h := rfl
@[simp] theorem vmView_hoStat (h : Hw) (t : Tab Word) : vmView { h with hoStat := t } = vmView h := rfl

@[simp] theorem vmView_countFld (h : Hw) (a : Nat) (f : BitField) : vmView (h.countFld a f) = vmView h := by
  unfold Hw.countFld
  split
  · exact vmView_setFld _ _ _ _
  · rfl

@[simp] theorem vmView_count (h : Hw) (a : Nat) : vmView (h.count a) = vmView h := vmView_countFld h a _
@[simp] theorem vmView_setHoStat (h : Hw) (bit new kind res id : Nat) : vmView (h.setHoStat bit new kind res id) = vmView h :=
  vmView_hoStat h _
@[simp] theorem vmView_zeroRam (h : Hw) (a n : Nat) : vmView (h.zeroRam a n) = vmView h := rfl
@[simp] theorem vmView_onKop (h : Hw) (f : Kop → Kop) : vmView (h.onKop f) = vmView h := rfl

@[simp] theorem vmView_mbxComplete (h : Hw) (n seq code : Nat) : vmView (h.mbxComplete n seq code) = vmView h := by
  unfold Hw.mbxComplete
  dsimp only
  split
  · exact vmView_count _ _
  · rfl

@[simp] theorem vmView_mbxAckHead (h : Hw) (n code : Nat) : vmView (h.mbxAckHead n code) = vmView h := by
  unfold Hw.mbxAckHead
  dsimp only
  split
  · rfl
  · exact vmView_mbxComplete _ _ _ _

@[simp] theorem vmView_mbxAckAll (h : Hw) (n code : Nat) : vmView (h.mbxAckAll n code) = vmView h :=
  foldl_keeps vmView (fun h _ => h.mbxAckHead n code) (fun h _ => vmView_mbxAckHead h n code) _ _

@[simp] theorem vmView_fiQuiesceNow (h : Hw) (i : Nat) : vmView (h.fiQuiesceNow i) = vmView h := by
  unfold Hw.fiQuiesceNow
  dsimp only
  split
  · rfl
  · exact vmView_mbxAckAll _ _ _

@[simp] theorem vmView_channelReset (h : Hw) (n : Nat) : vmView (h.channelReset n) = vmView h :=
  (vmView_setReg _ _ _).trans (vmView_setChan _ _ _)

@[simp] theorem vmView_fiResetNow (h : Hw) (i : Nat) (after : FiState) : vmView (h.fiResetNow i after) = vmView h := by
  have zeroed (g : Hw) (r : Nat) :
      vmView (if g.fabOn && g.islandOn r then g.zeroRam (grantBase r (h.inst i).rgOfs) (h.inst i).rgSize else g) = vmView g := by
    split
    · exact vmView_zeroRam _ _ _
    · rfl
  unfold Hw.fiResetNow
  rw [vmView_channelReset, vmView_setInst]
  exact foldl_keeps vmView _ zeroed _ _

@[simp] theorem vmView_fiRemoveNow (h : Hw) (i : Nat) : vmView (h.fiRemoveNow i) = vmView h :=
  (vmView_setChan _ _ _).trans (vmView_fiResetNow _ _ _)

@[simp] theorem vmView_hoRelease (h : Hw) (x : Handover) : vmView (h.hoRelease x) = vmView h := by
  cases source : x.source with
  | true => rw [hoRelease_source h x source, vmView_clearBit, vmView_setFld, vmView_handovers]
  | false =>
    have off (g : Hw) (u : Nat) : vmView (sourcesOff g u) = vmView g :=
      foldl_keeps vmView (fun h i => h.clearBit (Reg.IRQ_SRC i) 0) (fun _ _ => vmView_clearBit _ _ _) _ _
    rw [hoRelease_unit h x source, off, vmView_setFld, vmView_setFld, vmView_handovers]

@[simp] theorem vmView_hoRequest (h : Hw) (who : Who) (op : Nat) (source : Bool) (id new : Nat) :
    vmView (h.hoRequest who op source id new) = vmView h := by
  have keeps (g : Hw) (b new kind res : Nat) (kept : vmView g = vmView h) : vmView (g.setHoStat b new kind res id) = vmView h :=
    (vmView_setHoStat g b new kind res id).trans kept
  unfold Hw.hoRequest
  extract_lets kind bad
  split_ifs
  · exact keeps h _ _ _ _ rfl
  · exact keeps h _ _ _ _ rfl
  · dsimp only
    split
    · exact keeps h _ _ _ _ rfl
    · exact keeps h _ _ _ _ rfl
    · exact keeps _ _ _ _ _ (vmView_hoRelease h _)

@[simp] theorem vmView_returnAll (h : Hw) (owner : Nat) : vmView (h.returnAll owner) = vmView h :=
  (foldl_keeps vmView (fun (h : Hw) i => h.hoRequest .secure 3 true i 0) (fun _ _ => vmView_hoRequest _ _ _ _ _ _) _ _).trans
    (foldl_keeps vmView (fun (h : Hw) u => h.hoRequest .secure 3 false u 0) (fun _ _ => vmView_hoRequest _ _ _ _ _ _) _ _)

@[simp] theorem vmView_closeSession (h : Hw) (x : Session) (reason : Nat) (notice : Bool) :
    vmView (h.closeSession x reason notice) = vmView h := by
  unfold Hw.closeSession
  dsimp only
  split <;> rfl

@[simp] theorem vmView_pathEnds (h : Hw) (path : Nat) (notice : Bool) : vmView (h.pathEnds path notice) = vmView h :=
  foldl_keeps vmView (fun (h : Hw) x => h.closeSession x 4 notice) (fun h x => vmView_closeSession h x 4 notice) _ _

theorem vmSlot_congr {h g : Hw} (same : vmView h = vmView g) (v : Nat) : h.vmSlot v = g.vmSlot v :=
  congrArg (fun t => Tabs.get (fun _ => ({} : VmSlot)) t v) (Prod.mk.inj same).1

@[simp] theorem vmSlot_setVmSlot_same (h : Hw) (v : Nat) (x : VmSlot) : (h.setVmSlot v x).vmSlot v = x := by
  simp [Hw.vmSlot, Hw.setVmSlot]

theorem vmView_vmStopping (h : Hw) (v : Nat) :
    vmView (h.vmStopping v) = vmView (h.setVmSlot v { h.vmSlot v with state := .stopping }) := by
  have quiesced (l : List Nat) (g : Hw) :
      vmView (l.foldl (fun (h : Hw) i => if (h.inst i).state = .idle ∨ (h.inst i).state = .busy then h.fiQuiesceNow i else h) g) =
        vmView g := by
    refine foldl_keeps vmView _ (fun h i => ?_) l g
    split
    · exact vmView_fiQuiesceNow h i
    · rfl
  unfold Hw.vmStopping
  dsimp only
  split
  · rw [vmView_hoRequest, vmView_pathEnds, vmView_returnAll, quiesced]
  · rw [vmView_returnAll, quiesced]

/-- A slot that enters STOPPING keeps what it holds, and LC stays. -/
theorem vmStopping_spec (h : Hw) (v : Nat) :
    (h.vmStopping v).vmSlot v = { h.vmSlot v with state := .stopping } ∧ (h.vmStopping v).lc = h.lc :=
  ⟨(vmSlot_congr (vmView_vmStopping h v) v).trans (vmSlot_setVmSlot_same _ _ _), (Prod.mk.inj (vmView_vmStopping h v)).2⟩

/-! ### The end of STOPPING (R514) -/

theorem get_clear_within {α : Type} (d : Nat → α) (t : Tab α) {lo hi k : Nat} (low : lo ≤ k) (high : k ≤ hi) :
    Tabs.get d (Tabs.clear t lo hi) k = d k := by
  induction t with
  | nil => rfl
  | cons e t ih =>
    obtain ⟨j, v⟩ := e
    unfold Tabs.clear at ih ⊢
    rw [List.filter_cons]
    split
    · rename_i kept
      have other : k ≠ j := by
        rintro rfl
        simp at kept
        omega
      simpa only [Tabs.get, if_neg other] using ih
    · exact ih

theorem get_sets_within {α : Type} [DecidableEq α] (d : Nat → α) (t : Tab α) (c : α) (a : Nat) {n i : Nat} (within : i < n) :
    Tabs.get d ((List.range n).foldl (fun t j => Tabs.set d t (a + j) c) t) (a + i) = c := by
  induction n with
  | zero => exact absurd within (Nat.not_lt_zero i)
  | succ n ih =>
    rw [List.range_succ, List.foldl_append]
    by_cases last : i = n
    · subst last
      exact get_set_same _ _ _ _
    · exact (get_set_ne _ _ _ _ _ (by omega)).trans (ih (by omega))

/-- A range written with 0 reads 0. -/
theorem ram_zeroRam (h : Hw) (a : Nat) {n i : Nat} (within : i < n) : ((h.zeroRam a n).ram (a + i)).data = 0 := by
  show (Tabs.get Hw.blankRam (if h.tagNow = 0 then _ else _) (a + i)).data = 0
  split
  · rw [get_clear_within _ _ (by omega) (by omega)]
    rfl
  · rw [get_sets_within _ _ _ _ within]

/-- A cleared slot: EMPTY, or STARTING for VM0, with its pool written with 0. -/
theorem vmCleared_spec (h : Hw) (v : Nat) :
    ((h.vmCleared v).vmSlot v).state = (if v = 0 then .starting else .empty) ∧
      ∀ i, i < (h.vmSlot v).poolSize → ((h.vmCleared v).ram ((h.vmSlot v).poolBase + i)).data = 0 := by
  have removed : vmView ((h.instancesOf v).foldl (fun (h : Hw) i => h.fiRemoveNow i) h) = vmView h :=
    foldl_keeps vmView _ (fun h i => vmView_fiRemoveNow h i) _ _
  have slot := vmSlot_congr removed v
  unfold Hw.vmCleared
  dsimp only
  rw [vmSlot_setVmSlot_same, slot]
  exact ⟨rfl, fun i within => ram_zeroRam _ _ within⟩

/-! ### START, and the first write (R514) -/

theorem vmStart_of_empty {s : State} {v : Nat} (state : (s.hw.vmSlot v).state ≠ .empty) :
    s.vmStart v = s.onHw fun h => h.answer stState := if_pos (by simp [state])

theorem vmStart_vm0 {s : State} (declared : (s.hw.vmSlot 0).declared = true) (empty : (s.hw.vmSlot 0).state = .empty)
    (on : s.hw.sysOn = true) :
    s.vmStart 0 = s.onHw fun h => (h.setVmSlot 0 { s.hw.vmSlot 0 with state := .starting }).answer stOk :=
  (if_neg (by simp [declared, empty, on])).trans (if_pos rfl)

/-- START of a tenant whose STAGING image does not serve: from its ACTIVE one if that is good. -/
theorem vmStart_tenant {s : State} {v : Nat} (tenant : v ≠ 0) (declared : (s.hw.vmSlot v).declared = true)
    (empty : (s.hw.vmSlot v).state = .empty) (on : s.hw.sysOn = true) (noStaged : s.tenantGood (s.partImage norStaging 4 v) v = false) :
    s.vmStart v =
      if s.tenantGood (s.partImage norActive 4 v) v then
        (s.onHw fun h => { h with upd := { h.upd with
          inForce := Tabs.set (fun _ => (0 : Nat)) h.upd.inForce (16 + v) (norActive + (partOf 4 v).1 + 1) } }).onHw fun h =>
            (h.setVmSlot v { s.hw.vmSlot v with state := .starting }).answer stOk
      else s.onHw fun h => h.answer stState :=
  (if_neg (by simp [declared, empty, on])).trans ((if_neg tenant).trans (if_neg (by simp [noStaged])))

theorem vmFirstWrite_of_starting {h : Hw} {v : Fin 16} (starting : (h.vmSlot v).state = .starting) :
    h.vmFirstWrite (.vm v) (h.vmSlot v).worldChannel =
      if v.val = 0 then (h.setVmSlot v { h.vmSlot v with state := .running }).pathEnds 1 true
      else h.setVmSlot v { h.vmSlot v with state := .running } := by
  simp [Hw.vmFirstWrite, starting]

/-! ### The obligation -/

section
variable {who : Who} {source : Bool} {id n owner dflt grant claim new : Nat} {s : State}

/-- A write of WLD_HO_REQ whose request is accepted. -/
theorem ends_of_accepted {i : Instr} {op : Nat} (may : s.hw.MayWrite who Reg.WLD_HO_REQ) (named : Nameable source id)
    (free : s.hw.inHandover source id = false) (auth : s.hw.hoAuth source id = (owner, dflt, grant, claim))
    (goes : s.hw.hoVerdict who op owner new dflt grant claim = .go n)
    (writes : exec i s = .next (s.onHw fun h => h.guarded who Reg.WLD_HO_REQ fun h => h.hoRequest who op source id new)) :
    Ends i s fun t =>
      t = (s.onHw fun h => (hoAccepted h who op source id owner n).busOk 0) ∧ t.hw.inHandover source id = true ∧ t.hw.busErr = false ∧
      (source = false → t.hw.fld (Reg.WLD_UNIT_OWN id) Fld.WLD_UNIT_OWN_OWNER = 0 ∧
        t.hw.fld (Reg.WLD_UNIT_OWN id) Fld.WLD_UNIT_OWN_STATE = 1) ∧
      (source = true → t.hw.fld (Reg.IRQ_SRC id) Fld.IRQ_SRC_OWNER = 0 ∧ t.hw.bit (Reg.IRQ_SRC id) 0 = false) := by
  obtain ⟨handed, unit, lone⟩ := hoAccepted_spec s.hw who op (source := source) (id := id) (by have := named.1; omega) owner n
  refine ends_of_next (writes.trans (next_write may (hoRequest_of_go named free auth goes))) ⟨rfl, ?_⟩
  obtain ⟨inProgress, ok, fields, bits⟩ := busOk_spec (hoAccepted s.hw who op source id owner n) 0
  rw [onHw_hw, inProgress, fields, fields, fields, bits]
  exact ⟨handed, ok, unit, lone⟩

end

/-- Settles O38: hand-overs by the table of R517 and `ends_of_accepted`, STOPPING by `vmStopping_spec`, its end by `vmCleared_spec`. -/
theorem unitsChangeOwnersAndVmsChangeState : Obligations.UnitsChangeOwnersAndVmsChangeState := by
  unfold Obligations.UnitsChangeOwnersAndVmsChangeState
  refine ⟨?table, ?release, ?claim, ?return_, ?busy, ?startVm0, ?startForeign, ?startAgain, ?stop, ?fault, ?firstWrite, ?timeout,
    ?stopped, ?hp0, ?startTenant⟩
  case table =>
    exact fun h who owner new dflt grant claim =>
      ⟨fun codes claims other => hoVerdict_claim h who codes claims other, fun closed => hoVerdict_claim_denied h who closed,
        fun foreign => ⟨hoVerdict_denied h who (by decide) foreign, hoVerdict_denied h who (by decide) foreign⟩,
        fun owns closed => hoVerdict_badOwner h who owns closed, fun owns open_ other => hoVerdict_release h who owns open_ other,
        fun owns other => hoVerdict_return h who owns other⟩
  case release =>
    intro who source id new owner dflt grant claim n s may low known lone free auth byte goes
    refine ends_of_accepted may ⟨low, known, lone⟩ free auth goes ?_
    show Host.Outcome.next (s.onHw fun h => h.guarded who Reg.WLD_HO_REQ fun h => h.hoRequest who 1 source (id % 1024) (new % 256)) = _
    rw [Nat.mod_eq_of_lt low, Nat.mod_eq_of_lt byte]
  case claim =>
    intro who source id owner dflt grant claim n s may low known lone free auth goes
    refine ends_of_accepted may ⟨low, known, lone⟩ free auth goes ?_
    show Host.Outcome.next (s.onHw fun h => h.guarded who Reg.WLD_HO_REQ fun h => h.hoRequest who 2 source (id % 1024) (whoCode who)) = _
    rw [Nat.mod_eq_of_lt low]
  case return_ =>
    intro who source id owner dflt grant claim n s may low known lone free auth goes
    refine ends_of_accepted may ⟨low, known, lone⟩ free auth goes ?_
    show Host.Outcome.next (s.onHw fun h => h.guarded who Reg.WLD_HO_REQ fun h => h.hoRequest who 3 source (id % 1024) 0) = _
    rw [Nat.mod_eq_of_lt low]
  case busy =>
    intro who source id s may low unit noSource busy
    subst noSource
    refine next_write may ?_
    rw [Nat.mod_eq_of_lt low, hoRequest_of_nameable _ _ _ _ (source := false) ⟨low, unit, Bool.noConfusion⟩, if_pos busy]
    rfl
  case startVm0 => exact fun s declared empty on => congrArg Host.Outcome.next (vmStart_vm0 declared empty on)
  case startForeign => exact fun who v s foreign => congrArg Host.Outcome.next (if_neg (by simp [foreign]))
  case startAgain =>
    exact fun who v s commander state => congrArg Host.Outcome.next ((if_pos commander).trans (vmStart_of_empty state))
  case stop =>
    intro who v s commander running
    obtain ⟨slot, lc⟩ := vmStopping_spec s.hw v
    refine ends_of_next (next_onHw s ((if_neg ?_).trans (if_pos running))) ⟨rfl, congrArg VmSlot.state slot, lc⟩
    simp [commander]
  case fault =>
    intro v s running
    obtain ⟨slot, -⟩ := vmStopping_spec
      (s.hw.setVmSlot v { s.hw.vmSlot v with faults := min ((s.hw.vmSlot v).faults + 1) (2 ^ 40 - 1) }) v
    rw [vmSlot_setVmSlot_same] at slot
    exact ends_of_next (next_onHw s (if_pos running)) ⟨rfl, congrArg VmSlot.state slot, congrArg VmSlot.faults slot⟩
  case firstWrite => exact fun v s starting => next_onHw s (vmFirstWrite_of_starting starting)
  case timeout =>
    intro v s starting
    obtain ⟨slot, -⟩ := vmStopping_spec (s.hw.setVmSlot v { s.hw.vmSlot v with state := .failed }) v
    exact ends_of_next (next_onHw s (if_pos starting)) ⟨rfl, congrArg VmSlot.state slot⟩
  case stopped =>
    intro v s stopping drained
    exact ends_of_next (next_onHw s (if_pos (by simp [stopping, drained]))) ⟨rfl, vmCleared_spec s.hw v⟩
  case hp0 =>
    intro s running
    refine ends_of_next (next_onHw s (if_pos running)) ⟨rfl, fun owner dflt grant claim free auth owns other => ?_⟩
    have accepted := hoRequest_of_go (source := false) (id := 40) ⟨by decide, rfl, Bool.noConfusion⟩ free auth
      (hoVerdict_return s.hw .crest (new := 0) (grant := grant) (claim := claim) owns other)
    obtain ⟨handed, unit, -⟩ := hoAccepted_spec s.hw .crest 3 (source := false) (id := 40) (by decide) owner dflt
    rw [onHw_hw, accepted]
    exact ⟨handed, (unit rfl).1⟩
  case startTenant =>
    intro who v s commander tenant declared empty on noStaged
    refine ends_of_next (congrArg Host.Outcome.next ((if_pos commander).trans (vmStart_tenant tenant declared empty on noStaged)))
      ⟨fun good => ?_, fun bad => ?_⟩
    · rw [if_pos good]
      exact ⟨congrArg VmSlot.state (vmSlot_setVmSlot_same _ v.val { s.hw.vmSlot v with state := .starting }), rfl,
        get_set_same (fun _ => (0 : Nat)) s.hw.upd.inForce (16 + v) (norActive + (partOf 4 v).1 + 1)⟩
    · rw [if_neg (by simp [bad])]
      exact ⟨empty, rfl⟩

end Sys2Proof.Proofs
end

section
/-! PROOFS. The fourth candidate confirms a jump and puts an EPOCH record into the journal, which the statement of the time unit
leaves out (O43). -/

namespace Sys2Proof.Proofs

open Sys2Proof.Machine Sys2Proof.Laws

/-- A device at Full whose journal runs and whose servo is on, without network time, with three candidates 0 held (R598). -/
def threeCandidates : State :=
  { hw :=
      { regs := [(Reg.PWR_STATE, 0x300), (Reg.PWR_RAIL_PG, 0x1FF), (Reg.TIME_CTRL, 1), (Reg.DMC_STAT, 1)]
        tu := { cands := [0, 0, 0] } } }

/-- The sample 0 is the fourth candidate: the header of an EPOCH record of eight words stands in the DRAM (R380, R592). -/
theorem sample_threeCandidates_records :
    ((((threeCandidates.hw.setReg Reg.TIME_MEAS_LO 0).sample 0).busOk 0).ram dramBase).data = Hw.recordHeader 0x12 8 0 0 0 0 0 := by
  decide +kernel

/-- Refutes O43, at its clause of a sample: in `threeCandidates` the sample 0 writes the memory, which the clause leaves as it was. -/
theorem not_theTimeUnitCapturesPulsesAndKeepsTheCalendar : ¬ Obligations.TheTimeUnitCapturesPulsesAndKeepsTheCalendar := by
  unfold Obligations.TheTimeUnitCapturesPulsesAndKeepsTheCalendar
  rintro ⟨-, -, -, sampled, -⟩
  obtain ⟨t, -, sample, -, -, -, sameMemory, -⟩ := sampled .crest 0 0 threeCandidates ⟨by decide, by decide⟩ (by decide)
  have blank : (t.hw.ram dramBase).data = 0 := congrArg (fun m => (Tabs.get Hw.blankRam m dramBase).data) sameMemory
  rw [sample, onHw_hw, sample_threeCandidates_records] at blank
  exact absurd blank (by decide)

end Sys2Proof.Proofs
end

section
/-! PROOFS. Kollos sessions: what the server keeps of handshakes, sessions and messages sent, and the messages that open, serve and
close a session (O44). -/

namespace Sys2Proof.Proofs

open Sys2Proof.Machine Sys2Proof.Laws

/-! ### What the operations of the server leave (R629, R635) -/

section
variable (h : Hw)

@[simp] theorem hands_kopCount (i : Nat) : (h.kopCount i).kop.hands = h.kop.hands := rfl
@[simp] theorem sessions_kopCount (i : Nat) : (h.kopCount i).kop.sessions = h.kop.sessions := rfl
@[simp] theorem out_kopCount (i : Nat) : (h.kopCount i).out = h.out := rfl
@[simp] theorem lc_kopCount (i : Nat) : (h.kopCount i).lc = h.lc := rfl

@[simp] theorem kop_kopError (src id status reason : Nat) : (h.kopError src id status reason).kop = h.kop := rfl
@[simp] theorem lc_kopError (src id status reason : Nat) : (h.kopError src id status reason).lc = h.lc := rfl

/-- A refused handshake: an ERROR is sent and the refusal counted. -/
theorem refuseHand_spec (src id status reason : Nat) :
    (h.refuseHand src id status reason).kop.hands = h.kop.hands ∧ (h.refuseHand src id status reason).kop.sessions = h.kop.sessions ∧
      (h.refuseHand src id status reason).out.length = h.out.length + 1 ∧ (h.refuseHand src id status reason).lc = h.lc := by
  simp only [Hw.refuseHand, hands_kopCount, sessions_kopCount, out_kopCount, lc_kopCount, kop_kopError, lc_kopError, true_and, and_true]
  rfl

/-- A closed session is gone; a due NOTICE is sent; handshakes stay. -/
theorem closeSession_spec (x : Session) (reason : Nat) (notice : Bool) :
    (h.closeSession x reason notice).kop.sessions = h.kop.sessions.filter (fun y => y.id ≠ x.id) ∧
      (h.closeSession x reason notice).kop.hands = h.kop.hands ∧ (h.closeSession x reason notice).lc = h.lc ∧
      (notice = true → (h.closeSession x reason notice).out =
        (.client x.src, kopSeal x.keys.dc 3 mtNotice x.id (x.notices + 1) [byte reason]) :: h.out) := by
  cases notice
  · exact ⟨rfl, rfl, rfl, Bool.noConfusion⟩
  · exact ⟨rfl, rfl, rfl, fun _ => rfl⟩

/-- What the admission of a session keeps: the handshakes and LC. -/
def handView : List Handshake × Nat := (h.kop.hands, h.lc)

theorem handView_takeEntry (path : Nat) : handView (h.takeEntry path).2 = handView h := by
  unfold Hw.takeEntry
  split
  · rfl
  · split
    · obtain ⟨-, hands, lc, -⟩ := closeSession_spec h ‹Session› 2 true
      exact Prod.ext hands lc
    · rfl

theorem handView_admitHand (x : Handshake) (role : Nat) : handView (h.admitHand x role) = handView h := by
  have sent (g : Hw) (bytes : List Byte) : handView (g.send (.client x.src) bytes) = handView g := rfl
  have seen (g : Hw) : handView (g.onPwr fun p => { p with kopSeen := true }) = handView g := rfl
  have counted (g : Hw) : handView (g.kopCount 0) = handView g := rfl
  have entered (g : Hw) (y : Session) : handView (g.onKop fun k => { k with sessions := k.sessions ++ [y] }) = handView g := rfl
  have drawn (g : Hw) : handView (if x.path < 3 then (x.path, g) else g.draw 256).2 = handView g := by split <;> rfl
  unfold Hw.admitHand
  dsimp only
  split
  · obtain ⟨hands, -, -, lc⟩ := refuseHand_spec h x.src x.id stBusy 3
    exact Prod.ext hands lc
  · rw [sent, seen, counted, entered, drawn, handView_takeEntry]

/-- HELLO_REPLY is sent, and its handshake waits behind the others. -/
theorem openHand_spec (path src transport role : Nat) (body : List Byte) :
    ∃ x : Handshake, (x.path = path ∧ x.src = src ∧ x.at_ = h.poweredMs ∧ x.role = role) ∧
      (h.openHand path src transport role body).kop.hands = h.kop.hands ++ [x] ∧
      (h.openHand path src transport role body).kop.sessions = h.kop.sessions ∧
      (h.openHand path src transport role body).out.length = h.out.length + 1 :=
  ⟨_, ⟨rfl, rfl, rfl, rfl⟩, rfl, rfl, rfl⟩

end

/-! ### The session of an identifier -/

theorem find?_replaced {l : List Session} {x y : Session} {i : Nat} (found : l.find? (fun s => s.id == i) = some x) (same : y.id = i) :
    (l.map fun s => if s.id = y.id then y else s).find? (fun s => s.id == i) = some y := by
  induction l with
  | nil => nomatch found
  | cons s l ih =>
    rw [List.map_cons]
    by_cases here : s.id = i
    · simp [here, same]
    · rw [List.find?_cons_of_neg (by simpa using here)] at found
      rw [if_neg (by rw [same]; exact here), List.find?_cons_of_neg (by simpa using here)]
      exact ih found

theorem session_setSession {h : Hw} {x y : Session} {i : Nat} (found : h.session i = some x) (same : y.id = i) :
    (h.setSession y).session i = some y := find?_replaced found same

theorem id_of_session {h : Hw} {x : Session} {i : Nat} (found : h.session i = some x) : x.id = i := by
  simpa using List.find?_some found

@[simp] theorem length_sessions_setSession (h : Hw) (x : Session) : (h.setSession x).kop.sessions.length = h.kop.sessions.length :=
  List.length_map _

/-- A session that is replaced and then closed is as one that is closed. -/
theorem filter_replaced (l : List Session) (x y : Session) (same : y.id = x.id) :
    (l.map fun s => if s.id = y.id then y else s).filter (fun s => s.id ≠ y.id) = l.filter (fun s => s.id ≠ x.id) := by
  rw [← same]
  induction l with
  | nil => rfl
  | cons s l ih =>
    rw [List.map_cons, List.filter_cons, List.filter_cons, ih]
    by_cases here : s.id = y.id
    · simp [here]
    · simp [here]

/-! ### Messages (R628, R629) -/

section
variable {s : State} {msg : List Byte} {m : KopMsg} (on : s.hw.sysOn = true)
include on

theorem onMessage_of_read (read : kopRead msg = some m) {type : Nat} (typed : m.type = type) (f : KopMsg → State) :
    s.onMessage msg type f = f m := by
  simp [State.onMessage, on, read, typed]

theorem onMessage_of_malformed (read : kopRead msg = none) (type : Nat) (f : KopMsg → State) :
    s.onMessage msg type f = s.onHw fun h => h.kopCount 5 := by
  simp [State.onMessage, on, read]

end

/-- A session that has heard a message of a source. -/
def heardNow (s : State) (src : Nat) (x : Session) : Session := { x with seen := s.hw.poweredMs, src := src }

/-- A protected message of an active session: its tag fails and is counted, or it has been heard. -/
theorem heard_of_session {s : State} {src : Nat} {m : KopMsg} {x : Session} (found : s.hw.session m.id = some x)
    (f : Session → List Byte → State → State) :
    s.heard src m f = match kopOpen x.keys.cd m with
      | none => s.onHw fun h => h.kopCount 4
      | some plain => f (heardNow s src x) plain (s.onHw fun h => h.setSession (heardNow s src x)) := by
  unfold State.heard
  rw [found]
  rfl

/-! ### HELLO (R632) -/

theorem grantRole_le {s : State} {path req : Nat} {cert : List Byte} {r : Nat} (granted : s.grantRole path req cert = some r) :
    r ≤ req ∧ r ≤ certNum cert 1 1 := by
  unfold State.grantRole at granted
  split at granted
  · nomatch granted
  · next ceiling _ =>
    have least : r = min req (min (certNum cert 1 1) ceiling) := by
      dsimp only at granted
      split at granted
      · nomatch granted
      · exact (Option.some.inj granted).symm
    omega

section
variable {s : State} {src path : Nat} {via : Via} {m : KopMsg} (size : m.body.length = 170)
  (served : s.helloPath (beNat ((m.body.drop 48).take 1)) via ((m.body.drop 50).take 120) = some path)
include size served

theorem hello_of_crowd (crowd : 50 ≤ s.hw.recentHellos (path == 3)) :
    s.hello src via m = s.onHw fun h => h.refuseHand src 0 stBusy 4 := by
  simp only [State.hello, size, served, ne_eq, not_true_eq_false, if_false]
  exact if_pos (Or.inl crowd)

/-- The first HELLO of a path: the handshake opens with the role granted, or is refused. -/
theorem hello_of_first (calm : s.hw.recentHellos (path == 3) < 50) (noHands : s.hw.kop.hands = []) (noHellos : s.hw.kop.hellos = []) :
    s.hello src via m =
      let s1 := s.onHw fun h => h.onKop fun k => { k with hands := [], hellos := [(path == 3, h.poweredMs)] }
      match s1.grantRole path (beNat ((m.body.drop 48).take 1)) ((m.body.drop 50).take 120) with
      | none => s1.onHw fun h => h.refuseHand src 0 stNoAccess 2
      | some role => s1.onHw fun h => h.openHand path src via.transport.val role m.body := by
  have noted (mine : Handshake → Bool) :
      (s.onHw fun h => (h.dropHands mine).onKop fun k =>
        { k with hellos := (path == 3, h.poweredMs) :: k.hellos.filter fun x => decide (h.poweredMs < x.2 + 1000) }) =
      s.onHw fun h => h.onKop fun k => { k with hands := [], hellos := [(path == 3, h.poweredMs)] } := by
    simp [State.onHw, Hw.onKop, Hw.dropHands, noHands, noHellos]
  have room : ¬(50 ≤ s.hw.recentHellos (path == 3) ∨ 16 ≤ 0) := by omega
  simp only [State.hello, size, served, ne_eq, not_true_eq_false, if_false, noHands, List.filter_nil, List.length_nil, if_neg room,
    noted] <;> rfl

end

/-! ### FINISH (R632, R634) -/

/-- What a FINISH for a handshake of the device does: its tag fails, the client is refused, or the session is admitted. -/
def finished (s : State) (src : Nat) (x : Handshake) (m : KopMsg) : State :=
  match kopOpen x.keys.cd m with
  | none => s.onHw fun h => h.kopCount 4
  | some plain =>
    let s1 := s.onHw fun h => h.dropHands fun y => y.id == x.id
    let signed := plain.length == 64 && Config.ed25519 ((x.cert.drop 22).take 32)
      (ascii "KOP1 client" ++ beBytes 64 x.th ++ beBytes 4 x.id) plain
    match (if signed then s1.grantRole x.path x.role x.cert else none) with
    | none => s1.onHw fun h => h.refuseHand src x.id stNoAccess 2
    | some role => s1.onHw fun h => h.admitHand { x with src := src } role

theorem finish_of_hand {s : State} {src : Nat} {m : KopMsg} {x : Handshake}
    (found : s.hw.kop.hands.find? (fun x => x.id == m.id) = some x) (inTime : s.hw.poweredMs ≤ x.at_ + 2000) :
    s.finish src m = finished s src x m := by
  unfold State.finish finished
  rw [found]
  refine (if_neg (by omega)).trans ?_
  rfl

/-- A FINISH ends its handshake where its tag holds, and changes neither handshakes nor sessions where it fails. -/
theorem finished_spec (s : State) (src : Nat) (x : Handshake) (m : KopMsg) :
    ((kopOpen x.keys.cd m).isNone = true →
        (finished s src x m).hw.kop.sessions = s.hw.kop.sessions ∧ (finished s src x m).hw.kop.hands = s.hw.kop.hands) ∧
      ((kopOpen x.keys.cd m).isNone = false →
        (finished s src x m).hw.kop.hands = s.hw.kop.hands.filter fun y => y.id ≠ x.id) ∧
      (finished s src x m).hw.lc = s.hw.lc := by
  have dropped : (s.hw.dropHands fun y => y.id == x.id).kop.hands = s.hw.kop.hands.filter fun y => y.id ≠ x.id := by
    simp [Hw.dropHands, Hw.onKop, beq_eq_decide]
  unfold finished
  cases kopOpen x.keys.cd m with
  | none => exact ⟨fun _ => ⟨rfl, rfl⟩, Bool.noConfusion, rfl⟩
  | some plain =>
    dsimp only
    split
    · obtain ⟨hands, -, -, lc⟩ := refuseHand_spec (s.hw.dropHands fun y => y.id == x.id) src x.id stNoAccess 2
      exact ⟨Bool.noConfusion, fun _ => hands.trans dropped, lc⟩
    · next role _ =>
      obtain ⟨hands, lc⟩ := Prod.mk.inj (handView_admitHand (s.hw.dropHands fun y => y.id == x.id) { x with src := src } role)
      exact ⟨Bool.noConfusion, fun _ => hands.trans dropped, lc⟩

/-! ### Requests that wait (R640) -/

/-- A session without a request that waited. -/
def doneWaiting (x : Session) (seq : Nat) : Session := { x with waits := x.waits.filter fun v => v.seq ≠ seq }

/-- A request of which no item waits is answered and waits no more. -/
theorem settleWait_of_answered {h : Hw} {x : Session} {w : KopWait} (answered : (w.items.any fun i => i.isEmpty) = false) :
    h.settleWait x w =
      if w.seq = 0 then (h.setSession (doneWaiting x w.seq)).onKop fun k => { k with item := w.items.flatten }
      else (h.setSession (doneWaiting x w.seq)).respond (doneWaiting x w.seq) w.seq w.items true := by
  simp [Hw.settleWait, answered, doneWaiting]

@[simp] theorem id_cacheIn (x : Session) (seq : Nat) (msg : List Byte) : (Hw.cacheIn x seq msg).id = x.id := by
  unfold Hw.cacheIn
  dsimp only
  split <;> rfl

@[simp] theorem waits_cacheIn (x : Session) (seq : Nat) (msg : List Byte) : (Hw.cacheIn x seq msg).waits = x.waits := by
  unfold Hw.cacheIn
  dsimp only
  split <;> rfl

/-- A kept response: one message more, and the session with it in its cache. -/
theorem respond_kept {h : Hw} {x y : Session} {i : Nat} (found : h.session i = some y) (same : x.id = i) (seq : Nat)
    (items : List (List Byte)) :
    (h.respond x seq items true).kop.sessions.length = h.kop.sessions.length ∧
      (h.respond x seq items true).out.length = h.out.length + 1 ∧
      (h.respond x seq items true).session i = some (Hw.cacheIn x seq (h.response x seq items)) := by
  have sent : (h.send (.client x.src) (h.response x seq items)).session i = some y := found
  refine ⟨length_sessions_setSession _ _, rfl, session_setSession sent ?_⟩
  rw [id_cacheIn, same]

theorem settleWait_spec {h : Hw} {x : Session} {w : KopWait} {i : Nat} (found : h.session i = some x)
    (answered : (w.items.any fun i => i.isEmpty) = false) :
    (h.settleWait x w).kop.sessions.length = h.kop.sessions.length ∧
      (w.seq ≠ 0 → (h.settleWait x w).out.length = h.out.length + 1) ∧
      ∀ y, (h.settleWait x w).session i = some y → y.waits = x.waits.filter fun v => v.seq ≠ w.seq := by
  have ofId : x.id = i := id_of_session found
  have mine : (doneWaiting x w.seq).id = i := ofId
  have replaced := session_setSession found mine
  rw [settleWait_of_answered answered]
  split
  · next zero =>
    refine ⟨length_sessions_setSession _ _, fun nonzero => absurd zero nonzero, fun y at_ => ?_⟩
    rw [← Option.some.inj (replaced.symm.trans at_)]
    rfl
  · obtain ⟨count, sent, at_⟩ := respond_kept replaced mine w.seq w.items
    refine ⟨count.trans (length_sessions_setSession _ _), fun _ => sent, fun y here => ?_⟩
    rw [← Option.some.inj (at_.symm.trans here), waits_cacheIn]
    rfl

/-- No item of a request that times out waits any longer. -/
theorem timedOut_answered (l : List (List Byte × List Byte)) :
    ((l.map fun i => if i.1.isEmpty then Hw.timedOut i.2 else i.1).any fun i => i.isEmpty) = false := by
  rw [List.any_map, List.any_eq_false]
  intro i _
  by_cases empty : i.1 = []
  · simp [empty, Hw.timedOut, beBytes]
  · simp [empty]

/-- SEQ 0 is a BAD_MESSAGE. -/
theorem request_zero (s : State) (x : Session) (body : List Byte) :
    s.request x 0 body = s.onHw fun h => h.respond x 0 [itemHead 0 0 stBadMessage] false := by
  unfold State.request
  exact if_pos rfl

/-- A REQUEST whose SEQ is in the cache: its response is sent again. -/
theorem request_cached {s : State} {x : Session} {seq : Nat} {body : List Byte} {e : Nat × List Byte} (nonzero : seq ≠ 0)
    (old : x.last ≠ none) (idle : x.waits.any (fun w => w.seq == seq) = false) (cached : x.cache.find? (fun e => e.1 == seq) = some e) :
    s.request x seq body = s.onHw fun h => (h.send (.client x.src) e.2).kopCount 6 := by
  simp only [State.request, if_neg nonzero, idle, Option.isNone_eq_false_iff.mpr (Option.isSome_iff_ne_none.mpr old), cached,
    Bool.false_eq_true, and_false, if_false]

/-- A REQUEST in execution changes nothing. -/
theorem request_waiting {s : State} {x : Session} {seq : Nat} {w : KopWait} (body : List Byte) (nonzero : seq ≠ 0) (old : x.last ≠ none)
    (waits : w ∈ x.waits) (mine : w.seq = seq) : s.request x seq body = s := by
  have busy : x.waits.any (fun w => w.seq == seq) = true := List.any_eq_true.mpr ⟨w, waits, by simp [mine]⟩
  simp only [State.request, if_neg nonzero, busy, Option.isNone_eq_false_iff.mpr (Option.isSome_iff_ne_none.mpr old), Bool.not_false,
    and_self, if_true]

/-! ### The obligation -/

/-- Settles O44: what each message does by `hello_of_first`, `heard_of_session`, `request_cached` and their companions, what it leaves by
the lemmas about handshakes and sessions. -/
theorem kollosSessionsOpenServeAndClose : Obligations.KollosSessionsOpenServeAndClose := by
  unfold Obligations.KollosSessionsOpenServeAndClose
  refine ⟨?closed, ?granted, ?waiting, ?zero, ?crowd, ?hello, ?malformed, ?finish, ?unknown, ?handTimeout, ?close, ?idle, ?request,
    ?timeout⟩
  case closed => exact fun h x reason notice => (closeSession_spec h x reason notice).1
  case granted => exact fun s path req cert r granted => grantRole_le granted
  case waiting => exact fun s x seq body w nonzero old waits mine => request_waiting body nonzero old waits mine
  case zero => exact fun s x body => request_zero s x body
  case crowd =>
    intro src via msg m path s on read typed size served crowd
    exact congrArg Host.Outcome.next ((onMessage_of_read on read typed _).trans (hello_of_crowd size served crowd))
  case hello =>
    intro src via msg m path s on read typed size served calm noHands noHellos
    refine ends_of_next (congrArg Host.Outcome.next
      ((onMessage_of_read on read typed _).trans (hello_of_first size served calm noHands noHellos))) ⟨rfl, ?_⟩
    dsimp only
    split
    · obtain ⟨hands, sessions, sent, -⟩ := refuseHand_spec
        (s.hw.onKop fun k => { k with hands := [], hellos := [(path == 3, s.hw.poweredMs)] }) src 0 stNoAccess 2
      rw [onHw_hw, onHw_hw, hands, sessions]
      exact ⟨fun x among => absurd among List.not_mem_nil, Nat.zero_le 1, rfl, sent⟩
    · next role granted =>
      obtain ⟨x, ⟨ofPath, ofSrc, now, ofRole⟩, hands, sessions, sent⟩ := openHand_spec
        (s.hw.onKop fun k => { k with hands := [], hellos := [(path == 3, s.hw.poweredMs)] }) path src via.transport.val role m.body
      obtain ⟨asked, certified⟩ := grantRole_le granted
      rw [onHw_hw, onHw_hw, hands, sessions]
      refine ⟨fun y among => ?_, Nat.le_refl 1, rfl, sent⟩
      obtain rfl : y = x := List.mem_singleton.mp among
      exact ⟨ofPath, ofSrc, now, ofRole ▸ certified, ofRole ▸ asked⟩
  case malformed => exact fun src via msg s on read => congrArg Host.Outcome.next (onMessage_of_malformed on read _ _)
  case finish =>
    intro src msg m x s on read typed found inTime
    refine ends_of_next (congrArg Host.Outcome.next
      ((onMessage_of_read on read typed _).trans (finish_of_hand found inTime))) ⟨rfl, finished_spec s src x m⟩
  case unknown =>
    intro src msg m s on read typed none_
    refine congrArg Host.Outcome.next ((onMessage_of_read on read typed _).trans ?_)
    unfold State.finish
    rw [none_]
  case handTimeout => exact fun id s => rfl
  case close =>
    intro src msg m x s on read typed found
    refine ends_of_next (congrArg Host.Outcome.next ((onMessage_of_read on read typed _).trans (heard_of_session found _))) ⟨rfl, ?_⟩
    cases kopOpen x.keys.cd m with
    | none => exact ⟨Bool.noConfusion, fun _ => ⟨rfl, rfl⟩⟩
    | some plain =>
      refine ⟨fun _ => ?_, Bool.noConfusion⟩
      obtain ⟨sessions, -, -, sent⟩ := closeSession_spec (s.hw.setSession (heardNow s src x)) (heardNow s src x) 6 true
      exact ⟨sessions.trans (filter_replaced s.hw.kop.sessions x (heardNow s src x) rfl), sent rfl⟩
  case idle =>
    intro id x s found idle
    obtain ⟨sessions, -, -, sent⟩ := closeSession_spec s.hw x 3 true
    refine ends_of_next (next_onHw s (g := fun h => (h.closeSession x 3 true).kopCount 3) ?_) ⟨rfl, ?_, ?_⟩
    · rw [found]
      exact if_pos idle
    · exact (sessions_kopCount _ 3).trans sessions
    · exact (out_kopCount _ 3).trans (sent rfl)
  case request =>
    intro src msg m x s on read typed found
    refine ends_of_next (congrArg Host.Outcome.next ((onMessage_of_read on read typed _).trans (heard_of_session found _))) ⟨rfl, ?_⟩
    cases kopOpen x.keys.cd m with
    | none => exact ⟨fun _ => ⟨rfl, rfl⟩, Bool.noConfusion⟩
    | some plain =>
      refine ⟨Bool.noConfusion, fun _ nonzero old idle e cached => ?_⟩
      have again := request_cached (s := s.onHw fun h => h.setSession (heardNow s src x)) (x := heardNow s src x) (body := plain)
        nonzero old idle cached
      exact (congrArg (fun t : State => t.hw.out) again).trans (out_kopCount _ 6)
  case timeout =>
    intro id x w s found late
    refine ends_of_next (next_onHw s (g := fun h => h.timeoutWait x w) ?_) ⟨rfl, ?_⟩
    · rw [found]
      dsimp only
      rw [late, List.foldl_cons, List.foldl_nil, found]
    · exact settleWait_spec (h := { s.hw with fab := { s.hw.fab with
        reads := s.hw.fab.reads.filter fun r => !(r.session == x.id && r.tag / 64 == w.seq) } })
        (w := { w with items := (w.items.zip w.heads).map fun i => if i.1.isEmpty then Hw.timedOut i.2 else i.1 }) found
        (timedOut_answered _)

end Sys2Proof.Proofs
end

section
/-! PROOFS. Items of a Kollos session as commands of their own: what each of the five answers, and the STATUS beside it (O45). -/

namespace Sys2Proof.Proofs

open Sys2Proof.Machine Sys2Proof.Laws

/-! ### The STATUS of an item (R639) -/

/-- The STATUS of an item follows its OP and OID. -/
def statusOf (item : List Byte) : Nat := beNat ((item.drop 5).take 2)

theorem statusOf_of_prefix {op oid st : Nat} {item : List Byte} (starts : itemHead op oid st <+: item) (fits : st < 65536) :
    statusOf item = st := by
  obtain ⟨rest, rfl⟩ := starts
  have bytes : ((itemHead op oid st ++ rest).drop 5).take 2 = [byte (st / 256), byte st] := rfl
  unfold statusOf
  rw [bytes]
  simp only [beNat, List.foldl_cons, List.foldl_nil, byte, BitVec.toNat_ofNat]
  omega

/-! ### One item of a session -/

/-- The state in which an item of a session is executed: what waited for an earlier one is gone. -/
def itemStart (s : State) (id : Nat) (x : Session) : State :=
  s.onHw fun h =>
    ({ h with fab := { h.fab with reads := h.fab.reads.filter fun r => !(r.session == id && r.tag / 64 == 0) } } : Hw).setSession
      { x with waits := x.waits.filter fun w => w.seq ≠ 0 }

/-- An item kept beside its STATUS. -/
def itemKept (s : State) (item : List Byte) : State := s.onHw fun h => (h.onKop fun k => { k with item := item }).answer (statusOf item)

section
variable {s : State} {id : Nat} {x : Session} (found : s.hw.session id = some x)
include found

theorem oneItem_of_answered {i : KopItem} {t : State} {item : List Byte}
    (ran : (itemStart s id x).runItem (State.asker x) 0 i = (t, item)) (some_ : item ≠ []) : s.oneItem id i = itemKept t item := by
  change State.runItem (s.onHw fun h => _) _ _ _ = _ at ran
  simp only [State.oneItem, found]
  rw [ran]
  exact if_neg (by simpa using some_)

/-- An item with a STATUS: the command leaves both. -/
theorem oneItem_answers {i : KopItem} {t : State} {item : List Byte} {op oid st : Nat}
    (ran : (itemStart s id x).runItem (State.asker x) 0 i = (t, item)) (starts : itemHead op oid st <+: item) (fits : st < 65536) :
    (s.oneItem id i).hw.status = st ∧ (s.oneItem id i).hw.kop.item = item := by
  have some_ : item ≠ [] := by
    rintro rfl
    exact absurd (List.prefix_nil.mp starts) (List.cons_ne_nil _ _)
  rw [oneItem_of_answered found ran some_]
  exact ⟨statusOf_of_prefix starts fits, rfl⟩

end

section
variable {s : State} {who : Asker} {tag : Nat} {i : KopItem} (noTenant : s.tenantOf who i.oid = none)
include noTenant

theorem runItem_read (op : i.op = opRead) : s.runItem who tag i = s.itemRead who tag i.oid := by
  simp [State.runItem, op, noTenant, opRead, opNext]

theorem runItem_write (op : i.op = opWrite) :
    s.runItem who tag i = ((s.itemWrite who i.oid i.type i.value).1, itemHead opWrite i.oid (s.itemWrite who i.oid i.type i.value).2) := by
  simp [State.runItem, op, noTenant, opRead, opWrite, opNext]

theorem runItem_writeLc (op : i.op = opWriteLc) :
    s.runItem who tag i =
      ((s.itemWriteLc who i.oid i.lc i.type i.value).1, itemHead opWriteLc i.oid (s.itemWriteLc who i.oid i.lc i.type i.value).2.1 ++
        if (s.itemWriteLc who i.oid i.lc i.type i.value).2.1 = stOk then
          beBytes 5 s.hw.lc ++ beBytes 5 (s.itemWriteLc who i.oid i.lc i.type i.value).2.2 ++
            beBytes 5 (s.itemWriteLc who i.oid i.lc i.type i.value).1.hw.kop.ticket
        else []) := by
  simp [State.runItem, op, noTenant, opRead, opWrite, opWriteLc, opNext]

theorem runItem_write_of (op : i.op = opWrite) {t : State} {st : Nat} (wrote : s.itemWrite who i.oid i.type i.value = (t, st)) :
    s.runItem who tag i = (t, itemHead opWrite i.oid st) := by
  rw [runItem_write noTenant op, wrote]

theorem runItem_writeLc_of (op : i.op = opWriteLc) {t : State} {st n : Nat}
    (wrote : s.itemWriteLc who i.oid i.lc i.type i.value = (t, st, n)) (refused : st ≠ stOk) :
    s.runItem who tag i = (t, itemHead opWriteLc i.oid st) := by
  rw [runItem_writeLc noTenant op, wrote, if_neg refused, List.append_nil]

theorem runItem_describe (op : i.op = opDescribe) : s.runItem who tag i = (s, s.itemDescribe who i.oid) := by
  simp [State.runItem, op, noTenant, opRead, opWrite, opWriteLc, opDescribe, opNext]

end

theorem runItem_next (s : State) (who : Asker) (tag : Nat) {i : KopItem} (op : i.op = opNext) :
    s.runItem who tag i = (s, s.itemNext who i.oid) := by
  simp [State.runItem, op, opRead, opWrite, opWriteLc, opDescribe, opNext]

/-! ### The items (R616, R618, R639, R644) -/

section
variable {s : State} {who : Asker} {oid : Nat}

theorem itemRead_of_none (none_ : s.objAt who oid = none) (tag : Nat) : s.itemRead who tag oid = (s, itemHead opRead oid stBadObject) := by
  simp [State.itemRead, none_]

theorem itemWrite_of_none (none_ : s.objAt who oid = none) (type : Nat) (v : List Byte) :
    s.itemWrite who oid type v = (s, stBadObject) := by
  simp [State.itemWrite, none_]

theorem itemWriteLc_of_none (none_ : s.objAt who oid = none) (lc type : Nat) (v : List Byte) :
    s.itemWriteLc who oid lc type v = (s, stBadObject, 0) := by
  simp [State.itemWriteLc, none_]

theorem itemDescribe_of_none (none_ : s.objAt who oid = none) : s.itemDescribe who oid = itemHead opDescribe oid stBadObject := by
  simp [State.itemDescribe, none_]

variable {ob : Obj} (object : s.objAt who oid = some ob)
include object

theorem itemRead_denied (denied : ob.access = 3 ∨ who.role < ob.rd) (tag : Nat) :
    s.itemRead who tag oid = (s, itemHead opRead oid stNoAccess) := by
  simp only [State.itemRead, object, if_pos denied]

theorem itemRead_value (allowed : ¬(ob.access = 3 ∨ who.role < ob.rd)) {v : List Byte} {lc : Option Nat}
    (value : (ob.read s).2 = .value v lc) (tag : Nat) :
    s.itemRead who tag oid = ((ob.read s).1, itemHead opRead oid stOk ++ [byte ob.type] ++ beBytes 2 v.length ++
      beBytes 5 (lc.getD s.hw.lc) ++ v) := by
  simp only [State.itemRead, object, if_neg allowed, value]

theorem itemWrite_denied (denied : (ob.access ≠ 2 ∧ ob.access ≠ 3 ∧ ob.access ≠ 4) ∨ who.role < ob.wr) (type : Nat) (v : List Byte) :
    s.itemWrite who oid type v = (s, stNoAccess) := by
  simp only [State.itemWrite, object]
  exact if_pos (by simpa using denied)

/-- A write of an object of class 2 or 3 by a role that may: the judgement, or the effect of the object. -/
theorem itemWrite_allowed (writable : ob.access = 2 ∨ ob.access = 3) (role : ob.wr ≤ who.role) (type : Nat) (v : List Byte) :
    s.itemWrite who oid type v = if ob.judge type v ≠ 0 then (s, ob.judge type v) else ob.write s v := by
  simp only [State.itemWrite, object]
  rw [if_neg (by rcases writable with e | e <;> simp [e, role]), if_neg (by omega)]

theorem itemWriteLc_denied (denied : ob.access ≠ 5 ∨ who.role < ob.wr) (lc type : Nat) (v : List Byte) :
    s.itemWriteLc who oid lc type v = (s, stNoAccess, 0) := by
  simp only [State.itemWriteLc, object, if_pos denied]

/-- A commit LC that cannot be had is a BAD_VALUE. -/
theorem itemWriteLc_badLc (class_ : ob.access = 5) (role : ob.wr ≤ who.role) {type : Nat} {v : List Byte} (judged : ob.judge type v = 0)
    (plain : oid ≠ 0x70020400) {lc : Nat} (bad : s.hw.commitLc lc = none) : s.itemWriteLc who oid lc type v = (s, stBadValue, 0) := by
  simp only [State.itemWriteLc, object]
  rw [if_neg (by simp [class_, role]), if_neg (by simp [judged]), if_neg plain, bad]

theorem itemDescribe_of_object :
    s.itemDescribe who oid = itemHead opDescribe oid stOk ++ [byte ob.type] ++ beBytes 2 ob.len ++
      [byte ob.access, byte ob.rd, byte ob.wr] ++ beBytes 2 ob.dflt.length ++ ob.dflt := by
  simp only [State.itemDescribe, object]

omit object

theorem itemDescribe_ne_nil : s.itemDescribe who oid ≠ [] := by
  unfold State.itemDescribe
  split <;> simp [itemHead]

theorem itemNext_ne_nil : s.itemNext who oid ≠ [] := by
  unfold State.itemNext
  split <;> simp [itemHead]

theorem itemNext_of_named (next_ : s.named who (oid + 1) = true) (fits : oid + 1 < 2 ^ 32) :
    s.itemNext who oid = itemHead opNext oid stOk ++ beBytes 4 (oid + 1) := by
  obtain ⟨n, count⟩ : ∃ n, 2 ^ 32 - 1 - oid = n + 1 := ⟨2 ^ 32 - 2 - oid, by omega⟩
  unfold State.itemNext
  rw [count, State.nextFrom, if_pos next_]

end

/-! ### The five commands -/

section
variable {s : State} {id oid : BitVec 32} {x : Session} (found : s.hw.session id.toNat = some x)
include found

theorem exec_kopNext :
    exec (.kopNext id oid) s = .next (itemKept (itemStart s id.toNat x) ((itemStart s id.toNat x).itemNext (State.asker x) oid.toNat)) :=
  congrArg Host.Outcome.next (oneItem_of_answered found (runItem_next _ _ _ rfl) itemNext_ne_nil)

variable (noTenant : (itemStart s id.toNat x).tenantOf (State.asker x) oid.toNat = none)
include noTenant

theorem exec_kopRead (answered : ((itemStart s id.toNat x).itemRead (State.asker x) 0 oid.toNat).2 ≠ []) :
    exec (.kopRead id oid) s = .next (itemKept ((itemStart s id.toNat x).itemRead (State.asker x) 0 oid.toNat).1
      ((itemStart s id.toNat x).itemRead (State.asker x) 0 oid.toNat).2) :=
  congrArg Host.Outcome.next
    (oneItem_of_answered (i := { op := opRead, oid := oid.toNat }) found (runItem_read noTenant rfl) answered)

theorem exec_kopWrite (type : Byte) (v : List Byte) :
    exec (.kopWrite id oid type v) s =
      .next (itemKept ((itemStart s id.toNat x).itemWrite (State.asker x) oid.toNat type.toNat v).1
        (itemHead opWrite oid.toNat ((itemStart s id.toNat x).itemWrite (State.asker x) oid.toNat type.toNat v).2)) :=
  congrArg Host.Outcome.next
    (oneItem_of_answered (i := { op := opWrite, oid := oid.toNat, type := type.toNat, value := v }) found (runItem_write noTenant rfl)
      (List.cons_ne_nil _ _))

theorem exec_kopWriteLc (lc : Word) (type : Byte) (v : List Byte) :
    exec (.kopWriteLc id oid lc type v) s =
      let r := (itemStart s id.toNat x).itemWriteLc (State.asker x) oid.toNat lc.toNat type.toNat v
      .next (itemKept r.1 (itemHead opWriteLc oid.toNat r.2.1 ++
        if r.2.1 = stOk then beBytes 5 (itemStart s id.toNat x).hw.lc ++ beBytes 5 r.2.2 ++ beBytes 5 r.1.hw.kop.ticket else [])) :=
  congrArg Host.Outcome.next
    (oneItem_of_answered (i := { op := opWriteLc, oid := oid.toNat, lc := lc.toNat, type := type.toNat, value := v }) found
      (runItem_writeLc noTenant rfl) (List.cons_ne_nil _ _))

/-- A refused WRITE_LC answers its STATUS alone. -/
theorem exec_kopWriteLc_refused {lc : Word} {type : Byte} {v : List Byte} {r : State × Nat × Nat}
    (wrote : (itemStart s id.toNat x).itemWriteLc (State.asker x) oid.toNat lc.toNat type.toNat v = r) (refused : r.2.1 ≠ stOk) :
    exec (.kopWriteLc id oid lc type v) s = .next (itemKept r.1 (itemHead opWriteLc oid.toNat r.2.1)) := by
  have written := exec_kopWriteLc found noTenant lc type v
  simp only [wrote, if_neg refused, List.append_nil] at written
  exact written

/-- An accepted WRITE_LC answers the LC now, its commit LC and its ticket. -/
theorem exec_kopWriteLc_accepted {lc : Word} {type : Byte} {v : List Byte} {r : State × Nat × Nat}
    (wrote : (itemStart s id.toNat x).itemWriteLc (State.asker x) oid.toNat lc.toNat type.toNat v = r) (accepted : r.2.1 = stOk) :
    exec (.kopWriteLc id oid lc type v) s = .next (itemKept r.1 (itemHead opWriteLc oid.toNat stOk ++
      beBytes 5 (itemStart s id.toNat x).hw.lc ++ beBytes 5 r.2.2 ++ beBytes 5 r.1.hw.kop.ticket)) := by
  have written := exec_kopWriteLc found noTenant lc type v
  simp only [wrote, accepted, if_true] at written
  exact written

theorem exec_kopDescribe :
    exec (.kopDescribe id oid) s =
      .next (itemKept (itemStart s id.toNat x) ((itemStart s id.toNat x).itemDescribe (State.asker x) oid.toNat)) :=
  congrArg Host.Outcome.next
    (oneItem_of_answered (i := { op := opDescribe, oid := oid.toNat }) found (runItem_describe noTenant rfl) itemDescribe_ne_nil)

end

/-- Settles O45: the five commands by `exec_kopRead` and its companions, the items by the lemmas on an object's class, role and
judgement. -/
theorem itemsReadWriteDescribeAndWalkTheDictionary : Obligations.ItemsReadWriteDescribeAndWalkTheDictionary := by
  unfold Obligations.ItemsReadWriteDescribeAndWalkTheDictionary
  refine ⟨?commands, ?write, ?readValue, ?readDenied, ?noObject, ?answers⟩
  case commands =>
    intro id oid lc type value s x found s1 who done noTenant
    refine ⟨exec_kopRead found noTenant, exec_kopWrite found noTenant type value,
      fun refused => exec_kopWriteLc_refused found noTenant rfl refused,
      fun accepted => exec_kopWriteLc_accepted found noTenant rfl accepted, exec_kopDescribe found noTenant, exec_kopNext found⟩
  case write =>
    intro s who oid type v
    refine ⟨fun none_ => itemWrite_of_none none_ type v, fun ob object low => itemWrite_denied object (Or.inr low) type v,
      fun ob object class_ role bad => ?_, fun ob object class_ role good => ?_⟩
    · rw [itemWrite_allowed object (Or.inl class_) role, if_pos bad]
    · rw [itemWrite_allowed object (Or.inl class_) role, if_neg (by simp [good])]
  case readValue =>
    intro s who tag oid ob v lc s2 object class_ role read
    rw [itemRead_value object (by omega) (by rw [read]) tag, read]
  case readDenied => exact fun s who tag oid ob object low => itemRead_denied object (Or.inr low) tag
  case noObject => exact fun s who oid lc type v none_ => itemWriteLc_of_none none_ lc type v
  case answers =>
    intro id oid lc type value s x found s1 who answers noTenant
    refine ⟨⟨_, rfl, fun none_ => ?readNone, fun ob object => ⟨fun denied => ?readDenied, fun allowed v l read => ?readValue⟩⟩,
      ⟨_, rfl, fun none_ => ?writeNone, fun ob object => ⟨fun denied => ?writeDenied, fun class_ role bad => ?writeJudged⟩⟩,
      ⟨_, rfl, fun none_ => ?lcNone, fun ob object => ⟨fun denied => ?lcDenied, fun class_ role judged plain badLc => ?lcBad⟩⟩,
      ⟨_, rfl, fun none_ => ?describeNone, fun ob object => ?describe⟩, ⟨_, rfl, fun next_ fits => ?next_⟩⟩
    case readNone =>
      exact oneItem_answers found ((runItem_read noTenant rfl).trans (itemRead_of_none none_ 0)) List.prefix_rfl (by decide)
    case readDenied =>
      exact oneItem_answers found ((runItem_read noTenant rfl).trans (itemRead_denied object denied 0)) List.prefix_rfl (by decide)
    case readValue =>
      exact oneItem_answers found ((runItem_read noTenant rfl).trans (itemRead_value object allowed read 0))
        ⟨_, by rw [List.append_assoc, List.append_assoc, List.append_assoc]⟩ (by decide)
    case writeNone => exact oneItem_answers found (runItem_write_of noTenant rfl (itemWrite_of_none none_ _ _)) List.prefix_rfl (by decide)
    case writeDenied =>
      exact oneItem_answers found (runItem_write_of noTenant rfl (itemWrite_denied object denied _ _)) List.prefix_rfl (by decide)
    case writeJudged =>
      have judged := (itemWrite_allowed object class_ role type.toNat value).trans (if_pos bad)
      exact congrArg (fun t : State => t.hw.kop.item)
        (oneItem_of_answered (i := { op := opWrite, oid := oid.toNat, type := type.toNat, value := value }) found
          (runItem_write_of noTenant rfl judged) (List.cons_ne_nil _ _))
    case lcNone =>
      exact oneItem_answers found (runItem_writeLc_of noTenant rfl (itemWriteLc_of_none none_ _ _ _) (by decide)) List.prefix_rfl
        (by decide)
    case lcDenied =>
      exact oneItem_answers found (runItem_writeLc_of noTenant rfl (itemWriteLc_denied object denied _ _ _) (by decide)) List.prefix_rfl
        (by decide)
    case lcBad =>
      exact oneItem_answers found (runItem_writeLc_of noTenant rfl (itemWriteLc_badLc object class_ role judged plain badLc) (by decide))
        List.prefix_rfl (by decide)
    case describeNone =>
      exact oneItem_answers found ((runItem_describe noTenant rfl).trans (congrArg _ (itemDescribe_of_none none_))) List.prefix_rfl
        (by decide)
    case describe =>
      exact oneItem_answers found ((runItem_describe noTenant rfl).trans (congrArg _ (itemDescribe_of_object object)))
        ⟨_, by rw [List.append_assoc, List.append_assoc, List.append_assoc, List.append_assoc]⟩ (by decide)
    case next_ =>
      exact oneItem_answers found ((runItem_next _ _ _ rfl).trans (congrArg _ (itemNext_of_named next_ fits))) (List.prefix_append _ _)
        (by decide)

end Sys2Proof.Proofs
end

section
/-! PROOFS. A frame is received into a table of controllers that is not in its canonical form, which the statement of the controllers
admits (O46). -/

namespace Sys2Proof.Proofs

open Sys2Proof.Machine Sys2Proof.Laws

/-- Controller 0 is on the bus and takes every standard frame into queue 0. The table lists the controllers in falling order. -/
def fallingControllers : State :=
  { hw :=
      { regs :=
          [(Reg.PWR_RAIL_PG, 0x1FF), (Reg.CLK_STAT, 0x90), (Reg.CAN_CTRL 0, 0x4000000000), (Reg.CAN_FLT 0 0 0, 0x8200000000)]
        can := { ctls := [(1, { busOff := true }), (0, {})] } } }

/-- The frame whose acceptance an error flag ends: the table is left with one entry for each of the two controllers. -/
theorem canFrameReceived_lists_two :
    ∃ t, exec (.canFrameReceived 0 0 [] true) fallingControllers = .next t ∧ t.hw.can.ctls.length = 2 :=
  ⟨_, rfl, by decide +kernel⟩

/-- Refutes O46, at its clause of a frame received: it sets the controller once, where the model first forgets the frame before (R659).
In `fallingControllers` the first of the two writes removes the entry of controller 0, which stands behind its place, and the one write
of the clause leaves it there. A table in canonical form has no such entry; the clause does not ask for one. -/
theorem not_controllersChangeModeQueueAndCountErrors : ¬ Obligations.ControllersChangeModeQueueAndCountErrors := by
  unfold Obligations.ControllersChangeModeQueueAndCountErrors
  rintro ⟨-, -, -, -, -, -, -, -, -, -, -, -, -, -, received, -⟩
  obtain ⟨t, answer, two⟩ := canFrameReceived_lists_two
  obtain ⟨u, answer', claimed, -⟩ := received 0 0 [] true 0 fallingControllers (by decide) (by decide) (by decide) (by decide)
    (by decide) (by decide)
  obtain rfl : t = u := Host.Outcome.next.inj (answer.symm.trans answer')
  rw [claimed] at two
  revert two
  decide +kernel

end Sys2Proof.Proofs
end

section
/-! PROOFS. An SFW that reads no section of the configuration in force fails check 0x08, which the statement of images leaves out
(O49). -/

namespace Sys2Proof.Proofs

open Sys2Proof.Machine Sys2Proof.Laws

/-- A configured device whose flash is erased but for word 62 of the SFW partition of STAGING: that image lists no section that it
reads (R748). -/
def readsNoSection : State :=
  { hw := { pwr := { configured := true } }
    nor := ({} : Nor).program (norStaging + (partOf 1 0).1 + 62) 0 }

/-- The set is compatible, since its images are of one type, but its SFW does not read its CFG: result 3. -/
theorem activationFault_readsNoSection : setOk (readsNoSection.setWith [1]) = true ∧ readsNoSection.activationFault 1 = 3 := by
  decide +kernel

/-- Refutes O49, at its clause of an activation of SFW: in `readsNoSection` the check of the sections fails first, with result 3, where
the clause has result 4 for every compatible set. -/
theorem not_imagesAreStagedActivatedProvenAndCopied : ¬ Obligations.ImagesAreStagedActivatedProvenAndCopied := by
  unfold Obligations.ImagesAreStagedActivatedProvenAndCopied
  rintro ⟨-, -, denied, -⟩
  obtain ⟨compatible, fault⟩ := activationFault_readsNoSection
  exact absurd (fault.symm.trans (denied readsNoSection 1 compatible rfl)) (by decide)

end Sys2Proof.Proofs
end

section
/-! PROOFS. The fuse unit: when an operation starts, and what it blows when it is done (O51). -/

namespace Sys2Proof.Proofs

open Sys2Proof.Machine Sys2Proof.Laws

/-! ### The start of an operation (R709, R713) -/

/-- FUSE_STAT.RESULT after a write of FUSE_PROG. -/
def fuseAnswer (s : State) (r : Nat) : State :=
  (s.onHw fun h => h.busOk 0).onHw fun h => h.setFld Reg.FUSE_STAT Fld.FUSE_STAT_RESULT r

/-- An operation that has started: RESULT OK, and the words of FUSE_PROG_DATA staged. -/
def fuseStarted (s : State) (op sel : Nat) : State :=
  (fuseAnswer s 0).onHw fun h => h.onUpd fun u => { u with fuseOp := some { op := op, sel := sel, data := s.progData } }

section
variable (s : State) (op sel : Nat)

theorem fuseStart_of_ready (idle : s.hw.upd.fuseOp = none) (ready : s.hw.bit Reg.PWR_VHOLD 16 = true) :
    (s.onHw fun h => h.busOk 0).fuseStart op sel 0 = fuseStarted s op sel :=
  (if_neg (by simp [Hw.busOk, idle])).trans ((if_neg (by rw [onHw_hw, (busOk_spec s.hw 0).2.2.2, ready]; decide)).trans
    (if_neg (by decide)))

theorem fuseStart_of_refusal (idle : s.hw.upd.fuseOp = none) (ready : s.hw.bit Reg.PWR_VHOLD 16 = true) {r : Nat} (refused : r ≠ 0) :
    (s.onHw fun h => h.busOk 0).fuseStart op sel r = fuseAnswer s r :=
  (if_neg (by simp [Hw.busOk, idle])).trans ((if_neg (by rw [onHw_hw, (busOk_spec s.hw 0).2.2.2, ready]; decide)).trans
    (if_pos refused))

theorem fuseStart_of_busy {x : FuseOp} (busy : s.hw.upd.fuseOp = some x) (r : Nat) :
    (s.onHw fun h => h.busOk 0).fuseStart op sel r = fuseAnswer s 3 := if_pos (by simp [Hw.busOk, busy])

end

/-- A write of FUSE_PROG that may happen starts its operation. -/
theorem fuseProg_of_mayWrite {s : State} {who : Who} (may : s.hw.MayWrite who Reg.FUSE_PROG) (op sel : Nat) :
    s.fuseProg who op sel = (s.onHw fun h => h.busOk 0).fuseOpStart op sel := if_pos may

section
variable (s : State) (sel : Nat)

theorem fuseOpStart_lifecycle : s.fuseOpStart 1 sel = s.fuseStart 1 sel (s.lifecycleRefusal sel) := by simp [State.fuseOpStart]
theorem fuseOpStart_keyProgram : s.fuseOpStart 2 sel = s.fuseStart 2 sel (if s.fuse.keyValid.getLsbD sel = true then 2 else 0) := by
  simp [State.fuseOpStart]
theorem fuseOpStart_keyRevoke : s.fuseOpStart 3 sel = s.fuseStart 3 sel (s.revokeRefusal sel) := by simp [State.fuseOpStart]
theorem fuseOpStart_raiseField : s.fuseOpStart 4 sel = s.fuseStart 4 sel (s.raiseRefusal sel) := by simp [State.fuseOpStart]
theorem fuseOpStart_dbgLock : s.fuseOpStart 5 sel = s.fuseStart 5 sel 0 := by simp [State.fuseOpStart]

end

theorem fuseProg_starts {s : State} {who : Who} {op sel : Nat} (may : s.hw.MayWrite who Reg.FUSE_PROG) (idle : s.hw.upd.fuseOp = none)
    (ready : s.hw.bit Reg.PWR_VHOLD 16 = true)
    (starts : (s.onHw fun h => h.busOk 0).fuseOpStart op sel = (s.onHw fun h => h.busOk 0).fuseStart op sel 0) :
    s.fuseProg who op sel = fuseStarted s op sel :=
  (fuseProg_of_mayWrite may op sel).trans (starts.trans (fuseStart_of_ready s op sel idle ready))

/-- The access itself changes no condition of a lifecycle transition. -/
theorem lifecycleRefusal_busOk (s : State) (w : Word) (sel : Nat) :
    (s.onHw fun h => h.busOk w).lifecycleRefusal sel = s.lifecycleRefusal sel := rfl

theorem revokeRefusal_of_left {s : State} {sel k : Nat} (owner : sel ≠ 0) (among : k = 1 ∨ k = 2 ∨ k = 3) (other : k ≠ sel)
    (good : s.fuse.keyGood k = true) : s.revokeRefusal sel = 0 := by
  have left : ([1, 2, 3].any fun k => decide (k ≠ sel) && s.fuse.keyGood k) = true :=
    List.any_eq_true.mpr ⟨k, by simpa using among, by simp [other, good]⟩
  simp only [State.revokeRefusal, if_neg owner, left, if_true]

theorem raiseRefusal_of_higher {s : State} {sel : Nat} (higher : State.arbField s.fuse sel < bitsOf (s.hw.reg (Reg.FUSE_PROG_DATA 0)) 6 0)
    (fits : bitsOf (s.hw.reg (Reg.FUSE_PROG_DATA 0)) 6 0 ≤ 64) : s.raiseRefusal sel = 0 :=
  if_neg (by omega)

/-! ### The end of an operation (R709) -/

/-- An operation that reads back as programmed: its fuses are blown, RESULT is OK and nothing is in progress. -/
theorem fuseDone_of_op {s : State} {x : FuseOp} (op : s.hw.upd.fuseOp = some x) :
    s.fuseDone true =
      ((s.fuseBlow x).onHw fun h => h.setFld Reg.FUSE_STAT Fld.FUSE_STAT_RESULT 0).onHw fun h =>
        h.onUpd fun u => { u with fuseOp := none } := by
  unfold State.fuseDone
  rw [op]
  rfl

/-- Settles O51: the starts by `fuseStart_of_ready`, `fuseStart_of_refusal` and `fuseStart_of_busy`, the ends by `fuseDone_of_op`. -/
theorem fuseOperationsStartFinishAndRaise : Obligations.FuseOperationsStartFinishAndRaise := by
  unfold Obligations.FuseOperationsStartFinishAndRaise
  refine ⟨?lifecycle, ?keyProgram, ?keyRevoke, ?raiseField, ?dbgLock, ?key0, ?busy, ?doneKey, ?doneRevoke, ?doneRaise, ?doneLock,
    ?doneLifecycle, ?noOp, ?belowFull, ?arbRaise⟩
  case lifecycle =>
    intro who sel s may idle ready open_
    exact congrArg Host.Outcome.next
      (fuseProg_starts may idle ready ((fuseOpStart_lifecycle _ sel).trans (by rw [lifecycleRefusal_busOk, open_])))
  case keyProgram =>
    intro who sel s may idle ready blank
    have open_ : ¬(s.onHw fun h => h.busOk 0).fuse.keyValid.getLsbD sel = true := Bool.not_eq_true _ ▸ blank
    exact congrArg Host.Outcome.next (fuseProg_starts may idle ready ((fuseOpStart_keyProgram _ sel).trans (by rw [if_neg open_])))
  case keyRevoke =>
    rintro who sel s may idle ready owner ⟨k, among, other, good⟩
    have left := revokeRefusal_of_left (s := s.onHw fun h => h.busOk 0) owner among other good
    exact congrArg Host.Outcome.next (fuseProg_starts may idle ready ((fuseOpStart_keyRevoke _ sel).trans (by rw [left])))
  case raiseField =>
    intro who sel s may idle ready higher fits
    have risen := raiseRefusal_of_higher (s := s.onHw fun h => h.busOk 0) higher fits
    exact congrArg Host.Outcome.next (fuseProg_starts may idle ready ((fuseOpStart_raiseField _ sel).trans (by rw [risen])))
  case dbgLock =>
    exact fun who s may idle ready => congrArg Host.Outcome.next (fuseProg_starts may idle ready (fuseOpStart_dbgLock _ 0))
  case key0 =>
    intro who s may idle ready
    refine congrArg Host.Outcome.next ((fuseProg_of_mayWrite may 3 0).trans ((fuseOpStart_keyRevoke _ 0).trans ?_))
    exact fuseStart_of_refusal s 3 0 idle ready (r := 1) (by decide)
  case busy =>
    exact fun who sel x s may busy => congrArg Host.Outcome.next
      ((fuseProg_of_mayWrite may 4 sel).trans ((fuseOpStart_raiseField _ sel).trans (fuseStart_of_busy s 4 sel busy _)))
  case doneKey => exact fun k d s op => congrArg Host.Outcome.next (fuseDone_of_op op)
  case doneRevoke => exact fun k d s op => congrArg Host.Outcome.next (fuseDone_of_op op)
  case doneRaise => exact fun k d s op => congrArg Host.Outcome.next (fuseDone_of_op op)
  case doneLock => exact fun k d s op => congrArg Host.Outcome.next (fuseDone_of_op op)
  case doneLifecycle => exact fun k d s op => congrArg Host.Outcome.next (fuseDone_of_op op)
  case noOp =>
    intro ok s none_
    refine congrArg Host.Outcome.next ?_
    unfold State.fuseDone
    rw [none_]
  case belowFull => exact fun s below => congrArg Host.Outcome.next (if_pos (Or.inl below))
  case arbRaise =>
    exact fun s full product ready => congrArg Host.Outcome.next (if_neg (by simp [full, ready]; omega))

end Sys2Proof.Proofs
end

section
/-! PROOFS. Plants of many devices: the groups of GRD_CRS_TRIP, and what the events that follow them leave (R720, R721). -/

namespace Sys2Proof.Proofs

open Sys2Proof.Machine Sys2Proof.Laws

/-! ### Bits of a number that is set or cleared -/

theorem le_of_bitN {n i : Nat} (set_ : bitN n i = true) : 2 ^ i ≤ n := Nat.ge_two_pow_of_testBit (by rwa [← bitN_eq_testBit])

theorem bitN_setBitN_same (n i : Nat) : bitN (setBitN n i) i = true := by
  unfold setBitN
  split
  · assumption
  · next clear =>
    rw [bitN_eq_testBit] at clear ⊢
    rw [Nat.add_comm, Nat.testBit_two_pow_add_eq]
    simpa using clear

theorem bitN_clearBitN_same (n i : Nat) : bitN (clearBitN n i) i = false := by
  unfold clearBitN
  split
  · next set_ =>
    have low := le_of_bitN set_
    rw [bitN_eq_testBit] at set_ ⊢
    have back : (2 ^ i + (n - 2 ^ i)).testBit i = true := by rwa [Nat.add_sub_cancel' low]
    rw [Nat.testBit_two_pow_add_eq] at back
    simpa using back
  · next clear => exact Bool.not_eq_true _ ▸ clear

/-- Above the bit that is taken away nothing changes. -/
theorem div_sub_two_pow {n i : Nat} (set_ : bitN n i = true) : (n - 2 ^ i) / 2 ^ (i + 1) = n / 2 ^ (i + 1) := by
  have odd : n / 2 ^ i % 2 = 1 := by simpa [bitN] using set_
  have taken : (n - 2 ^ i) / 2 ^ i = n / 2 ^ i - 1 := by simpa using Nat.sub_mul_div n (2 ^ i) 1
  rw [Nat.pow_succ, ← Nat.div_div_eq_div_mul, ← Nat.div_div_eq_div_mul, taken]
  generalize n / 2 ^ i = q at odd
  omega

theorem bitN_clearBitN_ne {n i j : Nat} (ne : j ≠ i) : bitN (clearBitN n i) j = bitN n j := by
  unfold clearBitN
  split
  · next set_ =>
    rcases Nat.lt_or_gt_of_ne ne with below | above
    · rw [bitN_eq_testBit, bitN_eq_testBit, ← Nat.testBit_two_pow_add_gt below, Nat.add_sub_cancel' (le_of_bitN set_)]
    · obtain ⟨k, rfl⟩ : ∃ k, j = i + 1 + k := ⟨j - (i + 1), by omega⟩
      simp only [bitN, Nat.pow_add _ (i + 1) k, ← Nat.div_div_eq_div_mul, div_sub_two_pow set_]
  · rfl

/-! ### What the frames and the events of the guards leave of the trips that came and of the messages sent -/

/-- When a TRIP frame of each group came, and what the block has sent over its links. -/
def wireView (h : Hw) : Tab Nat × List (Link × List Byte) := (h.tripAt, h.out)

section
variable (h : Hw)

@[simp] theorem wireView_setReg (a : Nat) (v : Word) : wireView (h.setReg a v) = wireView h := rfl
@[simp] theorem wireView_setFld (a : Nat) (f : BitField) (v : Nat) : wireView (h.setFld a f v) = wireView h := wireView_setReg h a _
@[simp] theorem wireView_setBit (a i : Nat) : wireView (h.setBit a i) = wireView h := wireView_setReg h a _
@[simp] theorem wireView_onSw (f : Switcher → Switcher) : wireView (h.onSw f) = wireView h := rfl
@[simp] theorem wireView_peerCountUp (i : Nat) : wireView (h.peerCountUp i) = wireView h := rfl

@[simp] theorem wireView_count (a : Nat) : wireView (h.count a) = wireView h := by
  unfold Hw.count Hw.countFld
  split
  · exact wireView_setFld h a _ _
  · rfl

@[simp] theorem wireView_note (rt sub : Nat) (body : List Word) : wireView (h.note rt sub body) = wireView h :=
  note_view wireView (fun _ _ _ => rfl) (fun _ _ _ => rfl) (fun _ _ => rfl) h rt sub body

@[simp] theorem wireView_writeRamList (a : Nat) (l : List Word) : wireView (h.writeRamList a l) = wireView h := by
  induction l generalizing h a with
  | nil => rfl
  | cons w l ih => exact ih (h.writeRam a w) (a + 1)

@[simp] theorem wireView_retEntry (code : Nat) (data : Word) : wireView (h.retEntry code data) = wireView h := by
  unfold Hw.retEntry
  split
  · rfl
  · have logged (g : Hw) (n : Nat) : wireView { g with retLog := n } = wireView g := rfl
    exact (logged _ _).trans (wireView_writeRamList h _ _)

@[simp] theorem wireView_guardNote (e action : Nat) : wireView (h.guardNote e action) = wireView h := by
  simp [Hw.guardNote, apply_ite wireView]

@[simp] theorem wireView_setFree (n : Nat) : wireView (h.setFree n) = wireView h := by simp [Hw.setFree]
@[simp] theorem wireView_swNote (r i : Nat) : wireView (h.swNote r i) = wireView h := by simp [Hw.swNote]
@[simp] theorem wireView_macCount (p j n : Nat) : wireView (h.macCount p j n) = wireView h := by simp [Hw.macCount, apply_ite wireView]
@[simp] theorem wireView_dropFrame (f : SwFrame) : wireView (h.dropFrame f) = wireView h := by simp [Hw.dropFrame, apply_ite wireView]

@[simp] theorem wireView_reserve (p c : Nat) (unicast : Bool) (mask : List Nat) : wireView (h.reserve p c unicast mask).1 = wireView h := by
  unfold Hw.reserve
  split
  case isTrue => rfl
  case isFalse =>
    split
    case isTrue => exact wireView_setFree h _
    case isFalse =>
      split
      · split
        · rfl
        · split
          · rfl
          · exact (wireView_setFree _ _).trans (foldl_keeps wireView _ (fun h v => by simp) _ h)
      · rfl

@[simp] theorem wireView_inject (bytes : List Byte) (ports : List Nat) : wireView (h.inject bytes ports) = wireView h := by
  simp [Hw.inject, Hw.joinSw, apply_ite wireView]

@[simp] theorem wireView_inject6 (bytes : List Byte) (ports : List Nat) : wireView (h.inject6 bytes ports) = wireView h := by
  simp [Hw.inject6, Hw.joinSw, apply_ite wireView]

@[simp] theorem wireView_sendPeerTo (kind dst mac : Nat) (body : List Byte) : wireView (h.sendPeerTo kind dst mac body) = wireView h := by
  unfold Hw.sendPeerTo
  refine (foldl_keeps wireView _ (fun h x => ?_) _ _).trans rfl
  simp [apply_ite wireView]

@[simp] theorem wireView_sendTrip (e rep : Nat) : wireView (h.sendTrip e rep) = wireView h := by
  simp [Hw.sendTrip, apply_ite wireView]

@[simp] theorem wireView_sendStop : wireView h.sendStop = wireView h := by simp [Hw.sendStop, apply_ite wireView]

@[simp] theorem wireView_setHardLines (hl : Nat) : wireView (h.setHardLines hl) = wireView h := by
  refine foldl_keeps wireView _ (fun h d => ?_) _ h
  split <;> rfl

@[simp] theorem wireView_applyMatrix : wireView h.applyMatrix = wireView h := by simp [Hw.applyMatrix]

end

/-! ### GRD_CRS_TRIP under the events of its own bits (R432, R433) -/

/-- GRD_CRS_TRIP beside the trips that came and the messages sent. -/
def tripView (h : Hw) : (Tab Nat × List (Link × List Byte)) × Word := (wireView h, h.reg Reg.GRD_CRS_TRIP)

theorem tripView_ext {h g : Hw} (wire : wireView h = wireView g) (bits : h.reg Reg.GRD_CRS_TRIP = g.reg Reg.GRD_CRS_TRIP) :
    tripView h = tripView g := Prod.ext wire bits

theorem tripView_congr {h g : Hw} (wire : wireView h = wireView g) (regs : lowRegs h = lowRegs g) : tripView h = tripView g :=
  tripView_ext wire (reg_of_lowRegs regs (by decide))

theorem tripView_setReg {a : Nat} (ne : Reg.GRD_CRS_TRIP ≠ a) (h : Hw) (v : Word) : tripView (h.setReg a v) = tripView h :=
  tripView_ext rfl (reg_setReg_ne h a _ v ne)

theorem tripView_count {a : Nat} (ne : Reg.GRD_CRS_TRIP ≠ a) (h : Hw) : tripView (h.count a) = tripView h :=
  tripView_ext (wireView_count h a) (reg_count_ne h a _ ne)

section
variable (h : Hw)

@[simp] theorem tripView_applyMatrix : tripView h.applyMatrix = tripView h :=
  tripView_ext (wireView_applyMatrix h) (reg_applyMatrix_ne h (by decide))

@[simp] theorem tripView_startStop : tripView h.startStop = tripView h := tripView_congr (wireView_sendStop h) (lowRegs_startStop h)

@[simp] theorem tripView_startTrip (e : Nat) : tripView (h.startTrip e) = tripView h :=
  tripView_congr (wireView_sendTrip h e 0) (lowRegs_startTrip h e)

@[simp] theorem tripView_guardNote (e action : Nat) : tripView (h.guardNote e action) = tripView h :=
  tripView_congr (wireView_guardNote h e action) (lowRegs_guardNote h e action)

@[simp] theorem tripView_enterSafe (e : Nat) : tripView (h.enterSafe e) = tripView h := by
  have shown : tripView ((h.setBit Reg.GRD_STAT 0).setBit Reg.GRD_IRQ_STAT 2) = tripView h :=
    (tripView_setReg (by decide) _ _).trans (tripView_setReg (by decide) h _)
  simp [Hw.enterSafe, apply_ite tripView, shown]

@[simp] theorem tripView_rowActions (e : Nat) : tripView (h.rowActions e) = tripView h := by
  have irq (i : Nat) : tripView (h.setBit Reg.GRD_IRQ_STAT i) = tripView h := tripView_setReg (by decide) h _
  simp [Hw.rowActions, apply_ite tripView, irq]

@[simp] theorem tripView_firstEvent (e ring pos : Nat) (node : Bool) : tripView (h.firstEvent e ring pos node) = tripView h := by
  unfold Hw.firstEvent
  split
  · rfl
  · refine (tripView_setReg (by decide) _ _).trans ((tripView_setReg (by decide) _ _).trans ?_)
    exact tripView_setReg (by decide) _ _

@[simp] theorem tripView_setCond (e : Nat) (v : Bool) : tripView (h.setCond e v) = tripView h := rfl

@[simp] theorem tripView_raiseEvent (e ring pos : Nat) (node : Bool) : tripView (h.raiseEvent e ring pos node) = tripView h := by
  have act (g : Hw) (j i : Nat) : tripView (g.setBit (Reg.GRD_EVT_ACT j) i) = tripView g :=
    tripView_setReg (by simp only [Reg.GRD_CRS_TRIP, Reg.GRD_EVT_ACT]; omega) g _
  have latch (g : Hw) (j i : Nat) : tripView (g.setBit (Reg.GRD_EVT_LATCH j) i) = tripView g :=
    tripView_setReg (by simp only [Reg.GRD_CRS_TRIP, Reg.GRD_EVT_LATCH]; omega) g _
  have warned (g : Hw) : tripView (g.count Reg.GRD_CNT_WARN) = tripView g := tripView_count (by decide) g
  have tripped (g : Hw) : tripView (g.count Reg.GRD_CNT_TRIP) = tripView g := tripView_count (by decide) g
  have measured (g : Hw) : tripView (g.count Reg.GRD_CNT_MEAS) = tripView g := tripView_count (by decide) g
  simp [Hw.raiseEvent, apply_ite tripView, act, latch, warned, tripped, measured]

@[simp] theorem tripView_dropCond (e : Nat) : tripView (h.dropCond e) = tripView h := by
  have act (g : Hw) (j i : Nat) : tripView (g.clearBit (Reg.GRD_EVT_ACT j) i) = tripView g :=
    tripView_setReg (by simp only [Reg.GRD_CRS_TRIP, Reg.GRD_EVT_ACT]; omega) g _
  simp [Hw.dropCond, Hw.endEvent, apply_ite tripView, act]

@[simp] theorem tripView_follow (e ring pos : Nat) (v : Bool) : tripView (h.follow e ring pos v) = tripView h := by
  simp [Hw.follow, apply_ite tripView]

/-- The events that follow GRD_CRS_TRIP leave its value, when each trip came, and LC. -/
theorem setCrsTrip_spec (v : Nat) :
    (h.setCrsTrip v).reg Reg.GRD_CRS_TRIP = word (v % 256) ∧ (h.setCrsTrip v).tripAt = h.tripAt ∧ (h.setCrsTrip v).lc = h.lc := by
  have kept : tripView (h.setCrsTrip v) = tripView (h.setReg Reg.GRD_CRS_TRIP (word (v % 256))) :=
    foldl_keeps tripView _ (fun g i => tripView_follow g _ _ _ _) _ _
  have same : powerView (h.setCrsTrip v) = powerView (h.setReg Reg.GRD_CRS_TRIP (word (v % 256))) :=
    foldl_keeps powerView _ (fun g i => powerView_follow g _ _ _ _) _ _
  obtain ⟨wire, bits⟩ := Prod.mk.inj kept
  exact ⟨bits.trans (reg_setReg_same _ _ _), (Prod.mk.inj wire).1, (powerView_inj same).1⟩

theorem bit_setCrsTrip (v : Nat) {b : Nat} (low : b < 8) : (h.setCrsTrip v).bit Reg.GRD_CRS_TRIP b = bitN v b := by
  have fits : v % 256 < 2 ^ 40 := by omega
  have cut : (v % 2 ^ 8).testBit b = v.testBit b := by rw [Nat.testBit_mod_two_pow, decide_eq_true low, Bool.true_and]
  unfold Hw.bit
  rw [(setCrsTrip_spec h v).1, toNat_word fits, bitN_eq_testBit, bitN_eq_testBit]
  exact cut

end

/-! ### The bits that PLANT_TRIP_CLEAR clears (R721) -/

/-- The value of GRD_CRS_TRIP without the bits of some groups. -/
def groupsCleared (h : Hw) (gs : List Nat) (v : Nat) : Nat :=
  gs.foldl (fun n g => match h.groupBit g with
    | some b => clearBitN n b
    | none => n) v

theorem groupsCleared_cons (h : Hw) (g : Nat) (gs : List Nat) (v : Nat) :
    groupsCleared h (g :: gs) v = groupsCleared h gs (((h.groupBit g).map (clearBitN v)).getD v) := by
  unfold groupsCleared
  rw [List.foldl_cons]
  cases h.groupBit g <;> rfl

theorem groupsCleared_keeps_clear (h : Hw) (gs : List Nat) {v b : Nat} (clear : bitN v b = false) :
    bitN (groupsCleared h gs v) b = false := by
  induction gs generalizing v with
  | nil => exact clear
  | cons g gs ih =>
    rw [groupsCleared_cons]
    refine ih ?_
    cases h.groupBit g with
    | none => exact clear
    | some c =>
      by_cases same : b = c
      · subst same
        exact bitN_clearBitN_same v b
      · exact (bitN_clearBitN_ne same).trans clear

theorem groupsCleared_clears (h : Hw) {gs : List Nat} {g b : Nat} (among : g ∈ gs) (bit_ : h.groupBit g = some b) (v : Nat) :
    bitN (groupsCleared h gs v) b = false := by
  induction gs generalizing v with
  | nil => nomatch among
  | cons f gs ih =>
    rw [groupsCleared_cons]
    rcases List.mem_cons.mp among with rfl | later
    · rw [bit_]
      exact groupsCleared_keeps_clear h gs (bitN_clearBitN_same v b)
    · exact ih later _

theorem tripClear_of_quiet {h : Hw} {mask : Nat} (quiet : (Hw.groupsOf mask).any h.tripRecent = false) :
    h.tripClear mask = (h.setCrsTrip (groupsCleared h (Hw.groupsOf mask) (h.reg Reg.GRD_CRS_TRIP).toNat)).answer stOk :=
  if_neg (by simp only [quiet, Bool.false_eq_true, not_false_eq_true])

/-! ### A TRIP frame (R721) -/

/-- A TRIP frame that was taken is recent, and its group's bit is set. -/
theorem takeTrip_spec (h : Hw) (g : Nat) :
    (h.takeTrip g).tripRecent g = true ∧ (h.takeTrip g).lc = h.lc ∧
      ∀ b, h.groupBit g = some b → b < 8 → (h.takeTrip g).bit Reg.GRD_CRS_TRIP b = true := by
  have noted (t : Hw) (at_ : t.tripAt = Tabs.set (fun _ => (0 : Nat)) h.tripAt g (h.lc + 1)) (lc : t.lc = h.lc) :
      t.tripRecent g = true := by
    simp [Hw.tripRecent, at_, lc]
  generalize came : ({ h with tripAt := Tabs.set (fun _ => (0 : Nat)) h.tripAt g (h.lc + 1) } : Hw).peerCountUp 0 = x
  have taken : h.takeTrip g = match h.groupBit g with
      | some b => x.setCrsTrip (setBitN (x.reg Reg.GRD_CRS_TRIP).toNat b)
      | none => x := by
    rw [← came]
    rfl
  have at_ : x.tripAt = Tabs.set (fun _ => (0 : Nat)) h.tripAt g (h.lc + 1) := by rw [← came]; rfl
  have lc : x.lc = h.lc := by rw [← came]; rfl
  rw [taken]
  cases h.groupBit g with
  | none => exact ⟨noted x at_ lc, lc, fun b none_ => nomatch none_⟩
  | some b =>
    obtain ⟨-, tripAt, sameLc⟩ := setCrsTrip_spec x (setBitN (x.reg Reg.GRD_CRS_TRIP).toNat b)
    refine ⟨noted _ (tripAt.trans at_) (sameLc.trans lc), sameLc.trans lc, fun c same low => ?_⟩
    obtain rfl := Option.some.inj same
    exact (bit_setCrsTrip x _ low).trans (bitN_setBitN_same _ _)

/-! ### Peer frames (R718, R719) -/

/-- A frame of the plant, for this device. -/
def ForDevice (h : Hw) (p : PeerHdr) : Prop :=
  p.declared = true ∧ p.version = 1 ∧ p.tag.toNat = h.cfg.plantTag ∧ (p.dst.toNat = h.cfg.deviceId ∨ p.dst.toNat = 0xFFFF)

/-- A SEQ of a source is remembered beside the last fifteen. -/
def peerHeard (h : Hw) (key seq : Nat) : Hw :=
  let seen := Tabs.get (fun _ => ([] : List Nat)) h.peerSeen key
  { h with peerSeen := Tabs.set (fun _ => ([] : List Nat)) h.peerSeen key ((seq :: seen).take 16) }

section
variable {h : Hw} {kind : Nat} {p : PeerHdr}

theorem peerAccept_of_new (mine : ForDevice h p)
    (new : (Tabs.get (fun _ => ([] : List Nat)) h.peerSeen (8 * p.src.toNat + kind)).contains p.seq.toNat = false) :
    h.peerAccept kind p true = (peerHeard h (8 * p.src.toNat + kind) p.seq.toNat, true) := by
  obtain ⟨declared, version, tag, dst⟩ := mine
  exact (if_pos (by simp [declared, version, tag, dst])).trans (if_neg (by rw [new]; decide))

theorem peerAccept_of_repeated (mine : ForDevice h p)
    (seen : (Tabs.get (fun _ => ([] : List Nat)) h.peerSeen (8 * p.src.toNat + kind)).contains p.seq.toNat = true) :
    h.peerAccept kind p true = (h, false) := by
  obtain ⟨declared, version, tag, dst⟩ := mine
  exact (if_pos (by simp [declared, version, tag, dst])).trans (if_pos seen)

theorem peerAccept_of_foreign {neighbour : Bool}
    (foreign : p.declared = false ∨ p.version ≠ 1 ∨ p.tag.toNat ≠ h.cfg.plantTag ∨ neighbour = false) :
    h.peerAccept kind p neighbour = ((h.peerCountUp 2).undeclare 11, false) := by
  refine if_neg ?_
  rcases foreign with e | e | e | e
  · simp [e]
  · rw [beq_false_of_ne e]
    simp
  · simp [e]
  · simp [e]

end

/-! ### Summaries (R725) -/

theorem tree_sendSummary (h : Hw) (body : List Byte) : (h.sendSummary body).tree = h.tree ∧ (h.sendSummary body).lc = h.lc := by
  unfold Hw.sendSummary
  split <;> exact ⟨rfl, rfl⟩

/-- The body of a summary begins with its cycle. -/
theorem take_summaryBody (h : Hw) (n : Nat) : (h.summaryBody n).take 5 = beBytes 5 n := by
  unfold Hw.summaryBody
  dsimp only
  rw [List.append_assoc, List.append_assoc]
  exact List.take_left' rfl

/-- What was held of the children, and LC, which no summary changes. -/
def childView (h : Hw) : Tab (List Byte) × Nat := (h.tree.subs, h.lc)

theorem childView_makeSummary (h : Hw) (n : Nat) : childView (h.makeSummary n) = childView h := by
  unfold Hw.makeSummary
  dsimp only
  split
  · rfl
  · obtain ⟨tree, lc⟩ := tree_sendSummary
      { h with tree := { h.tree with total := h.summaryBody n, sent := n + 1 } } (h.summaryBody n)
    exact Prod.ext ((congrArg Tree.subs tree).trans rfl) (lc.trans rfl)

theorem childView_summaries (h : Hw) : childView h.summaries = childView h := by
  have upTo (fuel : Nat) : ∀ g : Hw, childView (g.summariesTo fuel) = childView g := by
    induction fuel with
    | zero => exact fun _ => rfl
    | succ fuel ih =>
      intro g
      unfold Hw.summariesTo
      split
      · exact (ih _).trans (childView_makeSummary g _)
      · rfl
  exact upTo 16 h

/-- The tree's record once the summary of cycle `n` is made. -/
def summed (h : Hw) (n : Nat) : Hw := { h with tree := { h.tree with total := h.summaryBody n, sent := n + 1 } }

theorem makeSummary_of_summit {h : Hw} (summit : h.cfg.role = 0) (n : Nat) : h.makeSummary n = summed h n := if_pos summit

theorem makeSummary_of_child {h : Hw} (below : h.cfg.role ≠ 0) (n : Nat) :
    h.makeSummary n = (summed h n).sendSummary (h.summaryBody n) := if_neg below

/-- The device with `subs` held of its children. -/
def holding (h : Hw) (subs : Tab (List Byte)) : Hw := { h with tree := { h.tree with subs := subs } }

/-- What is held of the children once the summary `body` of the device `src` has come. -/
def subsWith (h : Hw) (src : Nat) (body : List Byte) : Tab (List Byte) :=
  Tabs.set (fun _ => []) (h.tree.subs.filter fun x => decide (h.lc ≤ x.1 / 65536 + 64)) (Hw.subKey (beNat (body.take 5)) src) (body.take 60)

/-- The summary whose deadline has come is made. -/
theorem exec_summaryDeadline {s : State} {n : Nat} (next_ : s.hw.nextCycle (max s.hw.tree.sent s.hw.firstOwed) = n)
    (on : s.hw.sysOn = true) (inTree : s.hw.inTree = true) (runs : (s.hw.vmSlot 0).state = .running)
    (carries : s.hw.carriesInputs n = true) (committed : n ≤ s.hw.lcCommit) (due : n + 5 ≤ s.hw.lc) :
    exec .summaryDeadline s = .next (s.onHw fun h => h.makeSummary n) := by
  refine next_onHw s ?_
  have named : s.hw.summaryNext = n := next_
  rw [named]
  exact if_pos (by simp [Hw.summaryCan, on, inTree, runs, carries, committed, due])

/-- Settles O52: peer frames by `peerAccept_of_new` and its companions, the trip bits by `takeTrip_spec` and `groupsCleared_clears`,
summaries by `childView_summaries` and `exec_summaryDeadline`. -/
theorem peersTripReportAndSummarise : Obligations.PeersTripReportAndSummarise := by
  unfold Obligations.PeersTripReportAndSummarise
  refine ⟨?noTrip, ?repeat_, ?trip, ?tripAgain, ?tripForeign, ?clearRecent, ?clear, ?clearDenied, ?status, ?statusForeign, ?lapse,
    ?noPartner, ?summary, ?summit, ?toParent, ?notDue⟩
  case noTrip =>
    intro s none_
    refine next_onHw s (g := id) ?_
    rw [none_]
    rfl
  case repeat_ =>
    intro e r l s trips
    refine ends_of_next (next_onHw s (g := fun h =>
      ({ h.sendTrip e r with grd := { (h.sendTrip e r).grd with trips := if r < 2 then l ++ [(e, r + 1)] else l } } : Hw)) ?_)
      ⟨rfl, rfl, ?_⟩
    · rw [trips]
    · exact Nat.le_of_eq (congrArg List.length (Prod.mk.inj (wireView_sendTrip s.hw e r)).2).symm
  case trip =>
    intro hdr group s on inTree mine new
    obtain ⟨recent, lc, bits⟩ := takeTrip_spec (peerHeard s.hw (8 * hdr.src.toNat + 1) hdr.seq.toNat) group.toNat
    refine ends_of_next (next_onHw s (g := fun h => (peerHeard h (8 * hdr.src.toNat + 1) hdr.seq.toNat).takeTrip group.toNat) ?_)
      ⟨rfl, recent, lc, bits⟩
    refine (if_neg (by simp [on, inTree])).trans ?_
    rw [peerAccept_of_new mine new]
    rfl
  case tripAgain =>
    intro hdr group s on inTree mine seen
    refine next_onHw s (g := id) ((if_neg (by simp [on, inTree])).trans ?_)
    rw [peerAccept_of_repeated mine seen]
    rfl
  case tripForeign =>
    intro hdr group s on inTree foreign
    refine next_onHw s ((if_neg (by simp [on, inTree])).trans ?_)
    rw [peerAccept_of_foreign (neighbour := true) (by tauto)]
    rfl
  case clearRecent =>
    intro role mask s served inTree low crest recent
    refine next_onHw s ((if_neg ?_).trans ((if_neg (by omega)).trans ((if_neg ?_).trans (if_pos recent))))
    · simp [inTree, Option.isNone_eq_false_iff.mpr (Option.isSome_iff_ne_none.mpr served)]
    · simp [crest]
  case clear =>
    intro role mask s served inTree low crest quiet
    refine ends_of_next (next_onHw s ((if_neg ?_).trans ((if_neg (by omega)).trans ((if_neg ?_).trans (tripClear_of_quiet quiet)))))
      ⟨rfl, rfl, fun g among b bit_ low => ?_⟩
    · simp [inTree, Option.isNone_eq_false_iff.mpr (Option.isSome_iff_ne_none.mpr served)]
    · simp [crest]
    · exact (bit_setCrsTrip s.hw _ low).trans (groupsCleared_clears s.hw among bit_ _)
  case clearDenied =>
    intro role mask s served inTree none_
    refine next_onHw s ((if_neg ?_).trans (if_pos (by omega)))
    simp [inTree, Option.isNone_eq_false_iff.mpr (Option.isSome_iff_ne_none.mpr served)]
  case status =>
    intro k hdr flags breakA breakB s on partner mine new
    refine next_onHw s ((if_neg (by simp [on])).trans ?_)
    rw [partner, peerAccept_of_new mine new]
    rfl
  case statusForeign =>
    intro k hdr flags breakA breakB s on foreign
    refine next_onHw s ((if_neg (by simp [on])).trans ?_)
    rw [peerAccept_of_foreign (Or.inr (Or.inr (Or.inr foreign)))]
    rfl
  case lapse =>
    intro k n s partner late
    refine next_onHw s ?_
    rw [partner]
    exact if_pos late
  case noPartner =>
    intro k s none_
    refine next_onHw s (g := id) ?_
    rw [none_]
    rfl
  case summary =>
    intro hdr body s on inTree child mine new size inTime
    refine ends_of_next (next_onHw s (g := fun h =>
      (holding (peerHeard h (8 * hdr.src.toNat + 5) hdr.seq.toNat)
        (subsWith (peerHeard h (8 * hdr.src.toNat + 5) hdr.seq.toNat) hdr.src.toNat body)).summaries) ?_) ⟨rfl, ?_⟩
    · refine (if_neg (by simp [on, inTree])).trans ?_
      rw [child, peerAccept_of_new mine new]
      refine (if_neg ?_).trans rfl
      simp
      omega
    · obtain ⟨subs, lc⟩ := Prod.mk.inj (childView_summaries
        (holding (peerHeard s.hw (8 * hdr.src.toNat + 5) hdr.seq.toNat)
          (subsWith (peerHeard s.hw (8 * hdr.src.toNat + 5) hdr.seq.toNat) hdr.src.toNat body)))
      exact ⟨(congrArg (Tabs.get (fun _ => []) · _) subs).trans (get_set_same _ _ _ _), lc⟩
  case summit =>
    intro n s next_ on inTree runs carries committed due summit
    exact ends_of_next ((exec_summaryDeadline next_ on inTree runs carries committed due).trans
      (next_onHw s (g := (summed · n)) (makeSummary_of_summit summit n))) ⟨rfl, rfl, take_summaryBody s.hw n⟩
  case toParent =>
    intro n s next_ on inTree runs carries committed due below
    obtain ⟨tree, -⟩ := tree_sendSummary (summed s.hw n) (s.hw.summaryBody n)
    exact ends_of_next ((exec_summaryDeadline next_ on inTree runs carries committed due).trans
      (next_onHw s (g := fun h => (summed h n).sendSummary (h.summaryBody n)) (makeSummary_of_child below n)))
      ⟨rfl, congrArg Tree.sent tree, (congrArg (fun t => t.total.take 5) tree).trans (take_summaryBody s.hw n)⟩
  case notDue =>
    intro n s next_ early
    refine next_onHw s (g := id) ?_
    have named : s.hw.summaryNext = n := next_
    rw [named]
    exact if_neg (by simp; omega)

end Sys2Proof.Proofs
end
